-- ==== Sys2Proof/Word.lean ====
section
/-!
DEFINITION. The word types of the block (R3): bytes, 32-bit words, and the plainest arithmetic on register values
held as numbers.
-/

namespace Sys2Proof

/-- A byte (R3). -/
abbrev Byte := BitVec 8

/-- A word is 32 bits (R3). -/
abbrev Word := BitVec 32

end Sys2Proof
end

