-- ==== Sys2Proof/Syntax.lean ====
section
/-!
DEFINITION. The commands the block takes: one constructor for each row of spec/opcode_table.json, with the operands
that the command's rule names. The spec gives the commands no words of bits.
-/

namespace Sys2Proof

/-- The two ring ports of the hub (R16): EAST and WEST. -/
inductive Side where
  | east | west
deriving DecidableEq, Repr

/-- The master of an access: its class code (R396), the INTERFACE it came through as the denial log codes it (R404), and
the source node of a remote access, 0 otherwise. -/
structure Master where
  cls : Fin 15
  ifc : Fin 7
  node : Byte
deriving DecidableEq, Repr

/-- A lane alignment marker as one receiving lane sees it: the payload, and how many blocks it lags the earliest lane (R36, R50). -/
structure MarkerRx where
  lane : Fin 4
  payload : BitVec 64
  delay : Fin 256
deriving DecidableEq, Repr

/-- The 48-bit counter pairs of a lane (R64). -/
inductive LaneCounter where
  | prbsErr | prbsBits | blkErr | bipErr
deriving DecidableEq, Repr

/-- A CAN frame as it is received (R286): identifier word (identifier, IDE, RTR, ESI), DLC, FDF, BRS, data bytes. -/
structure CanFrame where
  id : Word
  dlc : Fin 16
  fdf : Bool
  brs : Bool
  data : List Byte
deriving DecidableEq, Repr

/-- How an attempt to send a frame ends (R295, R298, R299): sent, with its start-of-frame stamp; arbitration lost; or an error with its
last-error code, whether it lay in the data phase, whether the attempt had won arbitration and the error is a bit or stuff error of the
control, data or CRC field, and whether the standard exempts it from the transmit error counter. `delay` is the measured transmitter delay
(R285), in tenths of a nanosecond: none where no edge between FDF and res was sent. -/
inductive CanOutcome where
  | sent (stamp : Word) (delay : Option Nat)
  | lost
  | error (code : Fin 8) (dataPhase : Bool) (clash : Bool) (exempt : Bool) (delay : Option Nat)
deriving DecidableEq, Repr

/-- A capture source that occurs (R325): an edge of bank pad 32t + p, an edge of PPS_IN, the firing of a compare unit, the arrival of a
GALLERY START at a port. -/
inductive CaptureSource where
  | pad (index : Fin 512) (rising : Bool)
  | pps (rising : Bool)
  | compare (n : Fin 32)
  | gallery (p : Side)
deriving DecidableEq, Repr

/-- The 1 ms measurements of the power die (R333, R371): VIN and VHOLD in mV, card input power in 100 mW, module input power in 10 mW, and for
each channel from 0 on its mean current in 10 mA and V_DS in 10 mV. -/
structure PowerMeas where
  vin : BitVec 16
  vhold : BitVec 16
  card : BitVec 16
  module : BitVec 16
  chans : List (BitVec 16 × BitVec 16)
deriving DecidableEq, Repr

/-- The governor's measurements (R371): module and card input power, the nine sensors (reading in 0.25 °C, updated within 10 ms), and the
core load in percent. -/
structure Sense where
  pMod : BitVec 16
  pCard : BitVec 16
  temps : List (BitVec 16 × Bool)
  load : Fin 101
deriving DecidableEq, Repr

/-- The commands of the block: one constructor for each row of spec/opcode_table.json. -/
inductive Instr where
  /-- LANE_ENABLE (R52). -/
  | laneEnable (p : Side) (n : Fin 4)
  /-- PLL_LOCK (R56). -/
  | pllLock (p : Side) (n : Fin 4)
  /-- PLL_UNLOCK (R65). -/
  | pllUnlock (p : Side) (n : Fin 4)
  /-- SIGNAL_DETECT (R52). -/
  | signalDetect (p : Side) (n : Fin 4)
  /-- LOS (R65). -/
  | los (p : Side) (n : Fin 4)
  /-- CDR_LOCK (R52). -/
  | cdrLock (p : Side) (n : Fin 4) (ctle : Fin 32)
  /-- BLOCK_RECEIVED (R34). -/
  | blockReceived (p : Side) (n : Fin 4) (sync : BitVec 2) (payload : BitVec 64) (fill : Fin 17)
  /-- BLOCK_LOCK (R47). -/
  | blockLock (p : Side) (n : Fin 4)
  /-- BLOCK_LOCK_LOST (R47). -/
  | blockLockLost (p : Side) (n : Fin 4)
  /-- HI_BER (R48). -/
  | hiBer (p : Side) (n : Fin 4)
  /-- HI_BER_CLEAR (R48). -/
  | hiBerClear (p : Side) (n : Fin 4)
  /-- MARKER_STRIPE_RECEIVED (R50). -/
  | markerStripeReceived (p : Side) (markers : List MarkerRx) (fill : Fin 17) (fillers : Fin 256)
  /-- MARKER_LOCK_LOST (R49). -/
  | markerLockLost (p : Side) (n : Fin 4)
  /-- LANE_MODE (R61). -/
  | laneMode (m : Master) (p : Side) (n : Fin 4) (mode : Fin 4)
  /-- PRBS_LOCK (R62). -/
  | prbsLock (p : Side) (n : Fin 4)
  /-- PRBS_LOCK_LOST (R62). -/
  | prbsLockLost (p : Side) (n : Fin 4)
  /-- INJECT_SINGLE (R63). -/
  | injectSingle (m : Master) (p : Side) (n : Fin 4) (group : BitVec 66)
  /-- INJECT_BURST (R63). -/
  | injectBurst (m : Master) (p : Side) (n : Fin 4) (group : BitVec 66) (next : BitVec 66)
  /-- LANE_CNT_CLR (R64). -/
  | laneCntClr (m : Master) (p : Side)
  /-- LANE_COUNTER_LO_READ (R64). -/
  | laneCounterLoRead (m : Master) (p : Side) (n : Fin 4) (k : LaneCounter)
  /-- CYCLE_BOUNDARY (R66). -/
  | cycleBoundary
  /-- GALLERY_START (R136). -/
  | galleryStart (st : Side) (payload : BitVec 64) (frac : Fin 16)
  /-- GALLERY_END (R118). -/
  | galleryEnd (st : Side) (payload : BitVec 64)
  /-- LANDING_START (R118). -/
  | landingStart (st : Side) (payload : BitVec 64)
  /-- LANDING_END (R192). -/
  | landingEnd (st : Side) (payload : BitVec 64) (others : Fin 65537) (responses : Fin 65537)
  /-- STAGING_WRITE (R99). -/
  | stagingWrite (st : Side) (tread : BitVec 16) (block : Fin 256) (payload : BitVec 64)
  /-- TREAD_TRAILER (R124). -/
  | treadTrailer (st : Side) (tread : BitVec 16) (trailer : BitVec 64)
  /-- COMMIT (R133). -/
  | commit (st : Side)
  /-- PAIR_DELIVERY (R128). -/
  | pairDelivery (index : Nat) (cycle : BitVec 48)
  /-- DEADLINE_CHECK (R98). -/
  | deadlineCheck (flight : Fin 8) (index : Nat) (cycle : BitVec 48)
  /-- TREAD_SNAPSHOT (R77). -/
  | treadSnapshot (tread : BitVec 16)
  /-- DMA_TRIGGER (R103). -/
  | dmaTrigger (index : Nat)
  /-- DMA_DATA_RETURN (R105). -/
  | dmaDataReturn (cycle : BitVec 48) (index : Nat) (off : Nat) (data : List Byte)
  /-- DMA_DONE (R104). -/
  | dmaDone (cycle : BitVec 48)
  /-- DMA_ERR (R105). -/
  | dmaErr (cycle : BitVec 48) (index : Nat)
  /-- LOAD_BEGIN (R107). -/
  | loadBegin (m : Master)
  /-- STAIR_IND_DATA_WRITE (R107). -/
  | stairIndDataWrite (m : Master) (value : Word)
  /-- STAIR_IND_DATA_READ (R107). -/
  | stairIndDataRead (m : Master)
  /-- PREPARE (R108). -/
  | prepare (m : Master)
  /-- PREPARE_DONE (R108). -/
  | prepareDone
  /-- ABORT (R107). -/
  | stairAbort (m : Master)
  /-- ACTIVATE (R109). -/
  | activate (m : Master)
  /-- CANCEL (R109). -/
  | cancel (m : Master)
  /-- DEACTIVATE (R112). -/
  | deactivate (m : Master)
  /-- CYCLE_LO_READ (R64). -/
  | cycleLoRead (m : Master)
  /-- IMG_CNT_CLR (R98). -/
  | imgCntClr (m : Master)
  /-- ARRIVAL_WINDOW_CLOSE (R136). -/
  | arrivalWindowClose (st : Side)
  /-- SLOT_TIME (R136). -/
  | slotTime (st : Side)
  /-- QUARANTINE (R144). -/
  | quarantine (m : Master) (st : Side)
  /-- ARM_OPEN (R145). -/
  | armOpen (m : Master) (st : Side)
  /-- DISARM (R145). -/
  | disarm (m : Master) (st : Side)
  /-- STN_CNT_CLR (R146). -/
  | stnCntClr (m : Master) (st : Side)
  /-- PAIR_LINK_FRAME (R153). -/
  | pairLinkFrame (bytes : List Byte)
  /-- YIELD (R162). -/
  | yield (m : Master)
  /-- HOST_ALIVE_KICK (R161). -/
  | hostAliveKick (m : Master)
  /-- HEADLESS_ARM (R169). -/
  | headlessArm (p : Side)
  /-- LINK_REPORT_SEND (R172). -/
  | linkReportSend (p : Side)
  /-- JOIN_NONCE_HI (R176). -/
  | joinNonceHi (m : Master) (value : Word)
  /-- JOIN_RESPONSE (R176). -/
  | joinResponse
  /-- JOIN_TIMEOUT (R176). -/
  | joinTimeout
  /-- ADMIT (R177). -/
  | joinAdmit (m : Master) (node : Byte)
  /-- REFUSE (R177). -/
  | refuse (m : Master) (node : Byte)
  /-- PCIE_BAR2_READ (R211). -/
  | pcieBar2Read (offset : Word) (lenM1 : Fin 512) (tag : BitVec 10)
  /-- PCIE_BAR2_WRITE (R211). -/
  | pcieBar2Write (offset : Word) (data : List Byte)
  /-- LANDING_SHARE_SEND (R188). -/
  | landingShareSend (st : Side) (share : BitVec 16)
  /-- REQUEST (R193). -/
  | request (stream : Fin 16)
  /-- POSTED (R193). -/
  | posted (stream : Fin 16)
  /-- BROADCAST (R191). -/
  | broadcast
  /-- RESPONSE (R194). -/
  | response
  /-- NOTICE (R190). -/
  | notice (stream : Fin 16)
  /-- CREDIT (R195). -/
  | credit
  /-- REMOTE_GUARD_TIMEOUT (R184). -/
  | remoteGuardTimeout
  /-- REMOTE_TIMEOUT (R201). -/
  | remoteTimeout (tag : Nat)
  /-- UNREACHABLE (R187). -/
  | unreachable
  /-- PWE_POP (R203). -/
  | pwePop (m : Master)
  /-- NOTICE_POP (R217). -/
  | noticePop (m : Master)
  /-- PWSEQ_LO_READ (R64). -/
  | pwseqLoRead (m : Master)
  /-- BRIDGE_CNT_CLR (R217). -/
  | bridgeCntClr (m : Master)
  /-- ACC_ROW (R204). -/
  | accRow (m : Master) (value : Word)
  /-- PARTNER_TRANSACTION (R206). -/
  | partnerTransaction (p : Fin 2048)
  /-- MAILBOX_STATUS (R206). -/
  | mailboxStatus (e : Fin 128)
  /-- MAILBOX_ATTENTION (R208). -/
  | mailboxAttention (e : Fin 128)
  /-- PARTNER_TIMEOUT (R206). -/
  | partnerTimeout (p : Fin 2048)
  /-- PARTNER_DELIVERY (R208). -/
  | partnerDelivery (p : Fin 2048)
  /-- LH_WRITE (R214). -/
  | lhWrite (addr : BitVec 48) (data : List Byte) (crc : BitVec 16)
  /-- LH_WRITE_NP (R214). -/
  | lhWriteNp (addr : BitVec 48) (data : List Byte) (crc : BitVec 16)
  /-- LH_READ (R214). -/
  | lhRead (addr : BitVec 48) (lenM1 : Byte) (crc : BitVec 16)
  /-- FETCH (R214). -/
  | fetch (ticket : BitVec 16) (crc : BitVec 16)
  /-- LH_GUARDED (R214). -/
  | lhGuarded (addr : BitVec 48) (value : Word) (complement : Word) (crc : BitVec 16)
  /-- LHSTAT (R213). -/
  | lhstat (crc : BitVec 16)
  /-- FRAME_ERR (R213). -/
  | frameErr
  /-- I2C_GO (R216). -/
  | i2cGo (m : Master)
  /-- I2C_DONE (R216). -/
  | i2cDone (result : Fin 6) (count : Fin 64) (data : List Byte)
  /-- PERST (R456). -/
  | perst
  /-- PCIE_HOT_RESET (R456). -/
  | pcieHotReset
  /-- PCIE_LINK_UP (R218). -/
  | pcieLinkUp (width : Fin 3) (speed : Fin 4) (bme : Bool)
  /-- PCIE_LINK_DOWN (R218). -/
  | pcieLinkDown
  /-- CAB_OPEN (R230). -/
  | cabOpen (m : Master) (declare : Fin 1024)
  /-- CAB_PUT (R231). -/
  | cabPut (m : Master) (word : Word)
  /-- CAB_CLOSE (R232). -/
  | cabClose (m : Master) (trim : Fin 4)
  /-- CAB_ABORT (R232). -/
  | cabAbort (m : Master)
  /-- CAB_GET (R235). -/
  | cabGet (m : Master) (link : Fin 3)
  /-- CAB_MARK (R235). -/
  | cabMark (m : Master)
  /-- CAB_REWIND (R235). -/
  | cabRewind (m : Master)
  /-- CAB_RELEASE (R236). -/
  | cabRelease (m : Master)
  /-- QUEUE_ENABLE (R228). -/
  | queueEnable (m : Master) (q : BitVec 12)
  /-- QUEUE_DISABLE (R228). -/
  | queueDisable (m : Master) (q : BitVec 12)
  /-- QUEUE_FLUSH (R237). -/
  | queueFlush (m : Master) (q : BitVec 12)
  /-- CLEAR_BROKEN (R222). -/
  | clearBroken (m : Master) (q : BitVec 12)
  /-- AUDIT_WALK (R239). -/
  | auditWalk
  /-- WALK_DONE (R240). -/
  | walkDone
  /-- WALK_NOW (R239). -/
  | walkNow (m : Master)
  /-- RECLAIM (R240). -/
  | reclaim (m : Master)
  /-- MIRROR_COPY (R243). -/
  | mirrorCopy (late : Bool)
  /-- MIRROR_CNT_CLR (R247). -/
  | mirrorCntClr (m : Master)
  /-- DRAM_BULK_COPY (R244). -/
  | dramBulkCopy (ch : Fin 4)
  /-- CAB_CNT_CLR (R245). -/
  | cabCntClr (m : Master)
  /-- ENGINE_TICK (R254). -/
  | engineTick (e : Fin 128) (pads : BitVec 32)
  /-- FORCE_SWAP (R270). -/
  | forceSwap (e : Fin 128)
  /-- SWAP_REQ (R271). -/
  | swapReq (m : Master) (e : Fin 128) (mode : Fin 4) (restart : Bool)
  /-- SWAP_CANCEL (R271). -/
  | swapCancel (m : Master) (e : Fin 128)
  /-- ENGINE_START (R265). -/
  | engineStart (e : Fin 128)
  /-- ENGINE_STOP (R266). -/
  | engineStop (e : Fin 128)
  /-- TXF_DATA (R264). -/
  | txfData (m : Master) (e : Fin 128) (value : Word)
  /-- RXF_DATA (R264). -/
  | rxfData (m : Master) (e : Fin 128)
  /-- TXF_FLUSH (R264). -/
  | txfFlush (m : Master) (e : Fin 128)
  /-- RXF_FLUSH (R264). -/
  | rxfFlush (m : Master) (e : Fin 128)
  /-- ENG_CNT_CLR (R272). -/
  | engCntClr (m : Master) (e : Fin 128)
  /-- PINMAP_WRITE (R275). -/
  | pinmapWrite (m : Master) (e : Fin 128) (value : Word)
  /-- VIO_FAULT (R273). -/
  | vioFault (t : Fin 16) (mv : Fin 4096)
  /-- VIO_FAULT_CLEAR (R273). -/
  | vioFaultClear (t : Fin 16) (mv : Fin 4096)
  /-- READBACK (R277). -/
  | readback (t : Fin 16) (p : Fin 32)
  /-- CAN_MODE_CHANGE (R282). -/
  | canModeChange (m : Master) (n : Fin 16) (mode : Fin 8)
  /-- CAN_SYNC (R282). -/
  | canSync (n : Fin 16)
  /-- CAN_FRAME_RECEIVED (R287). -/
  | canFrameReceived (n : Fin 16) (frame : CanFrame) (own : Bool) (stamp : Word)
  /-- CAN_STORE (R291). -/
  | canStore (n : Fin 16)
  /-- TXB_REQ (R293). -/
  | txbReq (m : Master) (n : Fin 16) (map : Word)
  /-- TXB_CANCEL (R295). -/
  | txbCancel (m : Master) (n : Fin 16) (map : Word)
  /-- TXB_UNPARK (R299). -/
  | txbUnpark (m : Master) (n : Fin 16) (map : Word)
  /-- CAN_ATTEMPT_START (R294). -/
  | canAttemptStart (n : Fin 16)
  /-- CAN_ATTEMPT_END (R295). -/
  | canAttemptEnd (n : Fin 16) (outcome : CanOutcome)
  /-- CAN_TT_REQUEST (R297). -/
  | canTtRequest (index : Nat)
  /-- RECOVER (R298). -/
  | recover (m : Master) (n : Fin 16)
  /-- RECOVERY_DONE (R298). -/
  | recoveryDone (n : Fin 16)
  /-- CAN_CNT_CLR (R302). -/
  | canCntClr (m : Master) (n : Fin 16)
  /-- EXCHANGE_NOW (R311). -/
  | exchangeNow (m : Master)
  /-- RESYNC (R316). -/
  | resync (m : Master)
  /-- TB1_SET (R318). -/
  | tb1Set (m : Master)
  /-- TOD_ARM (R319). -/
  | todArm (m : Master)
  /-- PPS_EDGE (R319). -/
  | ppsEdge (rising : Bool)
  /-- PPS_LOST (R319). -/
  | ppsLost
  /-- TB3_STEP (R320). -/
  | tb3Step (m : Master)
  /-- COMPARE_ARM (R321). -/
  | compareArm (m : Master) (n : Fin 32)
  /-- COMPARE_FIRE (R322). -/
  | compareFire (n : Fin 32)
  /-- PPS_OUT_END (R323). -/
  | ppsOutEnd
  /-- CAPTURE (R326). -/
  | capture (src : CaptureSource)
  /-- SW_TRIG (R325). -/
  | swTrig (m : Master) (n : Fin 32)
  /-- CAP_STAMP_READ (R326). -/
  | capStampRead (m : Master) (n : Fin 32)
  /-- TB0_LO_READ (R328). -/
  | tb0LoRead (m : Master)
  /-- TB_LO_READ (R328). -/
  | tbLoRead (m : Master) (base : Fin 3)
  /-- FAST_TRIP (R336). -/
  | fastTrip (ch : Fin 9)
  /-- CURVE_TRIP (R334). -/
  | curveTrip (ch : Fin 9) (k : Fin 8)
  /-- SOA_TRIP (R337). -/
  | soaTrip (ch : Fin 9)
  /-- RAMP_FAST (R339). -/
  | rampFast (ch : Fin 9)
  /-- RAMP_DONE (R338). -/
  | rampDone (ch : Fin 9)
  /-- RAMP_TIMEOUT (R338). -/
  | rampTimeout (ch : Fin 9)
  /-- BREAKER_ON (R341). -/
  | breakerOn (m : Master) (ch : Fin 16)
  /-- BREAKER_OFF (R341). -/
  | breakerOff (m : Master) (ch : Fin 16)
  /-- BREAKER_CLEAR (R341). -/
  | breakerClear (m : Master) (ch : Fin 16)
  /-- APPLY_CURVE (R335). -/
  | applyCurve (m : Master) (ch : Fin 16)
  /-- OFF_TIMER_EXPIRY (R340). -/
  | offTimerExpiry (ch : Fin 9)
  /-- AUTO_CLEAR (R342). -/
  | autoClear (ch : Fin 9)
  /-- ADMISSION (R346). -/
  | admission (meas : PowerMeas)
  /-- TRIP_RECORD (R350). -/
  | tripRecord (ok : Bool)
  /-- BOW (R352). -/
  | bow (meas : PowerMeas)
  /-- SHED (R353). -/
  | shed (meas : PowerMeas)
  /-- RESTORATION (R354). -/
  | restoration (meas : PowerMeas)
  /-- VRST (R355). -/
  | vrst
  /-- OV (R330). -/
  | ov (on : Bool)
  /-- VHOLD_LOW (R349). -/
  | vholdLow (on : Bool)
  /-- XTA_LOST (R360). -/
  | xtaLost
  /-- XTA_OK (R361). -/
  | xtaOk
  /-- XTA_SELECT (R361). -/
  | xtaSelect (m : Master)
  /-- FOSC_TRIM (R359). -/
  | foscTrim (trim : BitVec 10) (err : BitVec 16)
  /-- XTB_LOST (R362). -/
  | xtbLost
  /-- MAIN_PLL_UNLOCK (R384). -/
  | mainPllUnlock
  /-- GATE_OFF (R364). -/
  | gateOff (m : Master) (target : Byte)
  /-- GATE_ON (R365). -/
  | gateOn (m : Master) (target : Byte)
  /-- GATE_DONE (R364). -/
  | gateDone
  /-- GATE_BUSY (R364). -/
  | gateBusy
  /-- GOVERNOR_DECISION (R374). -/
  | governorDecision (sense : Sense)
  /-- POWER_GOOD (R368). -/
  | powerGood
  /-- VRAIL_FAIL (R369). -/
  | vrailFail
  /-- GOV_CNT_CLR (R385). -/
  | govCntClr (m : Master)
  /-- REGISTER_WRITE (R390). -/
  | registerWrite (m : Master) (addr : BitVec 48) (data : List Byte)
  /-- SET_ALIAS_WRITE (R391). -/
  | setAliasWrite (m : Master) (page : Byte) (reg : Fin 256) (value : Word)
  /-- CLR_ALIAS_WRITE (R391). -/
  | clrAliasWrite (m : Master) (page : Byte) (reg : Fin 256) (value : Word)
  /-- TGL_ALIAS_WRITE (R391). -/
  | tglAliasWrite (m : Master) (page : Byte) (reg : Fin 256) (value : Word)
  /-- UNIT_RESET (R389). -/
  | unitReset (m : Master) (page : Byte)
  /-- EVT_FORCE (R388). -/
  | evtForce (m : Master) (page : Byte) (bits_ : BitVec 16)
  /-- GUARDED_VALUE_WRITE (R392). -/
  | guardedValueWrite (m : Master) (page : Byte) (reg : Fin 32) (value : Word)
  /-- GUARD_TIMEOUT (R392). -/
  | guardTimeout (cls : Fin 15) (page : Byte)
  /-- IND_DATA_READ (R394). -/
  | indDataRead (m : Master) (page : Byte)
  /-- IND_DATA_WRITE (R394). -/
  | indDataWrite (m : Master) (page : Byte) (value : Word)
  /-- DENY_POP (R404). -/
  | denyPop (m : Master)
  /-- ROW_SEL (R407). -/
  | rowSel (m : Master) (value : Word)
  /-- ROW_VAL (R407). -/
  | rowVal (m : Master) (value : Word)
  /-- UID_LO_READ (R64). -/
  | uidLoRead (m : Master)
  /-- LOAD (R416). -/
  | keyLoad (m : Master)
  /-- UNWRAP (R416). -/
  | unwrap (m : Master)
  /-- DERIVE (R416). -/
  | derive (m : Master)
  /-- ERASE (R416). -/
  | keyErase (m : Master)
  /-- LOCK (R416). -/
  | keyLock (m : Master)
  /-- READ_PUB (R418). -/
  | readPub (m : Master)
  /-- VERIFY (R416). -/
  | verify (m : Master)
  /-- CMAC (R416). -/
  | cmac (m : Master)
  /-- GCM_ENC (R416). -/
  | gcmEnc (m : Master)
  /-- GCM_DEC (R416). -/
  | gcmDec (m : Master)
  /-- HASH (R416). -/
  | hash (m : Master)
  /-- RANDOM (R416). -/
  | random (m : Master)
  /-- LC_NONCE (R424). -/
  | lcNonce (m : Master)
  /-- LC_TRANSITION (R425). -/
  | lcTransition (m : Master)
  /-- SET_RING_KEY (R420). -/
  | setRingKey (m : Master)
  /-- CMD_DONE (R417). -/
  | cmdDone
  /-- SCRUB (R413). -/
  | scrub
  /-- KEY_SERVICE (R422). -/
  | keyService
  /-- ENTROPY_FAIL (R419). -/
  | entropyFail
  /-- ENTROPY_OK (R419). -/
  | entropyOk
  /-- DAP_ATTACH (R429). -/
  | dapAttach
  /-- DAP_DENIED (R429). -/
  | dapDenied
  /-- FAULT (R436). -/
  | fault (page : Byte) (cause : Byte)
  /-- FENCE (R439). -/
  | fence (gone : List (Byte × Byte))
  /-- FENCE_CMD (R436). -/
  | fenceCmd (m : Master) (page : Byte)
  /-- ERR_TEST (R443). -/
  | errTest (m : Master)
  /-- ERR_TEST_END (R443). -/
  | errTestEnd
  /-- DUMP_NOW (R449). -/
  | dumpNow (m : Master)
  /-- DUMP_DONE (R449). -/
  | dumpDone
  /-- DUMP_SUMMARY (R451). -/
  | dumpSummary
  /-- MSIX_UNMASK (R433). -/
  | msixUnmask (v : Fin 128)
  /-- CHECKPOINT (R447). -/
  | checkpoint (m : Master)
  /-- CKPT_DONE (R447). -/
  | ckptDone (ok : Bool)
  /-- HEAD_LO_READ (R64). -/
  | headLoRead (m : Master)
  /-- CKPT_LO_READ (R64). -/
  | ckptLoRead (m : Master)
  /-- EXPIRY_LO_READ (R64). -/
  | expiryLoRead (m : Master)
  /-- WARM_RESET (R460). -/
  | warmReset (m : Option Master)
  /-- RING_RESET (R457). -/
  | ringReset (m : Master) (bootsel : Fin 4)
  /-- PIN_RESET (R455). -/
  | pinReset
  /-- BOR (R458). -/
  | bor (bootsel : Fin 4)
  /-- POR (R458). -/
  | por (bootsel : Fin 4)
  /-- BOOT_DONE (R461). -/
  | bootDone
  /-- STANDBY_ENTER (R463). -/
  | standbyEnter (m : Master)
  /-- STANDBY (R463). -/
  | standby
  /-- STANDBY_EXIT (R465). -/
  | standbyExit (m : Master)
  /-- BEGIN (R476). -/
  | beginUpdate (m : Master) (type : Fin 2) (defer_ : Bool)
  /-- UPD_IND_DATA_WRITE (R476). -/
  | updIndDataWrite (m : Master) (value : Word)
  /-- BLOCK_FROM_DRAM (R476). -/
  | blockFromDram (m : Master) (block : BitVec 16)
  /-- UPD_ABORT (R476). -/
  | updAbort (m : Master)
  /-- UPD_COMMIT (R479). -/
  | updCommit (m : Master)
  /-- COMMIT_DONE (R479). -/
  | commitDone (ok : Bool)
  /-- CONFIRM (R480). -/
  | confirm (m : Master)
  /-- CONFIRM_WINDOW_EXPIRY (R480). -/
  | confirmWindowExpiry
  /-- SAVE_CONFIG (R483). -/
  | saveConfig (m : Master) (ok : Bool)
  /-- SAVE_NODE_RECORD (R481). -/
  | saveNodeRecord (m : Master) (ok : Bool)
  /-- CLEAR_CONFIG (R484). -/
  | clearConfig (m : Master) (ok : Bool)
  /-- DRAM_SCRUB (R487). -/
  | dramScrub (corrected : Word) (bad : List (BitVec 27))
  /-- DRAM_CNT_CLR (R487). -/
  | dramCntClr (m : Master)
  /-- FLASH_CNT_CLR (R488). -/
  | flashCntClr (m : Master)
  /-- PARK_ENTRY_DONE (R60). -/
  | parkEntryDone (p : Side) (n : Fin 4)
  /-- INJECT_PERIODIC (R63). -/
  | injectPeriodic (p : Side) (n : Fin 4) (group : BitVec 66)
  /-- CAN_RX_ERROR (R298). -/
  | canRxError (n : Fin 16) (code : Fin 8) (dataPhase : Bool) (severe : Bool)
  /-- XTB_RETURN (R362). -/
  | xtbReturn
  /-- MAIN_PLL_LOCK (R384). -/
  | mainPllLock
  /-- VHOLD_FALL (R12). -/
  | vholdFall
  /-- RESET_RELEASE (R455). -/
  | resetRelease (bootsel : Fin 4)
  /-- PERST_RELEASE (R456). -/
  | perstRelease
  /-- REGISTER_READ (R403). -/
  | registerRead (m : Master) (addr : BitVec 48) (len : Fin 4097)
  /-- DAP_DETACH (R429). -/
  | dapDetach
deriving DecidableEq, Repr

end Sys2Proof
end

