-- ==== Sys2Proof/Decode.lean ====
section
/-!
DEFINITION. The reading of a command from a word of bits. No row of spec/opcode_table.json has bits: no word spells a command.
-/

namespace Sys2Proof

/-- The command that a word spells by the table's bits: none, since no row of the table has any. -/
def decodeTableWord (_nbits _w : Nat) : Option Instr := none

end Sys2Proof
end

