-- ==== Sys2Proof/Config.lean ====
section
/-!
DEFINITION. What the spec leaves to the part or to an outside standard: free values, the unique identifier, and the
cryptographic functions that the spec names but does not define. Each is an opaque constant: nothing can be
proved about its value.
-/

namespace Sys2Proof.Config

/-- A free value: what the spec leaves open, one fresh number for each use of the counter State.freeCtr (log entry 2). -/
opaque freeNat : Nat → Nat

/-- VALUE of a BREAKER journal entry: ATTEMPTS and CAUSE before the command, in places the spec does not give (R445; log entry 36). -/
opaque breakerEntry : Nat → Nat → Nat

/-- Vendor ID, Subsystem Vendor ID and Subsystem ID of the node record (R210): its layout (R481) gives them no place (log entry 197). -/
opaque pcieIds : Fin 3 → BitVec 16

/-- The 64 fuse bits of the unique identifier (R517), before the two values that no part has are excluded. -/
opaque uidFuses : BitVec 64

/-- The byte at an index of the SHA-256 digest of a byte string (R416, R477; log entry 11). -/
opaque sha256Byte : List Byte → Nat → Byte

/-- The byte at an index of the SHA-384 digest of a byte string (R416; log entry 11). -/
opaque sha384Byte : List Byte → Nat → Byte

/-- SHA-256 of a byte string: 32 bytes (R416). -/
def sha256 (bs : List Byte) : List Byte := (List.range 32).map (sha256Byte bs)

/-- SHA-384 of a byte string: 48 bytes (R416). -/
def sha384 (bs : List Byte) : List Byte := (List.range 48).map (sha384Byte bs)

/-- AES-CMAC of a message under a key (R176, R185, R416; log entry 11). -/
opaque aesCmac : List Byte → List Byte → List Byte

/-- AES-GCM encryption: key, IV, additional data, text, giving the cipher text followed by the 16-byte tag (R416; log entry 11). -/
opaque gcmEnc : List Byte → List Byte → List Byte → List Byte → List Byte

/-- AES-GCM decryption: key, IV, additional data, cipher text, tag, giving the text, or none when the tag is wrong (R416; log entry 11). -/
opaque gcmDec : List Byte → List Byte → List Byte → List Byte → List Byte → Option (List Byte)

/-- ECDSA verification: the 64 bytes of a public key slot, the digest, the signature r then s (R416, R425, R477; log entry 11). -/
opaque ecdsaVerify : List Byte → List Byte → List Byte → Bool

/-- The key derivation of DERIVE: parent key, fixed input, length in bytes (R416; log entry 11). -/
opaque kdf : List Byte → List Byte → Nat → List Byte

/-- The device root key, fixed in the fuses of the part (R413; log entry 11). -/
opaque rootKey : List Byte

/-- The key derived from the device root key that node record and configuration store tags are made with (R481; log entry 11). -/
opaque recordKey : List Byte

/-- A byte of a record in flash whose form the spec does not give (R350, R412, R447, R481, R483): from what the record holds, as numbers, and
the offset in its area (log entry 63). -/
opaque flashRecord : List Nat → Nat → Byte

/-- The dump summary (R451): where its parts stand in the 64 KB is not stated. From the header, the common registers of every page, the event
log, the journal pointers and the last journal entries it gives the byte at each offset (log entry 41). -/
opaque dumpSummary : List Byte → List Byte → List Byte → List Byte → List Byte → Nat → Byte

end Sys2Proof.Config
end

