-- ==== Sys2Proof/Machine/Fld.lean ====
section
/-!
DEFINITION. What a register table says of one field (R7): where it stands, how it may be accessed, which resets clear it
and to what value.
-/

namespace Sys2Proof.Machine

/-- The access codes of R7. -/
inductive Acc where
  | ro | rw | wo | wp | st | g
deriving DecidableEq, Repr

/-- The retention classes of R11. -/
inductive Cls where
  | V | U | K | H | N
deriving DecidableEq, Repr

/-- One row of a register table: byte offset in the page, lowest bit, width, access code, class and Rst value (R7). -/
structure Fld where
  off : Nat
  lsb : Nat
  width : Nat
  acc : Acc
  cls : Cls
  rst : Nat
deriving DecidableEq, Repr

end Sys2Proof.Machine
end

