-- ==== Sys2Proof/Machine/EventNames.lean ====
section
/-!
DEFINITION. The event sources of each page kind (the event source tables of the chapters, R430): the bit of
EVT_RAW, EVT_STICKY and EVT_ENABLE that each takes, and which of them are level sources (R431).
-/

namespace Sys2Proof.Machine.Ev

/-- LANE event LINK_UP (pulse). -/
def laneLinkUp : Nat := 0
/-- LANE event LINK_DOWN (pulse). -/
def laneLinkDown : Nat := 1
/-- LANE event BLOCK_LOCK_LOST (pulse). -/
def laneBlockLockLost : Nat := 2
/-- LANE event MARKER_LOCK_LOST (pulse). -/
def laneMarkerLockLost : Nat := 3
/-- LANE event DESKEW_FAIL (pulse). -/
def laneDeskewFail : Nat := 4
/-- LANE event HI_BER (level). -/
def laneHiBer : Nat := 5
/-- LANE event BIP_ERR (pulse). -/
def laneBipErr : Nat := 6
/-- LANE event BAD_BLOCK (pulse). -/
def laneBadBlock : Nat := 7
/-- LANE event ELASTIC_ERR (pulse). -/
def laneElasticErr : Nat := 8
/-- LANE event LANE_LATE (pulse). -/
def laneLaneLate : Nat := 9
/-- LANE event MARKER_MISMATCH (pulse). -/
def laneMarkerMismatch : Nat := 10
/-- LANE event RATE_MISMATCH (level). -/
def laneRateMismatch : Nat := 11
/-- LANE event PRBS_ERR (pulse). -/
def lanePrbsErr : Nat := 12
/-- LANE event PLL_UNLOCK (level). -/
def lanePllUnlock : Nat := 13
/-- LANE event LOS (level). -/
def laneLos : Nat := 14
/-- LANE event NEIGHBOUR_CHANGE (pulse). -/
def laneNeighbourChange : Nat := 15
/-- EVT_PRESENT of page kind LANE: how many sources it has. -/
def laneCount : Nat := 16
/-- The level sources of page kind LANE (R431). -/
def laneLevels : List Nat := [5, 11, 13, 14]
/-- STAIR event PREP_OK (pulse). -/
def stairPrepOk : Nat := 0
/-- STAIR event PREP_FAIL (pulse). -/
def stairPrepFail : Nat := 1
/-- STAIR event LOAD_ERR (pulse). -/
def stairLoadErr : Nat := 2
/-- STAIR event ACTIVATED (pulse). -/
def stairActivated : Nat := 3
/-- STAIR event ACT_FAIL (pulse). -/
def stairActFail : Nat := 4
/-- STAIR event FORWARDER (level). -/
def stairForwarder : Nat := 5
/-- STAIR event HASH_MISMATCH (level). -/
def stairHashMismatch : Nat := 6
/-- STAIR event FLIGHT_CHANGE (pulse). -/
def stairFlightChange : Nat := 7
/-- STAIR event FLIGHT_SKEW (pulse). -/
def stairFlightSkew : Nat := 8
/-- STAIR event PROTO_UNSUPPORTED (level). -/
def stairProtoUnsupported : Nat := 9
/-- STAIR event CMD_REFUSED (pulse). -/
def stairCmdRefused : Nat := 10
/-- EVT_PRESENT of page kind STAIR: how many sources it has. -/
def stairCount : Nat := 11
/-- The level sources of page kind STAIR (R431). -/
def stairLevels : List Nat := [5, 6, 9]
/-- IMG event MISSED_DEADLINE (pulse). -/
def imgMissedDeadline : Nat := 0
/-- IMG event SOURCE_VOID (pulse). -/
def imgSourceVoid : Nat := 1
/-- IMG event SRC_SHORT (pulse). -/
def imgSrcShort : Nat := 2
/-- IMG event SINK_FULL (pulse). -/
def imgSinkFull : Nat := 3
/-- IMG event DMA_DONE (pulse). -/
def imgDmaDone : Nat := 4
/-- IMG event DMA_LATE (pulse). -/
def imgDmaLate : Nat := 5
/-- IMG event DMA_ERR (pulse). -/
def imgDmaErr : Nat := 6
/-- IMG event HOST_BUF_UNSET (pulse). -/
def imgHostBufUnset : Nat := 7
/-- EVT_PRESENT of page kind IMG: how many sources it has. -/
def imgCount : Nat := 8
/-- The level sources of page kind IMG (R431). -/
def imgLevels : List Nat := []
/-- STN event LOCAL_ERR (pulse). -/
def stnLocalErr : Nat := 0
/-- STN event UPSTREAM_ERR (pulse). -/
def stnUpstreamErr : Nat := 1
/-- STN event TRAILER_ERR (pulse). -/
def stnTrailerErr : Nat := 2
/-- STN event DUP_MISMATCH (pulse). -/
def stnDupMismatch : Nat := 3
/-- STN event LATE_COPY (pulse). -/
def stnLateCopy : Nat := 4
/-- STN event COMPLETED (pulse). -/
def stnCompleted : Nat := 5
/-- STN event ROLE_CHANGE (pulse). -/
def stnRoleChange : Nat := 6
/-- STN event LATE_GALLERY (pulse). -/
def stnLateGallery : Nat := 7
/-- STN event GS_REJECT (pulse). -/
def stnGsReject : Nat := 8
/-- STN event LAYOUT_ERR (pulse). -/
def stnLayoutErr : Nat := 9
/-- STN event LANDING_DAMAGED (pulse). -/
def stnLandingDamaged : Nat := 10
/-- STN event QUARANTINED (level). -/
def stnQuarantined : Nat := 11
/-- STN event OPENED (pulse). -/
def stnOpened : Nat := 12
/-- STN event OPEN_FAIL (pulse). -/
def stnOpenFail : Nat := 13
/-- STN event COMMIT_OVERRUN (pulse). -/
def stnCommitOverrun : Nat := 14
/-- STN event ARRIVAL_DEV (pulse). -/
def stnArrivalDev : Nat := 15
/-- EVT_PRESENT of page kind STN: how many sources it has. -/
def stnCount : Nat := 16
/-- The level sources of page kind STN (R431). -/
def stnLevels : List Nat := [11]
/-- DUPLEX event LEASE_GAINED (pulse). -/
def duplexLeaseGained : Nat := 0
/-- DUPLEX event LEASE_LOST (pulse). -/
def duplexLeaseLost : Nat := 1
/-- DUPLEX event OVERLAP (pulse). -/
def duplexOverlap : Nat := 2
/-- DUPLEX event PAIR_LINK_DOWN (level). -/
def duplexPairLinkDown : Nat := 3
/-- DUPLEX event PARTNER_INELIGIBLE (level). -/
def duplexPartnerIneligible : Nat := 4
/-- DUPLEX event INELIGIBLE (level). -/
def duplexIneligible : Nat := 5
/-- DUPLEX event YIELD_FAIL (pulse). -/
def duplexYieldFail : Nat := 6
/-- DUPLEX event PREF_CONFLICT (level). -/
def duplexPrefConflict : Nat := 7
/-- DUPLEX event HEADLESS (level). -/
def duplexHeadless : Nat := 8
/-- DUPLEX event MASTER_CHANGE (pulse). -/
def duplexMasterChange : Nat := 9
/-- DUPLEX event LINK_REPORT (pulse). -/
def duplexLinkReport : Nat := 10
/-- DUPLEX event JOIN_CANDIDATE (pulse). -/
def duplexJoinCandidate : Nat := 11
/-- DUPLEX event JOIN_DONE (pulse). -/
def duplexJoinDone : Nat := 12
/-- DUPLEX event JOIN_REFUSED (pulse). -/
def duplexJoinRefused : Nat := 13
/-- DUPLEX event MEMBER_LOST (pulse). -/
def duplexMemberLost : Nat := 14
/-- DUPLEX event TOKEN_REJECT (pulse). -/
def duplexTokenReject : Nat := 15
/-- EVT_PRESENT of page kind DUPLEX: how many sources it has. -/
def duplexCount : Nat := 16
/-- The level sources of page kind DUPLEX (R431). -/
def duplexLevels : List Nat := [3, 4, 5, 7, 8]
/-- BRIDGE event PWE (pulse). -/
def bridgePwe : Nat := 0
/-- BRIDGE event PWE_OVERFLOW (pulse). -/
def bridgePweOverflow : Nat := 1
/-- BRIDGE event REMOTE_TIMEOUT (pulse). -/
def bridgeRemoteTimeout : Nat := 2
/-- BRIDGE event CREDIT_VIOLATION (pulse). -/
def bridgeCreditViolation : Nat := 3
/-- BRIDGE event AUTH_FAIL (pulse). -/
def bridgeAuthFail : Nat := 4
/-- BRIDGE event SEQ_GAP (pulse). -/
def bridgeSeqGap : Nat := 5
/-- BRIDGE event NOTICE_RX (level). -/
def bridgeNoticeRx : Nat := 6
/-- BRIDGE event RESP_ORPHAN (pulse). -/
def bridgeRespOrphan : Nat := 7
/-- BRIDGE event VW_CHANGE (pulse). -/
def bridgeVwChange : Nat := 8
/-- BRIDGE event UNREACHABLE (pulse). -/
def bridgeUnreachable : Nat := 9
/-- BRIDGE event MBX_FORMAT (pulse). -/
def bridgeMbxFormat : Nat := 10
/-- BRIDGE event PARTNER_TIMEOUT (pulse). -/
def bridgePartnerTimeout : Nat := 11
/-- BRIDGE event DAMAGED_DROP (pulse). -/
def bridgeDamagedDrop : Nat := 12
/-- BRIDGE event FORMAT_ERR (pulse). -/
def bridgeFormatErr : Nat := 13
/-- BRIDGE event DESC_REFUSED (pulse). -/
def bridgeDescRefused : Nat := 14
/-- BRIDGE event EPOCH_CHANGE (pulse). -/
def bridgeEpochChange : Nat := 15
/-- EVT_PRESENT of page kind BRIDGE: how many sources it has. -/
def bridgeCount : Nat := 16
/-- The level sources of page kind BRIDGE (R431). -/
def bridgeLevels : List Nat := [6]
/-- CAB event TAIL_DROP (pulse). -/
def cabTailDrop : Nat := 0
/-- CAB event CREDIT_OVER (pulse). -/
def cabCreditOver : Nat := 1
/-- CAB event INGRESS_DROP (pulse). -/
def cabIngressDrop : Nat := 2
/-- CAB event LEAK_FOUND (pulse). -/
def cabLeakFound : Nat := 3
/-- CAB event LINK_ECC (pulse). -/
def cabLinkEcc : Nat := 4
/-- CAB event RESERVE_SHORT (level). -/
def cabReserveShort : Nat := 5
/-- CAB event ENABLE_REFUSED (pulse). -/
def cabEnableRefused : Nat := 6
/-- CAB event OWNER_ERR (pulse). -/
def cabOwnerErr : Nat := 7
/-- CAB event RECLAIMED (pulse). -/
def cabReclaimed : Nat := 8
/-- CAB event MGMT_LOW (level). -/
def cabMgmtLow : Nat := 9
/-- CAB event BULK_STOP (pulse). -/
def cabBulkStop : Nat := 10
/-- EVT_PRESENT of page kind CAB: how many sources it has. -/
def cabCount : Nat := 11
/-- The level sources of page kind CAB (R431). -/
def cabLevels : List Nat := [5, 9]
/-- ENG event SWAP_DONE (pulse). -/
def engSwapDone : Nat := 0
/-- ENG event FORCED_SWAP (pulse). -/
def engForcedSwap : Nat := 1
/-- ENG event FIFO_ERR (pulse). -/
def engFifoErr : Nat := 2
/-- ENG event USER (pulse). -/
def engUser : Nat := 3
/-- EVT_PRESENT of page kind ENG: how many sources it has. -/
def engCount : Nat := 4
/-- The level sources of page kind ENG (R431). -/
def engLevels : List Nat := []
/-- CAN event TX_DONE (pulse). -/
def canTxDone : Nat := 0
/-- CAN event TX_FAIL (pulse). -/
def canTxFail : Nat := 1
/-- CAN event RX_PRIO (pulse). -/
def canRxPrio : Nat := 2
/-- CAN event RX_LOST (pulse). -/
def canRxLost : Nat := 3
/-- CAN event ERR_PASSIVE (level). -/
def canErrPassive : Nat := 4
/-- CAN event BUS_OFF (level). -/
def canBusOff : Nat := 5
/-- CAN event CLASH (pulse). -/
def canClash : Nat := 6
/-- CAN event TT_MISS (pulse). -/
def canTtMiss : Nat := 7
/-- EVT_PRESENT of page kind CAN: how many sources it has. -/
def canCount : Nat := 8
/-- The level sources of page kind CAN (R431). -/
def canLevels : List Nat := [4, 5]
/-- TIME event LOCKED (level). -/
def timeLocked : Nat := 0
/-- TIME event HOLDOVER (level). -/
def timeHoldover : Nat := 1
/-- TIME event TB0_STEP (pulse). -/
def timeTb0Step : Nat := 2
/-- TIME event PATH_CHANGE (pulse). -/
def timePathChange : Nat := 3
/-- TIME event EXCHANGE_DONE (pulse). -/
def timeExchangeDone : Nat := 4
/-- TIME event DELAY_JUMP (pulse). -/
def timeDelayJump : Nat := 5
/-- TIME event RATE_LIMIT (level). -/
def timeRateLimit : Nat := 6
/-- TIME event PPS_LOST (level). -/
def timePpsLost : Nat := 7
/-- TIME event PPS_REJECT (pulse). -/
def timePpsReject : Nat := 8
/-- TIME event TB1_LOCKED (level). -/
def timeTb1Locked : Nat := 9
/-- TIME event TB1_STEP (pulse). -/
def timeTb1Step : Nat := 10
/-- TIME event TB3_STEP (pulse). -/
def timeTb3Step : Nat := 11
/-- TIME event EXCHANGE_FAIL (pulse). -/
def timeExchangeFail : Nat := 12
/-- EVT_PRESENT of page kind TIME: how many sources it has. -/
def timeCount : Nat := 13
/-- The level sources of page kind TIME (R431). -/
def timeLevels : List Nat := [0, 1, 6, 7, 9]
/-- BRK event TRIP (pulse). -/
def brkTrip : Nat := 0
/-- BRK event LOCKOUT (level). -/
def brkLockout : Nat := 1
/-- BRK event BOW (level). -/
def brkBow : Nat := 2
/-- BRK event SHED (pulse). -/
def brkShed : Nat := 3
/-- BRK event RESTORED (pulse). -/
def brkRestored : Nat := 4
/-- BRK event RAMP_DONE (pulse). -/
def brkRampDone : Nat := 5
/-- BRK event CURVE_REFUSED (pulse). -/
def brkCurveRefused : Nat := 6
/-- BRK event VHOLD_LOW (level). -/
def brkVholdLow : Nat := 7
/-- BRK event RECORD_FAIL (pulse). -/
def brkRecordFail : Nat := 8
/-- BRK event OV (level). -/
def brkOv : Nat := 9
/-- BRK event COLD_OFFTIME (pulse). -/
def brkColdOfftime : Nat := 10
/-- BRK event CMD_REFUSED (pulse). -/
def brkCmdRefused : Nat := 11
/-- EVT_PRESENT of page kind BRK: how many sources it has. -/
def brkCount : Nat := 12
/-- The level sources of page kind BRK (R431). -/
def brkLevels : List Nat := [1, 2, 7, 9]
/-- CLK event XTA_LOST (level). -/
def clkXtaLost : Nat := 0
/-- CLK event XTB_LOST (level). -/
def clkXtbLost : Nat := 1
/-- CLK event PLL_UNLOCK (level). -/
def clkPllUnlock : Nat := 2
/-- CLK event GATE_DONE (pulse). -/
def clkGateDone : Nat := 3
/-- CLK event GATE_REFUSED (pulse). -/
def clkGateRefused : Nat := 4
/-- CLK event GATED_ACCESS (pulse). -/
def clkGatedAccess : Nat := 5
/-- CLK event XTA_RETURN (pulse). -/
def clkXtaReturn : Nat := 6
/-- EVT_PRESENT of page kind CLK: how many sources it has. -/
def clkCount : Nat := 7
/-- The level sources of page kind CLK (R431). -/
def clkLevels : List Nat := [0, 1, 2]
/-- GOV event OP_CHANGE (pulse). -/
def govOpChange : Nat := 0
/-- GOV event FORCED_OP3 (level). -/
def govForcedOp3 : Nat := 1
/-- GOV event OVERTEMP (level). -/
def govOvertemp : Nat := 2
/-- GOV event VRAIL_FAIL (pulse). -/
def govVrailFail : Nat := 3
/-- GOV event POWER_OVER (level). -/
def govPowerOver : Nat := 4
/-- GOV event HEADROOM_LOW (level). -/
def govHeadroomLow : Nat := 5
/-- GOV event SENSOR_FAIL (level). -/
def govSensorFail : Nat := 6
/-- GOV event ADMIT_DENIED (pulse). -/
def govAdmitDenied : Nat := 7
/-- GOV event FLIGHT_DECIDED (pulse). -/
def govFlightDecided : Nat := 8
/-- EVT_PRESENT of page kind GOV: how many sources it has. -/
def govCount : Nat := 9
/-- The level sources of page kind GOV (R431). -/
def govLevels : List Nat := [1, 2, 4, 5, 6]
/-- ACC event ACCESS (pulse). -/
def accAccess : Nat := 0
/-- ACC event DENY_OVERFLOW (pulse). -/
def accDenyOverflow : Nat := 1
/-- ACC event ROW_CHANGED (pulse). -/
def accRowChanged : Nat := 2
/-- ACC event ROW_REFUSED (pulse). -/
def accRowRefused : Nat := 3
/-- EVT_PRESENT of page kind ACC: how many sources it has. -/
def accCount : Nat := 4
/-- The level sources of page kind ACC (R431). -/
def accLevels : List Nat := []
/-- KEY event CMD_DONE (pulse). -/
def keyCmdDone : Nat := 0
/-- KEY event CMD_FAIL (pulse). -/
def keyCmdFail : Nat := 1
/-- KEY event DRAWER_BAD (level). -/
def keyDrawerBad : Nat := 2
/-- KEY event REQ_DONE (pulse). -/
def keyReqDone : Nat := 3
/-- KEY event REQ_REFUSED (pulse). -/
def keyReqRefused : Nat := 4
/-- KEY event LC_CHANGE (pulse). -/
def keyLcChange : Nat := 5
/-- KEY event LC_FAIL (pulse). -/
def keyLcFail : Nat := 6
/-- KEY event ENTROPY_FAIL (level). -/
def keyEntropyFail : Nat := 7
/-- KEY event RING_SWITCHED (pulse). -/
def keyRingSwitched : Nat := 8
/-- KEY event KEY_UNUSABLE (level). -/
def keyKeyUnusable : Nat := 9
/-- EVT_PRESENT of page kind KEY: how many sources it has. -/
def keyCount : Nat := 10
/-- The level sources of page kind KEY (R431). -/
def keyLevels : List Nat := [2, 7, 9]
/-- EVT event GUARD_FAIL (pulse). -/
def evtGuardFail : Nat := 0
/-- EVT event CMD_REFUSED (pulse). -/
def evtCmdRefused : Nat := 1
/-- EVT event FENCE (pulse). -/
def evtFence : Nat := 2
/-- EVT event FENCED (level). -/
def evtFenced : Nat := 3
/-- EVT event LOST_FAULT (pulse). -/
def evtLostFault : Nat := 4
/-- EVT event NEWEL_DOWN (level). -/
def evtNewelDown : Nat := 5
/-- EVT event INFRA (level). -/
def evtInfra : Nat := 6
/-- EVT event DUMP_DONE (pulse). -/
def evtDumpDone : Nat := 7
/-- EVT event DUMP_SKIPPED (pulse). -/
def evtDumpSkipped : Nat := 8
/-- EVT event UNFENCED (pulse). -/
def evtUnfenced : Nat := 9
/-- EVT_PRESENT of page kind EVT: how many sources it has. -/
def evtCount : Nat := 10
/-- The level sources of page kind EVT (R431). -/
def evtLevels : List Nat := [3, 5, 6]
/-- UPD event HDR_OK (pulse). -/
def updHdrOk : Nat := 0
/-- UPD event UPD_REFUSED (pulse). -/
def updUpdRefused : Nat := 1
/-- UPD event BLOCK_BAD (pulse). -/
def updBlockBad : Nat := 2
/-- UPD event COMMIT_DONE (pulse). -/
def updCommitDone : Nat := 3
/-- UPD event COMMIT_FAIL (pulse). -/
def updCommitFail : Nat := 4
/-- UPD event CONFIRM_DUE (level). -/
def updConfirmDue : Nat := 5
/-- UPD event FALLBACK (pulse). -/
def updFallback : Nat := 6
/-- UPD event COMPAT_FAIL (level). -/
def updCompatFail : Nat := 7
/-- UPD event CONFIG_NEWER (pulse). -/
def updConfigNewer : Nat := 8
/-- UPD event CONFIG_UNREADABLE (pulse). -/
def updConfigUnreadable : Nat := 9
/-- UPD event NODE_RECORD (pulse). -/
def updNodeRecord : Nat := 10
/-- UPD event NR_WRITE_FAIL (pulse). -/
def updNrWriteFail : Nat := 11
/-- UPD event STANDBY (level). -/
def updStandby : Nat := 12
/-- UPD event BOOT_DONE (pulse). -/
def updBootDone : Nat := 13
/-- UPD event CONFIG_SAVED (pulse). -/
def updConfigSaved : Nat := 14
/-- EVT_PRESENT of page kind UPD: how many sources it has. -/
def updCount : Nat := 15
/-- The level sources of page kind UPD (R431). -/
def updLevels : List Nat := [5, 7, 12]
/-- PCIE event LINK_UP (pulse). -/
def pcieLinkUp : Nat := 0
/-- PCIE event LINK_DOWN (pulse). -/
def pcieLinkDown : Nat := 1
/-- PCIE event PERST (level). -/
def pciePerst : Nat := 2
/-- PCIE event UR_SENT (pulse). -/
def pcieUrSent : Nat := 3
/-- PCIE event CA_SENT (pulse). -/
def pcieCaSent : Nat := 4
/-- PCIE event AER_CORR (pulse). -/
def pcieAerCorr : Nat := 5
/-- PCIE event AER_UNCORR (pulse). -/
def pcieAerUncorr : Nat := 6
/-- EVT_PRESENT of page kind PCIE: how many sources it has. -/
def pcieCount : Nat := 7
/-- The level sources of page kind PCIE (R431). -/
def pcieLevels : List Nat := [2]
/-- LH event CRC_ERR (pulse). -/
def lhCrcErr : Nat := 0
/-- LH event FRAME_ERR (pulse). -/
def lhFrameErr : Nat := 1
/-- LH event BUSY (pulse). -/
def lhBusy : Nat := 2
/-- LH event TICKET_DONE (pulse). -/
def lhTicketDone : Nat := 3
/-- EVT_PRESENT of page kind LH: how many sources it has. -/
def lhCount : Nat := 4
/-- The level sources of page kind LH (R431). -/
def lhLevels : List Nat := []
/-- I2C event DONE (pulse). -/
def i2cDone : Nat := 0
/-- I2C event ERROR (pulse). -/
def i2cError : Nat := 1
/-- EVT_PRESENT of page kind I2C: how many sources it has. -/
def i2cCount : Nat := 2
/-- The level sources of page kind I2C (R431). -/
def i2cLevels : List Nat := []
/-- MIRROR event MIRROR_DROP (pulse). -/
def mirrorMirrorDrop : Nat := 0
/-- MIRROR event MIRROR_READY (level). -/
def mirrorMirrorReady : Nat := 1
/-- EVT_PRESENT of page kind MIRROR: how many sources it has. -/
def mirrorCount : Nat := 2
/-- The level sources of page kind MIRROR (R431). -/
def mirrorLevels : List Nat := [1]
/-- TILE event PIN_CONFLICT (pulse). -/
def tilePinConflict : Nat := 0
/-- TILE event VIO_FAULT (level). -/
def tileVioFault : Nat := 1
/-- TILE event READBACK (pulse). -/
def tileReadback : Nat := 2
/-- TILE event SAFE_APPLIED (pulse). -/
def tileSafeApplied : Nat := 3
/-- EVT_PRESENT of page kind TILE: how many sources it has. -/
def tileCount : Nat := 4
/-- The level sources of page kind TILE (R431). -/
def tileLevels : List Nat := [1]
/-- TRIG event CMP_FIRED (pulse). -/
def trigCmpFired : Nat := 0
/-- TRIG event CAP_TAKEN (pulse). -/
def trigCapTaken : Nat := 1
/-- TRIG event CMP_LATE (pulse). -/
def trigCmpLate : Nat := 2
/-- TRIG event CAP_OVERRUN (pulse). -/
def trigCapOverrun : Nat := 3
/-- EVT_PRESENT of page kind TRIG: how many sources it has. -/
def trigCount : Nat := 4
/-- The level sources of page kind TRIG (R431). -/
def trigLevels : List Nat := []
/-- DEBUG event DAP_ATTACH (pulse). -/
def debugDapAttach : Nat := 0
/-- DEBUG event DAP_DENIED (pulse). -/
def debugDapDenied : Nat := 1
/-- EVT_PRESENT of page kind DEBUG: how many sources it has. -/
def debugCount : Nat := 2
/-- The level sources of page kind DEBUG (R431). -/
def debugLevels : List Nat := []
/-- JRNL event CKPT_DONE (pulse). -/
def jrnlCkptDone : Nat := 0
/-- JRNL event CKPT_FAIL (pulse). -/
def jrnlCkptFail : Nat := 1
/-- JRNL event GAP (pulse). -/
def jrnlGap : Nat := 2
/-- EVT_PRESENT of page kind JRNL: how many sources it has. -/
def jrnlCount : Nat := 3
/-- The level sources of page kind JRNL (R431). -/
def jrnlLevels : List Nat := []
/-- DRAM event ECC_CORR (pulse). -/
def dramEccCorr : Nat := 0
/-- DRAM event ECC_UNCORR (pulse). -/
def dramEccUncorr : Nat := 1
/-- DRAM event SCRUB_DONE (pulse). -/
def dramScrubDone : Nat := 2
/-- DRAM event INIT_DONE (pulse). -/
def dramInitDone : Nat := 3
/-- EVT_PRESENT of page kind DRAM: how many sources it has. -/
def dramCount : Nat := 4
/-- The level sources of page kind DRAM (R431). -/
def dramLevels : List Nat := []
/-- FLASH event PROG_FAIL (pulse). -/
def flashProgFail : Nat := 0
/-- FLASH event ERASE_FAIL (pulse). -/
def flashEraseFail : Nat := 1
/-- FLASH event ECC_CORR (pulse). -/
def flashEccCorr : Nat := 2
/-- FLASH event ECC_UNCORR (pulse). -/
def flashEccUncorr : Nat := 3
/-- FLASH event WEAR (level). -/
def flashWear : Nat := 4
/-- EVT_PRESENT of page kind FLASH: how many sources it has. -/
def flashCount : Nat := 5
/-- The level sources of page kind FLASH (R431). -/
def flashLevels : List Nat := [4]
/-- EVT_PRESENT of page kind HUB: how many sources it has. -/
def hubCount : Nat := 0
/-- The level sources of page kind HUB (R431). -/
def hubLevels : List Nat := []

end Sys2Proof.Machine.Ev
end

