-- ==== Sys2Proof/Machine/RegsBridge.lean ====
section
/-!
DEFINITION. The register fields of the BRIDGE, PCIE, LH, I2C, CAB and MIRROR pages, from the register tables of spec/: each field's
offset, lowest bit, width, access code, retention class and reset value (R7). An indexed register is a function of its index.
-/

namespace Sys2Proof.Machine.Reg

/-- R217: BRIDGE.CFG.TIMEOUT_M1 -/
def bridgeCfgTimeoutM1 : Fld := ⟨0x40, 0, 6, .rw, .K, 0x7⟩
/-- R217: BRIDGE.CREDIT_ALLOC.REQUEST -/
def bridgeCreditAllocRequest : Fld := ⟨0x44, 0, 7, .rw, .K, 0x8⟩
/-- R217: BRIDGE.CREDIT_ALLOC.POSTED -/
def bridgeCreditAllocPosted : Fld := ⟨0x44, 8, 7, .rw, .K, 0x10⟩
/-- R217: BRIDGE.CREDIT_ALLOC.NOTICE -/
def bridgeCreditAllocNotice : Fld := ⟨0x44, 16, 7, .rw, .K, 0x8⟩
/-- R217: BRIDGE.STATUS.OUTSTANDING -/
def bridgeStatusOutstanding : Fld := ⟨0x48, 0, 11, .ro, .V, 0x0⟩
/-- R217: BRIDGE.STATUS.EPOCH -/
def bridgeStatusEpoch : Fld := ⟨0x48, 16, 16, .ro, .V, 0x0⟩
/-- R217: BRIDGE.PWSEQ_LO -/
def bridgePwseqLo : Fld := ⟨0x4C, 0, 32, .ro, .K, 0x0⟩
/-- R217: BRIDGE.PWSEQ_HI -/
def bridgePwseqHi : Fld := ⟨0x50, 0, 16, .ro, .K, 0x0⟩
/-- R217: BRIDGE.PWE_STATUS.COUNT -/
def bridgePweStatusCount : Fld := ⟨0x54, 0, 5, .ro, .K, 0x0⟩
/-- R217: BRIDGE.PWE_STATUS.LOST_PWE -/
def bridgePweStatusLostPwe : Fld := ⟨0x54, 8, 1, .st, .K, 0x0⟩
/-- R217: BRIDGE.PWE_STATUS.OVERFLOW -/
def bridgePweStatusOverflow : Fld := ⟨0x54, 16, 16, .ro, .K, 0x0⟩
/-- R217: BRIDGE.PWE_CTRL.POP -/
def bridgePweCtrlPop : Fld := ⟨0x58, 0, 1, .wp, .V, 0x0⟩
/-- R217: BRIDGE.NOTICE_STATUS -/
def bridgeNoticeStatus : Fld := ⟨0x5C, 0, 12, .ro, .V, 0x0⟩
/-- R217: BRIDGE.NOTICE_HEAD -/
def bridgeNoticeHead (i : Nat) : Fld := ⟨0x60 + 0x4 * i, 0, 32, .ro, .V, 0⟩
/-- R217: BRIDGE.NOTICE_CTRL.POP -/
def bridgeNoticeCtrlPop : Fld := ⟨0x78, 0, 1, .wp, .V, 0x0⟩
/-- R217: BRIDGE.VW_TX -/
def bridgeVwTx : Fld := ⟨0x7C, 0, 8, .rw, .K, 0x0⟩
/-- R217: BRIDGE.VW_RX -/
def bridgeVwRx : Fld := ⟨0x80, 0, 32, .ro, .V, 0x0⟩
/-- R217: BRIDGE.TIMEOUT_CNT -/
def bridgeTimeoutCnt : Fld := ⟨0x84, 0, 32, .ro, .V, 0x0⟩
/-- R217: BRIDGE.CRED_VIOL_CNT -/
def bridgeCredViolCnt : Fld := ⟨0x88, 0, 32, .ro, .V, 0x0⟩
/-- R217: BRIDGE.AUTH_FAIL_CNT -/
def bridgeAuthFailCnt : Fld := ⟨0x8C, 0, 32, .ro, .V, 0x0⟩
/-- R217: BRIDGE.SEQ_GAP_CNT -/
def bridgeSeqGapCnt : Fld := ⟨0x90, 0, 32, .ro, .V, 0x0⟩
/-- R217: BRIDGE.DUP_CNT -/
def bridgeDupCnt : Fld := ⟨0x94, 0, 32, .ro, .V, 0x0⟩
/-- R217: BRIDGE.DAMAGED_DROP_CNT -/
def bridgeDamagedDropCnt : Fld := ⟨0x98, 0, 32, .ro, .V, 0x0⟩
/-- R217: BRIDGE.FORMAT_CNT -/
def bridgeFormatCnt : Fld := ⟨0x9C, 0, 32, .ro, .V, 0x0⟩
/-- R217: BRIDGE.ORPHAN_CNT -/
def bridgeOrphanCnt : Fld := ⟨0xA0, 0, 32, .ro, .V, 0x0⟩
/-- R217: BRIDGE.MBX_FMT_CNT -/
def bridgeMbxFmtCnt : Fld := ⟨0xA4, 0, 32, .ro, .V, 0x0⟩
/-- R217: BRIDGE.CNT_CTRL.CLR -/
def bridgeCntCtrlClr : Fld := ⟨0xA8, 0, 1, .wp, .V, 0x0⟩
/-- R217: BRIDGE.ACC_SEL -/
def bridgeAccSel : Fld := ⟨0x300, 0, 11, .g, .K, 0x0⟩
/-- R217: BRIDGE.ACC_ROW -/
def bridgeAccRow : Fld := ⟨0x304, 0, 32, .g, .K, 0x0⟩
/-- Every field of the table of page kind BRIDGE, each instance of an indexed register by itself. -/
def bridgeFields : List Fld :=
  [bridgeCfgTimeoutM1, bridgeCreditAllocRequest, bridgeCreditAllocPosted, bridgeCreditAllocNotice, bridgeStatusOutstanding, bridgeStatusEpoch, bridgePwseqLo, bridgePwseqHi, bridgePweStatusCount, bridgePweStatusLostPwe, bridgePweStatusOverflow, bridgePweCtrlPop, bridgeNoticeStatus, bridgeNoticeCtrlPop, bridgeVwTx, bridgeVwRx, bridgeTimeoutCnt, bridgeCredViolCnt, bridgeAuthFailCnt, bridgeSeqGapCnt, bridgeDupCnt, bridgeDamagedDropCnt, bridgeFormatCnt, bridgeOrphanCnt, bridgeMbxFmtCnt, bridgeCntCtrlClr, bridgeAccSel, bridgeAccRow] ++
  ((List.range 6).flatMap fun i => [bridgeNoticeHead i])

/-- R218: PCIE.LINK.WIDTH -/
def pcieLinkWidth : Fld := ⟨0x40, 0, 2, .ro, .V, 0x0⟩
/-- R218: PCIE.LINK.SPEED -/
def pcieLinkSpeed : Fld := ⟨0x40, 2, 3, .ro, .V, 0x0⟩
/-- R218: PCIE.LINK.UP -/
def pcieLinkUp : Fld := ⟨0x40, 5, 1, .ro, .V, 0x0⟩
/-- R218: PCIE.LINK.BME -/
def pcieLinkBme : Fld := ⟨0x40, 6, 1, .ro, .V, 0x0⟩
/-- R218: PCIE.LAST_ERR -/
def pcieLastErr : Fld := ⟨0x44, 0, 4, .ro, .V, 0x0⟩
/-- R218: PCIE.LAST_ADDR_LO -/
def pcieLastAddrLo : Fld := ⟨0x48, 0, 32, .ro, .V, 0x0⟩
/-- R218: PCIE.LAST_ADDR_HI -/
def pcieLastAddrHi : Fld := ⟨0x4C, 0, 16, .ro, .V, 0x0⟩
/-- R218: PCIE.UR_CNT -/
def pcieUrCnt : Fld := ⟨0x50, 0, 32, .ro, .V, 0x0⟩
/-- R218: PCIE.CA_CNT -/
def pcieCaCnt : Fld := ⟨0x54, 0, 32, .ro, .V, 0x0⟩
/-- R218: PCIE.WIN_LO.EN -/
def pcieWinLoEn (i : Nat) : Fld := ⟨0x60 + 0x8 * i, 0, 1, .rw, .K, 0⟩
/-- R218: PCIE.WIN_LO.RO -/
def pcieWinLoRo (i : Nat) : Fld := ⟨0x60 + 0x8 * i, 1, 1, .rw, .K, 0⟩
/-- R218: PCIE.WIN_LO.LOCAL_BASE -/
def pcieWinLoLocalBase (i : Nat) : Fld := ⟨0x60 + 0x8 * i, 29, 3, .rw, .K, 0⟩
/-- R218: PCIE.WIN_HI.LOCAL_BASE -/
def pcieWinHiLocalBase (i : Nat) : Fld := ⟨0x64 + 0x8 * i, 0, 8, .rw, .K, 0⟩
/-- R218: PCIE.WIN_HI.NODE -/
def pcieWinHiNode (i : Nat) : Fld := ⟨0x64 + 0x8 * i, 8, 8, .rw, .K, 0⟩
/-- Every field of the table of page kind PCIE, each instance of an indexed register by itself. -/
def pcieFields : List Fld :=
  [pcieLinkWidth, pcieLinkSpeed, pcieLinkUp, pcieLinkBme, pcieLastErr, pcieLastAddrLo, pcieLastAddrHi, pcieUrCnt, pcieCaCnt] ++
  ((List.range 8).flatMap fun i => [pcieWinLoEn i, pcieWinLoRo i, pcieWinLoLocalBase i, pcieWinHiLocalBase i, pcieWinHiNode i])

/-- R219: LH.CFG.WAIT -/
def lhCfgWait : Fld := ⟨0x40, 0, 7, .rw, .K, 0x10⟩
/-- R219: LH.CFG.ATTN_TICKET -/
def lhCfgAttnTicket : Fld := ⟨0x40, 8, 1, .rw, .K, 0x1⟩
/-- R219: LH.STATUS.USED -/
def lhStatusUsed : Fld := ⟨0x44, 0, 7, .ro, .V, 0x0⟩
/-- R219: LH.STATUS.DONE -/
def lhStatusDone : Fld := ⟨0x44, 8, 7, .ro, .V, 0x0⟩
/-- R219: LH.CRC_ERR_CNT -/
def lhCrcErrCnt : Fld := ⟨0x48, 0, 32, .ro, .V, 0x0⟩
/-- R219: LH.BUSY_CNT -/
def lhBusyCnt : Fld := ⟨0x4C, 0, 32, .ro, .V, 0x0⟩
/-- Every field of the table of page kind LH, each instance of an indexed register by itself. -/
def lhFields : List Fld :=
  [lhCfgWait, lhCfgAttnTicket, lhStatusUsed, lhStatusDone, lhCrcErrCnt, lhBusyCnt]

/-- R220: I2C.CFG.SPEED -/
def i2cCfgSpeed : Fld := ⟨0x40, 0, 2, .rw, .K, 0x1⟩
/-- R220: I2C.XFER.ADDR7 -/
def i2cXferAddr7 : Fld := ⟨0x44, 0, 7, .rw, .V, 0x0⟩
/-- R220: I2C.XFER.WLEN -/
def i2cXferWlen : Fld := ⟨0x44, 8, 6, .rw, .V, 0x0⟩
/-- R220: I2C.XFER.RLEN -/
def i2cXferRlen : Fld := ⟨0x44, 16, 6, .rw, .V, 0x0⟩
/-- R220: I2C.XFER.PEC -/
def i2cXferPec : Fld := ⟨0x44, 24, 1, .rw, .V, 0x0⟩
/-- R220: I2C.XFER.GO -/
def i2cXferGo : Fld := ⟨0x44, 28, 1, .wp, .V, 0x0⟩
/-- R220: I2C.STATUS.BUSY -/
def i2cStatusBusy : Fld := ⟨0x48, 0, 1, .ro, .V, 0x0⟩
/-- R220: I2C.STATUS.RESULT -/
def i2cStatusResult : Fld := ⟨0x48, 1, 3, .ro, .V, 0x0⟩
/-- R220: I2C.STATUS.BYTES -/
def i2cStatusBytes : Fld := ⟨0x48, 8, 6, .ro, .V, 0x0⟩
/-- R220: I2C.DATA -/
def i2cData (i : Nat) : Fld := ⟨0x50 + 0x4 * i, 0, 32, .rw, .V, 0⟩
/-- Every field of the table of page kind I2C, each instance of an indexed register by itself. -/
def i2cFields : List Fld :=
  [i2cCfgSpeed, i2cXferAddr7, i2cXferWlen, i2cXferRlen, i2cXferPec, i2cXferGo, i2cStatusBusy, i2cStatusResult, i2cStatusBytes] ++
  ((List.range 8).flatMap fun i => [i2cData i])

/-- R246: CAB.CFG.AUDIT_EN -/
def cabCfgAuditEn : Fld := ⟨0x40, 0, 1, .rw, .K, 0x1⟩
/-- R246: CAB.AUDIT_PERIOD -/
def cabAuditPeriod : Fld := ⟨0x44, 0, 14, .rw, .K, 0x64⟩
/-- R246: CAB.GRANT_FLOOR -/
def cabGrantFloor : Fld := ⟨0x48, 0, 18, .rw, .K, 0x1000⟩
/-- R246: CAB.FREE -/
def cabFree : Fld := ⟨0x4C, 0, 18, .ro, .V, 0x2C000⟩
/-- R246: CAB.SHARED_FREE -/
def cabSharedFree : Fld := ⟨0x50, 0, 18, .ro, .V, 0x2B800⟩
/-- R246: CAB.MGMT_FREE -/
def cabMgmtFree : Fld := ⟨0x54, 0, 12, .ro, .V, 0x800⟩
/-- R246: CAB.GUAR_TOTAL -/
def cabGuarTotal : Fld := ⟨0x58, 0, 18, .ro, .V, 0x0⟩
/-- R246: CAB.LAND_RSV.CELLS -/
def cabLandRsvCells : Fld := ⟨0x5C, 0, 18, .ro, .V, 0x0⟩
/-- R246: CAB.LAND_RSV.HALVINGS -/
def cabLandRsvHalvings : Fld := ⟨0x5C, 18, 4, .ro, .V, 0x0⟩
/-- R246: CAB.LEAK_COUNT -/
def cabLeakCount : Fld := ⟨0x60, 0, 18, .ro, .V, 0x0⟩
/-- R246: CAB.AUDIT_WALKS -/
def cabAuditWalks : Fld := ⟨0x64, 0, 32, .ro, .V, 0x0⟩
/-- R246: CAB.INGRESS_DROP_CNT -/
def cabIngressDropCnt : Fld := ⟨0x68, 0, 32, .ro, .V, 0x0⟩
/-- R246: CAB.TAIL_DROP_CNT -/
def cabTailDropCnt : Fld := ⟨0x6C, 0, 32, .ro, .V, 0x0⟩
/-- R246: CAB.CRED_OVER_CNT -/
def cabCredOverCnt : Fld := ⟨0x70, 0, 32, .ro, .V, 0x0⟩
/-- R246: CAB.LINK_CORR_CNT -/
def cabLinkCorrCnt : Fld := ⟨0x74, 0, 32, .ro, .V, 0x0⟩
/-- R246: CAB.CNT_CTRL.CLR -/
def cabCntCtrlClr : Fld := ⟨0x78, 0, 1, .wp, .V, 0x0⟩
/-- R246: CAB.ACC_Q -/
def cabAccQ : Fld := ⟨0x80, 0, 12, .rw, .U, 0x0⟩
/-- R246: CAB.ACC_CMD.CMD -/
def cabAccCmdCmd : Fld := ⟨0x84, 0, 4, .wo, .V, 0x0⟩
/-- R246: CAB.ACC_CMD.DECLARE -/
def cabAccCmdDeclare : Fld := ⟨0x84, 4, 10, .wo, .V, 0x0⟩
/-- R246: CAB.ACC_CMD.TRIM -/
def cabAccCmdTrim : Fld := ⟨0x84, 16, 2, .wo, .V, 0x0⟩
/-- R246: CAB.ACC_DATA -/
def cabAccData : Fld := ⟨0x88, 0, 32, .rw, .V, 0x0⟩
/-- R246: CAB.ACC_STATUS.RESULT -/
def cabAccStatusResult : Fld := ⟨0x8C, 0, 4, .ro, .V, 0x0⟩
/-- R246: CAB.ACC_STATUS.OPEN -/
def cabAccStatusOpen : Fld := ⟨0x8C, 4, 1, .ro, .V, 0x0⟩
/-- R246: CAB.CH_CTRL.EN -/
def cabChCtrlEn (i : Nat) : Fld := ⟨0xA0 + 0x10 * i, 0, 1, .rw, .K, 0⟩
/-- R246: CAB.CH_CTRL.STOPPED -/
def cabChCtrlStopped (i : Nat) : Fld := ⟨0xA0 + 0x10 * i, 1, 1, .ro, .V, 0⟩
/-- R246: CAB.CH_CTRL.QUEUE -/
def cabChCtrlQueue (i : Nat) : Fld := ⟨0xA0 + 0x10 * i, 4, 12, .rw, .K, 0⟩
/-- R246: CAB.CH_BASE.BASE -/
def cabChBaseBase (i : Nat) : Fld := ⟨0xA4 + 0x10 * i, 12, 15, .rw, .K, 0⟩
/-- R246: CAB.CH_BASE.LOG2 -/
def cabChBaseLog2 (i : Nat) : Fld := ⟨0xA4 + 0x10 * i, 0, 5, .rw, .K, 12⟩
/-- R246: CAB.CH_WR -/
def cabChWr (i : Nat) : Fld := ⟨0xA8 + 0x10 * i, 0, 26, .ro, .V, 0⟩
/-- R246: CAB.CH_RD -/
def cabChRd (i : Nat) : Fld := ⟨0xAC + 0x10 * i, 0, 26, .rw, .V, 0⟩
/-- R246: CAB.AUDIT_CMD -/
def cabAuditCmd : Fld := ⟨0x300, 0, 8, .g, .V, 0x0⟩
/-- R246: CAB.QCMD.QUEUE -/
def cabQcmdQueue : Fld := ⟨0x304, 0, 12, .g, .V, 0x0⟩
/-- R246: CAB.QCMD.CMD -/
def cabQcmdCmd : Fld := ⟨0x304, 12, 4, .g, .V, 0x0⟩
/-- Every field of the table of page kind CAB, each instance of an indexed register by itself. -/
def cabFields : List Fld :=
  [cabCfgAuditEn, cabAuditPeriod, cabGrantFloor, cabFree, cabSharedFree, cabMgmtFree, cabGuarTotal, cabLandRsvCells, cabLandRsvHalvings, cabLeakCount, cabAuditWalks, cabIngressDropCnt, cabTailDropCnt, cabCredOverCnt, cabLinkCorrCnt, cabCntCtrlClr, cabAccQ, cabAccCmdCmd, cabAccCmdDeclare, cabAccCmdTrim, cabAccData, cabAccStatusResult, cabAccStatusOpen, cabAuditCmd, cabQcmdQueue, cabQcmdCmd] ++
  ((List.range 4).flatMap fun i => [cabChCtrlEn i, cabChCtrlStopped i, cabChCtrlQueue i, cabChBaseBase i, cabChBaseLog2 i, cabChWr i, cabChRd i])

/-- R247: MIRROR.CFG.EN -/
def mirrorCfgEn : Fld := ⟨0x40, 0, 1, .rw, .K, 0x0⟩
/-- R247: MIRROR.CFG.TRUNC -/
def mirrorCfgTrunc : Fld := ⟨0x40, 1, 1, .rw, .K, 0x0⟩
/-- R247: MIRROR.CFG.SOURCE -/
def mirrorCfgSource : Fld := ⟨0x40, 2, 2, .rw, .K, 0x0⟩
/-- R247: MIRROR.CFG.PORT -/
def mirrorCfgPort : Fld := ⟨0x40, 8, 8, .rw, .K, 0x0⟩
/-- R247: MIRROR.CFG.QUEUE -/
def mirrorCfgQueue : Fld := ⟨0x40, 16, 12, .rw, .K, 0x0⟩
/-- R247: MIRROR.N -/
def mirrorN : Fld := ⟨0x44, 0, 16, .rw, .K, 0x1⟩
/-- R247: MIRROR.SEEN_CNT -/
def mirrorSeenCnt : Fld := ⟨0x48, 0, 32, .ro, .V, 0x0⟩
/-- R247: MIRROR.SAMPLED_CNT -/
def mirrorSampledCnt : Fld := ⟨0x4C, 0, 32, .ro, .V, 0x0⟩
/-- R247: MIRROR.DROP_CNT -/
def mirrorDropCnt : Fld := ⟨0x50, 0, 32, .ro, .V, 0x0⟩
/-- R247: MIRROR.CNT_CTRL.CLR -/
def mirrorCntCtrlClr : Fld := ⟨0x54, 0, 1, .wp, .V, 0x0⟩
/-- Every field of the table of page kind MIRROR, each instance of an indexed register by itself. -/
def mirrorFields : List Fld :=
  [mirrorCfgEn, mirrorCfgTrunc, mirrorCfgSource, mirrorCfgPort, mirrorCfgQueue, mirrorN, mirrorSeenCnt, mirrorSampledCnt, mirrorDropCnt, mirrorCntCtrlClr]

end Sys2Proof.Machine.Reg
end

