-- ==== Sys2Proof/Machine/RegsCommon.lean ====
section
/-!
DEFINITION. The register fields of the common registers and the HUB, ACC, KEY, DEBUG, EVT and JRNL pages, from the register tables of spec/: each field's
offset, lowest bit, width, access code, retention class and reset value (R7). An indexed register is a function of its index.
-/

namespace Sys2Proof.Machine.Reg

/-- R388: COM.PAGE_ID.REV -/
def comPageIdRev : Fld := ⟨0x0, 0, 8, .ro, .V, 0x0⟩
/-- R388: COM.PAGE_ID.LAYOUT -/
def comPageIdLayout : Fld := ⟨0x0, 8, 8, .ro, .V, 0x1⟩
/-- R388: COM.PAGE_ID.INSTANCE -/
def comPageIdInstance : Fld := ⟨0x0, 16, 8, .ro, .V, 0x0⟩
/-- R388: COM.PAGE_ID.TYPE -/
def comPageIdType : Fld := ⟨0x0, 24, 8, .ro, .V, 0x0⟩
/-- R388: COM.PAGE_CAPS.EVT_PRESENT -/
def comPageCapsEvtPresent : Fld := ⟨0x4, 0, 16, .ro, .V, 0x0⟩
/-- R388: COM.PAGE_CAPS.IND_SPACES -/
def comPageCapsIndSpaces : Fld := ⟨0x4, 16, 4, .ro, .V, 0x0⟩
/-- R388: COM.PAGE_CAPS.FENCEABLE -/
def comPageCapsFenceable : Fld := ⟨0x4, 20, 1, .ro, .V, 0x0⟩
/-- R388: COM.PAGE_CAPS.UNIT_RST -/
def comPageCapsUnitRst : Fld := ⟨0x4, 21, 1, .ro, .V, 0x0⟩
/-- R388: COM.PAGE_CTRL.EVT_FORCE -/
def comPageCtrlEvtForce : Fld := ⟨0x8, 0, 16, .wp, .V, 0x0⟩
/-- R388: COM.PAGE_STATUS.FENCED -/
def comPageStatusFenced : Fld := ⟨0xC, 0, 1, .ro, .V, 0x0⟩
/-- R388: COM.PAGE_STATUS.SECURE -/
def comPageStatusSecure : Fld := ⟨0xC, 1, 1, .ro, .K, 0x0⟩
/-- R388: COM.PAGE_STATUS.RIGHTS -/
def comPageStatusRights : Fld := ⟨0xC, 2, 2, .ro, .V, 0x0⟩
/-- R388: COM.PAGE_STATUS.GUARD_PEND -/
def comPageStatusGuardPend : Fld := ⟨0xC, 4, 1, .ro, .V, 0x0⟩
/-- R388: COM.EVT_RAW -/
def comEvtRaw : Fld := ⟨0x10, 0, 16, .ro, .V, 0x0⟩
/-- R388: COM.EVT_STICKY -/
def comEvtSticky : Fld := ⟨0x14, 0, 16, .st, .K, 0x0⟩
/-- R388: COM.EVT_ENABLE -/
def comEvtEnable : Fld := ⟨0x18, 0, 16, .rw, .K, 0x0⟩
/-- R388: COM.EVT_GROUP -/
def comEvtGroup : Fld := ⟨0x1C, 0, 7, .rw, .K, 0x0⟩
/-- R388: COM.FENCE.FENCED -/
def comFenceFenced : Fld := ⟨0x20, 0, 1, .ro, .V, 0x0⟩
/-- R388: COM.FENCE.CAUSE -/
def comFenceCause : Fld := ⟨0x20, 8, 8, .ro, .V, 0x0⟩
/-- R388: COM.IND_ADDR -/
def comIndAddr : Fld := ⟨0x30, 0, 32, .rw, .V, 0x0⟩
/-- R388: COM.IND_DATA -/
def comIndData : Fld := ⟨0x34, 0, 32, .rw, .V, 0x0⟩
/-- R388: COM.IND_CTRL.STEP -/
def comIndCtrlStep : Fld := ⟨0x38, 0, 4, .rw, .V, 0x1⟩
/-- R388: COM.IND_CTRL.BUSY -/
def comIndCtrlBusy : Fld := ⟨0x38, 8, 1, .ro, .V, 0x0⟩
/-- R388: COM.IND_CTRL.ERR -/
def comIndCtrlErr : Fld := ⟨0x38, 9, 1, .st, .V, 0x0⟩
/-- R388: COM.IND_CTRL.ERR_CODE -/
def comIndCtrlErrCode : Fld := ⟨0x38, 12, 4, .ro, .V, 0x0⟩
/-- R388: COM.UCMD -/
def comUcmd : Fld := ⟨0x37C, 0, 8, .g, .V, 0x0⟩
/-- Every field of the table of page kind COM, each instance of an indexed register by itself. -/
def comFields : List Fld :=
  [comPageIdRev, comPageIdLayout, comPageIdInstance, comPageIdType, comPageCapsEvtPresent, comPageCapsIndSpaces, comPageCapsFenceable, comPageCapsUnitRst, comPageCtrlEvtForce, comPageStatusFenced, comPageStatusSecure, comPageStatusRights, comPageStatusGuardPend, comEvtRaw, comEvtSticky, comEvtEnable, comEvtGroup, comFenceFenced, comFenceCause, comIndAddr, comIndData, comIndCtrlStep, comIndCtrlBusy, comIndCtrlErr, comIndCtrlErrCode, comUcmd]

/-- R405: HUB.CHIP_ID.PART -/
def hubChipIdPart : Fld := ⟨0x40, 0, 16, .ro, .V, 0x9048⟩
/-- R405: HUB.CHIP_ID.STEPPING -/
def hubChipIdStepping : Fld := ⟨0x40, 16, 8, .ro, .V, 0x0⟩
/-- R405: HUB.CHIP_ID.POWER_STEPPING -/
def hubChipIdPowerStepping : Fld := ⟨0x40, 24, 8, .ro, .V, 0x0⟩
/-- R405: HUB.NODE.ID -/
def hubNodeId : Fld := ⟨0x44, 0, 8, .ro, .N, 0x0⟩
/-- R405: HUB.NODE.MASTER -/
def hubNodeMaster : Fld := ⟨0x44, 8, 8, .ro, .V, 0x0⟩
/-- R405: HUB.UID_LO -/
def hubUidLo : Fld := ⟨0x48, 0, 32, .ro, .V, 0x0⟩
/-- R405: HUB.UID_HI -/
def hubUidHi : Fld := ⟨0x4C, 0, 32, .ro, .V, 0x0⟩
/-- R405: HUB.WHOAMI.CLASS -/
def hubWhoamiClass : Fld := ⟨0x50, 0, 4, .ro, .V, 0x0⟩
/-- R405: HUB.WHOAMI.INTERFACE -/
def hubWhoamiInterface : Fld := ⟨0x50, 8, 4, .ro, .V, 0x0⟩
/-- R405: HUB.WHOAMI.NODE -/
def hubWhoamiNode : Fld := ⟨0x50, 16, 8, .ro, .V, 0x0⟩
/-- R405: HUB.WHOAMI.SECURE_WORLD -/
def hubWhoamiSecureWorld : Fld := ⟨0x50, 24, 1, .ro, .V, 0x0⟩
/-- R405: HUB.GUARD_LAST.PAGE -/
def hubGuardLastPage : Fld := ⟨0x54, 0, 8, .ro, .V, 0x0⟩
/-- R405: HUB.GUARD_LAST.OFFSET -/
def hubGuardLastOffset : Fld := ⟨0x54, 8, 7, .ro, .V, 0x0⟩
/-- R405: HUB.GUARD_LAST.CLASS -/
def hubGuardLastClass : Fld := ⟨0x54, 16, 4, .ro, .V, 0x0⟩
/-- R405: HUB.GUARD_LAST.CAUSE -/
def hubGuardLastCause : Fld := ⟨0x54, 20, 4, .ro, .V, 0x0⟩
/-- R405: HUB.GUARD_LAST.NODE -/
def hubGuardLastNode : Fld := ⟨0x54, 24, 8, .ro, .V, 0x0⟩
/-- R405: HUB.GUARD_FAIL_CNT -/
def hubGuardFailCnt : Fld := ⟨0x58, 0, 32, .ro, .V, 0x0⟩
/-- R405: HUB.SCRATCH -/
def hubScratch (i : Nat) : Fld := ⟨0x60 + 0x4 * i, 0, 32, .rw, .K, 0⟩
/-- Every field of the table of page kind HUB, each instance of an indexed register by itself. -/
def hubFields : List Fld :=
  [hubChipIdPart, hubChipIdStepping, hubChipIdPowerStepping, hubNodeId, hubNodeMaster, hubUidLo, hubUidHi, hubWhoamiClass, hubWhoamiInterface, hubWhoamiNode, hubWhoamiSecureWorld, hubGuardLastPage, hubGuardLastOffset, hubGuardLastClass, hubGuardLastCause, hubGuardLastNode, hubGuardFailCnt] ++
  ((List.range 4).flatMap fun i => [hubScratch i])

/-- R408: ACC.DENY_STATUS.COUNT -/
def accDenyStatusCount : Fld := ⟨0x40, 0, 4, .ro, .V, 0x0⟩
/-- R408: ACC.DENY_STATUS.LOST -/
def accDenyStatusLost : Fld := ⟨0x40, 8, 1, .st, .K, 0x0⟩
/-- R408: ACC.DENY_STATUS.OVERFLOW -/
def accDenyStatusOverflow : Fld := ⟨0x40, 16, 16, .ro, .K, 0x0⟩
/-- R408: ACC.DENY_CTRL.POP -/
def accDenyCtrlPop : Fld := ⟨0x44, 0, 1, .wp, .V, 0x0⟩
/-- R408: ACC.DENY_CNT -/
def accDenyCnt : Fld := ⟨0x48, 0, 32, .ro, .V, 0x0⟩
/-- R408: ACC.SECURE -/
def accSecure (i : Nat) : Fld := ⟨0x50 + 0x4 * i, 0, 32, .ro, .K, if i = 0 then 0x80 else if i = 7 then 0x10000 else 0⟩
/-- R408: ACC.DRAM_DEFAULT -/
def accDramDefault : Fld := ⟨0x70, 0, 32, .ro, .K, 0x3F⟩
/-- R408: ACC.ROW_SEL.INDEX -/
def accRowSelIndex : Fld := ⟨0x300, 0, 14, .g, .K, 0x0⟩
/-- R408: ACC.ROW_SEL.SPACE -/
def accRowSelSpace : Fld := ⟨0x300, 16, 2, .g, .K, 0x0⟩
/-- R408: ACC.ROW_VAL -/
def accRowVal : Fld := ⟨0x304, 0, 32, .g, .V, 0x0⟩
/-- Every field of the table of page kind ACC, each instance of an indexed register by itself. -/
def accFields : List Fld :=
  [accDenyStatusCount, accDenyStatusLost, accDenyStatusOverflow, accDenyCtrlPop, accDenyCnt, accDramDefault, accRowSelIndex, accRowSelSpace, accRowVal] ++
  ((List.range 8).flatMap fun i => [accSecure i])

/-- R428: KEY.STATUS.LC_STATE -/
def keyStatusLcState : Fld := ⟨0x40, 0, 3, .ro, .V, 0x0⟩
/-- R428: KEY.STATUS.BUSY -/
def keyStatusBusy : Fld := ⟨0x40, 3, 1, .ro, .V, 0x0⟩
/-- R428: KEY.STATUS.ENTROPY_OK -/
def keyStatusEntropyOk : Fld := ⟨0x40, 4, 1, .ro, .V, 0x0⟩
/-- R428: KEY.STATUS.NONCE_VALID -/
def keyStatusNonceValid : Fld := ⟨0x40, 5, 1, .ro, .V, 0x0⟩
/-- R428: KEY.STATUS.SERVICE_LEFT -/
def keyStatusServiceLeft : Fld := ⟨0x40, 8, 6, .ro, .V, 0x3F⟩
/-- R428: KEY.RESULT.CODE -/
def keyResultCode : Fld := ⟨0x44, 0, 8, .ro, .V, 0x0⟩
/-- R428: KEY.RESULT.COMMAND -/
def keyResultCommand : Fld := ⟨0x44, 8, 8, .ro, .V, 0x0⟩
/-- R428: KEY.RESULT.SLOT -/
def keyResultSlot : Fld := ⟨0x44, 16, 6, .ro, .V, 0x0⟩
/-- R428: KEY.SLOT_STATE -/
def keySlotState (i : Nat) : Fld := ⟨0x48 + 0x4 * i, 0, 32, .ro, .N, 0⟩
/-- R428: KEY.RING.RING_SLOT -/
def keyRingRingSlot : Fld := ⟨0x58, 0, 3, .ro, .K, 0x0⟩
/-- R428: KEY.RING.RING_NEXT -/
def keyRingRingNext : Fld := ⟨0x58, 4, 3, .ro, .K, 0x0⟩
/-- R428: KEY.RING.SWITCH_PEND -/
def keyRingSwitchPend : Fld := ⟨0x58, 7, 1, .ro, .K, 0x0⟩
/-- R428: KEY.RING_AT_LO -/
def keyRingAtLo : Fld := ⟨0x5C, 0, 32, .rw, .K, 0x0⟩
/-- R428: KEY.RING_AT_HI -/
def keyRingAtHi : Fld := ⟨0x60, 0, 16, .rw, .K, 0x0⟩
/-- R428: KEY.LC_NONCE -/
def keyLcNonce (i : Nat) : Fld := ⟨0x64 + 0x4 * i, 0, 32, .ro, .U, 0⟩
/-- R428: KEY.SCRUB_CNT -/
def keyScrubCnt : Fld := ⟨0x74, 0, 32, .ro, .V, 0x0⟩
/-- R428: KEY.REFUSE_CNT -/
def keyRefuseCnt : Fld := ⟨0x78, 0, 32, .ro, .V, 0x0⟩
/-- R428: KEY.REQ_BASE.SVC_EN -/
def keyReqBaseSvcEn : Fld := ⟨0x7C, 0, 1, .rw, .K, 0x0⟩
/-- R428: KEY.REQ_BASE.BASE -/
def keyReqBaseBase : Fld := ⟨0x7C, 13, 14, .rw, .K, 0x0⟩
/-- R428: KEY.OP_SLOT.SLOT -/
def keyOpSlotSlot : Fld := ⟨0x90, 0, 6, .rw, .V, 0x0⟩
/-- R428: KEY.OP_SLOT.PARENT -/
def keyOpSlotParent : Fld := ⟨0x90, 8, 6, .rw, .V, 0x0⟩
/-- R428: KEY.OP_ATTR.ATTR -/
def keyOpAttrAttr : Fld := ⟨0x94, 0, 32, .rw, .V, 0x0⟩
/-- R428: KEY.OP_SRC -/
def keyOpSrc : Fld := ⟨0x98, 0, 27, .rw, .V, 0x0⟩
/-- R428: KEY.OP_DST -/
def keyOpDst : Fld := ⟨0x9C, 0, 27, .rw, .V, 0x0⟩
/-- R428: KEY.OP_LEN -/
def keyOpLen : Fld := ⟨0xA0, 0, 16, .rw, .V, 0x0⟩
/-- R428: KEY.OP_ACT_AS -/
def keyOpActAs : Fld := ⟨0xA4, 0, 4, .rw, .V, 0x1⟩
/-- R428: KEY.CMD -/
def keyCmd : Fld := ⟨0x300, 0, 8, .g, .V, 0x0⟩
/-- Every field of the table of page kind KEY, each instance of an indexed register by itself. -/
def keyFields : List Fld :=
  [keyStatusLcState, keyStatusBusy, keyStatusEntropyOk, keyStatusNonceValid, keyStatusServiceLeft, keyResultCode, keyResultCommand, keyResultSlot, keyRingRingSlot, keyRingRingNext, keyRingSwitchPend, keyRingAtLo, keyRingAtHi, keyScrubCnt, keyRefuseCnt, keyReqBaseSvcEn, keyReqBaseBase, keyOpSlotSlot, keyOpSlotParent, keyOpAttrAttr, keyOpSrc, keyOpDst, keyOpLen, keyOpActAs, keyCmd] ++
  ((List.range 4).flatMap fun i => [keySlotState i, keyLcNonce i])

/-- R429: DEBUG.DBG_CTRL.DAP_EN -/
def debugDbgCtrlDapEn : Fld := ⟨0x40, 0, 1, .rw, .K, 0x1⟩
/-- R429: DEBUG.DBG_STATUS.AVAILABLE -/
def debugDbgStatusAvailable : Fld := ⟨0x44, 0, 1, .ro, .V, 0x0⟩
/-- R429: DEBUG.DBG_STATUS.ACTIVE -/
def debugDbgStatusActive : Fld := ⟨0x44, 1, 1, .ro, .V, 0x0⟩
/-- R429: DEBUG.DBG_STATUS.REFUSED -/
def debugDbgStatusRefused : Fld := ⟨0x44, 16, 16, .ro, .V, 0x0⟩
/-- Every field of the table of page kind DEBUG, each instance of an indexed register by itself. -/
def debugFields : List Fld :=
  [debugDbgCtrlDapEn, debugDbgStatusAvailable, debugDbgStatusActive, debugDbgStatusRefused]

/-- R452: EVT.STATUS.FENCED_ANY -/
def evtStatusFencedAny : Fld := ⟨0x40, 0, 1, .ro, .V, 0x0⟩
/-- R452: EVT.STATUS.NEWEL_DOWN -/
def evtStatusNewelDown : Fld := ⟨0x40, 1, 1, .ro, .V, 0x0⟩
/-- R452: EVT.STATUS.INFRA -/
def evtStatusInfra : Fld := ⟨0x40, 2, 1, .ro, .V, 0x0⟩
/-- R452: EVT.STATUS.SEQ_BUSY -/
def evtStatusSeqBusy : Fld := ⟨0x40, 3, 1, .ro, .V, 0x0⟩
/-- R452: EVT.STATUS.ERR_STATIC -/
def evtStatusErrStatic : Fld := ⟨0x40, 4, 1, .ro, .V, 0x0⟩
/-- R452: EVT.STATUS.BLOCKS -/
def evtStatusBlocks : Fld := ⟨0x40, 16, 8, .ro, .V, 0x0⟩
/-- R452: EVT.LOSTCNT.COUNT -/
def evtLostcntCount : Fld := ⟨0x44, 0, 16, .ro, .K, 0x0⟩
/-- R452: EVT.LOSTCNT.LOST -/
def evtLostcntLost : Fld := ⟨0x44, 16, 1, .st, .K, 0x0⟩
/-- R452: EVT.FAULT_CNT -/
def evtFaultCnt : Fld := ⟨0x48, 0, 32, .ro, .K, 0x0⟩
/-- R452: EVT.FIRST_FAULT.PAGE -/
def evtFirstFaultPage : Fld := ⟨0x4C, 0, 8, .ro, .K, 0x0⟩
/-- R452: EVT.FIRST_FAULT.CAUSE -/
def evtFirstFaultCause : Fld := ⟨0x4C, 8, 8, .ro, .K, 0x0⟩
/-- R452: EVT.FIRST_FAULT.VALID -/
def evtFirstFaultValid : Fld := ⟨0x4C, 16, 1, .st, .K, 0x0⟩
/-- R452: EVT.FIRST_TIME -/
def evtFirstTime : Fld := ⟨0x50, 0, 32, .ro, .K, 0x0⟩
/-- R452: EVT.LAST_FAULT -/
def evtLastFault : Fld := ⟨0x54, 0, 17, .ro, .K, 0x0⟩
/-- R452: EVT.LAST_TIME -/
def evtLastTime : Fld := ⟨0x58, 0, 32, .ro, .K, 0x0⟩
/-- R452: EVT.LOG_SEQ -/
def evtLogSeq : Fld := ⟨0x5C, 0, 32, .ro, .K, 0x0⟩
/-- R452: EVT.DUMP_STATUS.HELD -/
def evtDumpStatusHeld : Fld := ⟨0x60, 0, 1, .st, .K, 0x0⟩
/-- R452: EVT.DUMP_STATUS.BUSY -/
def evtDumpStatusBusy : Fld := ⟨0x60, 1, 1, .ro, .V, 0x0⟩
/-- R452: EVT.DUMP_STATUS.VALID -/
def evtDumpStatusValid : Fld := ⟨0x60, 2, 1, .ro, .K, 0x0⟩
/-- R452: EVT.DUMP_STATUS.TRIGGER -/
def evtDumpStatusTrigger : Fld := ⟨0x60, 4, 2, .ro, .K, 0x0⟩
/-- R452: EVT.DUMP_STATUS.SKIP_CNT -/
def evtDumpStatusSkipCnt : Fld := ⟨0x60, 16, 16, .ro, .K, 0x0⟩
/-- R452: EVT.GRP_ASSERT -/
def evtGrpAssert (i : Nat) : Fld := ⟨0x80 + 0x4 * i, 0, 32, .ro, .V, 0⟩
/-- R452: EVT.GRP_MSIX -/
def evtGrpMsix (i : Nat) : Fld := ⟨0x90 + 0x4 * i, 0, 32, .rw, .K, 4294967295⟩
/-- R452: EVT.GRP_LH -/
def evtGrpLh (i : Nat) : Fld := ⟨0xA0 + 0x4 * i, 0, 32, .rw, .K, 0⟩
/-- R452: EVT.GRP_NEWEL -/
def evtGrpNewel (i : Nat) : Fld := ⟨0xB0 + 0x4 * i, 0, 32, .rw, .K, 4294967295⟩
/-- R452: EVT.SRC_STICKY -/
def evtSrcSticky (i : Nat) : Fld := ⟨0x100 + 0x4 * i, 0, 32, .st, .K, 0⟩
/-- R452: EVT.FCMD.PAGE -/
def evtFcmdPage : Fld := ⟨0x300, 0, 8, .g, .V, 0x0⟩
/-- R452: EVT.FCMD.CMD -/
def evtFcmdCmd : Fld := ⟨0x300, 8, 8, .g, .V, 0x0⟩
/-- Every field of the table of page kind EVT, each instance of an indexed register by itself. -/
def evtFields : List Fld :=
  [evtStatusFencedAny, evtStatusNewelDown, evtStatusInfra, evtStatusSeqBusy, evtStatusErrStatic, evtStatusBlocks, evtLostcntCount, evtLostcntLost, evtFaultCnt, evtFirstFaultPage, evtFirstFaultCause, evtFirstFaultValid, evtFirstTime, evtLastFault, evtLastTime, evtLogSeq, evtDumpStatusHeld, evtDumpStatusBusy, evtDumpStatusValid, evtDumpStatusTrigger, evtDumpStatusSkipCnt, evtFcmdPage, evtFcmdCmd] ++
  ((List.range 4).flatMap fun i => [evtGrpAssert i, evtGrpMsix i, evtGrpLh i, evtGrpNewel i]) ++
  ((List.range 32).flatMap fun i => [evtSrcSticky i])

/-- R453: JRNL.HEAD_LO.SEQ -/
def jrnlHeadLoSeq : Fld := ⟨0x40, 0, 32, .ro, .K, 0x0⟩
/-- R453: JRNL.HEAD_HI -/
def jrnlHeadHi : Fld := ⟨0x44, 0, 16, .ro, .K, 0x0⟩
/-- R453: JRNL.CKPT_LO.SEQ -/
def jrnlCkptLoSeq : Fld := ⟨0x48, 0, 32, .ro, .K, 0x0⟩
/-- R453: JRNL.CKPT_HI -/
def jrnlCkptHi : Fld := ⟨0x4C, 0, 16, .ro, .K, 0x0⟩
/-- R453: JRNL.STATUS.CKPT_BUSY -/
def jrnlStatusCkptBusy : Fld := ⟨0x50, 0, 1, .ro, .V, 0x0⟩
/-- R453: JRNL.STATUS.HALF -/
def jrnlStatusHalf : Fld := ⟨0x50, 1, 1, .ro, .V, 0x0⟩
/-- R453: JRNL.STATUS.ENTRIES -/
def jrnlStatusEntries : Fld := ⟨0x50, 8, 8, .ro, .V, 0x0⟩
/-- R453: JRNL.CKPT_FAIL_CNT -/
def jrnlCkptFailCnt : Fld := ⟨0x54, 0, 16, .ro, .K, 0x0⟩
/-- R453: JRNL.BASE -/
def jrnlBase : Fld := ⟨0x58, 0, 32, .ro, .V, 0x7600000⟩
/-- R453: JRNL.JCMD -/
def jrnlJcmd : Fld := ⟨0x300, 0, 8, .g, .V, 0x0⟩
/-- Every field of the table of page kind JRNL, each instance of an indexed register by itself. -/
def jrnlFields : List Fld :=
  [jrnlHeadLoSeq, jrnlHeadHi, jrnlCkptLoSeq, jrnlCkptHi, jrnlStatusCkptBusy, jrnlStatusHalf, jrnlStatusEntries, jrnlCkptFailCnt, jrnlBase, jrnlJcmd]

end Sys2Proof.Machine.Reg
end

