-- ==== Sys2Proof/Machine/RegsField.lean ====
section
/-!
DEFINITION. The register fields of the ENG, TILE and CAN pages, from the register tables of spec/: each field's
offset, lowest bit, width, access code, retention class and reset value (R7). An indexed register is a function of its index.
-/

namespace Sys2Proof.Machine.Reg

/-- R272: ENG.CTRL.RUN -/
def engCtrlRun : Fld := ⟨0x40, 0, 1, .rw, .K, 0x0⟩
/-- R272: ENG.CTRL.AT_BOUNDARY -/
def engCtrlAtBoundary : Fld := ⟨0x40, 1, 1, .rw, .K, 0x0⟩
/-- R272: ENG.CTRL.CYC_SYNC -/
def engCtrlCycSync : Fld := ⟨0x40, 2, 1, .rw, .K, 0x0⟩
/-- R272: ENG.CTRL.STALE_EVT -/
def engCtrlStaleEvt : Fld := ⟨0x40, 3, 1, .rw, .K, 0x0⟩
/-- R272: ENG.STATUS.STATE -/
def engStatusState : Fld := ⟨0x44, 0, 6, .ro, .K, 0x0⟩
/-- R272: ENG.STATUS.STALLED -/
def engStatusStalled : Fld := ⟨0x44, 6, 1, .ro, .K, 0x0⟩
/-- R272: ENG.STATUS.IN_SAFE -/
def engStatusInSafe : Fld := ⟨0x44, 7, 1, .ro, .K, 0x1⟩
/-- R272: ENG.STATUS.BANK -/
def engStatusBank : Fld := ⟨0x44, 8, 1, .ro, .K, 0x0⟩
/-- R272: ENG.STATUS.SWAP_PEND -/
def engStatusSwapPend : Fld := ⟨0x44, 9, 1, .ro, .K, 0x0⟩
/-- R272: ENG.STATUS.RUNNING -/
def engStatusRunning : Fld := ⟨0x44, 10, 1, .ro, .K, 0x0⟩
/-- R272: ENG.STATUS.GATED -/
def engStatusGated : Fld := ⟨0x44, 11, 1, .ro, .V, 0x0⟩
/-- R272: ENG.STATUS.PIN_IN -/
def engStatusPinIn : Fld := ⟨0x44, 12, 4, .ro, .V, 0x0⟩
/-- R272: ENG.STATUS.PIN_VAL -/
def engStatusPinVal : Fld := ⟨0x44, 16, 4, .ro, .K, 0x0⟩
/-- R272: ENG.STATUS.PIN_OE -/
def engStatusPinOe : Fld := ⟨0x44, 20, 4, .ro, .K, 0x0⟩
/-- R272: ENG.DIV.N -/
def engDivN : Fld := ⟨0x48, 0, 16, .rw, .K, 0x1⟩
/-- R272: ENG.DIV.F -/
def engDivF : Fld := ⟨0x48, 16, 8, .rw, .K, 0x0⟩
/-- R272: ENG.SHIFT_CFG.LEN_M1 -/
def engShiftCfgLenM1 : Fld := ⟨0x4C, 0, 5, .rw, .K, 0x1F⟩
/-- R272: ENG.SHIFT_CFG.MSB_FIRST -/
def engShiftCfgMsbFirst : Fld := ⟨0x4C, 5, 1, .rw, .K, 0x0⟩
/-- R272: ENG.SHIFT_CFG.OUT_PIN -/
def engShiftCfgOutPin : Fld := ⟨0x4C, 6, 2, .rw, .K, 0x0⟩
/-- R272: ENG.SHIFT_CFG.IN_PIN -/
def engShiftCfgInPin : Fld := ⟨0x4C, 8, 2, .rw, .K, 0x0⟩
/-- R272: ENG.SHIFT_CFG.OUT_EN -/
def engShiftCfgOutEn : Fld := ⟨0x4C, 10, 1, .rw, .K, 0x0⟩
/-- R272: ENG.SR -/
def engSr : Fld := ⟨0x50, 0, 32, .ro, .K, 0x0⟩
/-- R272: ENG.CNT.VALUE -/
def engCntValue : Fld := ⟨0x54, 0, 16, .ro, .K, 0x0⟩
/-- R272: ENG.CNT.BITS -/
def engCntBits : Fld := ⟨0x54, 16, 6, .ro, .K, 0x0⟩
/-- R272: ENG.CNT_RELOAD -/
def engCntReload : Fld := ⟨0x58, 0, 16, .rw, .K, 0x0⟩
/-- R272: ENG.TMO_RELOAD -/
def engTmoReload : Fld := ⟨0x5C, 0, 16, .rw, .K, 0x0⟩
/-- R272: ENG.TMO.VALUE -/
def engTmoValue : Fld := ⟨0x60, 0, 16, .ro, .K, 0x0⟩
/-- R272: ENG.TMO.RUNNING -/
def engTmoRunning : Fld := ⟨0x60, 16, 1, .ro, .K, 0x0⟩
/-- R272: ENG.TMO.DELAY_DONE -/
def engTmoDelayDone : Fld := ⟨0x60, 17, 1, .ro, .K, 0x0⟩
/-- R272: ENG.CSEL.TRIG_SEL -/
def engCselTrigSel : Fld := ⟨0x64, 0, 5, .rw, .K, 0x0⟩
/-- R272: ENG.CSEL.TILE_IN_SEL -/
def engCselTileInSel : Fld := ⟨0x64, 8, 5, .rw, .K, 0x0⟩
/-- R272: ENG.FILT -/
def engFilt : Fld := ⟨0x68, 0, 16, .rw, .K, 0x0⟩
/-- R272: ENG.PINMAP -/
def engPinmap : Fld := ⟨0x6C, 0, 32, .rw, .K, 0x0⟩
/-- R272: ENG.FIFO_STATUS.TX_LEVEL -/
def engFifoStatusTxLevel : Fld := ⟨0x70, 0, 5, .ro, .K, 0x0⟩
/-- R272: ENG.FIFO_STATUS.RX_LEVEL -/
def engFifoStatusRxLevel : Fld := ⟨0x70, 8, 5, .ro, .K, 0x0⟩
/-- R272: ENG.FIFO_STATUS.TXF_BOUND -/
def engFifoStatusTxfBound : Fld := ⟨0x70, 16, 1, .ro, .K, 0x0⟩
/-- R272: ENG.FIFO_STATUS.RXF_BOUND -/
def engFifoStatusRxfBound : Fld := ⟨0x70, 17, 1, .ro, .K, 0x0⟩
/-- R272: ENG.FIFO_STATUS.STALE -/
def engFifoStatusStale : Fld := ⟨0x70, 18, 1, .ro, .K, 0x0⟩
/-- R272: ENG.FIFO_STATUS.TREAD_LATCH -/
def engFifoStatusTreadLatch : Fld := ⟨0x70, 19, 1, .ro, .K, 0x0⟩
/-- R272: ENG.FIFO_STATUS.TRIG_LATCH -/
def engFifoStatusTrigLatch : Fld := ⟨0x70, 20, 1, .ro, .K, 0x0⟩
/-- R272: ENG.FIFO_STATUS.LINK_OUT -/
def engFifoStatusLinkOut : Fld := ⟨0x70, 21, 2, .ro, .K, 0x0⟩
/-- R272: ENG.TXF_DATA -/
def engTxfData : Fld := ⟨0x74, 0, 32, .wo, .V, 0x0⟩
/-- R272: ENG.RXF_DATA -/
def engRxfData : Fld := ⟨0x78, 0, 32, .ro, .V, 0x0⟩
/-- R272: ENG.FIFO_CTRL.TXF_FLUSH -/
def engFifoCtrlTxfFlush : Fld := ⟨0x7C, 0, 1, .wp, .V, 0x0⟩
/-- R272: ENG.FIFO_CTRL.RXF_FLUSH -/
def engFifoCtrlRxfFlush : Fld := ⟨0x7C, 1, 1, .wp, .V, 0x0⟩
/-- R272: ENG.LAST_POP -/
def engLastPop : Fld := ⟨0x80, 0, 32, .ro, .K, 0x0⟩
/-- R272: ENG.STALE_CNT -/
def engStaleCnt : Fld := ⟨0x84, 0, 32, .ro, .V, 0x0⟩
/-- R272: ENG.STALL_CNT -/
def engStallCnt : Fld := ⟨0x88, 0, 32, .ro, .V, 0x0⟩
/-- R272: ENG.BIND_REFUSE_CNT -/
def engBindRefuseCnt : Fld := ⟨0x8C, 0, 32, .ro, .V, 0x0⟩
/-- R272: ENG.HOST_FIFO_CNT -/
def engHostFifoCnt : Fld := ⟨0x90, 0, 32, .ro, .V, 0x0⟩
/-- R272: ENG.CNT_CTRL.CLR -/
def engCntCtrlClr : Fld := ⟨0x94, 0, 1, .wp, .V, 0x0⟩
/-- R272: ENG.SWAP.MODE -/
def engSwapMode : Fld := ⟨0xA0, 0, 2, .rw, .K, 0x0⟩
/-- R272: ENG.SWAP.RESTART -/
def engSwapRestart : Fld := ⟨0xA0, 2, 1, .rw, .K, 0x0⟩
/-- R272: ENG.SWAP.REQ -/
def engSwapReq : Fld := ⟨0xA0, 8, 1, .wp, .V, 0x0⟩
/-- R272: ENG.SWAP.CANCEL -/
def engSwapCancel : Fld := ⟨0xA0, 9, 1, .wp, .V, 0x0⟩
/-- Every field of the table of page kind ENG, each instance of an indexed register by itself. -/
def engFields : List Fld :=
  [engCtrlRun, engCtrlAtBoundary, engCtrlCycSync, engCtrlStaleEvt, engStatusState, engStatusStalled, engStatusInSafe, engStatusBank, engStatusSwapPend, engStatusRunning, engStatusGated, engStatusPinIn, engStatusPinVal, engStatusPinOe, engDivN, engDivF, engShiftCfgLenM1, engShiftCfgMsbFirst, engShiftCfgOutPin, engShiftCfgInPin, engShiftCfgOutEn, engSr, engCntValue, engCntBits, engCntReload, engTmoReload, engTmoValue, engTmoRunning, engTmoDelayDone, engCselTrigSel, engCselTileInSel, engFilt, engPinmap, engFifoStatusTxLevel, engFifoStatusRxLevel, engFifoStatusTxfBound, engFifoStatusRxfBound, engFifoStatusStale, engFifoStatusTreadLatch, engFifoStatusTrigLatch] ++
  [engFifoStatusLinkOut, engTxfData, engRxfData, engFifoCtrlTxfFlush, engFifoCtrlRxfFlush, engLastPop, engStaleCnt, engStallCnt, engBindRefuseCnt, engHostFifoCnt, engCntCtrlClr, engSwapMode, engSwapRestart, engSwapReq, engSwapCancel]

/-- R278: TILE.CFG.VIO_SEL -/
def tileCfgVioSel : Fld := ⟨0x40, 0, 2, .rw, .N, 0x2⟩
/-- R278: TILE.CFG.BANK_EN -/
def tileCfgBankEn : Fld := ⟨0x40, 2, 1, .rw, .N, 0x0⟩
/-- R278: TILE.STATUS.VIO_OK -/
def tileStatusVioOk : Fld := ⟨0x44, 0, 1, .ro, .V, 0x0⟩
/-- R278: TILE.STATUS.VIO_MV -/
def tileStatusVioMv : Fld := ⟨0x44, 4, 12, .ro, .V, 0x0⟩
/-- R278: TILE.PIN_IN -/
def tilePinIn : Fld := ⟨0x48, 0, 32, .ro, .V, 0x0⟩
/-- R278: TILE.PIN_VAL -/
def tilePinVal : Fld := ⟨0x4C, 0, 32, .ro, .V, 0x0⟩
/-- R278: TILE.PIN_OE -/
def tilePinOe : Fld := ⟨0x50, 0, 32, .ro, .V, 0x0⟩
/-- R278: TILE.CONFLICT.PAD -/
def tileConflictPad : Fld := ⟨0x54, 0, 5, .ro, .V, 0x0⟩
/-- R278: TILE.CONFLICT.ENGINE -/
def tileConflictEngine : Fld := ⟨0x54, 8, 3, .ro, .V, 0x0⟩
/-- R278: TILE.CONFLICT.PIN -/
def tileConflictPin : Fld := ⟨0x54, 12, 2, .ro, .V, 0x0⟩
/-- R278: TILE.CONFLICT.COUNT -/
def tileConflictCount : Fld := ⟨0x54, 16, 16, .ro, .V, 0x0⟩
/-- R278: TILE.READBACK.PAD -/
def tileReadbackPad : Fld := ⟨0x58, 0, 5, .ro, .V, 0x0⟩
/-- R278: TILE.READBACK.COUNT -/
def tileReadbackCount : Fld := ⟨0x58, 16, 16, .ro, .V, 0x0⟩
/-- R278: TILE.PINCFG.DRIVE -/
def tilePincfgDrive (i : Nat) : Fld := ⟨0x60 + 0x4 * i, 0, 2, .rw, .K, 0⟩
/-- R278: TILE.PINCFG.SAFE -/
def tilePincfgSafe (i : Nat) : Fld := ⟨0x60 + 0x4 * i, 2, 2, .rw, .K, 2⟩
/-- R278: TILE.PINCFG.PULL -/
def tilePincfgPull (i : Nat) : Fld := ⟨0x60 + 0x4 * i, 4, 2, .rw, .K, 0⟩
/-- R278: TILE.PINCFG.OD -/
def tilePincfgOd (i : Nat) : Fld := ⟨0x60 + 0x4 * i, 6, 1, .rw, .K, 0⟩
/-- R278: TILE.PINCFG.RB_EN -/
def tilePincfgRbEn (i : Nat) : Fld := ⟨0x60 + 0x4 * i, 7, 1, .rw, .K, 0⟩
/-- R278: TILE.OWNER -/
def tileOwner (i : Nat) : Fld := ⟨0xE0 + 0x4 * i, 0, 32, .ro, .K, 0⟩
/-- Every field of the table of page kind TILE, each instance of an indexed register by itself. -/
def tileFields : List Fld :=
  [tileCfgVioSel, tileCfgBankEn, tileStatusVioOk, tileStatusVioMv, tilePinIn, tilePinVal, tilePinOe, tileConflictPad, tileConflictEngine, tileConflictPin, tileConflictCount, tileReadbackPad, tileReadbackCount] ++
  ((List.range 32).flatMap fun i => [tilePincfgDrive i, tilePincfgSafe i, tilePincfgPull i, tilePincfgOd i, tilePincfgRbEn i]) ++
  ((List.range 8).flatMap fun i => [tileOwner i])

/-- R302: CAN.CFG.MODE -/
def canCfgMode : Fld := ⟨0x40, 0, 3, .rw, .K, 0x0⟩
/-- R302: CAN.CFG.FD_EN -/
def canCfgFdEn : Fld := ⟨0x40, 3, 1, .rw, .K, 0x1⟩
/-- R302: CAN.CFG.AUTO_RECOVER -/
def canCfgAutoRecover : Fld := ⟨0x40, 4, 1, .rw, .K, 0x1⟩
/-- R302: CAN.CFG.NOMATCH_STORE -/
def canCfgNomatchStore : Fld := ⟨0x40, 5, 1, .rw, .K, 0x0⟩
/-- R302: CAN.CFG.REJECT_RTR -/
def canCfgRejectRtr : Fld := ⟨0x40, 6, 1, .rw, .K, 0x0⟩
/-- R302: CAN.CFG.CLASH_PARK -/
def canCfgClashPark : Fld := ⟨0x40, 7, 1, .rw, .K, 0x0⟩
/-- R302: CAN.CFG.CLASH_LIMIT -/
def canCfgClashLimit : Fld := ⟨0x40, 8, 4, .rw, .K, 0x3⟩
/-- R302: CAN.CFG.TDC_EN -/
def canCfgTdcEn : Fld := ⟨0x40, 12, 1, .rw, .K, 0x0⟩
/-- R302: CAN.CFG.MBX_BUF -/
def canCfgMbxBuf : Fld := ⟨0x40, 16, 5, .rw, .K, 0x1F⟩
/-- R302: CAN.STATUS.MODE_ACT -/
def canStatusModeAct : Fld := ⟨0x44, 0, 3, .ro, .K, 0x0⟩
/-- R302: CAN.STATUS.SYNC -/
def canStatusSync : Fld := ⟨0x44, 3, 1, .ro, .V, 0x0⟩
/-- R302: CAN.STATUS.FC_STATE -/
def canStatusFcState : Fld := ⟨0x44, 4, 2, .ro, .K, 0x0⟩
/-- R302: CAN.STATUS.GATED -/
def canStatusGated : Fld := ⟨0x44, 6, 1, .ro, .V, 0x0⟩
/-- R302: CAN.STATUS.TX_BUSY -/
def canStatusTxBusy : Fld := ⟨0x44, 7, 1, .ro, .V, 0x0⟩
/-- R302: CAN.STATUS.RX_BUSY -/
def canStatusRxBusy : Fld := ⟨0x44, 8, 1, .ro, .V, 0x0⟩
/-- R302: CAN.STATUS.LEC_NOM -/
def canStatusLecNom : Fld := ⟨0x44, 9, 3, .ro, .V, 0x0⟩
/-- R302: CAN.STATUS.LEC_DATA -/
def canStatusLecData : Fld := ⟨0x44, 12, 3, .ro, .V, 0x0⟩
/-- R302: CAN.STATUS.CFG_ERR -/
def canStatusCfgErr : Fld := ⟨0x44, 15, 1, .ro, .V, 0x0⟩
/-- R302: CAN.STATUS.RECOVERING -/
def canStatusRecovering : Fld := ⟨0x44, 16, 1, .ro, .V, 0x0⟩
/-- R302: CAN.ECNT.TEC -/
def canEcntTec : Fld := ⟨0x48, 0, 9, .ro, .K, 0x0⟩
/-- R302: CAN.ECNT.REC -/
def canEcntRec : Fld := ⟨0x48, 16, 8, .ro, .K, 0x0⟩
/-- R302: CAN.NBT.BRP_M1 -/
def canNbtBrpM1 : Fld := ⟨0x4C, 0, 8, .rw, .K, 0x1⟩
/-- R302: CAN.NBT.TSEG1_M1 -/
def canNbtTseg1M1 : Fld := ⟨0x4C, 8, 8, .rw, .K, 0x3E⟩
/-- R302: CAN.NBT.TSEG2_M1 -/
def canNbtTseg2M1 : Fld := ⟨0x4C, 16, 7, .rw, .K, 0xF⟩
/-- R302: CAN.NBT.SJW_M1 -/
def canNbtSjwM1 : Fld := ⟨0x4C, 24, 7, .rw, .K, 0xF⟩
/-- R302: CAN.DBT.BRP_M1 -/
def canDbtBrpM1 : Fld := ⟨0x50, 0, 5, .rw, .K, 0x0⟩
/-- R302: CAN.DBT.TSEG1_M1 -/
def canDbtTseg1M1 : Fld := ⟨0x50, 8, 5, .rw, .K, 0x1C⟩
/-- R302: CAN.DBT.TSEG2_M1 -/
def canDbtTseg2M1 : Fld := ⟨0x50, 16, 4, .rw, .K, 0x9⟩
/-- R302: CAN.DBT.SJW_M1 -/
def canDbtSjwM1 : Fld := ⟨0x50, 24, 4, .rw, .K, 0x9⟩
/-- R302: CAN.TDC.TDCO -/
def canTdcTdco : Fld := ⟨0x54, 0, 7, .rw, .K, 0x0⟩
/-- R302: CAN.TDC.TDCF -/
def canTdcTdcf : Fld := ⟨0x54, 8, 7, .rw, .K, 0x0⟩
/-- R302: CAN.TDC.TDCV -/
def canTdcTdcv : Fld := ⟨0x54, 16, 7, .ro, .V, 0x0⟩
/-- R302: CAN.FLT.BASE -/
def canFltBase : Fld := ⟨0x58, 0, 12, .rw, .K, 0x0⟩
/-- R302: CAN.FLT.COUNT -/
def canFltCount : Fld := ⟨0x58, 16, 9, .rw, .K, 0x0⟩
/-- R302: CAN.DEFQ -/
def canDefq : Fld := ⟨0x5C, 0, 12, .rw, .K, 0x0⟩
/-- R302: CAN.TXB_REQ -/
def canTxbReq : Fld := ⟨0x60, 0, 32, .wp, .V, 0x0⟩
/-- R302: CAN.TXB_PEND -/
def canTxbPend : Fld := ⟨0x64, 0, 32, .ro, .K, 0x0⟩
/-- R302: CAN.TXB_CANCEL -/
def canTxbCancel : Fld := ⟨0x68, 0, 32, .wp, .V, 0x0⟩
/-- R302: CAN.TXB_PARKED -/
def canTxbParked : Fld := ⟨0x6C, 0, 32, .ro, .K, 0x0⟩
/-- R302: CAN.TXB_UNPARK -/
def canTxbUnpark : Fld := ⟨0x70, 0, 32, .wp, .V, 0x0⟩
/-- R302: CAN.CLASH_ID.ID -/
def canClashIdId : Fld := ⟨0x74, 0, 29, .ro, .V, 0x0⟩
/-- R302: CAN.CLASH_ID.IDE -/
def canClashIdIde : Fld := ⟨0x74, 29, 1, .ro, .V, 0x0⟩
/-- R302: CAN.CLASH_INFO.BUFFER -/
def canClashInfoBuffer : Fld := ⟨0x78, 0, 5, .ro, .V, 0x0⟩
/-- R302: CAN.CLASH_INFO.COUNT -/
def canClashInfoCount : Fld := ⟨0x78, 16, 16, .ro, .V, 0x0⟩
/-- R302: CAN.STAMP_LAST -/
def canStampLast : Fld := ⟨0x7C, 0, 32, .ro, .V, 0x0⟩
/-- R302: CAN.RX_CNT -/
def canRxCnt : Fld := ⟨0x80, 0, 32, .ro, .V, 0x0⟩
/-- R302: CAN.TX_CNT -/
def canTxCnt : Fld := ⟨0x84, 0, 32, .ro, .V, 0x0⟩
/-- R302: CAN.RX_LOST_CNT -/
def canRxLostCnt : Fld := ⟨0x88, 0, 32, .ro, .V, 0x0⟩
/-- R302: CAN.TT_MISS_CNT -/
def canTtMissCnt : Fld := ⟨0x8C, 0, 32, .ro, .V, 0x0⟩
/-- R302: CAN.ERR_CNT -/
def canErrCnt : Fld := ⟨0x90, 0, 32, .ro, .V, 0x0⟩
/-- R302: CAN.BUSOFF_CNT -/
def canBusoffCnt : Fld := ⟨0x94, 0, 16, .ro, .K, 0x0⟩
/-- R302: CAN.CNT_CTRL.CLR -/
def canCntCtrlClr : Fld := ⟨0x98, 0, 1, .wp, .V, 0x0⟩
/-- R302: CAN.CMD.RECOVER -/
def canCmdRecover : Fld := ⟨0x9C, 0, 1, .wp, .V, 0x0⟩
/-- Every field of the table of page kind CAN, each instance of an indexed register by itself. -/
def canFields : List Fld :=
  [canCfgMode, canCfgFdEn, canCfgAutoRecover, canCfgNomatchStore, canCfgRejectRtr, canCfgClashPark, canCfgClashLimit, canCfgTdcEn, canCfgMbxBuf, canStatusModeAct, canStatusSync, canStatusFcState, canStatusGated, canStatusTxBusy, canStatusRxBusy, canStatusLecNom, canStatusLecData, canStatusCfgErr, canStatusRecovering, canEcntTec, canEcntRec, canNbtBrpM1, canNbtTseg1M1, canNbtTseg2M1, canNbtSjwM1, canDbtBrpM1, canDbtTseg1M1, canDbtTseg2M1, canDbtSjwM1, canTdcTdco, canTdcTdcf, canTdcTdcv, canFltBase, canFltCount, canDefq, canTxbReq, canTxbPend, canTxbCancel, canTxbParked, canTxbUnpark] ++
  [canClashIdId, canClashIdIde, canClashInfoBuffer, canClashInfoCount, canStampLast, canRxCnt, canTxCnt, canRxLostCnt, canTtMissCnt, canErrCnt, canBusoffCnt, canCntCtrlClr, canCmdRecover]

end Sys2Proof.Machine.Reg
end

