-- ==== Sys2Proof/Machine/RegsPower.lean ====
section
/-!
DEFINITION. The register fields of the TIME, TRIG, BRK, CLK, GOV, UPD, DRAM and FLASH pages, from the register tables of spec/: each field's
offset, lowest bit, width, access code, retention class and reset value (R7). An indexed register is a function of its index.
-/

namespace Sys2Proof.Machine.Reg

/-- R328: TIME.CFG.TC -/
def timeCfgTc : Fld := ⟨0x40, 0, 4, .rw, .K, 0x6⟩
/-- R328: TIME.STATUS.TB0_STATE -/
def timeStatusTb0State : Fld := ⟨0x44, 0, 3, .ro, .K, 0x0⟩
/-- R328: TIME.STATUS.PATH_PORT -/
def timeStatusPathPort : Fld := ⟨0x44, 3, 1, .ro, .K, 0x0⟩
/-- R328: TIME.STATUS.PATH_VALID -/
def timeStatusPathValid : Fld := ⟨0x44, 4, 1, .ro, .V, 0x0⟩
/-- R328: TIME.STATUS.TB1_STATE -/
def timeStatusTb1State : Fld := ⟨0x44, 5, 3, .ro, .K, 0x0⟩
/-- R328: TIME.STATUS.HOPS -/
def timeStatusHops : Fld := ⟨0x44, 8, 8, .ro, .K, 0xFF⟩
/-- R328: TIME.STATUS.HOLD_LOCKED -/
def timeStatusHoldLocked : Fld := ⟨0x44, 16, 1, .ro, .K, 0x0⟩
/-- R328: TIME.TB0_LO -/
def timeTb0Lo : Fld := ⟨0x48, 0, 32, .ro, .K, 0x0⟩
/-- R328: TIME.TB0_HI -/
def timeTb0Hi : Fld := ⟨0x4C, 0, 32, .ro, .K, 0x0⟩
/-- R328: TIME.TB1_NS -/
def timeTb1Ns : Fld := ⟨0x50, 0, 30, .ro, .K, 0x0⟩
/-- R328: TIME.TB1_SEC_LO -/
def timeTb1SecLo : Fld := ⟨0x54, 0, 32, .ro, .K, 0x0⟩
/-- R328: TIME.TB1_SEC_HI -/
def timeTb1SecHi : Fld := ⟨0x58, 0, 16, .ro, .K, 0x0⟩
/-- R328: TIME.TB2_LO -/
def timeTb2Lo : Fld := ⟨0x5C, 0, 32, .ro, .K, 0x0⟩
/-- R328: TIME.TB2_HI -/
def timeTb2Hi : Fld := ⟨0x60, 0, 32, .ro, .K, 0x0⟩
/-- R328: TIME.TB3_LO -/
def timeTb3Lo : Fld := ⟨0x64, 0, 32, .ro, .K, 0x0⟩
/-- R328: TIME.TB3_HI -/
def timeTb3Hi : Fld := ⟨0x68, 0, 32, .ro, .K, 0x0⟩
/-- R328: TIME.FREQ -/
def timeFreq : Fld := ⟨0x6C, 0, 32, .ro, .K, 0x0⟩
/-- R328: TIME.HOLD_FREQ -/
def timeHoldFreq : Fld := ⟨0x70, 0, 32, .ro, .K, 0x0⟩
/-- R328: TIME.MASTER_RATE -/
def timeMasterRate : Fld := ⟨0x74, 0, 32, .rw, .K, 0x0⟩
/-- R328: TIME.OFFSET -/
def timeOffset : Fld := ⟨0x78, 0, 32, .ro, .V, 0x0⟩
/-- R328: TIME.DELAY_W -/
def timeDelayW : Fld := ⟨0x7C, 0, 32, .ro, .K, 0x0⟩
/-- R328: TIME.DELAY_E -/
def timeDelayE : Fld := ⟨0x80, 0, 32, .ro, .K, 0x0⟩
/-- R328: TIME.ASYM.ASYM_W -/
def timeAsymAsymW : Fld := ⟨0x84, 0, 16, .rw, .K, 0x0⟩
/-- R328: TIME.ASYM.ASYM_E -/
def timeAsymAsymE : Fld := ⟨0x84, 16, 16, .rw, .K, 0x0⟩
/-- R328: TIME.EXCH_CNT.OK -/
def timeExchCntOk : Fld := ⟨0x88, 0, 16, .ro, .K, 0x0⟩
/-- R328: TIME.EXCH_CNT.ABANDONED -/
def timeExchCntAbandoned : Fld := ⟨0x88, 16, 16, .ro, .K, 0x0⟩
/-- R328: TIME.TB1_CFG.SRC -/
def timeTb1CfgSrc : Fld := ⟨0x8C, 0, 1, .rw, .K, 0x0⟩
/-- R328: TIME.TB1_CFG.PPS_FALL -/
def timeTb1CfgPpsFall : Fld := ⟨0x8C, 1, 1, .rw, .K, 0x0⟩
/-- R328: TIME.TB1_CFG.PPS_WIN -/
def timeTb1CfgPpsWin : Fld := ⟨0x8C, 8, 8, .rw, .K, 0x64⟩
/-- R328: TIME.TB1_RATE -/
def timeTb1Rate : Fld := ⟨0x90, 0, 32, .rw, .K, 0x0⟩
/-- R328: TIME.TOD_SEC_LO -/
def timeTodSecLo : Fld := ⟨0x94, 0, 32, .rw, .K, 0x0⟩
/-- R328: TIME.TOD_SEC_HI -/
def timeTodSecHi : Fld := ⟨0x98, 0, 16, .rw, .K, 0x0⟩
/-- R328: TIME.TB1_SET_NS -/
def timeTb1SetNs : Fld := ⟨0x9C, 0, 30, .rw, .K, 0x0⟩
/-- R328: TIME.PPS_ERR -/
def timePpsErr : Fld := ⟨0xA0, 0, 32, .ro, .V, 0x0⟩
/-- R328: TIME.TB3_CFG.REF -/
def timeTb3CfgRef : Fld := ⟨0xA4, 0, 1, .rw, .K, 0x0⟩
/-- R328: TIME.TB3_RATE -/
def timeTb3Rate : Fld := ⟨0xA8, 0, 32, .rw, .K, 0x0⟩
/-- R328: TIME.TB3_ADJ -/
def timeTb3Adj : Fld := ⟨0xAC, 0, 32, .rw, .K, 0x0⟩
/-- R328: TIME.PPS_OUT.SEL -/
def timePpsOutSel : Fld := ⟨0xB0, 0, 5, .rw, .K, 0x0⟩
/-- R328: TIME.PPS_OUT.EN -/
def timePpsOutEn : Fld := ⟨0xB0, 5, 1, .rw, .K, 0x0⟩
/-- R328: TIME.PPS_OUT.POL -/
def timePpsOutPol : Fld := ⟨0xB0, 6, 1, .rw, .K, 0x0⟩
/-- R328: TIME.PPS_OUT.WIDTH_US -/
def timePpsOutWidthUs : Fld := ⟨0xB0, 12, 20, .rw, .K, 0x186A0⟩
/-- R328: TIME.CMD.TB1_SET -/
def timeCmdTb1Set : Fld := ⟨0xB4, 0, 1, .wp, .V, 0x0⟩
/-- R328: TIME.CMD.TOD_ARM -/
def timeCmdTodArm : Fld := ⟨0xB4, 1, 1, .wp, .V, 0x0⟩
/-- R328: TIME.CMD.TB3_STEP -/
def timeCmdTb3Step : Fld := ⟨0xB4, 2, 1, .wp, .V, 0x0⟩
/-- R328: TIME.TCMD -/
def timeTcmd : Fld := ⟨0x300, 0, 8, .g, .V, 0x0⟩
/-- Every field of the table of page kind TIME, each instance of an indexed register by itself. -/
def timeFields : List Fld :=
  [timeCfgTc, timeStatusTb0State, timeStatusPathPort, timeStatusPathValid, timeStatusTb1State, timeStatusHops, timeStatusHoldLocked, timeTb0Lo, timeTb0Hi, timeTb1Ns, timeTb1SecLo, timeTb1SecHi, timeTb2Lo, timeTb2Hi, timeTb3Lo, timeTb3Hi, timeFreq, timeHoldFreq, timeMasterRate, timeOffset, timeDelayW, timeDelayE, timeAsymAsymW, timeAsymAsymE, timeExchCntOk, timeExchCntAbandoned, timeTb1CfgSrc, timeTb1CfgPpsFall, timeTb1CfgPpsWin, timeTb1Rate, timeTodSecLo, timeTodSecHi, timeTb1SetNs, timePpsErr, timeTb3CfgRef, timeTb3Rate, timeTb3Adj, timePpsOutSel, timePpsOutEn, timePpsOutPol] ++
  [timePpsOutWidthUs, timeCmdTb1Set, timeCmdTodArm, timeCmdTb3Step, timeTcmd]

/-- R329: TRIG.FIRED_MAP -/
def trigFiredMap : Fld := ⟨0x40, 0, 32, .st, .V, 0x0⟩
/-- R329: TRIG.CAP_MAP -/
def trigCapMap : Fld := ⟨0x44, 0, 32, .st, .V, 0x0⟩
/-- R329: TRIG.LATE_MAP -/
def trigLateMap : Fld := ⟨0x48, 0, 32, .st, .V, 0x0⟩
/-- R329: TRIG.OVR_MAP -/
def trigOvrMap : Fld := ⟨0x4C, 0, 32, .st, .V, 0x0⟩
/-- R329: TRIG.CMP_CFG.BASE -/
def trigCmpCfgBase (i : Nat) : Fld := ⟨0x80 + 0x4 * i, 0, 2, .rw, .K, 0⟩
/-- R329: TRIG.CMP_CFG.MODE -/
def trigCmpCfgMode (i : Nat) : Fld := ⟨0x80 + 0x4 * i, 2, 2, .rw, .K, 0⟩
/-- R329: TRIG.CMP_CFG.EVT -/
def trigCmpCfgEvt (i : Nat) : Fld := ⟨0x80 + 0x4 * i, 4, 1, .rw, .K, 0⟩
/-- R329: TRIG.CMP_CFG.ARM -/
def trigCmpCfgArm (i : Nat) : Fld := ⟨0x80 + 0x4 * i, 5, 1, .wp, .V, 0⟩
/-- R329: TRIG.CMP_CFG.ARMED -/
def trigCmpCfgArmed (i : Nat) : Fld := ⟨0x80 + 0x4 * i, 8, 1, .ro, .K, 0⟩
/-- R329: TRIG.CMP_CFG.LATE -/
def trigCmpCfgLate (i : Nat) : Fld := ⟨0x80 + 0x4 * i, 9, 1, .ro, .K, 0⟩
/-- R329: TRIG.CMP_CFG.FIRE_CNT -/
def trigCmpCfgFireCnt (i : Nat) : Fld := ⟨0x80 + 0x4 * i, 16, 16, .ro, .K, 0⟩
/-- R329: TRIG.CMP_TARGET -/
def trigCmpTarget (i : Nat) : Fld := ⟨0x100 + 0x4 * i, 0, 32, .rw, .K, 0⟩
/-- R329: TRIG.CMP_PERIOD -/
def trigCmpPeriod (i : Nat) : Fld := ⟨0x180 + 0x4 * i, 0, 32, .rw, .K, 0⟩
/-- R329: TRIG.CAP_CFG.BASE -/
def trigCapCfgBase (i : Nat) : Fld := ⟨0x200 + 0x4 * i, 0, 2, .rw, .K, 0⟩
/-- R329: TRIG.CAP_CFG.EDGE -/
def trigCapCfgEdge (i : Nat) : Fld := ⟨0x200 + 0x4 * i, 2, 2, .rw, .K, 0⟩
/-- R329: TRIG.CAP_CFG.KIND -/
def trigCapCfgKind (i : Nat) : Fld := ⟨0x200 + 0x4 * i, 4, 3, .rw, .K, 0⟩
/-- R329: TRIG.CAP_CFG.EVT -/
def trigCapCfgEvt (i : Nat) : Fld := ⟨0x200 + 0x4 * i, 7, 1, .rw, .K, 0⟩
/-- R329: TRIG.CAP_CFG.INDEX -/
def trigCapCfgIndex (i : Nat) : Fld := ⟨0x200 + 0x4 * i, 8, 9, .rw, .K, 0⟩
/-- R329: TRIG.CAP_CFG.SW_TRIG -/
def trigCapCfgSwTrig (i : Nat) : Fld := ⟨0x200 + 0x4 * i, 20, 1, .wp, .V, 0⟩
/-- R329: TRIG.CAP_CFG.FULL -/
def trigCapCfgFull (i : Nat) : Fld := ⟨0x200 + 0x4 * i, 21, 1, .ro, .V, 0⟩
/-- R329: TRIG.CAP_CFG.OVERRUN -/
def trigCapCfgOverrun (i : Nat) : Fld := ⟨0x200 + 0x4 * i, 22, 1, .ro, .V, 0⟩
/-- R329: TRIG.CAP_CFG.COUNT -/
def trigCapCfgCount (i : Nat) : Fld := ⟨0x200 + 0x4 * i, 24, 8, .ro, .V, 0⟩
/-- R329: TRIG.CAP_STAMP -/
def trigCapStamp (i : Nat) : Fld := ⟨0x280 + 0x4 * i, 0, 32, .ro, .V, 0⟩
/-- Every field of the table of page kind TRIG, each instance of an indexed register by itself. -/
def trigFields : List Fld :=
  [trigFiredMap, trigCapMap, trigLateMap, trigOvrMap] ++
  ((List.range 32).flatMap fun i => [trigCmpCfgBase i, trigCmpCfgMode i, trigCmpCfgEvt i, trigCmpCfgArm i, trigCmpCfgArmed i, trigCmpCfgLate i, trigCmpCfgFireCnt i, trigCmpTarget i, trigCmpPeriod i, trigCapCfgBase i, trigCapCfgEdge i, trigCapCfgKind i, trigCapCfgEvt i, trigCapCfgIndex i, trigCapCfgSwTrig i, trigCapCfgFull i, trigCapCfgOverrun i, trigCapCfgCount i, trigCapStamp i])

/-- R356: BRK.SUPPLY.VIN -/
def brkSupplyVin : Fld := ⟨0x40, 0, 16, .ro, .V, 0x0⟩
/-- R356: BRK.SUPPLY.VHOLD -/
def brkSupplyVhold : Fld := ⟨0x40, 16, 16, .ro, .V, 0x0⟩
/-- R356: BRK.SUPPLY_STATUS.BOW -/
def brkSupplyStatusBow : Fld := ⟨0x44, 0, 1, .ro, .V, 0x0⟩
/-- R356: BRK.SUPPLY_STATUS.BOW_SEEN -/
def brkSupplyStatusBowSeen : Fld := ⟨0x44, 1, 1, .st, .H, 0x0⟩
/-- R356: BRK.SUPPLY_STATUS.OV -/
def brkSupplyStatusOv : Fld := ⟨0x44, 2, 1, .ro, .V, 0x0⟩
/-- R356: BRK.SUPPLY_STATUS.VHOLD_OK -/
def brkSupplyStatusVholdOk : Fld := ⟨0x44, 3, 1, .ro, .V, 0x0⟩
/-- R356: BRK.SUPPLY_STATUS.RESTORING -/
def brkSupplyStatusRestoring : Fld := ⟨0x44, 4, 1, .ro, .V, 0x0⟩
/-- R356: BRK.SUPPLY_STATUS.COLD_START -/
def brkSupplyStatusColdStart : Fld := ⟨0x44, 5, 1, .st, .K, 0x0⟩
/-- R356: BRK.P_IN.CARD -/
def brkPInCard : Fld := ⟨0x48, 0, 16, .ro, .V, 0x0⟩
/-- R356: BRK.P_IN.MODULE -/
def brkPInModule : Fld := ⟨0x48, 16, 16, .ro, .V, 0x0⟩
/-- R356: BRK.BOW_BUDGET -/
def brkBowBudget : Fld := ⟨0x4C, 0, 16, .rw, .N, 0x1770⟩
/-- R356: BRK.ENTRY_ADMIT -/
def brkEntryAdmit : Fld := ⟨0x50, 0, 16, .rw, .N, 0x1388⟩
/-- R356: BRK.QUEUE.QUEUED -/
def brkQueueQueued : Fld := ⟨0x54, 0, 8, .ro, .V, 0x0⟩
/-- R356: BRK.QUEUE.RAMP -/
def brkQueueRamp : Fld := ⟨0x54, 8, 4, .ro, .V, 0xF⟩
/-- R356: BRK.QUEUE.SHED -/
def brkQueueShed : Fld := ⟨0x54, 16, 8, .ro, .V, 0x0⟩
/-- R356: BRK.CH_CFG.RETRIES -/
def brkChCfgRetries (i : Nat) : Fld := ⟨0x80 + 0x20 * i, 0, 4, .rw, .N, 3⟩
/-- R356: BRK.CH_CFG.OFF_MIN -/
def brkChCfgOffMin (i : Nat) : Fld := ⟨0x80 + 0x20 * i, 4, 8, .rw, .N, 50⟩
/-- R356: BRK.CH_CFG.SLEW -/
def brkChCfgSlew (i : Nat) : Fld := ⟨0x80 + 0x20 * i, 12, 7, .rw, .N, 20⟩
/-- R356: BRK.CH_CFG.RAMP_MAX -/
def brkChCfgRampMax (i : Nat) : Fld := ⟨0x80 + 0x20 * i, 19, 8, .rw, .N, 100⟩
/-- R356: BRK.CH_CFG.AUTO_ON -/
def brkChCfgAutoOn (i : Nat) : Fld := ⟨0x80 + 0x20 * i, 27, 1, .rw, .N, 0⟩
/-- R356: BRK.CH_LIMITS.FAST -/
def brkChLimitsFast (i : Nat) : Fld := ⟨0x84 + 0x20 * i, 0, 12, .rw, .N, 4095⟩
/-- R356: BRK.CH_LIMITS.RAMP_LIMIT -/
def brkChLimitsRampLimit (i : Nat) : Fld := ⟨0x84 + 0x20 * i, 16, 12, .rw, .N, 512⟩
/-- R356: BRK.CH_CAL.SHUNT_UOHM -/
def brkChCalShuntUohm (i : Nat) : Fld := ⟨0x88 + 0x20 * i, 0, 16, .rw, .N, 0⟩
/-- R356: BRK.CH_CAL.EXPECT -/
def brkChCalExpect (i : Nat) : Fld := ⟨0x88 + 0x20 * i, 16, 16, .rw, .N, 0⟩
/-- R356: BRK.CH_SOA.SOA_LIMIT -/
def brkChSoaSoaLimit (i : Nat) : Fld := ⟨0x8C + 0x20 * i, 0, 16, .rw, .N, 1000⟩
/-- R356: BRK.CH_SOA.SOA_TAU -/
def brkChSoaSoaTau (i : Nat) : Fld := ⟨0x8C + 0x20 * i, 16, 16, .rw, .N, 100⟩
/-- R356: BRK.CH_STATUS.STATE -/
def brkChStatusState (i : Nat) : Fld := ⟨0x90 + 0x20 * i, 0, 3, .ro, .K, 0⟩
/-- R356: BRK.CH_STATUS.REQ -/
def brkChStatusReq (i : Nat) : Fld := ⟨0x90 + 0x20 * i, 3, 1, .ro, .K, 0⟩
/-- R356: BRK.CH_STATUS.GATE -/
def brkChStatusGate (i : Nat) : Fld := ⟨0x90 + 0x20 * i, 4, 1, .ro, .V, 0⟩
/-- R356: BRK.CH_STATUS.ATTEMPTS -/
def brkChStatusAttempts (i : Nat) : Fld := ⟨0x90 + 0x20 * i, 5, 4, .ro, .H, 0⟩
/-- R356: BRK.CH_STATUS.CAUSE -/
def brkChStatusCause (i : Nat) : Fld := ⟨0x90 + 0x20 * i, 9, 4, .ro, .H, 0⟩
/-- R356: BRK.CH_STATUS.CURVE_K -/
def brkChStatusCurveK (i : Nat) : Fld := ⟨0x90 + 0x20 * i, 13, 3, .ro, .H, 0⟩
/-- R356: BRK.CH_STATUS.RECORD -/
def brkChStatusRecord (i : Nat) : Fld := ⟨0x90 + 0x20 * i, 16, 1, .ro, .H, 0⟩
/-- R356: BRK.CH_STATUS.LOCK -/
def brkChStatusLock (i : Nat) : Fld := ⟨0x90 + 0x20 * i, 17, 1, .ro, .H, 0⟩
/-- R356: BRK.CH_MEAS.CURRENT -/
def brkChMeasCurrent (i : Nat) : Fld := ⟨0x94 + 0x20 * i, 0, 16, .ro, .V, 0⟩
/-- R356: BRK.CH_MEAS.V_DS -/
def brkChMeasVDs (i : Nat) : Fld := ⟨0x94 + 0x20 * i, 16, 16, .ro, .V, 0⟩
/-- R356: BRK.CH_TIMER.REMAIN -/
def brkChTimerRemain (i : Nat) : Fld := ⟨0x98 + 0x20 * i, 0, 16, .ro, .H, 0⟩
/-- R356: BRK.CH_TIMER.LAST_D -/
def brkChTimerLastD (i : Nat) : Fld := ⟨0x98 + 0x20 * i, 16, 16, .ro, .H, 0⟩
/-- R356: BRK.CH_COUNT.TRIP_CNT -/
def brkChCountTripCnt (i : Nat) : Fld := ⟨0x9C + 0x20 * i, 0, 16, .ro, .K, 0⟩
/-- R356: BRK.CH_COUNT.SHED_CNT -/
def brkChCountShedCnt (i : Nat) : Fld := ⟨0x9C + 0x20 * i, 16, 16, .ro, .K, 0⟩
/-- R356: BRK.CHCMD.CHANNEL -/
def brkChcmdChannel : Fld := ⟨0x300, 0, 4, .g, .V, 0x0⟩
/-- R356: BRK.CHCMD.CMD -/
def brkChcmdCmd : Fld := ⟨0x300, 8, 4, .g, .V, 0x0⟩
/-- Every field of the table of page kind BRK, each instance of an indexed register by itself. -/
def brkFields : List Fld :=
  [brkSupplyVin, brkSupplyVhold, brkSupplyStatusBow, brkSupplyStatusBowSeen, brkSupplyStatusOv, brkSupplyStatusVholdOk, brkSupplyStatusRestoring, brkSupplyStatusColdStart, brkPInCard, brkPInModule, brkBowBudget, brkEntryAdmit, brkQueueQueued, brkQueueRamp, brkQueueShed, brkChcmdChannel, brkChcmdCmd] ++
  ((List.range 9).flatMap fun i => [brkChCfgRetries i, brkChCfgOffMin i, brkChCfgSlew i, brkChCfgRampMax i, brkChCfgAutoOn i, brkChLimitsFast i, brkChLimitsRampLimit i, brkChCalShuntUohm i, brkChCalExpect i, brkChSoaSoaLimit i, brkChSoaSoaTau i, brkChStatusState i, brkChStatusReq i, brkChStatusGate i, brkChStatusAttempts i, brkChStatusCause i, brkChStatusCurveK i, brkChStatusRecord i, brkChStatusLock i, brkChMeasCurrent i, brkChMeasVDs i, brkChTimerRemain i, brkChTimerLastD i, brkChCountTripCnt i, brkChCountShedCnt i])

/-- R384: CLK.STATUS.ROOT_SRC -/
def clkStatusRootSrc : Fld := ⟨0x40, 0, 1, .ro, .K, 0x1⟩
/-- R384: CLK.STATUS.PLL_LOCK -/
def clkStatusPllLock : Fld := ⟨0x40, 1, 1, .ro, .V, 0x0⟩
/-- R384: CLK.STATUS.XTA_OK -/
def clkStatusXtaOk : Fld := ⟨0x40, 2, 1, .ro, .V, 0x0⟩
/-- R384: CLK.STATUS.XTB_OK -/
def clkStatusXtbOk : Fld := ⟨0x40, 3, 1, .ro, .V, 0x0⟩
/-- R384: CLK.STATUS.TRIM_REF -/
def clkStatusTrimRef : Fld := ⟨0x40, 4, 1, .ro, .V, 0x0⟩
/-- R384: CLK.STATUS.TRIM_VALID -/
def clkStatusTrimValid : Fld := ⟨0x40, 5, 1, .ro, .V, 0x0⟩
/-- R384: CLK.FOSC.TRIM -/
def clkFoscTrim : Fld := ⟨0x44, 0, 10, .ro, .K, 0x200⟩
/-- R384: CLK.FOSC.ERR -/
def clkFoscErr : Fld := ⟨0x44, 16, 16, .ro, .V, 0x0⟩
/-- R384: CLK.GATE_CMD.TARGET -/
def clkGateCmdTarget : Fld := ⟨0x48, 0, 8, .wo, .V, 0x0⟩
/-- R384: CLK.GATE_CMD.OP -/
def clkGateCmdOp : Fld := ⟨0x48, 8, 2, .wo, .V, 0x0⟩
/-- R384: CLK.GATE_STATUS.TARGET -/
def clkGateStatusTarget : Fld := ⟨0x4C, 0, 8, .ro, .V, 0x0⟩
/-- R384: CLK.GATE_STATUS.BUSY -/
def clkGateStatusBusy : Fld := ⟨0x4C, 8, 1, .ro, .V, 0x0⟩
/-- R384: CLK.GATE_STATUS.RESULT -/
def clkGateStatusResult : Fld := ⟨0x4C, 9, 3, .ro, .V, 0x0⟩
/-- R384: CLK.DOMAIN_ON -/
def clkDomainOn : Fld := ⟨0x50, 0, 6, .ro, .K, 0x3F⟩
/-- R384: CLK.TILE_ON -/
def clkTileOn : Fld := ⟨0x54, 0, 16, .ro, .K, 0xFFFF⟩
/-- R384: CLK.ENG_ON -/
def clkEngOn (i : Nat) : Fld := ⟨0x58 + 0x4 * i, 0, 32, .ro, .K, 4294967295⟩
/-- R384: CLK.CAN_ON -/
def clkCanOn : Fld := ⟨0x68, 0, 16, .ro, .K, 0xFFFF⟩
/-- R384: CLK.GATED_ACC_CNT -/
def clkGatedAccCnt : Fld := ⟨0x6C, 0, 32, .ro, .V, 0x0⟩
/-- R384: CLK.CCMD -/
def clkCcmd : Fld := ⟨0x300, 0, 8, .g, .V, 0x0⟩
/-- Every field of the table of page kind CLK, each instance of an indexed register by itself. -/
def clkFields : List Fld :=
  [clkStatusRootSrc, clkStatusPllLock, clkStatusXtaOk, clkStatusXtbOk, clkStatusTrimRef, clkStatusTrimValid, clkFoscTrim, clkFoscErr, clkGateCmdTarget, clkGateCmdOp, clkGateStatusTarget, clkGateStatusBusy, clkGateStatusResult, clkDomainOn, clkTileOn, clkCanOn, clkGatedAccCnt, clkCcmd] ++
  ((List.range 4).flatMap fun i => [clkEngOn i])

/-- R385: GOV.CFG.POLICY -/
def govCfgPolicy : Fld := ⟨0x40, 0, 2, .rw, .N, 0x0⟩
/-- R385: GOV.CFG.FIX_EN -/
def govCfgFixEn : Fld := ⟨0x40, 2, 1, .rw, .K, 0x0⟩
/-- R385: GOV.CFG.FIX_OP -/
def govCfgFixOp : Fld := ⟨0x40, 4, 2, .rw, .K, 0x0⟩
/-- R385: GOV.CFG.FLIGHT_EN -/
def govCfgFlightEn : Fld := ⟨0x40, 8, 1, .rw, .K, 0x1⟩
/-- R385: GOV.STATUS.OP -/
def govStatusOp : Fld := ⟨0x44, 0, 2, .ro, .V, 0x3⟩
/-- R385: GOV.STATUS.OP_TARGET -/
def govStatusOpTarget : Fld := ⟨0x44, 2, 2, .ro, .V, 0x3⟩
/-- R385: GOV.STATUS.SEQ_BUSY -/
def govStatusSeqBusy : Fld := ⟨0x44, 4, 1, .ro, .V, 0x0⟩
/-- R385: GOV.STATUS.OP_CEIL -/
def govStatusOpCeil : Fld := ⟨0x44, 5, 2, .ro, .V, 0x0⟩
/-- R385: GOV.STATUS.FORCED -/
def govStatusForced : Fld := ⟨0x44, 7, 1, .ro, .V, 0x0⟩
/-- R385: GOV.STATUS.HEADROOM -/
def govStatusHeadroom : Fld := ⟨0x44, 8, 8, .ro, .V, 0x0⟩
/-- R385: GOV.STATUS.REQ -/
def govStatusReq : Fld := ⟨0x44, 16, 2, .ro, .V, 0x0⟩
/-- R385: GOV.STATUS.UP_OK -/
def govStatusUpOk : Fld := ⟨0x44, 18, 1, .ro, .V, 0x0⟩
/-- R385: GOV.P_LIMIT -/
def govPLimit : Fld := ⟨0x48, 0, 16, .rw, .N, 0x5DC⟩
/-- R385: GOV.CARD_LIMIT -/
def govCardLimit : Fld := ⟨0x4C, 0, 16, .rw, .N, 0x5DC0⟩
/-- R385: GOV.T_CFG.T_LIMIT -/
def govTCfgTLimit : Fld := ⟨0x50, 0, 8, .rw, .N, 0x69⟩
/-- R385: GOV.T_CFG.T_SPAN -/
def govTCfgTSpan : Fld := ⟨0x50, 8, 8, .rw, .N, 0x14⟩
/-- R385: GOV.T_CFG.T_GUARD -/
def govTCfgTGuard : Fld := ⟨0x50, 16, 8, .rw, .N, 0xA⟩
/-- R385: GOV.THR.DOWN_THR -/
def govThrDownThr : Fld := ⟨0x54, 0, 8, .rw, .K, 0x5⟩
/-- R385: GOV.THR.UP_THR -/
def govThrUpThr : Fld := ⟨0x54, 8, 8, .rw, .K, 0x14⟩
/-- R385: GOV.THR.DWELL -/
def govThrDwell : Fld := ⟨0x54, 16, 16, .rw, .K, 0x10⟩
/-- R385: GOV.LEAD_MIN -/
def govLeadMin : Fld := ⟨0x58, 0, 8, .rw, .K, 0x4⟩
/-- R385: GOV.TEMP_MAX.T_MAX -/
def govTempMaxTMax : Fld := ⟨0x5C, 0, 16, .ro, .V, 0x0⟩
/-- R385: GOV.TEMP_MAX.SENSOR -/
def govTempMaxSensor : Fld := ⟨0x5C, 16, 4, .ro, .V, 0x0⟩
/-- R385: GOV.TEMP.VALUE -/
def govTempValue (i : Nat) : Fld := ⟨0x60 + 0x4 * i, 0, 16, .ro, .V, 0⟩
/-- R385: GOV.TEMP.VALID -/
def govTempValid (i : Nat) : Fld := ⟨0x60 + 0x4 * i, 16, 1, .ro, .V, 0⟩
/-- R385: GOV.CORE_LOAD -/
def govCoreLoad : Fld := ⟨0x84, 0, 7, .ro, .V, 0x0⟩
/-- R385: GOV.WORST -/
def govWorst : Fld := ⟨0x88, 0, 8, .ro, .V, 0x0⟩
/-- R385: GOV.WORST.NODE -/
def govWorstNode : Fld := ⟨0x88, 8, 8, .ro, .V, 0x0⟩
/-- R385: GOV.WORST.VALID -/
def govWorstValid : Fld := ⟨0x88, 16, 1, .ro, .V, 0x0⟩
/-- R385: GOV.WORST.COUNT -/
def govWorstCount : Fld := ⟨0x88, 24, 8, .ro, .V, 0x0⟩
/-- R385: GOV.DECIDE.FLIGHT -/
def govDecideFlight : Fld := ⟨0x8C, 0, 3, .ro, .K, 0x0⟩
/-- R385: GOV.DECIDE.UP -/
def govDecideUp : Fld := ⟨0x8C, 3, 1, .ro, .K, 0x0⟩
/-- R385: GOV.DECIDE.SINCE -/
def govDecideSince : Fld := ⟨0x8C, 8, 24, .ro, .V, 0x0⟩
/-- R385: GOV.OP_CNT -/
def govOpCnt : Fld := ⟨0x90, 0, 32, .ro, .V, 0x0⟩
/-- R385: GOV.ADMIT_DENY_CNT -/
def govAdmitDenyCnt : Fld := ⟨0x94, 0, 32, .ro, .V, 0x0⟩
/-- R385: GOV.CNT_CTRL.CLR -/
def govCntCtrlClr : Fld := ⟨0x98, 0, 1, .wp, .V, 0x0⟩
/-- Every field of the table of page kind GOV, each instance of an indexed register by itself. -/
def govFields : List Fld :=
  [govCfgPolicy, govCfgFixEn, govCfgFixOp, govCfgFlightEn, govStatusOp, govStatusOpTarget, govStatusSeqBusy, govStatusOpCeil, govStatusForced, govStatusHeadroom, govStatusReq, govStatusUpOk, govPLimit, govCardLimit, govTCfgTLimit, govTCfgTSpan, govTCfgTGuard, govThrDownThr, govThrUpThr, govThrDwell, govLeadMin, govTempMaxTMax, govTempMaxSensor, govCoreLoad, govWorst, govWorstNode, govWorstValid, govWorstCount, govDecideFlight, govDecideUp, govDecideSince, govOpCnt, govAdmitDenyCnt, govCntCtrlClr] ++
  ((List.range 9).flatMap fun i => [govTempValue i, govTempValid i])

/-- R486: UPD.STATUS.STATE -/
def updStatusState : Fld := ⟨0x40, 0, 3, .ro, .V, 0x0⟩
/-- R486: UPD.STATUS.TYPE -/
def updStatusType : Fld := ⟨0x40, 3, 1, .ro, .V, 0x0⟩
/-- R486: UPD.STATUS.DEFER -/
def updStatusDefer : Fld := ⟨0x40, 4, 1, .ro, .V, 0x0⟩
/-- R486: UPD.STATUS.SAFE_MODE -/
def updStatusSafeMode : Fld := ⟨0x40, 8, 1, .ro, .V, 0x0⟩
/-- R486: UPD.STATUS.TRIAL -/
def updStatusTrial : Fld := ⟨0x40, 9, 1, .ro, .V, 0x0⟩
/-- R486: UPD.STATUS.STANDBY -/
def updStatusStandby : Fld := ⟨0x40, 10, 1, .ro, .K, 0x0⟩
/-- R486: UPD.ERR.CODE -/
def updErrCode : Fld := ⟨0x44, 0, 8, .ro, .V, 0x0⟩
/-- R486: UPD.ERR.BLOCK -/
def updErrBlock : Fld := ⟨0x44, 8, 24, .ro, .V, 0x0⟩
/-- R486: UPD.PROGRESS.RECEIVED -/
def updProgressReceived : Fld := ⟨0x48, 0, 16, .ro, .V, 0x0⟩
/-- R486: UPD.PROGRESS.BODY_BLOCKS -/
def updProgressBodyBlocks : Fld := ⟨0x48, 16, 16, .ro, .V, 0x0⟩
/-- R486: UPD.RUN_NEWEL.VERSION -/
def updRunNewelVersion : Fld := ⟨0x4C, 0, 32, .ro, .V, 0x0⟩
/-- R486: UPD.RUN_MITRE.VERSION -/
def updRunMitreVersion : Fld := ⟨0x50, 0, 32, .ro, .V, 0x0⟩
/-- R486: UPD.SLOTS.STATES -/
def updSlotsStates : Fld := ⟨0x54, 0, 16, .ro, .N, 0x0⟩
/-- R486: UPD.SLOTS.NEWEL_SLOT -/
def updSlotsNewelSlot : Fld := ⟨0x54, 16, 1, .ro, .V, 0x0⟩
/-- R486: UPD.SLOTS.MITRE_SLOT -/
def updSlotsMitreSlot : Fld := ⟨0x54, 17, 1, .ro, .V, 0x0⟩
/-- R486: UPD.COMPAT_NEWEL -/
def updCompatNewel : Fld := ⟨0x58, 0, 32, .ro, .V, 0x0⟩
/-- R486: UPD.COMPAT_MITRE -/
def updCompatMitre : Fld := ⟨0x5C, 0, 32, .ro, .V, 0x0⟩
/-- R486: UPD.CONFIRM.WINDOW -/
def updConfirmWindow : Fld := ⟨0x60, 0, 12, .rw, .N, 0x12C⟩
/-- R486: UPD.CONFIRM.HOST_CONFIRM -/
def updConfirmHostConfirm : Fld := ⟨0x60, 16, 1, .rw, .N, 0x0⟩
/-- R486: UPD.CONFIRM.RESTORE_RUN -/
def updConfirmRestoreRun : Fld := ⟨0x60, 17, 1, .rw, .N, 0x0⟩
/-- R486: UPD.CONFIRM_LEFT -/
def updConfirmLeft : Fld := ⟨0x64, 0, 12, .ro, .V, 0x0⟩
/-- R486: UPD.RESET.KIND -/
def updResetKind : Fld := ⟨0x68, 0, 3, .ro, .H, 0x5⟩
/-- R486: UPD.RESET.WARM_SRC -/
def updResetWarmSrc : Fld := ⟨0x68, 4, 3, .ro, .H, 0x0⟩
/-- R486: UPD.RESET.BOOTSEL -/
def updResetBootsel : Fld := ⟨0x68, 8, 2, .ro, .H, 0x0⟩
/-- R486: UPD.RESET.COUNT -/
def updResetCount : Fld := ⟨0x68, 16, 16, .ro, .H, 0x0⟩
/-- R486: UPD.CFG_FMT.FORMAT -/
def updCfgFmtFormat : Fld := ⟨0x6C, 0, 16, .ro, .V, 0x0⟩
/-- R486: UPD.CFG_FMT.CFG_WRITE -/
def updCfgFmtCfgWrite : Fld := ⟨0x6C, 16, 16, .ro, .V, 0x0⟩
/-- R486: UPD.NR_FMT.FORMAT -/
def updNrFmtFormat : Fld := ⟨0x70, 0, 16, .ro, .V, 0x0⟩
/-- R486: UPD.NR_FMT.NR_WRITE -/
def updNrFmtNrWrite : Fld := ⟨0x70, 16, 16, .ro, .V, 0x0⟩
/-- R486: UPD.DRAM_SRC -/
def updDramSrc : Fld := ⟨0x74, 12, 15, .rw, .V, 0x0⟩
/-- R486: UPD.UPCMD.CMD -/
def updUpcmdCmd : Fld := ⟨0x300, 0, 8, .g, .V, 0x0⟩
/-- R486: UPD.UPCMD.TYPE -/
def updUpcmdType : Fld := ⟨0x300, 8, 1, .g, .V, 0x0⟩
/-- R486: UPD.UPCMD.DEFER -/
def updUpcmdDefer : Fld := ⟨0x300, 9, 1, .g, .V, 0x0⟩
/-- R486: UPD.UPCMD.BLOCK -/
def updUpcmdBlock : Fld := ⟨0x300, 16, 16, .g, .V, 0x0⟩
/-- R486: UPD.RCMD.CMD -/
def updRcmdCmd : Fld := ⟨0x304, 0, 8, .g, .V, 0x0⟩
/-- R486: UPD.CFGCMD.CMD -/
def updCfgcmdCmd : Fld := ⟨0x308, 0, 8, .g, .V, 0x0⟩
/-- Every field of the table of page kind UPD, each instance of an indexed register by itself. -/
def updFields : List Fld :=
  [updStatusState, updStatusType, updStatusDefer, updStatusSafeMode, updStatusTrial, updStatusStandby, updErrCode, updErrBlock, updProgressReceived, updProgressBodyBlocks, updRunNewelVersion, updRunMitreVersion, updSlotsStates, updSlotsNewelSlot, updSlotsMitreSlot, updCompatNewel, updCompatMitre, updConfirmWindow, updConfirmHostConfirm, updConfirmRestoreRun, updConfirmLeft, updResetKind, updResetWarmSrc, updResetBootsel, updResetCount, updCfgFmtFormat, updCfgFmtCfgWrite, updNrFmtFormat, updNrFmtNrWrite, updDramSrc, updUpcmdCmd, updUpcmdType, updUpcmdDefer, updUpcmdBlock, updRcmdCmd, updCfgcmdCmd]

/-- R487: DRAM.STATUS.INIT_DONE -/
def dramStatusInitDone : Fld := ⟨0x40, 0, 1, .ro, .V, 0x0⟩
/-- R487: DRAM.STATUS.SCRUB_BUSY -/
def dramStatusScrubBusy : Fld := ⟨0x40, 1, 1, .ro, .V, 0x0⟩
/-- R487: DRAM.CFG.SCRUB_EN -/
def dramCfgScrubEn : Fld := ⟨0x44, 0, 1, .rw, .K, 0x1⟩
/-- R487: DRAM.CFG.SCRUB_PERIOD -/
def dramCfgScrubPeriod : Fld := ⟨0x44, 8, 8, .rw, .K, 0x3C⟩
/-- R487: DRAM.CORR_CNT -/
def dramCorrCnt : Fld := ⟨0x48, 0, 32, .ro, .V, 0x0⟩
/-- R487: DRAM.UNCORR_CNT -/
def dramUncorrCnt : Fld := ⟨0x4C, 0, 32, .ro, .V, 0x0⟩
/-- R487: DRAM.ERR_ADDR -/
def dramErrAddr : Fld := ⟨0x50, 3, 24, .ro, .V, 0x0⟩
/-- R487: DRAM.CNT_CTRL.CLR -/
def dramCntCtrlClr : Fld := ⟨0x54, 0, 1, .wp, .V, 0x0⟩
/-- Every field of the table of page kind DRAM, each instance of an indexed register by itself. -/
def dramFields : List Fld :=
  [dramStatusInitDone, dramStatusScrubBusy, dramCfgScrubEn, dramCfgScrubPeriod, dramCorrCnt, dramUncorrCnt, dramErrAddr, dramCntCtrlClr]

/-- R488: FLASH.STATUS.BUSY -/
def flashStatusBusy : Fld := ⟨0x40, 0, 1, .ro, .V, 0x0⟩
/-- R488: FLASH.STATUS.WEAR -/
def flashStatusWear : Fld := ⟨0x40, 1, 1, .ro, .V, 0x0⟩
/-- R488: FLASH.CORR_CNT -/
def flashCorrCnt : Fld := ⟨0x44, 0, 32, .ro, .V, 0x0⟩
/-- R488: FLASH.UNCORR_CNT -/
def flashUncorrCnt : Fld := ⟨0x48, 0, 32, .ro, .V, 0x0⟩
/-- R488: FLASH.ERR_ADDR -/
def flashErrAddr : Fld := ⟨0x4C, 0, 25, .ro, .V, 0x0⟩
/-- R488: FLASH.ERASE_MAX.COUNT -/
def flashEraseMaxCount : Fld := ⟨0x50, 0, 17, .ro, .V, 0x0⟩
/-- R488: FLASH.ERASE_MAX.SECTOR -/
def flashEraseMaxSector : Fld := ⟨0x50, 17, 8, .ro, .V, 0x0⟩
/-- R488: FLASH.CNT_CTRL.CLR -/
def flashCntCtrlClr : Fld := ⟨0x54, 0, 1, .wp, .V, 0x0⟩
/-- Every field of the table of page kind FLASH, each instance of an indexed register by itself. -/
def flashFields : List Fld :=
  [flashStatusBusy, flashStatusWear, flashCorrCnt, flashUncorrCnt, flashErrAddr, flashEraseMaxCount, flashEraseMaxSector, flashCntCtrlClr]

end Sys2Proof.Machine.Reg
end

