-- ==== Sys2Proof/Machine/RegsRing.lean ====
section
/-!
DEFINITION. The register fields of the LANE, STAIR, IMG, STN and DUPLEX pages, from the register tables of spec/: each field's
offset, lowest bit, width, access code, retention class and reset value (R7). An indexed register is a function of its index.
-/

namespace Sys2Proof.Machine.Reg

/-- R65: LANE.PORT_CFG.RATE -/
def lanePortCfgRate : Fld := ⟨0x40, 0, 1, .rw, .N, 0x0⟩
/-- R65: LANE.PORT_CFG.ENABLE -/
def lanePortCfgEnable : Fld := ⟨0x40, 1, 1, .rw, .K, 0x1⟩
/-- R65: LANE.PORT_CFG.WIDTH -/
def lanePortCfgWidth : Fld := ⟨0x40, 4, 2, .ro, .V, 0x2⟩
/-- R65: LANE.PORT_CFG.WIDTH_NEXT -/
def lanePortCfgWidthNext : Fld := ⟨0x40, 6, 2, .ro, .V, 0x2⟩
/-- R65: LANE.PORT_CFG.CNT_CLR -/
def lanePortCfgCntClr : Fld := ⟨0x40, 8, 1, .wp, .V, 0x0⟩
/-- R65: LANE.PORT_STATUS.LINK_UP -/
def lanePortStatusLinkUp : Fld := ⟨0x44, 0, 1, .ro, .V, 0x0⟩
/-- R65: LANE.PORT_STATUS.NEIGHBOUR -/
def lanePortStatusNeighbour : Fld := ⟨0x44, 8, 8, .ro, .V, 0x0⟩
/-- R65: LANE.PORT_STATUS.NEIGHBOUR_PORT -/
def lanePortStatusNeighbourPort : Fld := ⟨0x44, 16, 1, .ro, .V, 0x0⟩
/-- R65: LANE.PORT_STATUS.MAX_SKEW -/
def lanePortStatusMaxSkew : Fld := ⟨0x44, 24, 8, .ro, .V, 0x0⟩
/-- R65: LANE.PORT_ELASTIC.FILL -/
def lanePortElasticFill : Fld := ⟨0x48, 0, 5, .ro, .V, 0x8⟩
/-- R65: LANE.PORT_ELASTIC.FILL_MIN -/
def lanePortElasticFillMin : Fld := ⟨0x48, 8, 5, .ro, .V, 0x8⟩
/-- R65: LANE.PORT_ELASTIC.FILL_MAX -/
def lanePortElasticFillMax : Fld := ⟨0x48, 16, 5, .ro, .V, 0x8⟩
/-- R65: LANE.PORT_BRINGUP.LAST_US -/
def lanePortBringupLastUs : Fld := ⟨0x4C, 0, 16, .ro, .V, 0x0⟩
/-- R65: LANE.PORT_BRINGUP.LINKUP_CNT -/
def lanePortBringupLinkupCnt : Fld := ⟨0x4C, 16, 16, .ro, .K, 0x0⟩
/-- R65: LANE.PORT_FILL_INS.COUNT -/
def lanePortFillInsCount : Fld := ⟨0x50, 0, 32, .ro, .V, 0x0⟩
/-- R65: LANE.PORT_FILL_DEL.COUNT -/
def lanePortFillDelCount : Fld := ⟨0x54, 0, 32, .ro, .V, 0x0⟩
/-- R65: LANE.L_LCTRL.TX_EN -/
def laneLLctrlTxEn (i : Nat) : Fld := ⟨0x80 + 0x40 * i, 0, 1, .rw, .K, 1⟩
/-- R65: LANE.L_LCTRL.RX_EN -/
def laneLLctrlRxEn (i : Nat) : Fld := ⟨0x80 + 0x40 * i, 1, 1, .rw, .K, 1⟩
/-- R65: LANE.L_LCTRL.MODE -/
def laneLLctrlMode (i : Nat) : Fld := ⟨0x80 + 0x40 * i, 2, 2, .ro, .K, 0⟩
/-- R65: LANE.L_LCTRL.TX_IDLE -/
def laneLLctrlTxIdle (i : Nat) : Fld := ⟨0x80 + 0x40 * i, 4, 1, .rw, .K, 0⟩
/-- R65: LANE.L_LSTATUS.STATE -/
def laneLLstatusState (i : Nat) : Fld := ⟨0x84 + 0x40 * i, 0, 3, .ro, .V, 1⟩
/-- R65: LANE.L_LSTATUS.PLL_LOCK -/
def laneLLstatusPllLock (i : Nat) : Fld := ⟨0x84 + 0x40 * i, 3, 1, .ro, .V, 0⟩
/-- R65: LANE.L_LSTATUS.CDR_LOCK -/
def laneLLstatusCdrLock (i : Nat) : Fld := ⟨0x84 + 0x40 * i, 4, 1, .ro, .V, 0⟩
/-- R65: LANE.L_LSTATUS.BLOCK_LOCK -/
def laneLLstatusBlockLock (i : Nat) : Fld := ⟨0x84 + 0x40 * i, 5, 1, .ro, .V, 0⟩
/-- R65: LANE.L_LSTATUS.MARKER_LOCK -/
def laneLLstatusMarkerLock (i : Nat) : Fld := ⟨0x84 + 0x40 * i, 6, 1, .ro, .V, 0⟩
/-- R65: LANE.L_LSTATUS.IN_WIDTH -/
def laneLLstatusInWidth (i : Nat) : Fld := ⟨0x84 + 0x40 * i, 7, 1, .ro, .V, 0⟩
/-- R65: LANE.L_LSTATUS.SKEW -/
def laneLLstatusSkew (i : Nat) : Fld := ⟨0x84 + 0x40 * i, 8, 6, .ro, .V, 0⟩
/-- R65: LANE.L_LSTATUS.PRBS_LOCK -/
def laneLLstatusPrbsLock (i : Nat) : Fld := ⟨0x84 + 0x40 * i, 14, 1, .ro, .V, 0⟩
/-- R65: LANE.L_LSTATUS.HI_BER -/
def laneLLstatusHiBer (i : Nat) : Fld := ⟨0x84 + 0x40 * i, 15, 1, .ro, .V, 0⟩
/-- R65: LANE.L_TXEQ.PRE -/
def laneLTxeqPre (i : Nat) : Fld := ⟨0x88 + 0x40 * i, 0, 4, .rw, .N, 2⟩
/-- R65: LANE.L_TXEQ.POST -/
def laneLTxeqPost (i : Nat) : Fld := ⟨0x88 + 0x40 * i, 8, 5, .rw, .N, 6⟩
/-- R65: LANE.L_TXEQ.SWING -/
def laneLTxeqSwing (i : Nat) : Fld := ⟨0x88 + 0x40 * i, 16, 4, .rw, .N, 8⟩
/-- R65: LANE.L_RXEQ.ADAPT -/
def laneLRxeqAdapt (i : Nat) : Fld := ⟨0x8C + 0x40 * i, 0, 1, .rw, .N, 1⟩
/-- R65: LANE.L_RXEQ.FREEZE -/
def laneLRxeqFreeze (i : Nat) : Fld := ⟨0x8C + 0x40 * i, 1, 1, .rw, .V, 0⟩
/-- R65: LANE.L_RXEQ.CTLE -/
def laneLRxeqCtle (i : Nat) : Fld := ⟨0x8C + 0x40 * i, 8, 5, .ro, .V, 0⟩
/-- R65: LANE.L_PRBS_CTRL.TX_PAT -/
def laneLPrbsCtrlTxPat (i : Nat) : Fld := ⟨0x90 + 0x40 * i, 0, 3, .rw, .V, 0⟩
/-- R65: LANE.L_PRBS_CTRL.TX_INV -/
def laneLPrbsCtrlTxInv (i : Nat) : Fld := ⟨0x90 + 0x40 * i, 3, 1, .rw, .V, 0⟩
/-- R65: LANE.L_PRBS_CTRL.RX_PAT -/
def laneLPrbsCtrlRxPat (i : Nat) : Fld := ⟨0x90 + 0x40 * i, 4, 3, .rw, .V, 0⟩
/-- R65: LANE.L_PRBS_CTRL.RX_INV -/
def laneLPrbsCtrlRxInv (i : Nat) : Fld := ⟨0x90 + 0x40 * i, 7, 1, .rw, .V, 0⟩
/-- R65: LANE.L_INJ_CTRL.POS -/
def laneLInjCtrlPos (i : Nat) : Fld := ⟨0x94 + 0x40 * i, 0, 7, .rw, .V, 0⟩
/-- R65: LANE.L_INJ_CTRL.BURST_M1 -/
def laneLInjCtrlBurstM1 (i : Nat) : Fld := ⟨0x94 + 0x40 * i, 8, 6, .rw, .V, 0⟩
/-- R65: LANE.L_INJ_CTRL.SINGLE -/
def laneLInjCtrlSingle (i : Nat) : Fld := ⟨0x94 + 0x40 * i, 16, 1, .wp, .V, 0⟩
/-- R65: LANE.L_INJ_CTRL.BURST -/
def laneLInjCtrlBurst (i : Nat) : Fld := ⟨0x94 + 0x40 * i, 17, 1, .wp, .V, 0⟩
/-- R65: LANE.L_INJ_PERIOD.N -/
def laneLInjPeriodN (i : Nat) : Fld := ⟨0x98 + 0x40 * i, 0, 32, .rw, .V, 0⟩
/-- R65: LANE.L_LOCKLOSS.BLOCK -/
def laneLLocklossBlock (i : Nat) : Fld := ⟨0x9C + 0x40 * i, 0, 16, .ro, .V, 0⟩
/-- R65: LANE.L_LOCKLOSS.MARKER -/
def laneLLocklossMarker (i : Nat) : Fld := ⟨0x9C + 0x40 * i, 16, 16, .ro, .V, 0⟩
/-- R65: LANE.L_PRBS_ERR_LO -/
def laneLPrbsErrLo (i : Nat) : Fld := ⟨0xA0 + 0x40 * i, 0, 32, .ro, .V, 0⟩
/-- R65: LANE.L_PRBS_ERR_HI -/
def laneLPrbsErrHi (i : Nat) : Fld := ⟨0xA4 + 0x40 * i, 0, 16, .ro, .V, 0⟩
/-- R65: LANE.L_PRBS_BITS_LO -/
def laneLPrbsBitsLo (i : Nat) : Fld := ⟨0xA8 + 0x40 * i, 0, 32, .ro, .V, 0⟩
/-- R65: LANE.L_PRBS_BITS_HI -/
def laneLPrbsBitsHi (i : Nat) : Fld := ⟨0xAC + 0x40 * i, 0, 16, .ro, .V, 0⟩
/-- R65: LANE.L_BLK_ERR_LO -/
def laneLBlkErrLo (i : Nat) : Fld := ⟨0xB0 + 0x40 * i, 0, 32, .ro, .V, 0⟩
/-- R65: LANE.L_BLK_ERR_HI -/
def laneLBlkErrHi (i : Nat) : Fld := ⟨0xB4 + 0x40 * i, 0, 16, .ro, .V, 0⟩
/-- R65: LANE.L_BIP_ERR_LO -/
def laneLBipErrLo (i : Nat) : Fld := ⟨0xB8 + 0x40 * i, 0, 32, .ro, .V, 0⟩
/-- R65: LANE.L_BIP_ERR_HI -/
def laneLBipErrHi (i : Nat) : Fld := ⟨0xBC + 0x40 * i, 0, 16, .ro, .V, 0⟩
/-- R65: LANE.L_MODE -/
def laneLMode (i : Nat) : Fld := ⟨0x300 + 0x4 * i, 0, 2, .g, .K, 0⟩
/-- Every field of the table of page kind LANE, each instance of an indexed register by itself. -/
def laneFields : List Fld :=
  [lanePortCfgRate, lanePortCfgEnable, lanePortCfgWidth, lanePortCfgWidthNext, lanePortCfgCntClr, lanePortStatusLinkUp, lanePortStatusNeighbour, lanePortStatusNeighbourPort, lanePortStatusMaxSkew, lanePortElasticFill, lanePortElasticFillMin, lanePortElasticFillMax, lanePortBringupLastUs, lanePortBringupLinkupCnt, lanePortFillInsCount, lanePortFillDelCount] ++
  ((List.range 4).flatMap fun i => [laneLLctrlTxEn i, laneLLctrlRxEn i, laneLLctrlMode i, laneLLctrlTxIdle i, laneLLstatusState i, laneLLstatusPllLock i, laneLLstatusCdrLock i, laneLLstatusBlockLock i, laneLLstatusMarkerLock i, laneLLstatusInWidth i, laneLLstatusSkew i, laneLLstatusPrbsLock i, laneLLstatusHiBer i, laneLTxeqPre i, laneLTxeqPost i, laneLTxeqSwing i, laneLRxeqAdapt i, laneLRxeqFreeze i, laneLRxeqCtle i, laneLPrbsCtrlTxPat i, laneLPrbsCtrlTxInv i, laneLPrbsCtrlRxPat i, laneLPrbsCtrlRxInv i, laneLInjCtrlPos i, laneLInjCtrlBurstM1 i, laneLInjCtrlSingle i, laneLInjCtrlBurst i, laneLInjPeriodN i, laneLLocklossBlock i, laneLLocklossMarker i, laneLPrbsErrLo i, laneLPrbsErrHi i, laneLPrbsBitsLo i, laneLPrbsBitsHi i, laneLBlkErrLo i, laneLBlkErrHi i, laneLBipErrLo i, laneLBipErrHi i, laneLMode i])

/-- R113: STAIR.STATUS.ACT_STATE -/
def stairStatusActState : Fld := ⟨0x40, 0, 2, .ro, .K, 0x0⟩
/-- R113: STAIR.STATUS.ACT_PENDING -/
def stairStatusActPending : Fld := ⟨0x40, 2, 1, .ro, .K, 0x0⟩
/-- R113: STAIR.STATUS.PEND_STATE -/
def stairStatusPendState : Fld := ⟨0x40, 4, 3, .ro, .K, 0x0⟩
/-- R113: STAIR.STATUS.CUR_FLIGHT -/
def stairStatusCurFlight : Fld := ⟨0x40, 8, 3, .ro, .K, 0x0⟩
/-- R113: STAIR.STATUS.NEXT_FLIGHT -/
def stairStatusNextFlight : Fld := ⟨0x40, 12, 3, .ro, .K, 0x0⟩
/-- R113: STAIR.STATUS.NEXT_VALID -/
def stairStatusNextValid : Fld := ⟨0x40, 15, 1, .ro, .K, 0x0⟩
/-- R113: STAIR.ERR.CODE -/
def stairErrCode : Fld := ⟨0x44, 0, 8, .ro, .K, 0x0⟩
/-- R113: STAIR.ERR.OFFSET -/
def stairErrOffset : Fld := ⟨0x44, 8, 24, .ro, .K, 0x0⟩
/-- R113: STAIR.ACT_HASH -/
def stairActHash : Fld := ⟨0x48, 0, 32, .ro, .K, 0x0⟩
/-- R113: STAIR.PEND_HASH -/
def stairPendHash : Fld := ⟨0x4C, 0, 32, .ro, .K, 0x0⟩
/-- R113: STAIR.MASTER_HASH.HASH16 -/
def stairMasterHashHash16 : Fld := ⟨0x50, 0, 16, .ro, .V, 0x0⟩
/-- R113: STAIR.MASTER_HASH.VALID -/
def stairMasterHashValid : Fld := ⟨0x50, 16, 1, .ro, .V, 0x0⟩
/-- R113: STAIR.CYCLE_LO -/
def stairCycleLo : Fld := ⟨0x54, 0, 32, .ro, .V, 0x0⟩
/-- R113: STAIR.CYCLE_HI -/
def stairCycleHi : Fld := ⟨0x58, 0, 16, .ro, .V, 0x0⟩
/-- R113: STAIR.NEXT_AT -/
def stairNextAt : Fld := ⟨0x5C, 0, 24, .ro, .K, 0x0⟩
/-- R113: STAIR.PEND_USAGE -/
def stairPendUsage : Fld := ⟨0x60, 0, 22, .ro, .K, 0x0⟩
/-- R113: STAIR.ACT_USAGE -/
def stairActUsage : Fld := ⟨0x64, 0, 22, .ro, .K, 0x0⟩
/-- R113: STAIR.BLOCKS -/
def stairBlocks : Fld := ⟨0x68, 0, 26, .ro, .K, 0x0⟩
/-- R113: STAIR.SPAN_E -/
def stairSpanE : Fld := ⟨0x6C, 0, 26, .ro, .K, 0x0⟩
/-- R113: STAIR.SPAN_W -/
def stairSpanW : Fld := ⟨0x70, 0, 26, .ro, .K, 0x0⟩
/-- R113: STAIR.CMD -/
def stairCmd : Fld := ⟨0x300, 0, 8, .g, .V, 0x0⟩
/-- R113: STAIR.ACT_CYCLE_LO -/
def stairActCycleLo : Fld := ⟨0x304, 0, 32, .g, .K, 0x0⟩
/-- R113: STAIR.ACT_CYCLE_HI -/
def stairActCycleHi : Fld := ⟨0x308, 0, 16, .g, .K, 0x0⟩
/-- R113: STAIR.ACT_CYCLE_HI.ACT_FLIGHT -/
def stairActCycleHiActFlight : Fld := ⟨0x308, 16, 3, .g, .K, 0x0⟩
/-- R113: STAIR.ACT_HASH_CHK -/
def stairActHashChk : Fld := ⟨0x30C, 0, 32, .g, .K, 0x0⟩
/-- Every field of the table of page kind STAIR, each instance of an indexed register by itself. -/
def stairFields : List Fld :=
  [stairStatusActState, stairStatusActPending, stairStatusPendState, stairStatusCurFlight, stairStatusNextFlight, stairStatusNextValid, stairErrCode, stairErrOffset, stairActHash, stairPendHash, stairMasterHashHash16, stairMasterHashValid, stairCycleLo, stairCycleHi, stairNextAt, stairPendUsage, stairActUsage, stairBlocks, stairSpanE, stairSpanW, stairCmd, stairActCycleLo, stairActCycleHi, stairActCycleHiActFlight, stairActHashChk]

/-- R113: IMG.CFG.DMA_EN -/
def imgCfgDmaEn : Fld := ⟨0x40, 0, 1, .rw, .K, 0x0⟩
/-- R113: IMG.DONE_CYCLE_LO -/
def imgDoneCycleLo : Fld := ⟨0x44, 0, 32, .ro, .V, 0x0⟩
/-- R113: IMG.DONE_CYCLE_HI -/
def imgDoneCycleHi : Fld := ⟨0x48, 0, 16, .ro, .V, 0x0⟩
/-- R113: IMG.MISS_CNT -/
def imgMissCnt : Fld := ⟨0x4C, 0, 32, .ro, .V, 0x0⟩
/-- R113: IMG.VOID_CNT -/
def imgVoidCnt : Fld := ⟨0x50, 0, 32, .ro, .V, 0x0⟩
/-- R113: IMG.HOST_BASE_A_LO -/
def imgHostBaseALo : Fld := ⟨0x54, 12, 20, .rw, .K, 0x0⟩
/-- R113: IMG.HOST_BASE_A_HI -/
def imgHostBaseAHi : Fld := ⟨0x58, 0, 32, .rw, .K, 0x0⟩
/-- R113: IMG.HOST_BASE_B_LO -/
def imgHostBaseBLo : Fld := ⟨0x5C, 12, 20, .rw, .K, 0x0⟩
/-- R113: IMG.HOST_BASE_B_HI -/
def imgHostBaseBHi : Fld := ⟨0x60, 0, 32, .rw, .K, 0x0⟩
/-- R113: IMG.STAMP_OFF -/
def imgStampOff : Fld := ⟨0x64, 4, 18, .rw, .K, 0x0⟩
/-- R113: IMG.DMA_CYCLE -/
def imgDmaCycle : Fld := ⟨0x68, 0, 32, .ro, .V, 0x0⟩
/-- R113: IMG.DMA_ERR_CNT -/
def imgDmaErrCnt : Fld := ⟨0x6C, 0, 32, .ro, .V, 0x0⟩
/-- R113: IMG.CNT_CTRL.CLR -/
def imgCntCtrlClr : Fld := ⟨0x70, 0, 1, .wp, .V, 0x0⟩
/-- Every field of the table of page kind IMG, each instance of an indexed register by itself. -/
def imgFields : List Fld :=
  [imgCfgDmaEn, imgDoneCycleLo, imgDoneCycleHi, imgMissCnt, imgVoidCnt, imgHostBaseALo, imgHostBaseAHi, imgHostBaseBLo, imgHostBaseBHi, imgStampOff, imgDmaCycle, imgDmaErrCnt, imgCntCtrlClr]

/-- R146: STN.CFG.RESUME_CYCLES -/
def stnCfgResumeCycles : Fld := ⟨0x40, 0, 4, .rw, .K, 0x4⟩
/-- R146: STN.CFG.CNT_CLR -/
def stnCfgCntClr : Fld := ⟨0x40, 8, 1, .wp, .V, 0x0⟩
/-- R146: STN.STATUS.ROLE -/
def stnStatusRole : Fld := ⟨0x44, 0, 3, .ro, .K, 0x0⟩
/-- R146: STN.STATUS.RX_OPEN -/
def stnStatusRxOpen : Fld := ⟨0x44, 4, 1, .ro, .K, 0x0⟩
/-- R146: STN.STATUS.TX_OPEN -/
def stnStatusTxOpen : Fld := ⟨0x44, 5, 1, .ro, .K, 0x0⟩
/-- R146: STN.STATUS.ARMED -/
def stnStatusArmed : Fld := ⟨0x44, 6, 1, .ro, .K, 0x0⟩
/-- R146: STN.STATUS.ORIGIN_SEEN -/
def stnStatusOriginSeen : Fld := ⟨0x44, 8, 8, .ro, .V, 0x0⟩
/-- R146: STN.STATUS.RESUME_CNT -/
def stnStatusResumeCnt : Fld := ⟨0x44, 16, 4, .ro, .V, 0x0⟩
/-- R146: STN.ARR_LAST -/
def stnArrLast : Fld := ⟨0x48, 0, 32, .ro, .V, 0x0⟩
/-- R146: STN.ARR_MIN -/
def stnArrMin : Fld := ⟨0x4C, 0, 32, .ro, .V, 0x7FFFFFFF⟩
/-- R146: STN.ARR_MAX -/
def stnArrMax : Fld := ⟨0x50, 0, 32, .ro, .V, 0x80000000⟩
/-- R146: STN.MISMATCH.TREAD_ID -/
def stnMismatchTreadId : Fld := ⟨0x5C, 0, 16, .ro, .V, 0x0⟩
/-- R146: STN.MISMATCH_TAG -/
def stnMismatchTag : Fld := ⟨0x60, 0, 20, .ro, .V, 0x0⟩
/-- R146: STN.GOOD_CNT -/
def stnGoodCnt : Fld := ⟨0x70, 0, 32, .ro, .V, 0x0⟩
/-- R146: STN.LOCAL_ERR_CNT -/
def stnLocalErrCnt : Fld := ⟨0x74, 0, 32, .ro, .V, 0x0⟩
/-- R146: STN.UPSTREAM_ERR_CNT -/
def stnUpstreamErrCnt : Fld := ⟨0x78, 0, 32, .ro, .V, 0x0⟩
/-- R146: STN.TRAILER_ERR_CNT -/
def stnTrailerErrCnt : Fld := ⟨0x7C, 0, 32, .ro, .V, 0x0⟩
/-- R146: STN.DUP_CNT -/
def stnDupCnt : Fld := ⟨0x80, 0, 32, .ro, .V, 0x0⟩
/-- R146: STN.LATE_CNT -/
def stnLateCnt : Fld := ⟨0x84, 0, 32, .ro, .V, 0x0⟩
/-- R146: STN.DUP_MISMATCH_CNT -/
def stnDupMismatchCnt : Fld := ⟨0x88, 0, 32, .ro, .V, 0x0⟩
/-- R146: STN.UNDO_CNT -/
def stnUndoCnt : Fld := ⟨0x8C, 0, 32, .ro, .V, 0x0⟩
/-- R146: STN.COMPLETE_CNT -/
def stnCompleteCnt : Fld := ⟨0x90, 0, 32, .ro, .V, 0x0⟩
/-- R146: STN.LATE_GAL_CNT -/
def stnLateGalCnt : Fld := ⟨0x94, 0, 32, .ro, .V, 0x0⟩
/-- R146: STN.LAYOUT_CNT -/
def stnLayoutCnt : Fld := ⟨0x98, 0, 32, .ro, .V, 0x0⟩
/-- R146: STN.CARRY_CNT -/
def stnCarryCnt : Fld := ⟨0x9C, 0, 32, .ro, .V, 0x0⟩
/-- R146: STN.OPEN_CYCLE_LO -/
def stnOpenCycleLo : Fld := ⟨0x300, 0, 32, .g, .K, 0x0⟩
/-- R146: STN.OPEN_CYCLE_HI -/
def stnOpenCycleHi : Fld := ⟨0x304, 0, 16, .g, .K, 0x0⟩
/-- R146: STN.QCMD -/
def stnQcmd : Fld := ⟨0x308, 0, 8, .g, .V, 0x0⟩
/-- Every field of the table of page kind STN, each instance of an indexed register by itself. -/
def stnFields : List Fld :=
  [stnCfgResumeCycles, stnCfgCntClr, stnStatusRole, stnStatusRxOpen, stnStatusTxOpen, stnStatusArmed, stnStatusOriginSeen, stnStatusResumeCnt, stnArrLast, stnArrMin, stnArrMax, stnMismatchTreadId, stnMismatchTag, stnGoodCnt, stnLocalErrCnt, stnUpstreamErrCnt, stnTrailerErrCnt, stnDupCnt, stnLateCnt, stnDupMismatchCnt, stnUndoCnt, stnCompleteCnt, stnLateGalCnt, stnLayoutCnt, stnCarryCnt, stnOpenCycleLo, stnOpenCycleHi, stnQcmd]

/-- R180: DUPLEX.CFG.PREFERRED -/
def duplexCfgPreferred : Fld := ⟨0x40, 0, 1, .rw, .N, 0x0⟩
/-- R180: DUPLEX.CFG.KEY_SLOT -/
def duplexCfgKeySlot : Fld := ⟨0x40, 1, 3, .rw, .N, 0x0⟩
/-- R180: DUPLEX.CFG.AUTO_JOIN -/
def duplexCfgAutoJoin : Fld := ⟨0x40, 4, 1, .rw, .K, 0x1⟩
/-- R180: DUPLEX.CFG.LEASE_CYCLES -/
def duplexCfgLeaseCycles : Fld := ⟨0x40, 8, 7, .rw, .K, 0x8⟩
/-- R180: DUPLEX.STATUS.PAIR_ROLE -/
def duplexStatusPairRole : Fld := ⟨0x44, 0, 2, .ro, .K, 0x0⟩
/-- R180: DUPLEX.STATUS.ELIGIBLE -/
def duplexStatusEligible : Fld := ⟨0x44, 2, 1, .ro, .V, 0x0⟩
/-- R180: DUPLEX.STATUS.PARTNER_ELIGIBLE -/
def duplexStatusPartnerEligible : Fld := ⟨0x44, 3, 1, .ro, .V, 0x0⟩
/-- R180: DUPLEX.STATUS.PAIR_LINK_UP -/
def duplexStatusPairLinkUp : Fld := ⟨0x44, 4, 1, .ro, .V, 0x0⟩
/-- R180: DUPLEX.STATUS.YIELDING -/
def duplexStatusYielding : Fld := ⟨0x44, 5, 1, .ro, .V, 0x0⟩
/-- R180: DUPLEX.STATUS.RECLAIM_REQ -/
def duplexStatusReclaimReq : Fld := ⟨0x44, 6, 1, .ro, .V, 0x0⟩
/-- R180: DUPLEX.STATUS.HEADLESS -/
def duplexStatusHeadless : Fld := ⟨0x44, 7, 1, .ro, .V, 0x0⟩
/-- R180: DUPLEX.STATUS.PARTNER -/
def duplexStatusPartner : Fld := ⟨0x44, 8, 8, .ro, .K, 0x0⟩
/-- R180: DUPLEX.STATUS.HOLDER -/
def duplexStatusHolder : Fld := ⟨0x44, 16, 8, .ro, .K, 0x0⟩
/-- R180: DUPLEX.ELIG -/
def duplexElig : Fld := ⟨0x48, 0, 5, .ro, .V, 0x0⟩
/-- R180: DUPLEX.TERM -/
def duplexTerm : Fld := ⟨0x4C, 0, 32, .ro, .K, 0x0⟩
/-- R180: DUPLEX.EXPIRY_LO -/
def duplexExpiryLo : Fld := ⟨0x50, 0, 32, .ro, .K, 0x0⟩
/-- R180: DUPLEX.EXPIRY_HI -/
def duplexExpiryHi : Fld := ⟨0x54, 0, 16, .ro, .K, 0x0⟩
/-- R180: DUPLEX.LEASE.LEASE_EFF -/
def duplexLeaseLeaseEff : Fld := ⟨0x58, 0, 7, .ro, .V, 0x8⟩
/-- R180: DUPLEX.LEASE.LOOP_CYCLES -/
def duplexLeaseLoopCycles : Fld := ⟨0x58, 8, 4, .ro, .V, 0x0⟩
/-- R180: DUPLEX.RECLAIM_HOLDOFF -/
def duplexReclaimHoldoff : Fld := ⟨0x5C, 0, 32, .rw, .K, 0x4E200⟩
/-- R180: DUPLEX.RECLAIM_CNT -/
def duplexReclaimCnt : Fld := ⟨0x60, 0, 32, .ro, .V, 0x0⟩
/-- R180: DUPLEX.HOST_WD -/
def duplexHostWd : Fld := ⟨0x64, 0, 16, .rw, .K, 0x0⟩
/-- R180: DUPLEX.HOST_ALIVE.KICK -/
def duplexHostAliveKick : Fld := ⟨0x68, 0, 1, .wp, .V, 0x0⟩
/-- R180: DUPLEX.PAIR_ERR.CRC_ERR -/
def duplexPairErrCrcErr : Fld := ⟨0x6C, 0, 16, .ro, .V, 0x0⟩
/-- R180: DUPLEX.PAIR_ERR.MISSING -/
def duplexPairErrMissing : Fld := ⟨0x6C, 16, 16, .ro, .V, 0x0⟩
/-- R180: DUPLEX.LEASE_CNT.GAINED -/
def duplexLeaseCntGained : Fld := ⟨0x70, 0, 16, .ro, .K, 0x0⟩
/-- R180: DUPLEX.LEASE_CNT.LOST -/
def duplexLeaseCntLost : Fld := ⟨0x70, 16, 16, .ro, .K, 0x0⟩
/-- R180: DUPLEX.TOKEN_REJ -/
def duplexTokenRej : Fld := ⟨0x74, 0, 32, .ro, .V, 0x0⟩
/-- R180: DUPLEX.ENG_GATE -/
def duplexEngGate (i : Nat) : Fld := ⟨0x78 + 0x4 * i, 0, 32, .rw, .K, 4294967295⟩
/-- R180: DUPLEX.CAN_GATE -/
def duplexCanGate : Fld := ⟨0x88, 0, 16, .rw, .K, 0xFFFF⟩
/-- R180: DUPLEX.GATED_TX -/
def duplexGatedTx : Fld := ⟨0x8C, 0, 32, .ro, .V, 0x0⟩
/-- R180: DUPLEX.PARTNER_VIEW -/
def duplexPartnerView (i : Nat) : Fld := ⟨0x90 + 0x4 * i, 0, 32, .ro, .V, 0⟩
/-- R180: DUPLEX.MEMBER -/
def duplexMember (i : Nat) : Fld := ⟨0xA0 + 0x4 * i, 0, 32, .ro, .K, 0⟩
/-- R180: DUPLEX.JOIN_STATE.NODE -/
def duplexJoinStateNode : Fld := ⟨0xC0, 0, 8, .ro, .V, 0x0⟩
/-- R180: DUPLEX.JOIN_STATE.STEP -/
def duplexJoinStateStep : Fld := ⟨0xC0, 8, 3, .ro, .V, 0x0⟩
/-- R180: DUPLEX.JOIN_RESULT.NODE -/
def duplexJoinResultNode : Fld := ⟨0xC4, 0, 8, .ro, .K, 0x0⟩
/-- R180: DUPLEX.JOIN_RESULT.CAUSE -/
def duplexJoinResultCause : Fld := ⟨0xC4, 8, 4, .ro, .K, 0x0⟩
/-- R180: DUPLEX.JOIN_REFUSE_CNT -/
def duplexJoinRefuseCnt : Fld := ⟨0xC8, 0, 32, .ro, .K, 0x0⟩
/-- R180: DUPLEX.JOIN_NONCE_LO -/
def duplexJoinNonceLo : Fld := ⟨0xCC, 0, 32, .wo, .V, 0x0⟩
/-- R180: DUPLEX.JOIN_NONCE_HI -/
def duplexJoinNonceHi : Fld := ⟨0xD0, 0, 32, .wo, .V, 0x0⟩
/-- R180: DUPLEX.PCMD -/
def duplexPcmd : Fld := ⟨0x300, 0, 8, .g, .V, 0x0⟩
/-- R180: DUPLEX.JCMD.CMD -/
def duplexJcmdCmd : Fld := ⟨0x304, 0, 8, .g, .V, 0x0⟩
/-- R180: DUPLEX.JCMD.NODE -/
def duplexJcmdNode : Fld := ⟨0x304, 8, 8, .g, .V, 0x0⟩
/-- Every field of the table of page kind DUPLEX, each instance of an indexed register by itself. -/
def duplexFields : List Fld :=
  [duplexCfgPreferred, duplexCfgKeySlot, duplexCfgAutoJoin, duplexCfgLeaseCycles, duplexStatusPairRole, duplexStatusEligible, duplexStatusPartnerEligible, duplexStatusPairLinkUp, duplexStatusYielding, duplexStatusReclaimReq, duplexStatusHeadless, duplexStatusPartner, duplexStatusHolder, duplexElig, duplexTerm, duplexExpiryLo, duplexExpiryHi, duplexLeaseLeaseEff, duplexLeaseLoopCycles, duplexReclaimHoldoff, duplexReclaimCnt, duplexHostWd, duplexHostAliveKick, duplexPairErrCrcErr, duplexPairErrMissing, duplexLeaseCntGained, duplexLeaseCntLost, duplexTokenRej, duplexCanGate, duplexGatedTx, duplexJoinStateNode, duplexJoinStateStep, duplexJoinResultNode, duplexJoinResultCause, duplexJoinRefuseCnt, duplexJoinNonceLo, duplexJoinNonceHi, duplexPcmd, duplexJcmdCmd, duplexJcmdNode] ++
  ((List.range 4).flatMap fun i => [duplexEngGate i, duplexPartnerView i]) ++
  ((List.range 8).flatMap fun i => [duplexMember i])

end Sys2Proof.Machine.Reg
end

