-- ==== Sys2Proof/Machine/Pages.lean ====
section
/-!
DEFINITION. The page directory (R386): which page numbers exist, of which kind, with which common capabilities (R388),
register table, event sources and global source numbers (R430).
-/

namespace Sys2Proof.Machine

/-- The kinds of register page (Page directory table). -/
inductive PageKind where
  | hub | clk | gov | brk | evt | jrnl | acc | key | upd | time | trig | pcie | lh | i2c | lane | stn | stair | img
  | duplex | bridge | cab | mirror | tile | eng | can | dram | flash | debug | none
deriving DecidableEq, Repr

namespace Page
def hub : Nat := 0x00
def clk : Nat := 0x01
def gov : Nat := 0x02
def brk : Nat := 0x03
def evt : Nat := 0x04
def jrnl : Nat := 0x05
def acc : Nat := 0x06
def key : Nat := 0x07
def upd : Nat := 0x08
def time : Nat := 0x09
def trig : Nat := 0x0A
def pcie : Nat := 0x0C
def lh : Nat := 0x0D
def i2c : Nat := 0x0E
/-- LANE_E is 0x10, LANE_W is 0x11. -/
def lane : Side → Nat
  | .east => 0x10
  | .west => 0x11
/-- STN_E is 0x12, STN_W is 0x13. -/
def stn : Side → Nat
  | .east => 0x12
  | .west => 0x13
def stair : Nat := 0x14
def img : Nat := 0x15
def duplex : Nat := 0x16
def bridge : Nat := 0x17
def cab : Nat := 0x18
def mirror : Nat := 0x1A
def tile (t : Nat) : Nat := 0x20 + t
def eng (e : Nat) : Nat := 0x30 + e
def can (n : Nat) : Nat := 0xB0 + n
def dram : Nat := 0xC0
def flash : Nat := 0xC1
def debug : Nat := 0xF0
end Page

/-- The kind of a page number; `none` for a page the directory does not list and for the MSI-X pages (R386, R387). -/
def kindOf (p : Nat) : PageKind :=
  if p = 0x00 then .hub else if p = 0x01 then .clk else if p = 0x02 then .gov else if p = 0x03 then .brk
  else if p = 0x04 then .evt else if p = 0x05 then .jrnl else if p = 0x06 then .acc else if p = 0x07 then .key
  else if p = 0x08 then .upd else if p = 0x09 then .time else if p = 0x0A then .trig else if p = 0x0C then .pcie
  else if p = 0x0D then .lh else if p = 0x0E then .i2c else if p = 0x10 ∨ p = 0x11 then .lane
  else if p = 0x12 ∨ p = 0x13 then .stn else if p = 0x14 then .stair else if p = 0x15 then .img
  else if p = 0x16 then .duplex else if p = 0x17 then .bridge else if p = 0x18 then .cab else if p = 0x1A then .mirror
  else if 0x20 ≤ p ∧ p ≤ 0x2F then .tile else if 0x30 ≤ p ∧ p ≤ 0xAF then .eng else if 0xB0 ≤ p ∧ p ≤ 0xBF then .can
  else if p = 0xC0 then .dram else if p = 0xC1 then .flash else if p = 0xF0 then .debug else .none

/-- The page numbers of the directory, ascending (R386). -/
def allPages : List Nat := (List.range 256).filter fun p => kindOf p ≠ .none

/-- The register table of a page kind, without the common registers. -/
def kindFields : PageKind → List Fld
  | .hub => Reg.hubFields | .clk => Reg.clkFields | .gov => Reg.govFields | .brk => Reg.brkFields
  | .evt => Reg.evtFields | .jrnl => Reg.jrnlFields | .acc => Reg.accFields | .key => Reg.keyFields
  | .upd => Reg.updFields | .time => Reg.timeFields | .trig => Reg.trigFields | .pcie => Reg.pcieFields
  | .lh => Reg.lhFields | .i2c => Reg.i2cFields | .lane => Reg.laneFields | .stn => Reg.stnFields
  | .stair => Reg.stairFields | .img => Reg.imgFields | .duplex => Reg.duplexFields | .bridge => Reg.bridgeFields
  | .cab => Reg.cabFields | .mirror => Reg.mirrorFields | .tile => Reg.tileFields | .eng => Reg.engFields
  | .can => Reg.canFields | .dram => Reg.dramFields | .flash => Reg.flashFields | .debug => Reg.debugFields
  | .none => []

/-- Every field of a page: the common registers (R388) and its kind's own. -/
def pageFields (p : Nat) : List Fld :=
  if kindOf p = .none then [] else Reg.comFields ++ kindFields (kindOf p)

/-- How many event sources a page kind has (EVT_PRESENT). -/
def kindEvents : PageKind → Nat
  | .hub => Ev.hubCount | .clk => Ev.clkCount | .gov => Ev.govCount | .brk => Ev.brkCount
  | .evt => Ev.evtCount | .jrnl => Ev.jrnlCount | .acc => Ev.accCount | .key => Ev.keyCount
  | .upd => Ev.updCount | .time => Ev.timeCount | .trig => Ev.trigCount | .pcie => Ev.pcieCount
  | .lh => Ev.lhCount | .i2c => Ev.i2cCount | .lane => Ev.laneCount | .stn => Ev.stnCount
  | .stair => Ev.stairCount | .img => Ev.imgCount | .duplex => Ev.duplexCount | .bridge => Ev.bridgeCount
  | .cab => Ev.cabCount | .mirror => Ev.mirrorCount | .tile => Ev.tileCount | .eng => Ev.engCount
  | .can => Ev.canCount | .dram => Ev.dramCount | .flash => Ev.flashCount | .debug => Ev.debugCount
  | .none => 0

/-- The global number of source 0 of a page (R430). -/
def eventBase (p : Nat) : Nat :=
  match kindOf p with
  | .eng => 4 * (p - 0x30)
  | .can => 512 + 8 * (p - 0xB0)
  | .tile => 640 + 4 * (p - 0x20)
  | .lane => 704 + 16 * (p - 0x10)
  | .stn => 736 + 16 * (p - 0x12)
  | .clk => 768 | .gov => 776 | .brk => 792 | .evt => 808 | .jrnl => 824 | .acc => 832 | .key => 840 | .upd => 856
  | .time => 872 | .trig => 888 | .pcie => 896 | .lh => 904 | .i2c => 912 | .stair => 920 | .img => 936
  | .duplex => 944 | .bridge => 960 | .cab => 976 | .mirror => 992 | .dram => 1000 | .flash => 1008 | .debug => 1016
  | .hub | .none => 1024

/-- The PAGE_ID type code: the number of the first page of the kind. -/
def pageType (p : Nat) : Nat :=
  match kindOf p with
  | .lane => 0x10 | .stn => 0x12 | .tile => 0x20 | .eng => 0x30 | .can => 0xB0 | _ => p

/-- UNIT_RST: whether UCMD acts on a page (Page directory table). -/
def unitResetPage (p : Nat) : Bool :=
  match kindOf p with
  | .gov | .trig | .lh | .i2c | .lane | .stn | .img | .duplex | .bridge | .cab | .mirror | .tile | .eng | .can => true
  | _ => false

/-- FENCEABLE: every page but HUB, CLK, EVT, JRNL, ACC and TIME (R437). -/
def fenceablePage (p : Nat) : Bool :=
  match kindOf p with
  | .hub | .clk | .evt | .jrnl | .acc | .time | .none => false
  | _ => true

end Sys2Proof.Machine
end

