-- ==== Sys2Proof/Machine/Store.lean ====
section
/-!
DEFINITION. Sparse storage as plain data: a list of (key, value) pairs with rising keys for anything indexed by a number, and
byte memory as a list of Host.Cell in canonical form (rising addresses, no entry equal to the byte an unlisted address reads as, 0).
-/

namespace Sys2Proof.Machine

/-- A sparse table: pairs of a key and what stands there, keys rising. -/
abbrev Store (α : Type) := List (Nat × α)

/-- What a sparse table holds at a key. -/
def storeFind {α : Type} (k : Nat) : Store α → Option α
  | [] => none
  | (k', v) :: m => if k = k' then some v else storeFind k m

/-- The table with a value put at a key. -/
def storePut {α : Type} (k : Nat) (v : α) : Store α → Store α
  | [] => [(k, v)]
  | (k', v') :: m =>
    if k < k' then (k, v) :: (k', v') :: m
    else if k = k' then (k, v) :: m
    else (k', v') :: storePut k v m

/-- The table without a key. -/
def storeDel {α : Type} (k : Nat) : Store α → Store α
  | [] => []
  | (k', v') :: m => if k = k' then storeDel k m else (k', v') :: storeDel k m

/-- What a sparse table with a default holds at a key. -/
def storeGet {α : Type} (d : α) (m : Store α) (k : Nat) : α := (storeFind k m).getD d

/-- The table with a value at a key, unlisted when it is the default. -/
def storeSet {α : Type} [DecidableEq α] (d : α) (m : Store α) (k : Nat) (v : α) : Store α :=
  if v = d then storeDel k m else storePut k v m

/-- Byte memory: rising addresses, no listed byte equal to 0, which an unlisted address reads as. -/
abbrev Memory := List Host.Cell

/-- The canonical form of a byte memory. -/
def memoryWf : Memory → Bool
  | [] => true
  | [(_, b)] => b ≠ 0
  | (a, b) :: (a', b') :: m => b ≠ 0 && a < a' && memoryWf ((a', b') :: m)

/-- The byte at an address. -/
def memRead (m : Memory) (a : Nat) : Byte := storeGet 0 m a

/-- The memory with one byte written. -/
def memWrite (m : Memory) (a : Nat) (b : Byte) : Memory := storeSet 0 m a b

/-- Bytes from an address up. -/
def memReadN (m : Memory) (a : Nat) : Nat → List Byte
  | 0 => []
  | n + 1 => memRead m a :: memReadN m (a + 1) n

/-- The memory with consecutive bytes written from an address up. -/
def memWriteN (m : Memory) (a : Nat) : List Byte → Memory
  | [] => m
  | b :: bs => memWriteN (memWrite m a b) (a + 1) bs

/-- A byte string as a number, the first byte lowest (R3). -/
def leNat : List Byte → Nat
  | [] => 0
  | b :: bs => b.toNat + 256 * leNat bs

/-- A number as n bytes, the lowest first (R3). -/
def leBytes : Nat → Nat → List Byte
  | 0, _ => []
  | n + 1, v => BitVec.ofNat 8 v :: leBytes n (v / 256)

/-- The cells of consecutive bytes from an address up; bytes of 0 are not listed. -/
def memCells (a : Nat) : List Byte → Memory
  | [] => []
  | b :: bs => if b = 0 then memCells (a + 1) bs else (a, b) :: memCells (a + 1) bs

/-- The memory with a whole stretch replaced by consecutive bytes; for long stretches the same as writing them one by one. -/
def memSplice (m : Memory) (a : Nat) (bs : List Byte) : Memory :=
  (m.filter fun c => c.1 < a) ++ memCells a bs ++ (m.filter fun c => a + bs.length ≤ c.1)

/-- A little-endian number of n bytes in memory (R3). -/
def memNat (m : Memory) (a n : Nat) : Nat := leNat (memReadN m a n)

/-- The memory with a little-endian number of n bytes written (R3). -/
def memPutNat (m : Memory) (a n v : Nat) : Memory := memWriteN m a (leBytes n v)

/-- Whether a memory lists nothing from an address up over a length: an erased or empty stretch. -/
def memIsZero (m : Memory) (a n : Nat) : Bool := m.all fun c => c.1 < a || a + n ≤ c.1

/-- The memory with a stretch set to 0. -/
def memClear (m : Memory) (a n : Nat) : Memory := m.filter fun c => c.1 < a || a + n ≤ c.1

/-- The bits hi..lo of a number (R3). -/
def bits (v hi lo : Nat) : Nat := v / 2 ^ lo % 2 ^ (hi + 1 - lo)

/-- One bit of a number. -/
def bit (v i : Nat) : Bool := v.testBit i

/-- A condition as a number. -/
def b2n (b : Bool) : Nat := if b then 1 else 0

/-- A number with its low bits replaced where the mask has ones (R390). -/
def mergeMask (old new mask : Nat) : Nat := (old &&& (mask ^^^ 0xFFFFFFFF)) ||| (new &&& mask)

/-- Two's complement value of a w-bit number. -/
def sgn (w v : Nat) : Int := if v % 2 ^ w < 2 ^ (w - 1) then (v % 2 ^ w : Nat) else (v % 2 ^ w : Nat) - (2 ^ w : Nat)

/-- The w-bit two's complement code of an integer. -/
def unsgn (w : Nat) (v : Int) : Nat := (v % (2 ^ w : Nat)).toNat

/-- A signed number clamped to an interval. -/
def clampI (lo hi v : Int) : Int := if v < lo then lo else if hi < v then hi else v

/-- One more, saturating at the largest w-bit number (R64). -/
def satInc (w v : Nat) : Nat := if v + 1 < 2 ^ w then v + 1 else 2 ^ w - 1

end Sys2Proof.Machine
end

