-- ==== Sys2Proof/Machine/State.lean ====
section
/-!
DEFINITION. The state of the block: every register field, memory, queue, buffer and mode the spec gives it, as plain data,
and the state right after reset.
-/

namespace Sys2Proof.Machine

open Sys2Proof

/-- Why the block would stop. No rule of the spec stops it: an error is answered, logged or fenced (R393, R403, R439), so no
meaning raises this; `halted` is kept as the name such a stop would have. Safe. -/
inductive Fault where
  /-- Raised by no meaning. Safe. -/
  | halted
deriving DecidableEq, Repr

/-- Why a command has no meaning. -/
inductive Refusal where
  /-- An arm of the dispatch that has no meaning yet. Safe: nothing runs. -/
  | notModelled (mnemonic : String)
deriving DecidableEq, Repr

/-- Something the block has put on one of its interfaces. -/
inductive Sent where
  /-- An MSI-X message of a vector (R433). -/
  | msix (vector : Nat)
  /-- Newel's interrupt line of a group (R433). -/
  | newelIrq (group : Nat)
  /-- A 66-bit group on a lane's transmit line, sync header lowest (R63). -/
  | line (p : Side) (lane bits : Nat)
  /-- The answer to an access: the master, the status and the data (R403). -/
  | answer (m : Master) (status : Nat) (data : Nat)
  /-- A PCIe completion of a BAR2 read: its tag, 0 successful, 1 Unsupported Request, 2 Completer Abort, and the data (R211, R212). -/
  | completion (tag kind : Nat) (data : List Byte)
  /-- What the local host port drives after the turnaround (R213). -/
  | lh (bytes : List Byte)
  /-- What the pair link transmitter sends: ten-bit codes, each with its first bit on the line lowest (R152). -/
  | pair (codes : List Nat)
  /-- An I²C transaction: address, bytes written with the SMBus PEC where it is used, number of data bytes to read, whether a PEC
  byte is read after them (R216). -/
  | i2c (addr : Nat) (bytes : List Byte) (rlen : Nat) (pec : Bool)
deriving DecidableEq, Repr

/-- A guarded value that waits for its complement (R392): page, class, source node, register offset in the window, value, TB2. -/
structure GuardPend where
  page : Nat
  cls : Nat
  node : Nat
  off : Nat
  value : Nat
  at_ : Nat
deriving DecidableEq, Repr

/-- One entry of the MSI-X table (R210, R433). -/
structure MsixEntry where
  addr : Nat
  data : Nat
  ctrl : Nat
deriving DecidableEq, Repr

/-- Access tables, denial log and pending guarded values (R392, R398–R407). -/
structure AccessState where
  guards : List GuardPend
  rows : Store Nat
  dramRegions : Store Nat
  groups : Store Nat
  denials : List (Nat × Nat × Nat)
deriving DecidableEq, Repr

/-- Event log, groups, level faults that are presented and not yet captured (page, cause), the running fence sequence (page, cause, TB2 at its
detection), the fence of NEWEL by its cause, the ERR test, and the entries the journal writer holds (R430–R445). -/
structure EventState where
  log : List (Nat × Nat)
  assertTime : Store Nat
  msix : Store MsixEntry
  pba : Store Nat
  levelFaults : List (Nat × Nat)
  sequence : Option (Nat × Nat × Nat)
  newel : Option Nat
  errTest : Bool
  held : List (List Byte)
deriving DecidableEq, Repr

/-- A neighbour's time report as it committed (R308, R378): cycle of the stamps, HOPS, FLAGS, the four stamps in 1/16 ns, and the cycle
of the record that completed it. -/
structure TimeReport where
  cycle : Nat
  hops : Nat
  flags : Nat
  depE : Int
  depW : Int
  arrE : Int
  arrW : Int
  committed : Nat
deriving DecidableEq, Repr

/-- The delay exchange of a port (R311): whether one runs, the sum of d and the number of cycles counted, the cycle it began in, whether
one has completed on this port, and the cycle the last one ended in. -/
structure Exchange where
  running : Bool
  sum : Int
  count : Nat
  began : Nat
  known : Bool
  ended : Nat
deriving DecidableEq, Repr

/-- The four time bases with their 32-bit fractions (R303), and the port stamps of the last 16 cycles in 1/16 ns, keyed by
cycle, port and departure or arrival (R307). Then, keyed by port (0 WEST, 1 EAST), the first halves of reports that wait for their second
(tag cycle, bytes), the last committed reports and the exchanges; the servo's phase term and the run of measurements inside and outside
its limits, the learned frequencies, the cycle of the last valid measurement (R312, R314); the port that TB0 is acquired from and whether it
has made its step (R313); the PPS servo (R319); the PPS_OUT pulse and the
TB2 time of its end (R323); and for each compare unit whether it was armed late and the first cycle it may fire in (R321). -/
structure TimeState where
  tb0 : Nat
  tb0Frac : Nat
  tb1Sec : Nat
  tb1Ns : Nat
  tb1Frac : Nat
  tb2 : Nat
  tb2Frac : Nat
  tb3 : Nat
  tb3Frac : Nat
  stamps : Store Int
  halves : Store (Nat × List Byte)
  reports : Store TimeReport
  exchanges : Store Exchange
  acquirePort : Nat
  stepped : Bool
  phase : Int
  inRun : Nat
  outRun : Nat
  learned : List Int
  lastMeas : Nat
  ppsFreq : Int
  ppsPhase : Int
  ppsIn : Nat
  ppsOut : Nat
  ppsRejects : Nat
  ppsFollow : Bool
  pulse : Option Nat
  armedLate : List Nat
  cmpFrom : Store Nat
deriving DecidableEq, Repr

/-- One lane of a ring port: what stands behind its registers (R32, R37, R49, R60, R62, R63). `exitLate` is set while a lane leaves DEEP whose PLL
has not locked within 350 µs (R65); `prbsGen` holds the last 31 bits of its generator. -/
structure LaneState where
  descr : Nat
  rxBip : Nat
  txBip : Nat
  scr : Nat
  seen : Bool
  lastSeq : Option Nat
  since : Nat
  parkTo : Option Nat
  exitReq : Bool
  savedEq : Nat
  single : Option Nat
  burst : Option (Nat × Nat)
  group : Nat
  prbsHist : Nat
  prbsClean : Bool
  prbsGen : Nat
  noSignal : Bool
  exitLate : Bool
deriving DecidableEq, Repr

/-- One ring port (R36, R40, R43, R53, R54, R59). `sinceMark` counts the stripes sent since the last marker stripe, that one included; `col` is
the lane that takes the next block. `rate` is the rate in force since the last bring-up. `upSince` and `upTb0` are TB2 and TB0 at LINK_UP, `reported` the cycle of the last link report of the
present quarantine (R172). -/
structure PortState where
  lanes : Store LaneState
  txSeq : Nat
  sinceMark : Nat
  col : Nat
  rxWidth : Option Nat
  lateDown : Bool
  bringupFrom : Option Nat
  rate : Nat
  upSince : Option Nat
  upTb0 : Nat
  reported : Option Nat
deriving DecidableEq, Repr

/-- How a station treats the gallery it receives (R136, R143). -/
inductive RxMode where
  | forward | absorb | unread | transparent
deriving DecidableEq, Repr

/-- The gallery a station is receiving: its cycle and flight, how it is treated, the next content position, the content blocks
of the present run, the treads that hold an error mark or a failed run, whether the present landing region has failed, that
region's blocks by their position, and the tread in passing that this hub writes in place of the blocks received (R121). -/
structure RxGallery where
  cycle : Nat
  flight : Nat
  mode : RxMode
  pos : Nat
  run : Nat
  failed : List Nat
  regionFailed : Bool
  ended : Bool
  region : Store Nat
  writes : Option Nat
deriving DecidableEq, Repr

/-- One thing a station sends (R121, R122, R137, R143). -/
inductive OutItem where
  /-- A block: sync header and payload. -/
  | block (sync payload : Nat)
  /-- The hub's own tread, from its snapshot. -/
  | own (tread : Nat)
  /-- A tread with the payload and trailer given. -/
  | tread (tread : Nat) (payload : List Byte) (trailer : Nat)
  /-- A THROUGH tread of another writer: the stored copy or a placeholder, decided when its position is sent (R130). -/
  | through (tread : Nat)
  /-- The rest of a tread that was partly sent: zero blocks and a stomped trailer (R137). -/
  | cut (tread zeros trailer : Nat)
  /-- The hub's own landing share. -/
  | share (index : Nat)
  /-- Idle blocks in place of another node's share. -/
  | idleShare (index : Nat)
  /-- Idle pad blocks. -/
  | pad (n : Nat)
  /-- A riser of FILL filler stripes. -/
  | riser (fill : Nat)
  /-- The idle stream. -/
  | idleStream
deriving DecidableEq, Repr

/-- A checked copy of a tread that waits in the commit gate (R124–R133), and the tag accepted before it. -/
structure Copy where
  tread : Nat
  flight : Nat
  cycle : Nat
  tag : Nat
  crc : Nat
  payload : List Byte
  preloads : List Nat
  prev : Option Nat
deriving DecidableEq, Repr

/-- The tread copy a station is receiving: its payload bytes so far, the actions preloaded from it, whether it writes staging (R99, R131). -/
structure RxCopy where
  tread : Nat
  payload : List Byte
  staging : Bool
  preloads : List Nat
deriving DecidableEq, Repr

/-- A stored copy of a THROUGH tread (R129). -/
structure ThroughCopy where
  payload : List Byte
  tag : Nat
  writer : Nat
deriving DecidableEq, Repr

/-- One ring station (R114–R146). Of the gallery it sends: `out` holds its items, `cursor` how many of them have gone to the lanes, `sendPos` the
layout position of the next, `start` the TB0 at which position 0 leaves, and `timed` whether the items wait for their positions' time. -/
structure StationState where
  pendingCycle : Nat
  rx : Option RxGallery
  copy : Option RxCopy
  sendPos : Nat
  sending : Bool
  sendCycle : Nat
  sendFlight : Nat
  sendEnd : Nat
  cursor : Nat
  start : Nat
  timed : Bool
  damaged : Option Nat
  through : Store ThroughCopy
  lastWritten : Store Nat
  gate : List Copy
  quarNext : Bool
  rxFrom : Nat
  txFrom : Nat
  originSeen : Bool
  goodCycle : Nat
  out : List OutItem
deriving DecidableEq, Repr

/-- The Staircase banks and what is scheduled (R84, R107–R113): the active and the pending bank, the highest offset loaded, the scheduled
activation (cycle, flight, TB0 of its boundary), whether it is the one of R170, or deactivation, whether the master's HASH16 differs and its protocol
is unsupported, HASH16 of the last IDENT GALLERY START received (R174), the recorded change of flight (flight, cycle, cycle of its gallery), the last one that took effect (flight, cycle), the cycle of the gallery of the last announcement recorded, the cycle the current flight took effect in
with the flight before, ACT_CYCLE of the last activation, whether a bank was active before it, whether HOST_BUF_UNSET was raised since. -/
structure StairState where
  active : Memory
  pend : Memory
  highOff : Option Nat
  sched : Option (Nat × Nat × Nat)
  alone : Bool
  deact : Bool
  hashDiffers : Bool
  protoBad : Bool
  lastIdent : Option Nat
  announced : Option (Nat × Nat × Nat)
  taken : Option (Nat × Nat)
  annGal : Nat
  prevFlight : Nat × Nat
  actCycle : Nat
  hadBank : Bool
  hostBufRaised : Bool
deriving DecidableEq, Repr

/-- The contents a writer took of a tread it owns (R77, R78). -/
structure Snapshot where
  cycle : Nat
  payload : List Byte
  void : Bool
deriving DecidableEq, Repr

/-- A PAIR delivery that waits for the comparison or the deadline (R128): action index, flight, cycle, tag, bytes. -/
structure PairWait where
  index : Nat
  flight : Nat
  cycle : Nat
  tag : Nat
  data : List Byte
deriving DecidableEq, Repr

/-- The host-image DMA of one cycle (R103–R105): its flight, the descriptors that have started, the flags of its completion record, whether
that record has been written. -/
structure DmaRun where
  flight : Nat
  started : List Nat
  flags : Nat
  recorded : Bool
deriving DecidableEq, Repr

/-- The process image and what the commit path and the DMA keep (R98–R106, R126–R128): `tags` and `crcs` of the last accepted copy of a tread,
`doneTags` the tag of the last that committed, `compared` the (tread, tag) compared while the first copy waited in the gate, `carried` the
(cycle, flight) of the galleries of the last 16 cycles. -/
structure ImageState where
  committed : Memory
  staging : Memory
  tags : Store Nat
  crcs : Store Nat
  doneTags : Store Nat
  compared : List (Nat × Nat)
  carried : List (Nat × Nat)
  commits : List (Nat × Nat)
  voids : List (Nat × Nat)
  fresh : Store Nat
  stagingBy : List Nat
  pairWaits : List PairWait
  snaps : Store Snapshot
  dma : Store DmaRun
  dmaRecords : Nat
  host : Memory
deriving DecidableEq, Repr

/-- One logical pin filter of an engine (R252): its level, and how many samples in a row showed the other level. -/
structure PinFilter where
  level : Bool
  run : Nat
deriving DecidableEq, Repr

/-- One Dovetail engine: what stands behind its registers (R248, R252, R254–R256, R263, R267–R271). Words of the FIFOs are oldest first.
`prog` holds both banks: bank b's LUT entries from 2048 b, its select words from 2048 b + 1024. `retained` is a stalled entry, `delay`
the engine ticks of delay left, `pinsSet` the logical pins that an applied entry has set since the start or the FORCE tick, `swap` the MODE and
RESTART of a pending swap; the div fields are D in 1/256 base ticks, base ticks and engine ticks since the divider started,
whether DIV was written since the last engine tick; and the link outputs as the neighbours see them (R261). -/
structure EngState where
  txf : List Nat
  rxf : List Nat
  prog : Store Nat
  retained : Option Nat
  delay : Nat
  pinsSet : Nat
  swap : Option (Nat × Bool)
  filters : Store PinFilter
  divD : Nat
  divCount : Nat
  divK : Nat
  divNew : Bool
  links : Nat
deriving DecidableEq, Repr

/-- A closed packet of a Cabinet queue: its packet word, its data as 32-bit words, its cells in order (R230–R232). -/
structure Packet where
  word : Nat
  data : List Nat
  cells : List Nat
deriving DecidableEq, Repr

/-- A packet open on a queue: the producer's port, DECLARE, the words put, its cells, whether it was discarded for a credit violation or
a tail drop, whether its cells were reserved for a response (R230, R231). -/
structure OpenPacket where
  port : Nat
  declare : Nat
  data : List Nat
  cells : List Nat
  dead : Bool
  reserved : Bool
deriving DecidableEq, Repr

/-- One Cabinet queue (R223, R224): descriptor words 0 and 1, EN, BROKEN, the closed unreleased packets oldest first, the open packets,
GRANT, the read position (packet index, word within it), the mark, DROPS. -/
structure Queue where
  word0 : Nat
  word1 : Nat
  en : Bool
  broken : Bool
  pkts : List Packet
  opens : List OpenPacket
  grant : Nat
  rdPkt : Nat
  rdWord : Nat
  mark : Option (Nat × Nat)
  drops : Nat
deriving DecidableEq, Repr

/-- The Cabinet (R221–R240): queues, cells not on the free list, landing reservation and halvings, cells reserved for responses, the
auditor, the mirror's count and waiting copies (trunc, data bytes, words), and what ECC finds in the link entry that the running GET follows
(R222): 0 no error, 1 a single-bit one, 2 an uncorrectable one. -/
structure CabState where
  queues : Store Queue
  used : List Nat
  landRsv : Nat
  halvings : Nat
  respRsv : Nat
  walking : Bool
  walkDue : Bool
  unmarked : List Nat
  leaked : List Nat
  leakWalk : Nat
  mirrorCount : Nat
  mirrorWait : List (Bool × Nat × List Nat)
  linkErr : Nat
deriving DecidableEq, Repr

/-- A received frame that waits to be stored (R290, R291): queue, record words, data bytes, priority mark. -/
structure CanWait where
  queue : Nat
  words : List Nat
  bytes : Nat
  prio : Bool
deriving DecidableEq, Repr

/-- One CAN channel: what stands behind its registers (R282, R286, R291–R300). `bufs` holds transmit buffer b's words from 32 b, `slots` the
mapping slots in the same way; `attempt` is the buffer and image being sent, `cancels` the cancels that wait for its end,
`leaving` a change to CONFIG that waits for it, `gateWait` a gating that waits for it, `giveWay` the cycle until which R300 holds,
`mailbox` the end of the bridge's request that the bridge has not taken yet. -/
structure CanState where
  bufs : Store Nat
  slots : Store Nat
  waiting : List CanWait
  attempt : Option (Nat × List Nat)
  cancels : Nat
  leaving : Bool
  gateWait : Bool
  giveWay : Nat
  mailbox : Option Nat
deriving DecidableEq, Repr

/-- A latest status record of a node (R377): HEADROOM, REQ, UP_OK and the cycle in which it committed. -/
structure StatusRec where
  headroom : Int
  req : Nat
  upOk : Bool
  committed : Nat
deriving DecidableEq, Repr

/-- The governor and the sequencer (R368–R382): the waiting target, whether the running change is a raise, TB2 at the last completed change
and at the end of the time without raises after VRAIL_FAIL, decisions in a row with low load, with the DOWN request's condition and with
P_MOD above the declared power, the latest status records by node, the cycle the current flight took effect in, whether the next flight
decision ignores DWELL, and the pending gate change (target, ON). -/
structure GovState where
  waiting : Option Nat
  raising : Bool
  lastChange : Nat
  noRaise : Nat
  lowLoad : Nat
  lowReq : Nat
  overRun : Nat
  records : Store StatusRec
  flightAt : Nat
  noDwell : Bool
  gate : Option (Nat × Bool)
deriving DecidableEq, Repr

/-- A trip record in flash (R350): CAUSE, ATTEMPTS, LAST_D, LOCK, TB2 and TB1 (seconds, ns) at the event, and whether it is uncleared. -/
structure TripRecord where
  cause : Nat
  attempts : Nat
  lastD : Nat
  lock : Bool
  tb2 : Nat
  tb1Sec : Nat
  tb1Ns : Nat
  uncleared : Bool
deriving DecidableEq, Repr

/-- The breakers (R334, R343, R346, R350–R354): the admission queue, the branches shed in order, those being restored, TB2 at the start of
each ramp, the flash records, the records that wait to be written, the staging and active curve words. -/
structure BrkState where
  queue : List Nat
  shed : List Nat
  restore : List Nat
  rampAt : Store Nat
  records : Store TripRecord
  toWrite : List (Nat × TripRecord)
  staging : Store Nat
  curves : Store Nat
deriving DecidableEq, Repr

/-- A drawer slot (R409): key material, attribute word, integrity tag, state (0 EMPTY, 1 VALID, 2 BAD). -/
structure Drawer where
  material : List Byte
  attr : Nat
  tag : List Byte
  st : Nat
deriving DecidableEq, Repr

/-- A drawer command with its operands as they stood when it was written (R416); `record` is the request record it came from (R422). -/
structure KeyCmd where
  code : Nat
  slot : Nat
  parent : Nat
  attr : Nat
  src : Nat
  dst : Nat
  len : Nat
  actAs : Nat
  ringAt : Nat
  record : Option Nat
  who : Option Master
deriving DecidableEq, Repr

/-- Keys and life-cycle (R409–R429): the life-cycle fuses (state, entries left into SERVICE), the slots, the drawer store in flash, the
running command, the slot the scrub checks next, the records REQ_REFUSED was raised for since SVC_EN, the cycle of the pending ring key
switch, and the last switch: its cycle and the slot before it. -/
structure KeyState where
  lc : Nat
  svcLeft : Nat
  slots : Store Drawer
  stored : Store Drawer
  running : Option KeyCmd
  scrub : Nat
  refused : List Nat
  switchAt : Nat
  switched : Nat
  oldSlot : Nat
deriving DecidableEq, Repr

/-- The lease, the pair link, mastership and the join procedure (R147–R179): YIELD of the stored token and the two hubs it is for, the running
disparity of the pair link transmitter and TB2 at the start of its last frame, the cycle of the partner's latest
view, the TERM and EXPIRY of the yielding token that YIELD_ACK is sent for, whether the holder has received YIELD_ACK, the cycle it set
YIELD in, whether a YIELD command is pending; SEQ of the next frame, the cycle that started the last accepted frame, cycles without one; the
cycle of the last KICK; whether a master has been present in this cycle, and the cycles passed without one; who showed HOLDING in which cycle, and the HOLDER last shown; by node the cycle of its last KIND 0x01
record; then the holder's join procedure: the nonce and the cycle and TB2 it was written at, the candidate's PEND_HASH, the cycle up to which
no flight is announced, and the refused nodes with cycle and PEND_HASH; and the candidate's: the nonce's writer and the response. -/
structure DuplexState where
  tokYield : Bool
  tokHubs : Nat × Nat
  disparity : Bool
  frameAt : Nat
  partnerAt : Option Nat
  ackFor : Option (Nat × Nat)
  ackGot : Bool
  yieldAt : Nat
  yieldCmd : Bool
  seq : Nat
  frameFor : Option Nat
  missed : Nat
  kickAt : Nat
  present : Bool
  absent : Nat
  holders : List (Nat × Nat)
  recHolder : Nat
  seen : Store Nat
  nonce : Nat
  nonceCycle : Nat
  nonceTime : Nat
  joinHash : Nat
  joinHold : Nat
  refused : Store (Nat × Nat)
  candFrom : Nat
  candResp : Option Nat
deriving DecidableEq, Repr

/-- Who waits for the outcome of an access that is not answered at once (R200, R201): a BAR2 read by its tag and the NODE of its window, a ticket of the local host
port, a remote request (source, TAG, STREAM, MGMT), or a master on its own interface. A posted write of this hub or of another waits for
nothing but its failure: MCLASS and address, PWSEQ (R202). A `part` is a piece of an access that was cut (R205). `nobody` stands where the one
who waited is gone. -/
inductive Waiter where
  | bar2 (tag node : Nat)
  | ticket (slot : Nat)
  | remote (src tag stream : Nat) (mgmt : Bool)
  | posted (src mclass addr pwseq stream : Nat)
  | master (m : Master)
  | part (id index : Nat)
  | nobody
deriving DecidableEq, Repr

/-- An access that is held while the gate controller asks its target for the bus-idle handshake (R364): who waits, the Cabinet port, the master,
whether it writes, its local address, its length and its data. -/
structure HeldAccess where
  waiter : Waiter
  port : Nat
  m : Master
  write : Bool
  addr : Nat
  len : Nat
  data : List Byte
deriving DecidableEq, Repr

/-- An access that was cut into pieces and waits for all of them (R205): who waits, its fabric address, the pieces' data as they end, and the first
status other than OK. -/
structure Gather where
  waiter : Waiter
  addr : Nat
  parts : List (Option (List Byte))
  status : Nat
deriving DecidableEq, Repr

/-- A landing message that waits to be sent (R183): header fields, the address block where it has one, the data, the TB2 it entered at, its
producing port, whether it stands in the Cabinet, and of a broadcast the directions and the cycle it has been placed in. -/
structure OutMsg where
  cls : Nat
  mgmt : Bool
  dest : Nat
  mclass : Nat
  tag : Nat
  stream : Nat
  op : Nat
  arg : Nat
  addr : Option Nat
  data : List Byte
  entered : Nat
  port : Nat
  inCab : Bool
  copies : List Side
  placed : Nat
deriving DecidableEq, Repr

/-- A landing message received whole for this hub and not yet executed: the port it came through, its gallery's cycle, the share it came in, whether
it has left the ingress buffer for the Cabinet (R227). -/
structure InMsg where
  port : Side
  cycle : Nat
  share : Nat
  header : Nat
  addr : Nat
  data : List Byte
  inCab : Bool
deriving DecidableEq, Repr

/-- An outstanding request of this hub (R201): destination, local address, length, who waits, TB2 at entry, the response cells reserved. -/
structure OutReq where
  dest : Nat
  addr : Nat
  len : Nat
  waiter : Waiter
  entered : Nat
  cells : Nat
deriving DecidableEq, Repr

/-- A partner transaction (R205, R206): partner, whether it writes, window offset, bytes or length, who waits, the producing port, whether
its words are in OUT_Q, TB2 when it was issued; its words: those of its packet while it waits, those not yet pushed while it runs. -/
structure PartTx where
  partner : Nat
  write : Bool
  off : Nat
  data : List Byte
  len : Nat
  waiter : Waiter
  port : Nat
  queued : Bool
  issued : Nat
  words : List Nat
deriving DecidableEq, Repr

/-- A ticket slot of the local host port (R214): generation, whether held, the result once done. -/
structure Ticket where
  gen : Nat
  held : Bool
  result : Option (Nat × List Byte)
deriving DecidableEq, Repr

/-- The value of a remote guarded write that waits for its complement (R184): master, node, page, register offset, value, TB2. -/
structure RemoteGuard where
  m : Master
  node : Nat
  page : Nat
  off : Nat
  value : Nat
  at_ : Nat
deriving DecidableEq, Repr

/-- The bridge (R181–R209): messages that wait to be sent and to be executed; by destination and class SENT and LIMIT, by destination the
EPOCH last advertised to this hub; the SSEQ sent and expected by node and stream; messages executed and the limit last advertised by source
and class; the allocations in force for requests, posted writes and notices (R229); the rotation of the advertisement; outstanding requests and the next tag; PWSEQ of the last posted write received by source; by
destination and stream the direction in use and the cycle until which nothing is sent; the cycle before which nothing is sent; this cycle's
own shares by direction and index: cycle and blocks; the logs; partner descriptor words; partner transactions waiting and running by unit;
TOTAL by partner; tickets; remote guarded values; accesses cut into pieces; by engine the
mailbox word whose data words are being taken, how many are to come and those taken. -/
structure BridgeState where
  out : List OutMsg
  ingress : List InMsg
  sentCnt : Store Nat
  limit : Store Nat
  epoch : Store Nat
  seqTx : Store Nat
  seqRx : Store Nat
  executed : Store Nat
  advertised : Store Nat
  alloc : Nat × Nat × Nat
  rotation : Nat
  reqs : Store OutReq
  nextTag : Nat
  lastPw : Store Nat
  dirHold : Store (Nat × Nat)
  quietUntil : Nat
  shares : Store (Nat × List Nat)
  pwe : List (List Nat)
  notices : List (List Nat)
  descs : Store Nat
  partTx : List PartTx
  running : Store PartTx
  totals : Store Nat
  tickets : Store Ticket
  guards : List RemoteGuard
  gathers : Store Gather
  mail : Store (Nat × Nat × List Nat)
  held : List HeldAccess
deriving DecidableEq, Repr

/-- A configuration store half (R483): FORMAT, SEQ, whether it is whole, and what Newel saved: register fields, engine programs, partner
descriptors, access tables, CAN filters and buffers, Cabinet descriptors (word 0, word 1, EN), the Staircase. -/
structure CfgHalf where
  format : Nat
  seq : Nat
  good : Bool
  regs : Store Nat
  engines : Store (Store Nat)
  descs : Store Nat
  rows : Store Nat
  dramRegions : Store Nat
  groups : Store Nat
  filters : Store Nat
  canBufs : Store (Store Nat × Store Nat)
  queues : Store (Nat × Nat × Bool)
  stair : Memory
deriving DecidableEq, Repr

/-- A settings copy (R481): FORMAT, SEQ, whether its tag is good, and the entries it has: VALUE by 4,096 × PAGE + register offset, and with IND
the words of the active breaker curves (R335) by index. -/
structure SettingsCopy where
  format : Nat
  seq : Nat
  good : Bool
  regs : Store Nat
  curves : Store Nat
deriving DecidableEq, Repr

/-- Boot, update and retention (R454–R488): the kind of a larger reset that is asserted, with journal HEAD before it and the base ticks in its present millisecond; the kind of the reset
whose boot runs until BOOT_DONE; the levels of BOOTSEL1 and BOOTSEL0;
whether H fields are lost (R12); the boot record: area states (Newel A, Newel B, Mitre A, Mitre B) and the TRIAL areas booted; the
update: next block in HEADER, the block and words so far from IND_DATA, body blocks received; whether STANDBY entry is running; TB2 at
the start of the confirm window; the settings copies, which of them was applied, and the store halves; the journal entries
checkpointed to flash (SEQ, bytes), the first SEQ not copied yet, the SEQ a running checkpoint copies up to; a running dump (TRIGGER,
and TB2, cycle and HEAD at its trigger), whether its summary is still to be written; whether the flash fails the write of the command being carried out; and the running I²C
transaction (address, bytes to write, number of bytes to read, whether the SMBus PEC is used); the erase cycles of each flash sector (R488); the
64-bit words of DRAM and of flash, by their index, that hold an uncorrectable error (R467, R488); and PROTO_MAP of the Newel image started last
(R475). -/
structure BootState where
  holding : Option Nat
  headBefore : Nat
  holdTicks : Nat
  booting : Option Nat
  bootsel : Nat
  hLost : Bool
  areas : List Nat
  booted : List Nat
  hdrNext : Nat
  wordBlock : Nat
  words : List Nat
  got : List Nat
  standbyRun : Bool
  confirmFrom : Option Nat
  settings : List SettingsCopy
  applied : Nat
  store : List CfgHalf
  ckpt : List (Nat × List Byte)
  ckptFrom : Nat
  ckptTo : Nat
  dump : Option (Nat × Nat × Nat × Nat)
  summary : Bool
  flashFail : Bool
  i2c : Option (Nat × List Byte × Nat × Bool)
  wear : Store Nat
  dramBad : List Nat
  flashBad : List Nat
  protoMap : Option Nat
deriving DecidableEq, Repr

/-- The state of the block. -/
structure State where
  pending : List Instr
  regs : Store Nat
  latch : Store Nat
  access : AccessState
  event : EventState
  time : TimeState
  portE : PortState
  portW : PortState
  stnE : StationState
  stnW : StationState
  stair : StairState
  image : ImageState
  engines : Store EngState
  tileSafe : Store Nat
  cab : CabState
  cans : Store CanState
  filters : Store Nat
  filterHold : Store Nat
  gov : GovState
  brk : BrkState
  key : KeyState
  duplex : DuplexState
  bridge : BridgeState
  boot : BootState
  dram : Memory
  flash : Memory
  sent : List Sent
  freeCtr : Nat
deriving DecidableEq, Repr

/-- What a command answers: a next state, a fault or a refusal. -/
abbrev Answer := Host.Outcome State Fault Refusal

/-- A lane after reset; the scrambler state has no reset value in the spec (log entry 8). -/
def laneReset : LaneState :=
  { descr := 0, rxBip := 0, txBip := 0, scr := 0, seen := false, lastSeq := none, since := 0, parkTo := none, exitReq := false,
    savedEq := 0, single := none, burst := none, group := 0, prbsHist := 0, prbsClean := true, prbsGen := 2 ^ 31 - 1
    noSignal := false, exitLate := false }

/-- A port after reset. -/
def portReset : PortState :=
  { lanes := [], txSeq := 0, sinceMark := 0, col := 0, rxWidth := none, lateDown := false, bringupFrom := none, rate := 0, upSince := none
    upTb0 := 0, reported := none }

/-- A station after reset. -/
def stationReset : StationState :=
  { pendingCycle := 0, rx := none, copy := none, sendPos := 0, sending := false, sendCycle := 0, sendFlight := 0, sendEnd := 0
    cursor := 0, start := 0, timed := false, damaged := none, through := [], lastWritten := [], gate := [], quarNext := false, rxFrom := 0, txFrom := 0, originSeen := false, goodCycle := 0, out := [] }

/-- STAIR memory after reset (R102). -/
def stairReset : StairState :=
  { active := [], pend := [], highOff := none, sched := none, alone := false, deact := false, hashDiffers := false, protoBad := false, lastIdent := none, announced := none
    taken := none, annGal := 0, prevFlight := (0, 0), actCycle := 0, hadBank := false, hostBufRaised := false }

/-- The process image after reset (R102). -/
def imageReset : ImageState :=
  { committed := [], staging := [], tags := [], crcs := [], doneTags := [], compared := [], carried := [], commits := [], voids := [], fresh := [], stagingBy := [], pairWaits := [],
    snaps := [], dma := [], dmaRecords := 0, host := [] }

/-- An engine after reset (R265, R267): FIFOs empty, both banks 0, nothing pending. -/
def engReset : EngState :=
  { txf := [], rxf := [], prog := [], retained := none, delay := 0, pinsSet := 0, swap := none, filters := [], divD := 256
    divCount := 0, divK := 0, divNew := false, links := 0 }

/-- A queue that nothing has set. -/
def queueReset : Queue :=
  { word0 := 0, word1 := 0, en := false, broken := false, pkts := [], opens := [], grant := 0, rdPkt := 0, rdWord := 0, mark := none
    drops := 0 }

/-- Descriptor word 0 of a queue: class, consumer, MIN (R223). -/
def queueWord0 (cls consumer min_ : Nat) : Nat := cls + 2 ^ 8 * consumer + 2 ^ 16 * min_

/-- The system queues as the hub sets them (R225); GRANT_MAX of the share queues is the largest (log entry 21). -/
def systemQueues : Store Queue :=
  ((List.range 16).map fun i => (i, { queueReset with word0 := queueWord0 1 0xFF 0, en := true })) ++
  ((List.range 16).map fun i => (0x10 + i, { queueReset with word0 := queueWord0 1 0xFF 32, word1 := 0x3FFF, en := true })) ++
  [(0x20, { queueReset with word0 := queueWord0 0 0xFF 0, en := true }), (0x21, { queueReset with word0 := queueWord0 0 0xFF 0, en := true }),
   (0x22, { queueReset with word0 := queueWord0 3 0x84 0, en := true })]

/-- The Cabinet after reset: empty, with the system queues set (R225, R238). -/
def cabReset : CabState :=
  { queues := systemQueues, used := [], landRsv := 0, halvings := 0, respRsv := 0, walking := false, walkDue := false, unmarked := []
    leaked := [], leakWalk := 0, mirrorCount := 0, mirrorWait := [], linkErr := 0 }

/-- A CAN channel after reset (R301). -/
def canReset : CanState :=
  { bufs := [], slots := [], waiting := [], attempt := none, cancels := 0, leaving := false, gateWait := false, giveWay := 0, mailbox := none }

/-- The time bases after a reset of class K: all 0, TB0 and TB1 in FREE (R304). -/
def timeReset : TimeState :=
  { tb0 := 0, tb0Frac := 0, tb1Sec := 0, tb1Ns := 0, tb1Frac := 0, tb2 := 0, tb2Frac := 0, tb3 := 0, tb3Frac := 0, stamps := []
    halves := [], reports := [], exchanges := [], acquirePort := 0, stepped := false, phase := 0, inRun := 0, outRun := 0, learned := []
    lastMeas := 0, ppsFreq := 0, ppsPhase := 0, ppsIn := 0, ppsOut := 0, ppsRejects := 0, ppsFollow := false, pulse := none
    armedLate := [], cmpFrom := [] }

/-- The governor after reset. -/
def govReset : GovState :=
  { waiting := none, raising := false, lastChange := 0, noRaise := 0, lowLoad := 0, lowReq := 0, overRun := 0, records := [], flightAt := 0
    noDwell := false, gate := none }

/-- The breakers after reset. -/
def brkReset : BrkState :=
  { queue := [], shed := [], restore := [], rampAt := [], records := [], toWrite := [], staging := [], curves := [] }

/-- Keys after reset: a blank part (R428). -/
def keyReset : KeyState :=
  { lc := 0, svcLeft := 63, slots := [], stored := [], running := none, scrub := 0, refused := [], switchAt := 0, switched := 0, oldSlot := 0 }

/-- The lease and membership after reset. -/
def duplexReset : DuplexState :=
  { tokYield := false, tokHubs := (0, 0), disparity := false, frameAt := 0, partnerAt := none, ackFor := none, ackGot := false, yieldAt := 0, yieldCmd := false, seq := 0, frameFor := none
    missed := 0, kickAt := 0, present := false, absent := 0, holders := [], recHolder := 0, seen := [], nonce := 0, nonceCycle := 0, nonceTime := 0, joinHash := 0, joinHold := 0
    refused := [], candFrom := 0, candResp := none }

/-- The bridge after reset. -/
def bridgeReset : BridgeState :=
  { out := [], ingress := [], sentCnt := [], limit := [], epoch := [], seqTx := [], seqRx := [], executed := [], advertised := [], alloc := (8, 16, 8), rotation := 0
    reqs := [], nextTag := 0, lastPw := [], dirHold := [], quietUntil := 0, shares := [], pwe := [], notices := [], descs := [], partTx := []
    running := [], totals := [], tickets := [], guards := [], gathers := [], mail := [], held := [] }

/-- Boot and update after reset: no image area is written. -/
def bootReset : BootState :=
  { holding := none, headBefore := 0, holdTicks := 0, booting := none, bootsel := 0, hLost := false, areas := [0, 0, 0, 0], booted := []
    hdrNext := 0, wordBlock := 0, words := [], got := [], standbyRun := false, confirmFrom := none, settings := [], applied := 0, store := []
    ckpt := [], ckptFrom := 0, ckptTo := 0, dump := none, summary := false, flashFail := false, i2c := none
    wear := [], dramBad := [], flashBad := [], protoMap := none }

/-- The block right after reset. -/
def State.reset : State :=
  { pending := [], regs := [], latch := []
    access := { guards := [], rows := [], dramRegions := [], groups := [], denials := [] }
    event := { log := [], assertTime := [], msix := [], pba := [], levelFaults := [], sequence := none, newel := none,
               errTest := false, held := [] }
    time := timeReset
    portE := portReset, portW := portReset, stnE := stationReset, stnW := stationReset, stair := stairReset, image := imageReset
    engines := [], tileSafe := [], cab := cabReset, cans := [], filters := [], filterHold := [], gov := govReset, brk := brkReset
    key := keyReset, duplex := duplexReset, bridge := bridgeReset, boot := bootReset
    dram := [], flash := [], sent := [], freeCtr := 0 }

end Sys2Proof.Machine
end

