-- ==== Sys2Proof/Machine/Ops.lean ====
section
/-!
DEFINITION. The named operations over the state that every meaning is written with: register fields, counters, free
values, event sources and groups, the journal.
-/

namespace Sys2Proof.Machine

open Sys2Proof

/-- The key of a register field: bank (master class of a banked register, else 0), page, byte offset, lowest bit. -/
def regKey (bank page : Nat) (f : Fld) : Nat := bank * 2 ^ 29 + page * 2 ^ 17 + f.off * 2 ^ 5 + f.lsb

/-- A field of one bank of a page: what was last stored, or its Rst value. It has as many bits as the field. -/
def getBank (s : State) (bank page : Nat) (f : Fld) : Nat := storeGet f.rst s.regs (regKey bank page f) % 2 ^ f.width

/-- A field of a page. -/
def getR (s : State) (page : Nat) (f : Fld) : Nat := getBank s 0 page f

/-- One bank of a field set to a value, cut to the field's width. -/
def setBank (bank page : Nat) (f : Fld) (v : Nat) (s : State) : State :=
  { s with regs := storeSet f.rst s.regs (regKey bank page f) (v % 2 ^ f.width) }

/-- A field set to a value, cut to the field's width. -/
def setR (page : Nat) (f : Fld) (v : Nat) (s : State) : State := setBank 0 page f v s

/-- A one-bit field as a condition. -/
def flag (s : State) (page : Nat) (f : Fld) : Bool := getR s page f ≠ 0

/-- A one-bit field set from a condition. -/
def setFlag (page : Nat) (f : Fld) (b : Bool) (s : State) : State := setR page f (b2n b) s

/-- Whether a page's unit is fenced (R437). -/
def pageFenced (s : State) (page : Nat) : Bool := flag s page Reg.comFenceFenced

/-- A counter field plus n, saturating at its largest value (R64). -/
def addCnt (page : Nat) (f : Fld) (n : Nat) (s : State) : State :=
  setR page f (min (getR s page f + n) (2 ^ f.width - 1)) s

/-- A counter field plus one, saturating (R64). -/
def incCnt (page : Nat) (f : Fld) (s : State) : State := addCnt page f 1 s

/-- A wrapping counter field plus one. -/
def incWrap (page : Nat) (f : Fld) (s : State) : State := setR page f (getR s page f + 1) s

/-- A field back at its Rst value. -/
def clearR (page : Nat) (f : Fld) (s : State) : State := setR page f f.rst s

/-- A list of fields back at their Rst values. -/
def clearAll (page : Nat) (fs : List Fld) (s : State) : State := fs.foldl (fun t f => clearR page f t) s

/-- A register pair read as one number: LO holds the low 32 bits. -/
def getPair (s : State) (page : Nat) (lo hi : Fld) : Nat := getR s page lo + 2 ^ 32 * getR s page hi

/-- A register pair set from one number. -/
def setPair (page : Nat) (lo hi : Fld) (v : Nat) (s : State) : State :=
  setR page hi (v / 2 ^ 32) (setR page lo v s)

/-- A pair counter plus n, saturating at 48 bits (R64). -/
def addPair (page : Nat) (lo hi : Fld) (n : Nat) (s : State) : State :=
  setPair page lo hi (min (getPair s page lo hi + n) (2 ^ (32 + hi.width) - 1)) s

/-- Steps applied to the state for each element of a list, in order. -/
def forEach {α : Type} (xs : List α) (f : α → State → State) (s : State) : State := xs.foldl (fun t x => f x t) s

/-- A step applied only under a condition. -/
def whenS (b : Bool) (f : State → State) (s : State) : State := if b then f s else s

/-- The next free value and the state with the counter advanced (log entry 2). -/
def freeValue (s : State) : Nat × State := (Config.freeNat s.freeCtr, { s with freeCtr := s.freeCtr + 1 })

/-- A value of which nothing is known where `b` holds; 0 where it does not, and nothing is used up. -/
def freeIf (b : Bool) (s : State) : Nat × State := if b then freeValue s else (0, s)

/-- n free bytes. -/
def freeBytes (n : Nat) (s : State) : List Byte × State :=
  ((List.range n).map fun i => BitVec.ofNat 8 (Config.freeNat (s.freeCtr + i)), { s with freeCtr := s.freeCtr + n })

/-- Something put on an interface. -/
def emit (o : Sent) (s : State) : State := { s with sent := s.sent ++ [o] }

/-- The answer of a command's effect: the state after it. The queue of waiting commands is not a command's to change. -/
def answer (s t : State) : Answer := .next { t with pending := s.pending }

/-- The answer of a command that the hub is to carry out: nothing happens while a RING, PIN, BOR or POR reset is asserted (R458, R459). -/
def alive (s t : State) : Answer := if s.boot.holding.isSome then .next s else answer s t

/-- TB2 bits [31:0] (R305). -/
def tb2Lo (s : State) : Nat := s.time.tb2 % 2 ^ 32

/-! ### Event sources and groups (R430–R435) -/

/-- Source bits of a page that are both sticky and enabled (R433). -/
def activeBits (s : State) (page : Nat) : Nat := getR s page Reg.comEvtSticky &&& getR s page Reg.comEvtEnable

/-- Whether any active source belongs to a page of the group (R433). -/
def groupAsserted (s : State) (g : Nat) : Bool :=
  allPages.any fun p => activeBits s p ≠ 0 && getR s p Reg.comEvtGroup = g

/-- One bit of a register array of 32-bit words. -/
def arrayBit (s : State) (page : Nat) (f : Nat → Fld) (i : Nat) : Bool := bit (getR s page (f (i / 32))) (i % 32)

/-- One bit of a register array set from a condition. -/
def setArrayBit (page : Nat) (f : Nat → Fld) (i : Nat) (b : Bool) (s : State) : State :=
  let w := getR s page (f (i / 32))
  let m := 2 ^ (i % 32)
  setR page (f (i / 32)) (if b then w ||| m else w &&& (m ^^^ 0xFFFFFFFF)) s

/-- An MSI-X vector sent, or its PBA bit set while it is masked (R433). -/
def sendMsix (v : Nat) (s : State) : State :=
  let e := storeGet { addr := 0, data := 0, ctrl := 1 } s.event.msix v
  if e.ctrl % 2 = 1 then { s with event := { s.event with pba := storePut v 1 s.event.pba } }
  else emit (.msix v) s

/-- A group is raised: its ASSERT_TIME, its MSI-X vector and Newel's line (R433). -/
def raiseGroup (g : Nat) (s : State) : State :=
  { s with event := { s.event with assertTime := storePut g (tb2Lo s) s.event.assertTime } }
  |> whenS (arrayBit s Page.evt Reg.evtGrpMsix g) (sendMsix g)
  |> whenS (arrayBit s Page.evt Reg.evtGrpNewel g) (emit (.newelIrq g))

/-- A change of the state that may assert groups: every group that became asserted through it is raised, in ascending order (R433). -/
def raiseChanged (gs : List Nat) (before : State) (after : State) : State :=
  forEach (gs.filter fun g => !groupAsserted before g && groupAsserted after g) raiseGroup after

/-- The cycle number stamp of the event log: bits [15:0], or 0 without an active Staircase (R435). -/
def logCycle (s : State) : Nat :=
  if getR s Page.stair Reg.stairStatusActState ≠ 0 then s.time.tb0 / (memNat s.stair.active 0x29 1 * 31250) % 2 ^ 16 else 0

/-- One entry of the event log; the 256 latest are kept and LOG_SEQ counts all (R435). -/
def logEvent (src : Nat) (s : State) : State :=
  let e := (src % 1024 + 2 ^ 16 * logCycle s, tb2Lo s)
  let l := s.event.log ++ [e]
  incWrap Page.evt Reg.evtLogSeq { s with event := { s.event with log := l.drop (l.length - 256) } }

/-- Sticky bits of a page set where they exist: each that was 0 is logged in ascending order (R431, R435), and the page's group is
raised if it becomes asserted (R433). -/
def setSticky (page mask : Nat) (s : State) : State :=
  let old := getR s page Reg.comEvtSticky
  let new := mask &&& (2 ^ kindEvents (kindOf page) - 1) &&& (old ^^^ 0xFFFF)
  if new = 0 then s
  else
    let t := forEach ((List.range 16).filter fun i => bit new i) (fun i u => logEvent (eventBase page + i) u)
      (setR page Reg.comEvtSticky (old ||| new) s)
    raiseChanged [getR s page Reg.comEvtGroup] s t

/-- A pulse source occurs (R431). -/
def raiseEv (page i : Nat) (s : State) : State := setSticky page (2 ^ i) s

/-- A pulse source occurs under a condition. -/
def raiseIf (b : Bool) (page i : Nat) (s : State) : State := if b then raiseEv page i s else s

/-- A level source stands or has gone (R431): EVT_RAW follows it, and the sticky bit is set while it stands. -/
def setLevel (page i : Nat) (b : Bool) (s : State) : State :=
  let raw := getR s page Reg.comEvtRaw
  let t := setR page Reg.comEvtRaw (if b then raw ||| 2 ^ i else raw &&& (2 ^ i ^^^ 0xFFFF)) s
  if b then setSticky page (2 ^ i) t else t

/-- Whether a level source stands. -/
def levelOn (s : State) (page i : Nat) : Bool := bit (getR s page Reg.comEvtRaw) i

/-! ### Journal (R445–R447) -/

/-- HEAD: the SEQ of the next entry. -/
def journalHead (s : State) : Nat := getPair s Page.jrnl Reg.jrnlHeadLoSeq Reg.jrnlHeadHi

/-- CKPT: the SEQ after the last checkpointed entry. -/
def journalCkpt (s : State) : Nat := getPair s Page.jrnl Reg.jrnlCkptLoSeq Reg.jrnlCkptHi

/-- DRAM offset of the journal ring (R445). -/
def journalBase : Nat := 0x07600000

/-- Whether a master class belongs to the secure world (R396). -/
def secureClass (cls : Nat) : Bool := cls < 3

/-- The 32 bytes of a journal entry (R445). `who` is none for a hub-initiated record. -/
def journalBytes (s : State) (seq : Nat) (who : Option Master) (cls target value result : Nat) : List Byte :=
  let b6 := match who with
    | some m => m.cls.val + (if secureClass m.cls.val then 0 else 16) + 32 * m.ifc.val
    | none => 32 * 7
  let node := match who with
    | some m => if m.ifc.val = 5 then m.node.toNat else 0
    | none => 0
  leBytes 6 seq ++ leBytes 1 b6 ++ leBytes 1 cls ++ leBytes 8 s.time.tb2 ++ leBytes 4 target ++ leBytes 1 node ++
    leBytes 1 0 ++ leBytes 2 result ++ leBytes 8 value

/-- A checkpoint begins unless one is running (R447). -/
def startCheckpoint (s : State) : State :=
  if flag s Page.jrnl Reg.jrnlStatusCkptBusy then s
  else setFlag Page.jrnl Reg.jrnlStatusCkptBusy true { s with boot := { s.boot with ckptTo := journalHead s } }

/-- The 64-bit words of DRAM that n bytes written from an offset on cover whole hold no error any more (R467). -/
def healDram (a n : Nat) (s : State) : State :=
  { s with boot := { s.boot with dramBad := s.boot.dramBad.filter fun w => !decide (a ≤ 8 * w ∧ 8 * w + 8 ≤ a + n) } }

/-- An uncorrectable word of DRAM is met (R467, R487). -/
def noteDramWord (w : Nat) (s : State) : State :=
  s |> incCnt Page.dram Reg.dramUncorrCnt |> setR Page.dram Reg.dramErrAddr w |> raiseEv Page.dram Ev.dramEccUncorr

/-- WEAR: a sector has passed 80,000 erase cycles (R488). -/
def syncWear (s : State) : State :=
  let worn := s.boot.wear.any fun e => decide (80000 < e.2)
  s |> setLevel Page.flash Ev.flashWear worn |> setFlag Page.flash Reg.flashStatusWear worn

/-- n sectors of the flash are erased: their cycles are counted, and ERASE_MAX shows the highest count, of equals the lowest sector (R466, R488). -/
def eraseFlash (first n : Nat) (s : State) : State :=
  let wear := (List.range n).foldl (fun m i => storePut (first + i) (storeGet 0 m (first + i) + 1) m) s.boot.wear
  let top := wear.foldl (fun b e => if b.2 < e.2 then e else b) (0, 0)
  { s with boot := { s.boot with wear := wear } }
  |> setR Page.flash Reg.flashEraseMaxCount (min 131071 top.2) |> setR Page.flash Reg.flashEraseMaxSector top.1 |> syncWear

/-- One entry written to the ring: HEAD advances, and a checkpoint begins when 4,096 entries have accumulated (R445–R447). -/
def journalWrite (bytes : List Byte) (s : State) : State :=
  let h := journalHead s
  let t := setPair Page.jrnl Reg.jrnlHeadLoSeq Reg.jrnlHeadHi ((h + 1) % 2 ^ 48)
    (healDram (journalBase + 32 * (h % 65536)) bytes.length { s with dram := memWriteN s.dram (journalBase + 32 * (h % 65536)) bytes })
  whenS (journalHead t ≥ t.boot.ckptFrom + 4096) startCheckpoint t

/-- A journaled command or record (R445, R446): its entry takes the next sequence number and is written at once. While DRAM is fenced the
writer holds up to 256 entries and loses the rest (R485). -/
def journal (who : Option Master) (cls target value result : Nat) (s : State) : State :=
  let held := s.event.held
  let bytes := journalBytes s ((journalHead s + held.length) % 2 ^ 48) who cls target value result
  if pageFenced s Page.dram then
    let more := if held.length < 256 then held ++ [bytes] else held
    setR Page.jrnl Reg.jrnlStatusEntries (min 255 more.length) { s with event := { s.event with held := more } }
  else journalWrite bytes s

/-- The entries that the writer held while DRAM was fenced are written (R485). -/
def journalDrain (s : State) : State :=
  setR Page.jrnl Reg.jrnlStatusEntries 0 (forEach s.event.held (fun b u => journalWrite b u) { s with event := { s.event with held := [] } })

/-- Whether the hub is in STANDBY (R464). -/
def inStandby (s : State) : Bool := flag s Page.upd Reg.updStatusStandby

/-- A refusal journaled where its page has no refusal codes: RESULT is some value other than 0 (R445; a free value). -/
def journalRefused (who : Option Master) (cls target value : Nat) (s : State) : State :=
  let (r, t) := freeValue s
  journal who cls target value (1 + r % 65535) t

end Sys2Proof.Machine
end

