-- ==== Sys2Proof/Machine/Cabinet.lean ====
section
/-!
DEFINITION. The Cabinet (R221–R243): cells, queues, buffer accounts, producing and consuming packets, flushing, the leaked-buffer auditor
and the mirror.
-/

namespace Sys2Proof.Machine

open Sys2Proof

/-! ### Results (ACC_STATUS.RESULT) and classes -/

def cabOk : Nat := 0
def cabWaitCredit : Nat := 1
def cabDropped : Nat := 2
def cabEmpty : Nat := 3
def cabOwner : Nat := 4
def cabStateErr : Nat := 5
def cabDisabled : Nat := 6

def classMgmt : Nat := 0
def classMailbox : Nat := 1
def classBulk : Nat := 2
def classMirror : Nat := 3

/-- Port codes (Port codes table). -/
def portLand (p : Side) : Nat := if p = .east then 0x00 else 0x01
def portPcie : Nat := 0x02
def portLocal : Nat := 0x03
def portNewel : Nat := 0x04
def portCan : Nat := 0x05
def portTile (t : Nat) : Nat := 0x06 + t
def portMirror : Nat := 0x16
def portDramBulk : Nat := 0x17
def portSoftware (cls : Nat) : Nat := 0x80 + cls
def portHub : Nat := 0xFF

/-- Cells in the pool (R221). -/
def poolCells : Nat := 180224
/-- The MGMT reserve. -/
def mgmtReserve : Nat := 2048

/-! ### Queues and accounts -/

/-- A queue. -/
def queueOf (s : State) (q : Nat) : Queue := storeGet queueReset s.cab.queues q

/-- A queue replaced. -/
def setQueue (q : Nat) (v : Queue) (s : State) : State :=
  { s with cab := { s.cab with queues := storeSet queueReset s.cab.queues q v } }

def Queue.cls (v : Queue) : Nat := bits v.word0 1 0
def Queue.consumer (v : Queue) : Nat := bits v.word0 15 8
def Queue.min (v : Queue) : Nat := bits v.word0 23 16
def Queue.grantMax (v : Queue) : Nat := bits v.word1 13 0

/-- The threshold exponent a, −3 to +3 (R223). -/
def Queue.exponent (v : Queue) : Int := let a := sgn 3 (bits v.word0 5 3); if a < -3 then -3 else a

/-- Cells of the closed, unreleased packets: CELLS and USED (R223, R230). -/
def Queue.cells (v : Queue) : Nat := (v.pkts.map fun p => p.cells.length).foldl (· + ·) 0

/-- Cells declared by the open packets (R230); a discarded packet declares none (R231). -/
def Queue.declared (v : Queue) : Nat := (v.opens.map fun o => if o.dead then 0 else o.declare).foldl (· + ·) 0

/-- Cells that the open packets have taken. -/
def Queue.openCells (v : Queue) : Nat := (v.opens.map fun o => o.cells.length).foldl (· + ·) 0

/-- A landing-account queue (R225). -/
def landingQueue (q : Nat) : Bool := q < 16

/-- A sum over all queues. -/
def queueSum (s : State) (f : Nat → Queue → Nat) : Nat := (s.cab.queues.map fun e => f e.1 e.2).foldl (· + ·) 0

/-- The guaranteed account: MIN of the enabled MAILBOX queues and the landing reservation. -/
def guarTotal (s : State) : Nat := queueSum s (fun _ v => if v.en && v.cls = classMailbox then v.min else 0) + s.cab.landRsv

/-- MGMT cells in use or declared, response reservations included. -/
def mgmtTaken (s : State) : Nat :=
  queueSum s (fun _ v => if v.cls = classMgmt then v.cells +
    ((v.opens.map fun o => if o.dead || o.reserved then 0 else o.declare).foldl (· + ·) 0) else 0) + s.cab.respRsv

/-- MGMT_FREE: unreserved MGMT cells. -/
def mgmtFree (s : State) : Nat := mgmtReserve - mgmtTaken s

/-- Cells granted from the shared pool, or holding BULK or MIRROR data. -/
def sharedTaken (s : State) : Nat :=
  queueSum s fun _ v =>
    if v.cls = classMailbox then v.grant else if v.cls = classMgmt then 0 else v.cells + v.openCells

/-- F: shared cells neither granted nor holding BULK or MIRROR data (SHARED_FREE). -/
def sharedFree (s : State) : Nat := poolCells - mgmtReserve - guarTotal s - sharedTaken s

/-- Cells on the free list (FREE). -/
def freeCells (s : State) : Nat := poolCells - s.cab.used.length

/-- The CAB register that shows an account, by byte offset. -/
def cabAccount (s : State) (off : Nat) : Option Nat :=
  if off = 0x4C then some (freeCells s)
  else if off = 0x50 then some (sharedFree s)
  else if off = 0x54 then some (mgmtFree s)
  else if off = 0x58 then some (guarTotal s)
  else if off = 0x5C then some (s.cab.landRsv + 2 ^ 18 * s.cab.halvings)
  else none

/-- The levels that follow the accounts and queue 0x022: MGMT_LOW (R245) and MIRROR_READY (R247). -/
def syncCab (s : State) : State :=
  s |> setLevel Page.cab Ev.cabMgmtLow (decide (mgmtFree s < 256))
    |> setLevel Page.mirror Ev.mirrorMirrorReady (!(queueOf s 0x22).pkts.isEmpty)

/-! ### Free list (R221) -/

/-- The k-th cell that is not in a rising list of used cells. -/
def nthFree (k : Nat) : List Nat → Nat
  | [] => k
  | u :: us => if u ≤ k then nthFree (k + 1) us else k

/-- A cell put into a rising list. -/
def insertCell (c : Nat) : List Nat → List Nat
  | [] => [c]
  | d :: ds => if c < d then c :: d :: ds else d :: insertCell c ds

/-- The free list supplies one cell; which one is open (a free value). None when it is empty. -/
def takeCell (s : State) : Option (Nat × State) :=
  if freeCells s = 0 then none
  else
    let (r, s1) := freeValue s
    let c := nthFree (r % freeCells s) s.cab.used
    some (c, { s1 with cab := { s1.cab with used := insertCell c s1.cab.used } })

/-- Cells go back to the free list. -/
def returnCells (cs : List Nat) (s : State) : State :=
  { s with cab := { s.cab with used := s.cab.used.filter fun c => !cs.contains c } }

/-- GRANT set to max(0, USED + DECL − MIN) on a MAILBOX queue (R233). -/
def adjustGrant (q : Nat) (s : State) : State :=
  let v := queueOf s q
  if v.cls = classMailbox && !landingQueue q then setQueue q { v with grant := v.cells + v.declared - v.min } s else s

/-! ### Mirror (R241–R243) -/

/-- N, with 0 acting as 1. -/
def mirrorN (s : State) : Nat := max 1 (getR s Page.mirror Reg.mirrorN)

/-- A packet matches the mirror's source: it is counted, and every N-th match waits to be copied (R241, R242). -/
def mirrorMatch (q : Nat) (p : Packet) (s : State) : State :=
  let s1 := incCnt Page.mirror Reg.mirrorSeenCnt s
  if s1.cab.mirrorCount + 1 < mirrorN s1 then { s1 with cab := { s1.cab with mirrorCount := s1.cab.mirrorCount + 1 } }
  else
    let len := bits p.word 15 0
    let keep := if flag s1 Page.mirror Reg.mirrorCfgTrunc then 128 else 64
    let n := min len keep
    let w := len + 2 ^ 16 * bits p.word 31 24 + 2 ^ 24 * q
    let copy := (decide (n < len), 8 + n, [w % 2 ^ 32, w / 2 ^ 32] ++ p.data.take ((n + 3) / 4))
    { s1 with cab := { s1.cab with mirrorCount := 0, mirrorWait := s1.cab.mirrorWait ++ [copy] } }

/-- The mirror's EN and SOURCE; SOURCE 3 acts as 0. -/
def mirrorSource (s : State) : Option Nat :=
  if flag s Page.mirror Reg.mirrorCfgEn then some (let v := getR s Page.mirror Reg.mirrorCfgSource; if v = 3 then 0 else v) else none

/-- What the mirror sees of a CLOSE (R241). The mirror does not watch its own copies. -/
def mirrorClose (port q : Nat) (p : Packet) (s : State) : State :=
  if port = portMirror then s
  else
    match mirrorSource s with
    | some 0 => whenS (getR s Page.mirror Reg.mirrorCfgPort = port) (mirrorMatch q p) s
    | some 2 => whenS (getR s Page.mirror Reg.mirrorCfgQueue = q) (mirrorMatch q p) s
    | _ => s

/-- What the mirror sees of a release (R241). -/
def mirrorRelease (port q : Nat) (p : Packet) (s : State) : State :=
  match mirrorSource s with
  | some 1 => whenS (getR s Page.mirror Reg.mirrorCfgPort = port) (mirrorMatch q p) s
  | _ => s

/-! ### Producing (R230–R233) -/

/-- The packet a port holds open on a queue. -/
def openPacket (s : State) (port q : Nat) : Option OpenPacket := (queueOf s q).opens.find? fun o => o.port = port

/-- The open packet of a port replaced, or removed. -/
def setOpen (port q : Nat) (o : Option OpenPacket) (s : State) : State :=
  let v := queueOf s q
  let rest := v.opens.filter fun x => x.port ≠ port
  setQueue q { v with opens := match o with
    | some x => rest ++ [x]
    | none => rest } s

/-- A packet is tail-dropped on a queue (R230). -/
def tailDrop (q : Nat) (s : State) : State :=
  let v := queueOf s q
  setQueue q { v with drops := satInc 16 v.drops } s |> incCnt Page.cab Reg.cabTailDropCnt |> raiseEv Page.cab Ev.cabTailDrop

/-- ⌊F × 2^a⌋ (R230). -/
def threshold (f : Nat) (a : Int) : Nat := if 0 ≤ a then f * 2 ^ a.toNat else f / 2 ^ (-a).toNat

/-- Cells granted from the shared pool so that a MAILBOX queue's credit covers DECLARE; none where it cannot be (R230). -/
def mailboxGrant (s : State) (v : Queue) (declare : Nat) : Option Nat :=
  let credit := (v.min + v.grant : Nat) - (v.cells + v.declared : Nat)
  let short := declare - credit
  if short = 0 then some 0
  else if v.grant + short ≤ v.grantMax ∧ short + getR s Page.cab Reg.cabGrantFloor ≤ sharedFree s then some short
  else none

/-- The packet opens: it takes its first cell. -/
def beginPacket (port q declare : Nat) (reserved : Bool) (s : State) : Nat × State :=
  match takeCell s with
  | none => (cabWaitCredit, s)
  | some (c, s1) =>
    (cabOk, s1 |> setOpen port q (some { port := port, declare := declare, data := [], cells := [c], dead := false, reserved := reserved }) |> syncCab)

/-- OPEN (R230). `reserved` marks a response whose cells were reserved under R197; DECLARE is read as 1 to 512. -/
def cabOpen (port q declare : Nat) (reserved : Bool) (s : State) : Nat × State :=
  let v := queueOf s q
  let d := max 1 (min 512 declare)
  if !v.en then (cabDisabled, s)
  else if v.broken then (cabStateErr, s)
  else if (openPacket s port q).isSome then (cabStateErr, s)
  else if v.cls = classMgmt then
    if reserved || decide (d ≤ mgmtFree s) then beginPacket port q d reserved s else (cabWaitCredit, s)
  else if v.cls = classMailbox then
    if landingQueue q then beginPacket port q d reserved s
    else
      match mailboxGrant s v d with
      | some g =>
        let (r, t) := beginPacket port q d reserved (setQueue q { v with grant := v.grant + g } s)
        (r, if r = cabOk then t else s)
      | none => (cabWaitCredit, s)
  else if v.cls = classMirror && port ≠ portMirror then (cabStateErr, s)
  else if v.cells < threshold (sharedFree s) v.exponent then beginPacket port q 0 reserved s
  else (cabDropped, tailDrop q s)

/-- The open packet is discarded where it stands: its cells return and its declaration ends (R231). -/
def killPacket (port q : Nat) (o : OpenPacket) (s : State) : State :=
  s |> returnCells o.cells |> setOpen port q (some { o with dead := true, cells := [], data := [] }) |> syncCab

/-- PUT (R231). -/
def cabPut (port q w : Nat) (s : State) : Nat × State :=
  match openPacket s port q with
  | none => (cabStateErr, s)
  | some o =>
    if o.dead then (cabDropped, s)
    else
      let cls := (queueOf s q).cls
      let n := (8 + 4 * (o.data.length + 1) + 127) / 128
      let add (c : List Nat) (u : State) : State := setOpen port q (some { o with data := o.data ++ [w % 2 ^ 32], cells := o.cells ++ c }) u
      if n ≤ o.cells.length then (cabOk, add [] s)
      else if cls = classMgmt ∨ cls = classMailbox then
        if o.declare < n then
          let s1 := killPacket port q o s
          let v := queueOf s1 q
          (cabDropped, setQueue q { v with drops := satInc 16 v.drops } s1 |> incCnt Page.cab Reg.cabCredOverCnt
            |> raiseEv Page.cab Ev.cabCreditOver)
        else
          match takeCell s with
          | some (c, s1) => (cabOk, add [c] s1)
          | none => (cabWaitCredit, s)
      else if sharedFree s = 0 then (cabDropped, s |> killPacket port q o |> tailDrop q)
      else
        match takeCell s with
        | some (c, s1) => (cabOk, add [c] s1)
        | none => (cabDropped, s |> killPacket port q o |> tailDrop q)

/-- ABORT (R232). -/
def cabAbort (port q : Nat) (s : State) : Nat × State :=
  match openPacket s port q with
  | none => (cabStateErr, s)
  | some o => (cabOk, s |> returnCells o.cells |> setOpen port q none |> adjustGrant q |> syncCab)

/-- A packet word (Packet word table). -/
def packetWord (len : Nat) (trunc : Bool) (port stamp : Nat) : Nat := len + 2 ^ 16 * b2n trunc + 2 ^ 24 * port + 2 ^ 32 * stamp

/-- CLOSE (R232): LENGTH is 4 × words − TRIM. `trunc` marks a mirror copy that was cut short. A packet that is linked behind the damaged link of
a broken queue is unreachable, with its cells (R222). -/
def cabCloseWith (port q trim : Nat) (trunc : Bool) (s : State) : Nat × State :=
  match openPacket s port q with
  | none => (cabStateErr, s)
  | some o =>
    if o.dead then (cabDropped, s |> setOpen port q none |> adjustGrant q |> syncCab)
    else
      let len := 4 * o.data.length - trim
      if len = 0 ∨ 65528 < len then (cabStateErr, s |> returnCells o.cells |> setOpen port q none |> adjustGrant q |> syncCab)
      else
        let s1 := setOpen port q none s
        let p : Packet := { word := packetWord len trunc port (tb2Lo s), data := o.data, cells := o.cells }
        let v := queueOf s1 q
        let s2 := if v.broken then s1 else setQueue q { v with pkts := v.pkts ++ [p] } s1
        let s3 := { s2 with cab := { s2.cab with respRsv := if o.reserved then s2.cab.respRsv - o.declare else s2.cab.respRsv } }
        (cabOk, s3 |> adjustGrant q |> mirrorClose port q p |> syncCab)

/-- CLOSE (R232). -/
def cabClose (port q trim : Nat) (s : State) : Nat × State := cabCloseWith port q trim false s

/-- A whole packet produced by a hardware port: OPEN, its words, CLOSE; nothing is kept where one of them does not succeed. -/
def cabProduce (port q : Nat) (words : List Nat) (trim : Nat) (reserved : Bool) (s : State) : Nat × State :=
  let (r, s1) := cabOpen port q ((8 + 4 * words.length + 127) / 128) reserved s
  if r ≠ cabOk then (r, s1)
  else
    let (r2, s2) := words.foldl (fun (acc : Nat × State) w => if acc.1 = cabOk then cabPut port q w acc.2 else acc) (cabOk, s1)
    if r2 = cabOk then cabClose port q trim s2 else (r2, (cabAbort port q s2).2)

/-! ### Consuming (R235, R236) -/

/-- The words that GET returns for a packet: the packet word and the data, the last padded with zero bytes (R235). -/
def packetWords (p : Packet) : List Nat :=
  let n := bits p.word 15 0
  let last := n % 4
  let cut (i w : Nat) : Nat := if last ≠ 0 ∧ i + 1 = (n + 3) / 4 then w % 2 ^ (8 * last) else w
  [p.word % 2 ^ 32, p.word / 2 ^ 32] ++ (List.range ((n + 3) / 4)).map fun i => cut i (p.data.getD i 0)

/-- Whether every word of a packet can be reached: not behind the damaged link of a broken queue (R222). -/
def wholePacket (p : Packet) : Bool := decide ((packetWords p).length ≤ 32 * p.cells.length)

/-- Another port's consuming operation gets OWNER (R223). -/
def ownerErr (s : State) : Nat × State := (cabOwner, raiseEv Page.cab Ev.cabOwnerErr s)

/-- A link entry with an uncorrectable error breaks its queue (R222): what lies up to the damaged cell stays, the rest is unreachable. -/
def breakQueue (q cell : Nat) (s : State) : State :=
  let v := queueOf s q
  let before := v.pkts.takeWhile fun p => !p.cells.contains cell
  let cut := ((v.pkts.drop before.length).take 1).map fun p => { p with cells := p.cells.takeWhile (fun c => c ≠ cell) ++ [cell] }
  s |> setQueue q { v with broken := true, pkts := before ++ cut } |> raiseEv Page.cab Ev.cabLinkEcc |> syncCab

/-- The cell whose link entry a GET of a packet's word follows: at the end of a cell, towards the packet's next cell or the next packet. -/
def followedCell (v : Queue) (p : Packet) : Option Nat :=
  let n := (packetWords p).length
  if v.rdWord + 1 < n then
    (if (v.rdWord + 1) % 32 = 0 ∧ v.rdWord / 32 + 1 < p.cells.length then p.cells[v.rdWord / 32]? else none)
  else if v.rdPkt + 1 < v.pkts.length then p.cells.getLast? else none

/-- What ECC does with the link entry that a GET follows (R222). -/
def checkLink (q : Nat) (cell : Option Nat) (s : State) : State :=
  match cell with
  | none => s
  | some c =>
    if s.cab.linkErr = 1 then incCnt Page.cab Reg.cabLinkCorrCnt s
    else if s.cab.linkErr = 2 then breakQueue q c s
    else s

/-- GET (R235): the result, the word and the state. Behind the damaged link of a broken queue there is nothing to read (R222). -/
def cabGet (port q : Nat) (s : State) : Nat × Nat × State :=
  let v := queueOf s q
  if v.consumer ≠ port then (cabOwner, 0, (ownerErr s).2)
  else
    match v.pkts[v.rdPkt]? with
    | none => (cabEmpty, 0, s)
    | some p =>
      let ws := packetWords p
      let next := if v.rdWord + 1 < ws.length then { v with rdWord := v.rdWord + 1 } else { v with rdPkt := v.rdPkt + 1, rdWord := 0 }
      if v.broken && decide (32 * p.cells.length ≤ v.rdWord) then (cabEmpty, 0, s)
      else (cabOk, ws.getD v.rdWord 0, s |> setQueue q next |> checkLink q (followedCell v p))

/-- MARK (R235). -/
def cabMark (port q : Nat) (s : State) : Nat × State :=
  let v := queueOf s q
  if v.consumer ≠ port then ownerErr s else (cabOk, setQueue q { v with mark := some (v.rdPkt, v.rdWord) } s)

/-- REWIND (R235). -/
def cabRewind (port q : Nat) (s : State) : Nat × State :=
  let v := queueOf s q
  if v.consumer ≠ port then ownerErr s
  else (cabOk, setQueue q { v with rdPkt := (v.mark.getD (0, 0)).1, rdWord := (v.mark.getD (0, 0)).2 } s)

/-- The packets wholly before the read position are freed and the mark is cleared (R236). -/
def releasePackets (port q : Nat) (s : State) : State :=
  let v := queueOf s q
  let gone := v.pkts.take v.rdPkt
  s |> setQueue q { v with pkts := v.pkts.drop v.rdPkt, rdPkt := 0, mark := none }
    |> returnCells (gone.flatMap fun p => p.cells) |> adjustGrant q
    |> forEach gone (fun p u => mirrorRelease port q p u) |> syncCab

/-- RELEASE (R236). -/
def cabRelease (port q : Nat) (s : State) : Nat × State :=
  if (queueOf s q).consumer ≠ port then ownerErr s else (cabOk, releasePackets port q s)

/-! ### Flushing, enabling, system queues (R224, R225, R228, R237, R238) -/

/-- A queue is flushed (R237). -/
def flushQueue (q : Nat) (s : State) : State :=
  let v := queueOf s q
  s |> returnCells ((v.pkts.flatMap fun p => p.cells) ++ (v.opens.flatMap fun o => o.cells))
    |> setQueue q { v with pkts := [], opens := [], rdPkt := 0, rdWord := 0, mark := none } |> adjustGrant q |> syncCab

/-- Every queue that a consumer selects is flushed. -/
def flushConsumers (sel : Nat → Bool) (s : State) : State :=
  forEach (s.cab.queues.filter fun e => sel e.2.consumer) (fun e u => flushQueue e.1 u) s

/-- The open packets of a producer port are aborted. -/
def abortProducer (port : Nat) (s : State) : State :=
  forEach (s.cab.queues.filter fun e => e.2.opens.any fun o => o.port = port) (fun e u => (cabAbort port e.1 u).2) s

/-- ENABLE_REFUSED. -/
def enableRefused (s : State) : State := raiseEv Page.cab Ev.cabEnableRefused s

/-- A system queue (R225). -/
def systemQueue (q : Nat) : Bool := q < 0x40

/-- ENABLE (R228). -/
def queueEnable (q : Nat) (s : State) : State :=
  let v := queueOf s q
  if systemQueue q then enableRefused s
  else if v.en then s
  else if v.cls = classMailbox && decide (sharedFree s < v.min) then enableRefused s
  else s |> setQueue q { v with en := true } |> syncCab

/-- DISABLE (R228, R237). -/
def queueDisable (q : Nat) (s : State) : State :=
  if systemQueue q then enableRefused s
  else s |> flushQueue q |> (fun u => setQueue q { queueOf u q with en := false, grant := 0 } u) |> syncCab

/-- CLEAR_BROKEN (R222): a broken queue is flushed and returns to service. -/
def clearBroken (q : Nat) (s : State) : State :=
  if (queueOf s q).broken then s |> flushQueue q |> (fun u => setQueue q { queueOf u q with broken := false } u) else s

/-- A guarded QCMD: 1 ENABLE, 2 DISABLE, 3 FLUSH, 4 CLEAR_BROKEN; others ignored. -/
def queueCommand (q cmd : Nat) (s : State) : State :=
  match cmd with
  | 1 => queueEnable q s
  | 2 => queueDisable q s
  | 3 => flushQueue q s
  | 4 => clearBroken q s
  | _ => s

/-- The system queues set (R225): an activation leaves their packets, and the A and CONSUMER of queue 0x022 as software set them. -/
def setSystemQueues (s : State) : State :=
  forEach systemQueues (fun e u =>
    let v := queueOf u e.1
    let w0 := if e.1 = 0x22 ∧ v.cls = classMirror then v.word0 else e.2.word0
    setQueue e.1 { v with word0 := w0, word1 := e.2.word1, en := true } u) s

/-- The landing reservation (R229): the three allocations are halved together, not below 1, until 3 cells each for n nodes fit into F; the
triple and the number of halvings. -/
def halveAllocations (n f : Nat) : Nat → Nat × Nat × Nat → Nat → (Nat × Nat × Nat) × Nat
  | 0, a, k => (a, k)
  | fuel + 1, (r, p, t), k =>
    if n * 3 * (r + p + t) ≤ f ∨ (r ≤ 1 ∧ p ≤ 1 ∧ t ≤ 1) then ((r, p, t), k)
    else halveAllocations n f fuel (max 1 (r / 2), max 1 (p / 2), max 1 (t / 2)) (k + 1)

/-- The pool and queue states rebuilt empty (R238): the landing reservation, then MIN of each enabled MAILBOX queue in ascending order. -/
def cabRebuild (s : State) : State :=
  let qs := s.cab.queues
  let empty (v : Queue) : Queue := { queueReset with word0 := v.word0, word1 := v.word1, en := false }
  let s0 := { s with cab := { cabReset with
    queues := (qs.filter fun e => !systemQueue e.1).map fun e => (e.1, empty e.2), landRsv := s.cab.landRsv, halvings := s.cab.halvings } }
  let s1 := setSystemQueues s0
  forEach (qs.filter fun e => !systemQueue e.1 && e.2.en) (fun e u =>
    if e.2.cls = classMailbox && decide (sharedFree u < e.2.min) then enableRefused u
    else setQueue e.1 { queueOf u e.1 with en := true } u) s1 |> syncCab

/-- A descriptor word (R223). -/
def descriptorWord (s : State) (q w : Nat) : Nat :=
  let v := queueOf s q
  match w with
  | 0 => v.word0
  | 1 => v.word1
  | 2 => v.cells + 2 ^ 18 * b2n v.en + 2 ^ 19 * b2n v.broken + 2 ^ 20 * b2n (v.opens.any fun o => !o.dead)
  | 3 => v.pkts.length + 2 ^ 18 * v.grant
  | 4 => ((v.pkts.head?.map fun p => p.cells.headD 0).getD 0)
  | 5 => ((v.pkts.getLast?.map fun p => p.cells.getLastD 0).getD 0)
  | 6 =>
    let rd := match v.pkts[v.rdPkt]? with
      | some p => p.cells.getD (v.rdWord / 32) 0 + 2 ^ 18 * (v.rdWord % 32)
      | none => ((v.pkts.getLast?.map fun p => p.cells.getLastD 0).getD 0)
    rd + 2 ^ 23 * b2n v.mark.isSome
  | 7 => v.drops
  | _ => 0

/-- One entry of the leak report (R240). -/
def leakEntry (s : State) (i : Nat) : Nat :=
  match s.cab.leaked[i]? with
  | some c => c + 2 ^ 18 + 2 ^ 19 * (s.cab.leakWalk % 2 ^ 13)
  | none => 0

/-- The word that the CAB indirect pair reads (CAB page). -/
def cabIndRead (s : State) (addr : Nat) : Nat :=
  match bits addr 17 16 with
  | 0 => descriptorWord s (bits addr 14 3) (addr % 8)
  | 1 => if addr % 2 ^ 16 < 16 then leakEntry s (addr % 16) else 0
  | _ => 0

/-- A write to words 0 and 1 of a queue: ignored with ENABLE_REFUSED while EN is 1; of a system queue only A and CONSUMER of queue 0x022
(R224, R225). Other words are read-only. -/
def cabIndWrite (addr v : Nat) (s : State) : State :=
  let q := bits addr 14 3
  let w := addr % 8
  if bits addr 17 16 ≠ 0 ∨ 2 ≤ w then s
  else
    let d := queueOf s q
    if systemQueue q then
      if q = 0x22 ∧ w = 0 then
        s |> setQueue q { d with word0 := mergeMask d.word0 v 0xFF38 } |> raiseIf (decide (mergeMask v d.word0 0xFF38 ≠ d.word0)) Page.cab Ev.cabEnableRefused
      else enableRefused s
    else if d.en then enableRefused s
    else if w = 0 then setQueue q { d with word0 := v &&& 0x00FFFF3B } s
    else setQueue q { d with word1 := v &&& 0x3FFF } s

/-! ### Access registers (R246) -/

/-- ACC_Q of a master class. -/
def accQueue (s : State) (cls : Nat) : Nat := getBank s cls Page.cab Reg.cabAccQ

/-- ACC_STATUS as a class reads it (R246): RESULT of its last operation, and whether its context has a packet open on ACC_Q. -/
def accStatusWord (s : State) (cls : Nat) : Nat :=
  getBank s cls Page.cab Reg.cabAccStatusResult + 16 * b2n (openPacket s (portSoftware cls) (accQueue s cls)).isSome

/-- RESULT of a software context's operation (R246). -/
def accStatus (cls r : Nat) (s : State) : State := setBank cls Page.cab Reg.cabAccStatusResult r s

/-- A write to ACC_CMD: 1 OPEN, 2 CLOSE, 3 ABORT, 4 MARK, 5 REWIND, 6 RELEASE; others ignored. -/
def accCommand (cls cmd declare trim : Nat) (s : State) : State :=
  let q := accQueue s cls
  let port := portSoftware cls
  let done (r : Nat × State) : State := accStatus cls r.1 r.2
  match cmd with
  | 1 => done (cabOpen port q declare false s)
  | 2 => done (cabClose port q trim s)
  | 3 => done (cabAbort port q s)
  | 4 => done (cabMark port q s)
  | 5 => done (cabRewind port q s)
  | 6 => done (cabRelease port q s)
  | _ => s

/-- A write to ACC_DATA: PUT. -/
def accPut (cls w : Nat) (s : State) : State :=
  let r := cabPut (portSoftware cls) (accQueue s cls) w s
  accStatus cls r.1 r.2

/-- A read of ACC_DATA: GET. -/
def accGet (cls : Nat) (s : State) : Nat × State :=
  let (r, w, s1) := cabGet (portSoftware cls) (accQueue s cls) s
  (w, accStatus cls r s1)

/-! ### Auditor (R239, R240) -/

/-- Cells that the queues and open packets reach. -/
def reachedCells (s : State) : List Nat :=
  s.cab.queues.flatMap fun e => (e.2.pkts.flatMap fun p => p.cells) ++ (e.2.opens.flatMap fun o => o.cells)

/-- A walk starts, or is due when the running one ends (R239). -/
def startWalk (s : State) : State :=
  if s.cab.walking then { s with cab := { s.cab with walkDue := true } } else { s with cab := { s.cab with walking := true } }

/-- A walk ends (R240). -/
def walkDone (s : State) : State :=
  if !s.cab.walking then s
  else
    let reached := reachedCells s
    let now := s.cab.used.filter fun c => !reached.contains c
    let leaked := now.filter fun c => s.cab.unmarked.contains c
    let walks := (getR s Page.cab Reg.cabAuditWalks + 1) % 2 ^ 32
    { s with cab := { s.cab with walking := s.cab.walkDue, walkDue := false, unmarked := now, leaked := leaked, leakWalk := walks } }
    |> setR Page.cab Reg.cabAuditWalks walks |> setR Page.cab Reg.cabLeakCount leaked.length
    |> raiseIf (!leaked.isEmpty) Page.cab Ev.cabLeakFound

/-- RECLAIM (R240), with its journal record (R446). -/
def reclaim (who : Option Master) (s : State) : State :=
  let n := s.cab.leaked.length
  let s1 := journal who 0x0C 0x01 n 0 s
  if n = 0 then s1
  else
    s1 |> returnCells s1.cab.leaked
       |> (fun u => { u with cab := { u.cab with leaked := [], unmarked := u.cab.unmarked.filter fun c => !s1.cab.leaked.contains c } })
       |> setR Page.cab Reg.cabLeakCount 0 |> raiseEv Page.cab Ev.cabReclaimed

/-- A guarded AUDIT_CMD: 1 RECLAIM, 2 WALK_NOW; others ignored. -/
def auditCommand (who : Option Master) (v : Nat) (s : State) : State :=
  match v with
  | 1 => reclaim who s
  | 2 => startWalk s
  | _ => s

/-- AUDIT_WALK (R239): the period has passed while AUDIT_EN is 1. -/
def execAuditWalk (s : State) : Answer := alive s (whenS (flag s Page.cab Reg.cabCfgAuditEn) startWalk s)

/-- WALK_DONE (R240). -/
def execWalkDone (s : State) : Answer := alive s (walkDone s)

/-! ### Mirror copies (R242, R243) -/

/-- The oldest waiting copy is written into queue 0x022, or dropped when it missed its limit or is tail-dropped (R243). -/
def mirrorCopy (late : Bool) (s : State) : State :=
  match s.cab.mirrorWait with
  | [] => s
  | (trunc, bytes, words) :: rest =>
    let s1 := { s with cab := { s.cab with mirrorWait := rest } }
    let drop (u : State) : State := u |> incCnt Page.mirror Reg.mirrorDropCnt |> raiseEv Page.mirror Ev.mirrorMirrorDrop
    if late then drop s1
    else
      let (r, s2) := cabOpen portMirror 0x22 1 false s1
      if r ≠ cabOk then drop s2
      else
        let (r2, s3) := words.foldl (fun (acc : Nat × State) w => if acc.1 = cabOk then cabPut portMirror 0x22 w acc.2 else acc) (cabOk, s2)
        if r2 ≠ cabOk then drop (cabAbort portMirror 0x22 s3).2
        else incCnt Page.mirror Reg.mirrorSampledCnt (cabCloseWith portMirror 0x22 (4 * words.length - bytes) trunc s3).2

/-- MIRROR_COPY (R243): `late` says that no free beat came within 1 µs. -/
def execMirrorCopy (late : Bool) (s : State) : Answer := alive s (mirrorCopy late s)

/-- CNT_CTRL.CLR of the MIRROR page: the counters and the count of R241 (R247). -/
def mirrorCntClear (s : State) : State :=
  { s with cab := { s.cab with mirrorCount := 0 } }
  |> clearAll Page.mirror [Reg.mirrorSeenCnt, Reg.mirrorSampledCnt, Reg.mirrorDropCnt]

/-- CNT_CTRL.CLR of the CAB page (R245). -/
def cabCntClear (s : State) : State :=
  clearAll Page.cab [Reg.cabIngressDropCnt, Reg.cabTailDropCnt, Reg.cabCredOverCnt, Reg.cabLinkCorrCnt] s

end Sys2Proof.Machine
end

