-- ==== Sys2Proof/Machine/Image.lean ====
section
/-!
DEFINITION. The Staircase image format (R68–R74, R87–R95, R103): reading the header, the section directories and the
entries of a bank, layout positions, and the checks of PREPARE (R71, R73, R87–R94, R108, R129, R134, R141, R147, R188, R209, R377, R516).
-/

namespace Sys2Proof.Machine

/-- ⌈a / b⌉. -/
def ceilDiv (a b : Nat) : Nat := (a + b - 1) / b

/-! ### Header, manifest, directory (R87–R89) -/

def imgRingSize (m : Memory) : Nat := memNat m 0x28 1
def imgCycleK (m : Memory) : Nat := memNat m 0x29 1
def imgFlights (m : Memory) : Nat := memNat m 0x2A 1
def imgProtocol (m : Memory) : Nat := memNat m 0x2B 1
def imgMasterA (m : Memory) : Nat := memNat m 0x2C 1
def imgMasterB (m : Memory) : Nat := memNat m 0x2D 1
def imgRate (m : Memory) : Nat := memNat m 0x2E 1
def imgGlobalOff (m : Memory) : Nat := memNat m 0x34 4
def imgGlobalSize (m : Memory) : Nat := memNat m 0x38 4
/-- Bytes 0–3 of MANIFEST_HASH. -/
def imgHash (m : Memory) : Nat := memNat m 0x08 4
/-- HASH16 (R88). -/
def imgHash16 (m : Memory) : Nat := memNat m 0x08 2
/-- The slice directory entry of a node (R89). -/
def imgSliceOff (m : Memory) (n : Nat) : Nat := memNat m (0x20E0 + 8 * (n - 1)) 4
def imgSliceSize (m : Memory) (n : Nat) : Nat := memNat m (0x20E0 + 8 * (n - 1) + 4) 4
/-- The cycle period P in ns (R66). -/
def imgPeriod (m : Memory) : Nat := imgCycleK m * 31250

/-! ### Sections (R90) -/

/-- One entry of a section directory, with the image offset of the entry itself. -/
structure Section where
  type : Nat
  flight : Nat
  off : Nat
  size : Nat
  count : Nat
  at_ : Nat
deriving DecidableEq, Repr

/-- One directory entry of the region that begins at `base`; the section's offset is made absolute. -/
def sectionAt (m : Memory) (base at_ : Nat) : Section :=
  { type := memNat m at_ 2, flight := memNat m (at_ + 2) 1, off := base + memNat m (at_ + 4) 4,
    size := memNat m (at_ + 8) 4, count := memNat m (at_ + 12) 4, at_ := at_ }

/-- The sections of the global region. -/
def globalSections (m : Memory) : List Section :=
  let g := imgGlobalOff m
  (List.range (memNat m g 2)).map fun i => sectionAt m g (g + 16 + 16 * i)

/-- The sections of a node's slice. -/
def sliceSections (m : Memory) (n : Nat) : List Section :=
  let b := imgSliceOff m n
  (List.range (memNat m (b + 4) 2)).map fun i => sectionAt m b (b + 32 + 16 * i)

/-- The section of a type for a flight, if present. -/
def findSection (ss : List Section) (type flight : Nat) : Option Section :=
  ss.find? fun s => s.type = type && s.flight = flight

/-- The byte address of entry i of a section, 0 entries when the section is absent. -/
def entryAddr (o : Option Section) (size i : Nat) : Option Nat :=
  match o with
  | some s => if i < s.count then some (s.off + size * i) else none
  | none => none

/-- The number of entries of a section that may be absent. -/
def sectionCount (o : Option Section) : Nat :=
  match o with
  | some s => s.count
  | none => 0

/-- An entry's little-endian number, 0 when absent. -/
def entryNat (m : Memory) (o : Option Section) (size i n : Nat) : Nat :=
  match entryAddr o size i with
  | some a => memNat m a n
  | none => 0

/-! ### Global tables -/

def flightDescNat (m : Memory) (f off n : Nat) : Nat :=
  match entryAddr (findSection (globalSections m) 0x81 f) 32 0 with
  | some a => memNat m (a + off) n
  | none => 0

/-- WIDTH code of a flight: 0 one, 1 two, 2 four lanes. -/
def flightWidth (m : Memory) (f : Nat) : Nat := flightDescNat m f 1 1
/-- Lanes of a WIDTH code. R73's table gives codes 0, 1 and 2; a greater one acts as four lanes (DESIGN CHOICE, log entry 190). -/
def widthLanes (w : Nat) : Nat := if w = 0 then 1 else if w = 1 then 2 else 4
def flightTreads (m : Memory) (f : Nat) : Nat := flightDescNat m f 2 2
def flightSpan (m : Memory) (f : Nat) (west : Bool) : Nat := flightDescNat m f (if west then 8 else 4) 4
def flightLead (m : Memory) (f : Nat) : Nat := flightDescNat m f 12 2

/-- TREAD_INFO of a tread. -/
def treadInfo (m : Memory) (f t : Nat) : Nat := entryNat m (findSection (globalSections m) 0x84 f) 2 t 2
def treadWriter (m : Memory) (f t : Nat) : Nat := bits (treadInfo m f t) 7 0
def treadThrough (m : Memory) (f t : Nat) : Bool := bit (treadInfo m f t) 8
def treadMaster (m : Memory) (f t : Nat) : Bool := bit (treadInfo m f t) 9

/-- Whether a node is a ring master hub of a Staircase. -/
def isMasterHub (m : Memory) (n : Nat) : Bool := n ≠ 0 && (n = imgMasterA m || n = imgMasterB m)

/-- Whether a tread is written by this hub when it originates or completes: its own treads and, at a
pair hub, the master treads (R94, R149). -/
def ownsTread (m : Memory) (node f t : Nat) : Bool :=
  treadWriter m f t = node || (treadMaster m f t && isMasterHub m node)

/-- SHARES entry: owner and length in blocks. -/
def shareEntry (m : Memory) (f i : Nat) : Nat := entryNat m (findSection (globalSections m) 0x85 f) 4 i 4
def shareOwner (m : Memory) (f i : Nat) : Nat := bits (shareEntry m f i) 7 0
def shareLen (m : Memory) (f i : Nat) : Nat := bits (shareEntry m f i) 23 8
def shareTotal (m : Memory) (f : Nat) : Nat := sectionCount (findSection (globalSections m) 0x85 f)

/-- RING_ORDER. -/
def ringOrder (m : Memory) : List Nat :=
  let o := findSection (globalSections m) 0x86 0xFF
  (List.range (sectionCount o)).map fun i => entryNat m o 1 i 1

/-! ### Node slice tables -/

def sliceHead (m : Memory) (n : Nat) : Bool := bit (memNat m (imgSliceOff m n + 2) 1) 0
def sliceMaster (m : Memory) (n : Nat) : Bool := bit (memNat m (imgSliceOff m n + 2) 1) 1
def slicePortRate (m : Memory) (n : Nat) : Nat := memNat m (imgSliceOff m n + 3) 1

def flightNodeNat (m : Memory) (n f off len : Nat) : Nat :=
  match entryAddr (findSection (sliceSections m n) 0x01 f) 32 0 with
  | some a => memNat m (a + off) len
  | none => 0

/-- PARK bit of a port: 1 DEEP, 0 QUIET (R55). -/
def flightPark (m : Memory) (n f : Nat) (west : Bool) : Bool := bit (flightNodeNat m n f 1 1) (if west then 1 else 0)
def flightDeclared (m : Memory) (n f : Nat) : Nat := flightNodeNat m n f 2 2
def flightBranchAllow (m : Memory) (n f : Nat) : Nat := flightNodeNat m n f 4 1
def flightOpMax (m : Memory) (n f : Nat) : Nat := flightNodeNat m n f 5 1
def flightBranchPrio (m : Memory) (n f : Nat) : Nat := flightNodeNat m n f 8 4

/-- ARRIVAL entry of a port: entry 0 is WEST, entry 1 is EAST. -/
def arrivalNat (m : Memory) (n f : Nat) (eastPort : Bool) (off len : Nat) : Nat :=
  match entryAddr (findSection (sliceSections m n) 0x03 f) 8 (if eastPort then 1 else 0) with
  | some a => memNat m (a + off) len
  | none => 0
def arrivalExpect (m : Memory) (n f : Nat) (eastPort : Bool) : Nat := arrivalNat m n f eastPort 0 4
def arrivalEarly (m : Memory) (n f : Nat) (eastPort : Bool) : Nat := arrivalNat m n f eastPort 4 2
def arrivalLate (m : Memory) (n f : Nat) (eastPort : Bool) : Nat := arrivalNat m n f eastPort 6 2

/-- The HOP delay of a node and direction, if listed. -/
def hopDelay (m : Memory) (n node : Nat) (west : Bool) : Option Nat :=
  let o := findSection (sliceSections m n) 0x04 0xFF
  let es := (List.range (sectionCount o)).map fun i => entryNat m o 4 i 4
  (es.find? fun e => bits e 7 0 = node && (bit e 8 == west)).map fun e => bits e 31 9

/-- The energy weight of an activity class (ENERGY section); 0 when absent. -/
def energyWeight (m : Memory) (n f i : Nat) : Nat := entryNat m (findSection (sliceSections m n) 0x05 f) 2 i 2

/-- A tread action (R93). -/
structure Action where
  tread : Nat
  write : Bool
  endpoint : Nat
  pair : Bool
  early : Bool
  off : Nat
  len : Nat
  phase : Nat
  img : Nat
  unit : Nat
  deadline : Nat
  div : Nat
deriving DecidableEq, Repr

/-- The action in the 16 bytes at an address (R93); `unit` is word 2 [31:22]. -/
def actionAt (m : Memory) (a : Nat) : Action :=
  let w0 := memNat m a 4
  let w1 := memNat m (a + 4) 4
  let w2 := memNat m (a + 8) 4
  let w3 := memNat m (a + 12) 4
  { tread := bits w0 15 0, write := bit w0 16, endpoint := bits w0 19 17, pair := bit w0 20, early := bit w0 21,
    off := bits w1 10 0, len := bits w1 21 11 + 1, phase := bits w1 28 22, img := bits w2 21 0, unit := bits w2 31 22,
    deadline := bits w3 25 0, div := bits w3 28 26 }

/-- The engine of an action: UNIT bits [28:22] of word 2. -/
def Action.engine (a : Action) : Nat := a.unit % 128
/-- The CAN channel of an action: bits [25:22] of word 2. -/
def Action.channel (a : Action) : Nat := a.unit % 16
/-- The CAN buffer or slot of an action: bits [30:26] of word 2. -/
def Action.slot (a : Action) : Nat := a.unit / 16 % 32

/-- The actions of a flight in ACTIONS order. -/
def flightActions (m : Memory) (n f : Nat) : List Action :=
  match findSection (sliceSections m n) 0x02 f with
  | some s => (List.range s.count).map fun i => actionAt m (s.off + 16 * i)
  | none => []

/-- Whether an action is active in a cycle (R95). -/
def Action.activeIn (a : Action) (c : Nat) : Bool := c % 2 ^ a.div = a.phase

/-- A host-image DMA descriptor (R103). -/
structure DmaDesc where
  fromHost : Bool
  img : Nat
  len : Nat
  hostOff : Nat
  trigger : Nat
  div : Nat
  phase : Nat
deriving DecidableEq, Repr

/-- The DMA descriptors of a flight. -/
def flightDma (m : Memory) (n f : Nat) : List DmaDesc :=
  match findSection (sliceSections m n) 0x06 f with
  | some s => (List.range s.count).map fun i =>
      let a := s.off + 32 * i
      let d := memNat m (a + 20) 4
      { fromHost := bit (memNat m a 1) 0, img := bits (memNat m (a + 4) 4) 21 0, len := memNat m (a + 8) 4,
        hostOff := memNat m (a + 12) 4, trigger := bits (memNat m (a + 16) 4) 25 0, div := bits d 2 0, phase := bits d 9 3 }
  | none => []

/-- A CAN time-triggered entry. -/
structure CanTt where
  time : Nat
  div : Nat
  channel : Nat
  buffer : Nat
  phase : Nat
deriving DecidableEq, Repr

/-- The CAN_TT entries of a flight. -/
def flightCanTt (m : Memory) (n f : Nat) : List CanTt :=
  match findSection (sliceSections m n) 0x07 f with
  | some s => (List.range s.count).map fun i =>
      let w := memNat m (s.off + 8 * i) 8
      { time := bits w 25 0, div := bits w 28 26, channel := bits w 35 32, buffer := bits w 40 36, phase := bits w 47 41 }
  | none => []

/-- Engine FIFO bindings: whether the TX or the RX FIFO of an engine is bound (R91). -/
def engBound (m : Memory) (n e : Nat) (rx : Bool) : Bool :=
  let o := findSection (sliceSections m n) 0x08 0xFF
  (List.range (sectionCount o)).any fun i =>
    let w := entryNat m o 4 i 4
    bits w 6 0 = e && bit w (if rx then 9 else 8)

/-! ### Layout (R68–R74) -/

/-- A layout element (R70). -/
inductive Elem where
  | tread (len id : Nat)
  | riser (fill : Nat)
  | landing (first count : Nat)
  | pad (n : Nat)
  | fin
  | bad
deriving DecidableEq, Repr

/-- The element a word encodes (R70); `len` is payload blocks. -/
def elemOf (w : Nat) : Elem :=
  match bits w 2 0 with
  | 0 => .tread (bits w 10 3 + 1) (bits w 26 11)
  | 1 => .riser (bits w 10 3)
  | 2 => .landing (bits w 18 3) (bits w 26 19)
  | 3 => .pad (bits w 5 3)
  | 7 => .fin
  | _ => .bad

/-- The layout list of a flight and direction. -/
def layoutOf (m : Memory) (f : Nat) (west : Bool) : List Elem :=
  match findSection (globalSections m) (if west then 0x83 else 0x82) f with
  | some s => (List.range s.count).map fun i => elemOf (memNat m (s.off + 4 * i) 4)
  | none => []

/-- The length in blocks of the shares of a landing region. -/
def regionBlocks (m : Memory) (f first count : Nat) : Nat :=
  ((List.range count).map fun i => shareLen m f (first + i)).foldl (· + ·) 0

/-- Stream blocks of an element at W lanes (R70). -/
def elemBlocks (m : Memory) (f W : Nat) : Elem → Nat
  | .tread len _ => len + 1
  | .riser fill => W * (1 + fill)
  | .landing first count => 2 + regionBlocks m f first count
  | .pad n => n
  | .fin => 1
  | .bad => 0

/-- Elements with their layout positions from a position on (R68). -/
def placeElems (m : Memory) (f W : Nat) (pos : Nat) : List Elem → List (Nat × Elem)
  | [] => []
  | e :: es => (pos, e) :: placeElems m f W (pos + elemBlocks m f W e) es

/-- The elements after the lead riser, each with its position; GALLERY START stands at 0 (R68). -/
def layoutPositions (m : Memory) (f : Nat) (west : Bool) : List (Nat × Elem) :=
  placeElems m f (widthLanes (flightWidth m f)) 1 ((layoutOf m f west).drop 1)

/-- The element that holds a layout position, with the position it starts at. -/
def elemAt (m : Memory) (f : Nat) (west : Bool) (pos : Nat) : Option (Nat × Elem) :=
  (layoutPositions m f west).find? fun pe =>
    pe.1 ≤ pos && pos < pe.1 + elemBlocks m f (widthLanes (flightWidth m f)) pe.2

/-- Position and payload blocks of a tread in a gallery. -/
def treadPlace (m : Memory) (f : Nat) (west : Bool) (t : Nat) : Option (Nat × Nat) :=
  (layoutPositions m f west).findSome? fun pe =>
    match pe.2 with
    | .tread len id => if id = t then some (pe.1, len) else none
    | _ => none

/-- Payload bytes of a tread. -/
def treadBytes (m : Memory) (f t : Nat) : Nat :=
  match treadPlace m f false t with
  | some (_, len) => 8 * len
  | none => 0

/-- Stream block time in ps (R67). -/
def blockPs (rate width : Nat) : Nat := (if rate = 0 then 2560 else 6400) / widthLanes width

/-- B, the stream blocks in a cycle (R67). -/
def cycleBlocks (m : Memory) (f : Nat) : Nat := imgPeriod m * 1000 / blockPs (imgRate m) (flightWidth m f)

/-- The least FILL for a distance S in blocks per lane (R43, R71). -/
def leastFill (S : Nat) : Nat := max 3 (ceilDiv S 4096)

/-- What a scan of a layout list finds: whether the rules of R71 hold so far, the content blocks of the present run, the blocks
per lane since the last marker stripe began, the tread IDs met, the span so far, and whether the last element was a riser or END. -/
structure Scan where
  ok : Bool
  run : Nat
  since : Nat
  ids : List Nat
  span : Nat
  riser : Bool
  ended : Bool
deriving DecidableEq, Repr

/-- One element of the scan (R71). A reserved KIND, a PAD of other than 1–3 blocks, a LANDING of no share or of shares beyond the
SHARES section fail it too (DESIGN CHOICE, log entry 188). -/
def scanStep (m : Memory) (f W treads : Nat) (sc : Scan) (e : Elem) : Scan :=
  let n := elemBlocks m f W e
  let ok := sc.ok && !sc.ended
  match e with
  | .riser fill =>
    let S := sc.since + sc.run / W
    { sc with ok := ok && !sc.riser && sc.run % W = 0 && fill ≥ leastFill S && S ≤ 16384, run := 0, since := 1 + fill,
              span := sc.span + n, riser := true }
  | .tread _ id =>
    { sc with ok := ok && id < treads && !sc.ids.contains id, run := sc.run + n, ids := id :: sc.ids, span := sc.span + n,
              riser := false }
  | .landing first count =>
    { sc with ok := ok && 1 ≤ count && first + count ≤ shareTotal m f, run := sc.run + n, span := sc.span + n, riser := false }
  | .pad k => { sc with ok := ok && 1 ≤ k && k ≤ 3, run := sc.run + n, span := sc.span + n, riser := false }
  | .fin => { sc with ok := ok && sc.since + (sc.run + n) / W ≤ 16384 && (sc.run + n) % W = 0, run := sc.run + n,
                      span := sc.span + n, riser := false, ended := true }
  | .bad => { sc with ok := false }

/-- The scan of a whole list: the lead riser first, then GALLERY START, then the rest. -/
def scanLayout (m : Memory) (f : Nat) (west : Bool) : Scan :=
  let W := widthLanes (flightWidth m f)
  match layoutOf m f west with
  | .riser fill :: es =>
    let sc := es.foldl (scanStep m f W (flightTreads m f))
      { ok := fill ≥ 3, run := 1, since := 1 + fill, ids := [], span := W * (1 + fill) + 1, riser := true, ended := false }
    { sc with ok := sc.ok && sc.ended && sc.ids.length = flightTreads m f }
  | _ => { ok := false, run := 0, since := 0, ids := [], span := 0, riser := false, ended := false }

/-- FILL of the trailing riser of a gallery (R72). -/
def trailingFill (m : Memory) (f : Nat) (west : Bool) : Nat :=
  let sc := scanLayout m f west
  leastFill (sc.since + sc.run / widthLanes (flightWidth m f))

/-- The span of a gallery (R73). -/
def spanOf (m : Memory) (f : Nat) (west : Bool) : Nat :=
  (scanLayout m f west).span + widthLanes (flightWidth m f) * (1 + trailingFill m f west)

/-! ### PREPARE -/

/-- Error codes of STAIR.ERR. -/
def errMagic : Nat := 0x01
def errFormat : Nat := 0x02
def errProtocol : Nat := 0x03
def errNoSlice : Nat := 0x04
def errDigest : Nat := 0x05
def errLayout : Nat := 0x06
def errLimit : Nat := 0x07
def errAction : Nat := 0x08
def errOrder : Nat := 0x09
def errRate : Nat := 0x0A
def errAlign : Nat := 0x0B
def errHashChk : Nat := 0x0C
def errState : Nat := 0x0D
def errLate : Nat := 0x0E
def errFlight : Nat := 0x0F
def errCycleK : Nat := 0x10

/-- A failed check: its code and the image offset of the failing item. -/
abbrev PrepFail := Option (Nat × Nat)

/-- The first failure of a list of checks. -/
def firstFail : List PrepFail → PrepFail
  | [] => none
  | some e :: _ => some e
  | none :: xs => firstFail xs

/-- A check that fails with a code and offset unless the condition holds. -/
def need (b : Bool) (code off : Nat) : PrepFail := if b then none else some (code, off)

/-- A byte string read as 32 digest bytes. -/
def digestAt (m : Memory) (a : Nat) : List Byte := memReadN m a 32

/-- The known section types with region (true: global), whether per flight, entry size and whether mandatory (R90). -/
def sectionTypes : List (Nat × Bool × Bool × Nat × Bool) :=
  [(0x81, true, true, 32, true), (0x82, true, true, 4, true), (0x83, true, true, 4, true), (0x84, true, true, 2, true),
   (0x85, true, true, 4, true), (0x86, true, false, 1, true), (0x01, false, true, 32, true), (0x02, false, true, 16, true),
   (0x03, false, true, 8, true), (0x04, false, false, 4, false), (0x05, false, true, 2, false), (0x06, false, true, 32, false),
   (0x07, false, true, 8, false), (0x08, false, false, 4, false)]

/-- The section rules of R90 for one entry of a region. -/
def checkSection (m : Memory) (ss : List Section) (global : Bool) (base size : Nat) (s : Section) : PrepFail :=
  match sectionTypes.find? fun t => t.1 = s.type && t.2.1 == global with
  | none => none
  | some (ty, _, perFlight, esz, _) =>
    let countOk := if ty = 0x81 ∨ ty = 0x01 then s.count = 1 else if ty = 0x03 then s.count = 2
      else if ty = 0x05 then s.count = 16 else if ty = 0x86 then s.count = imgRingSize m
      else if ty = 0x84 then s.count = flightTreads m s.flight else true
    firstFail
      [need ((ss.filter fun x => x.type = s.type && x.flight = s.flight).length = 1) errFormat s.at_,
       need (if perFlight then s.flight < imgFlights m else s.flight = 0xFF) errFormat s.at_,
       need (s.size = s.count * esz) errFormat s.at_,
       need countOk errFormat s.at_,
       need (s.off + s.size ≤ base + size) errFormat s.at_,
       need (s.off % 16 = 0) errAlign s.at_]

/-- Whether every mandatory section of a region is there, and each optional per-flight one for every flight or none
(R90). A missing section has no directory entry: OFFSET is then the base of its region (DESIGN CHOICE, log entry 189). -/
def checkPresence (m : Memory) (ss : List Section) (global : Bool) (base : Nat) : PrepFail :=
  firstFail (sectionTypes.map fun t =>
    let (ty, g, perFlight, _, must) := t
    if (g != global) then none
    else
      let fs := if perFlight then List.range (imgFlights m) else [0xFF]
      let have_ := fs.filter fun f => (findSection ss ty f).isSome
      need (if must then have_.length = fs.length else have_.length = fs.length || have_.length = 0) errFormat base)

/-- The header checks of R87 and R108. -/
def checkHeader (m : Memory) (node : Nat) : PrepFail :=
  firstFail
    [need (memReadN m 0 4 = [0x53, 0x54, 0x43, 0x31]) errMagic 0,
     need (memNat m 4 2 = 1 && memNat m 6 2 = 256) errFormat 0,
     need (2 ≤ imgRingSize m && imgRingSize m ≤ 254 && 1 ≤ imgCycleK m && imgCycleK m ≤ 128 && 1 ≤ imgFlights m
       && imgFlights m ≤ 8 && imgRate m ≤ 1) errFormat 0,
     need (imgMasterA m ≠ 0 && imgMasterA m ≠ 0xFF && imgMasterB m ≠ 0xFF && imgMasterB m ≠ imgMasterA m) errFormat 0,
     need (0x28D0 ≤ imgGlobalOff m) errFormat 0,
     need (imgGlobalOff m % 16 = 0) errAlign 0,
     need (imgProtocol m = 1) errProtocol 0,
     need (1 ≤ node && node ≤ 254 && imgSliceSize m node ≠ 0 && memNat m (imgSliceOff m node) 1 = node) errNoSlice 0]

/-- The digests of R88: manifest entry 0, this node's entry, MANIFEST_HASH. -/
def checkDigests (m : Memory) (node : Nat) : PrepFail :=
  let dirGlobal := memReadN m 0x20E0 2032 ++ memReadN m (imgGlobalOff m) (imgGlobalSize m)
  let slice := memReadN m (imgSliceOff m node) (imgSliceSize m node)
  let header := memReadN m 0 8 ++ List.replicate 32 0 ++ memReadN m 0x28 216 ++ memReadN m 0x100 8160
  firstFail
    [need (Config.sha256 dirGlobal = digestAt m 0x100) errDigest 0x100,
     need (Config.sha256 slice = digestAt m (0x100 + 32 * node)) errDigest (0x100 + 32 * node),
     need (Config.sha256 header = digestAt m 0x08) errDigest 0]

/-- RING_ORDER (R516, R147). -/
def checkRing (m : Memory) (node : Nat) : PrepFail :=
  let r := ringOrder m
  let at_ := match findSection (globalSections m) 0x86 0xFF with
    | some s => s.off
    | none => 0
  firstFail
    [need (r.length = imgRingSize m && r.all (fun x => 1 ≤ x && x ≤ 0xFE) && r.eraseDups.length = r.length) errLayout at_,
     need (r.head? = some (imgMasterA m)) errLayout at_,
     need (imgMasterB m = 0 || r[1]? = some (imgMasterB m)) errLayout at_,
     need (r.contains node) errLayout at_,
     need ((List.range 254).all fun i => (imgSliceSize m (i + 1) ≠ 0) == r.contains (i + 1)) errLayout at_]

/-- The layout rules of one flight (R71, R73). Whichever of them fails, OFFSET is the LAYOUT_E section's (DESIGN CHOICE, log
entry 191). -/
def checkFlightLayout (m : Memory) (f : Nat) : PrepFail :=
  let B := cycleBlocks m f
  let lim := B - ceilDiv B 2048
  let at_ := match findSection (globalSections m) 0x82 f with
    | some s => s.off
    | none => 0
  firstFail
    [need ((scanLayout m f false).ok && (scanLayout m f true).ok) errLayout at_,
     need ((List.range (flightTreads m f)).all fun t =>
       (treadPlace m f false t).map (·.2) = (treadPlace m f true t).map (·.2)) errLayout at_,
     need (spanOf m f false ≤ lim && spanOf m f true ≤ lim) errLayout at_,
     need (flightSpan m f false = spanOf m f false && flightSpan m f true = spanOf m f true) errLayout at_]

/-- Bytes of THROUGH payload of a flight (R129). -/
def throughBytes (m : Memory) (f : Nat) : Nat :=
  ((List.range (flightTreads m f)).map fun t => if treadThrough m f t then treadBytes m f t else 0).foldl (· + ·) 0

/-- Loaded parts and derived position tables, in bytes (R92). -/
def usageOf (m : Memory) (node : Nat) : Nat :=
  0x28D0 + imgGlobalSize m + imgSliceSize m node +
    ((List.range (imgFlights m)).map fun f =>
      8 * ((layoutOf m f false).length + (layoutOf m f true).length + (flightActions m node f).length)).foldl (· + ·) 0

/-- The READ actions of a tread. -/
def readsOf (acts : List Action) (t : Nat) : List Action := acts.filter fun a => !a.write && a.tread = t

/-- Clocks a copy occupies the commit path after its grant (R133): the sum of ⌈b / 64⌉ over the READ actions of its tread. -/
def commitClocks (acts : List Action) (t : Nat) : Nat := ((readsOf acts t).map fun a => ceilDiv a.len 64).foldl (· + ·) 0

/-- The trailers of a layout that may commit, as clock numbers of 2.5 ns with each trailer one clock early, and their commit
times 1 + n, in stream order (R134). -/
def gateArrivals (m : Memory) (acts : List Action) (f : Nat) (west : Bool) : List (Nat × Nat) :=
  (layoutPositions m f west).filterMap fun pe =>
    match pe.2 with
    | .tread len id =>
      if (readsOf acts id).isEmpty then none
      else some ((pe.1 + len) * blockPs (imgRate m) (flightWidth m f) / 2500 - 1, 1 + commitClocks acts id)
    | _ => none

/-- The commit gate over a list of arrivals: `busy` is when the path is free, `waiting` the start times of copies that still wait.
True if a third copy would ever wait (R134). -/
def gateOverflows (busy : Nat) (waiting : List Nat) : List (Nat × Nat) → Bool
  | [] => false
  | (t, n) :: xs =>
    let w := waiting.filter fun u => t < u
    let start := max t busy
    if t < start then (w.length ≥ 2) || gateOverflows (start + n) (w ++ [start]) xs
    else gateOverflows (start + n) w xs

/-- The limits of one flight (R92, R129, R134, R141, R188, R209). -/
def checkFlightLimits (m : Memory) (node f : Nat) : PrepFail :=
  let acts := flightActions m node f
  let B := cycleBlocks m f
  let tsb := blockPs (imgRate m) (flightWidth m f)
  let slack (west : Bool) := (B - ceilDiv B 2048 - flightSpan m f west) * tsb
  let tt := flightCanTt m node f
  let wr := (List.range (flightTreads m f)).filter (ownsTread m node f)
  let rd := ((acts.filter fun a => !a.write).map (·.tread)).eraseDups
  firstFail
    [need (wr.length ≤ 4096 && rd.length ≤ 8192 && acts.length ≤ 16384) errLimit 0,
     need ((layoutOf m f false).length ≤ 98304 && (layoutOf m f true).length ≤ 98304) errLimit 0,
     need (shareTotal m f ≤ 65535 && (flightDma m node f).length ≤ 1024 && tt.length ≤ 512) errLimit 0,
     need ((List.range 16).all fun ch => (tt.filter fun e => e.channel = ch).length ≤ 32) errLimit 0,
     need (throughBytes m f ≤ 524288) errLimit 0,
     need (!gateOverflows 0 [] (gateArrivals m acts f false) && !gateOverflows 0 [] (gateArrivals m acts f true)) errLimit 0,
     need (1000 * arrivalLate m node f false ≤ slack false && 1000 * arrivalLate m node f true ≤ slack true) errLimit 0,
     need ((List.range (shareTotal m f)).all fun i => 35 ≤ shareLen m f i) errLimit 0,
     need ((acts.filter fun a => !a.write && a.endpoint = 7).length ≤ 4) errLimit 0]

/-- The rules of one action (R94, R209, R377). -/
def actionOk (m : Memory) (node f : Nat) (a : Action) : Bool :=
  let record := if isMasterHub m node && imgMasterB m ≠ 0 then 32 else 16
  a.tread < flightTreads m f && a.off + a.len ≤ treadBytes m f a.tread && a.img + a.len ≤ 0x400000
    && (if a.endpoint = 1 ∨ a.endpoint = 2 then a.off % 4 = 0 && a.img % 4 = 0 && a.len % 4 = 0 else true)
    && (if a.endpoint = 3 ∨ a.endpoint = 4 then a.len ≤ 72 else true)
    && (if a.write then a.endpoint ≠ 1 && a.endpoint ≠ 3 && !a.pair else a.endpoint ≠ 2 && a.endpoint ≠ 4)
    && (!a.early || (!a.write && (a.endpoint = 1 || a.endpoint = 3)))
    && a.phase < 2 ^ a.div
    && (!a.write || ownsTread m node f a.tread)
    && (a.endpoint ≠ 7 || a.len = 1)
    && (!(a.write && a.endpoint = 5) || record ≤ a.len)

/-- All checks of a PREPARE at a node, in the order the model takes them (R108; log entry 12). -/
def prepareCheck (m : Memory) (node : Nat) : PrepFail :=
  let gs := globalSections m
  let ss := sliceSections m node
  let fs := List.range (imgFlights m)
  firstFail
    [checkHeader m node, checkDigests m node,
     checkPresence m gs true (imgGlobalOff m), checkPresence m ss false (imgSliceOff m node),
     firstFail (gs.map (checkSection m gs true (imgGlobalOff m) (imgGlobalSize m))),
     firstFail (ss.map (checkSection m ss false (imgSliceOff m node) (imgSliceSize m node))),
     need (imgSliceOff m node % 16 = 0) errAlign (imgSliceOff m node),
     checkRing m node,
     firstFail (fs.map (checkFlightLayout m)),
     need (usageOf m node ≤ 0x200000) errLimit 0,
     firstFail (fs.map (checkFlightLimits m node)),
     firstFail (fs.map fun f => need ((flightActions m node f).all (actionOk m node f)) errAction
       (match findSection ss 0x02 f with
        | some s => s.off
        | none => 0))]

/-- Whether an image word at an offset is kept by this node (R107): header, manifest, slice directory, global region or own slice. -/
def keptOffset (m : Memory) (node off : Nat) : Bool :=
  off < 0x28D0 || (imgGlobalOff m ≤ off && off < imgGlobalOff m + imgGlobalSize m) ||
    (imgSliceOff m node ≤ off && off < imgSliceOff m node + imgSliceSize m node)

end Sys2Proof.Machine
end

