-- ==== Sys2Proof/Machine/Stair.lean ====
section
/-!
DEFINITION. The Staircase banks, cycles and flights: the cycle number (R66), the flight record (R84), loading, PREPARE, ACTIVATE, CANCEL
and DEACTIVATE (R107–R112), and the freshness table.
-/

namespace Sys2Proof.Machine

open Sys2Proof

/-- This hub's node ID (R17). -/
def nodeId (s : State) : Nat := getR s Page.hub Reg.hubNodeId

/-- Whether a Staircase is active (STATUS.ACT_STATE not 0). -/
def staircaseActive (s : State) : Bool := getR s Page.stair Reg.stairStatusActState ≠ 0

/-- Whether the stations act on the active Staircase: ACT_STATE 1, no safe mode (R143), and a life-cycle state whose data path is full
(R423). -/
def staircaseActs (s : State) : Bool :=
  getR s Page.stair Reg.stairStatusActState = 1 && !flag s Page.upd Reg.updStatusSafeMode && decide (1 ≤ s.key.lc ∧ s.key.lc ≤ 3)

/-- PEND_STATE. -/
def pendState (s : State) : Nat := getR s Page.stair Reg.stairStatusPendState

def pendEmpty : Nat := 0
def pendLoading : Nat := 1
def pendPreparing : Nat := 2
def pendReady : Nat := 3
def pendFailed : Nat := 4
def pendRetiring : Nat := 5

/-- A candidate (R174): a transparent forwarder whose pending bank is READY and has the HASH16 of the last IDENT GALLERY START received. -/
def isCandidate (s : State) : Bool :=
  !staircaseActs s && pendState s = pendReady && s.stair.lastIdent = some (imgHash16 s.stair.pend)

/-- The cycle period: of the active Staircase, without one of the bank that a DEACTIVATE retires (R111), or of the pending one of a candidate, else
31,250 ns (R303). -/
def period (s : State) : Nat :=
  if staircaseActive s then imgPeriod s.stair.active
  else if pendState s = pendRetiring || isCandidate s then imgPeriod s.stair.pend
  else 31250

/-- The cycle number ⌊TB0 / P⌋ mod 2⁴⁸ (R66). -/
def cycleNow (s : State) : Nat := s.time.tb0 / period s % 2 ^ 48

/-- CUR_FLIGHT. -/
def curFlight (s : State) : Nat := getR s Page.stair Reg.stairStatusCurFlight

/-- The flight that the record of announcements gives for a cycle (R83, R84); for cycles before the current flight took effect, the one
before it. -/
def flightFor (s : State) (c : Nat) : Nat :=
  match s.stair.announced with
  | some (f, at_, _) => if at_ ≤ c then f else if c < s.stair.prevFlight.1 then s.stair.prevFlight.2 else curFlight s
  | none => if c < s.stair.prevFlight.1 then s.stair.prevFlight.2 else curFlight s

/-- Time since the boundary of the present cycle at a layout position, in ns (R68). -/
def positionNs (s : State) (f pos : Nat) : Nat := pos * blockPs (imgRate s.stair.active) (flightWidth s.stair.active f) / 1000

/-- The pending bank's hash shown (PEND_HASH). -/
def syncPendHash (s : State) : State := setR Page.stair Reg.stairPendHash (imgHash s.stair.pend) s

/-- PEND_STATE changed. -/
def setPend (v : Nat) (s : State) : State := setR Page.stair Reg.stairStatusPendState v s

/-- ACT_STATE set, with the FORWARDER level that follows it: the hub is a transparent forwarder for any cause (R113, R143). -/
def setActState (v : Nat) (s : State) : State :=
  let t := setR Page.stair Reg.stairStatusActState v s
  setLevel Page.stair Ev.stairForwarder (!staircaseActs t) t

/-- STAIR.ERR. -/
def stairErr (code off : Nat) (s : State) : State :=
  setR Page.stair Reg.stairErrOffset (off / 16) (setR Page.stair Reg.stairErrCode code s)

/-- The recorded announcement shown in NEXT_FLIGHT, NEXT_VALID and NEXT_AT. -/
def syncAnnounced (s : State) : State :=
  match s.stair.announced with
  | some (f, at_, _) =>
    setR Page.stair Reg.stairNextAt at_ (setR Page.stair Reg.stairStatusNextValid 1 (setR Page.stair Reg.stairStatusNextFlight f s))
  | none => setR Page.stair Reg.stairStatusNextValid 0 s

/-- Whether an announcement (flight, cycle) carried by the gallery of cycle g replaces the recorded one (R84); one that repeats the record that last took
effect does not. -/
def announcementApplies (s : State) (f at_ g : Nat) : Bool :=
  match s.stair.announced with
  | some (f', at', g') => (f ≠ f' || at_ ≠ at') && cycleNow s < at' && g' ≤ g
  | none => s.stair.annGal ≤ g && !(f = curFlight s && at_ ≤ g) && s.stair.taken ≠ some (f, at_)

/-- The record after an announcement: a null announcement, of the current flight at the gallery's own cycle, leaves none (R84, R116). -/
def recordAnnouncement (f at_ g : Nat) (s : State) : State :=
  if announcementApplies s f at_ g then
    let rec_ := if at_ ≤ g && f = curFlight s then none else some (f, at_, g)
    syncAnnounced { s with stair := { s.stair with announced := rec_, annGal := g } }
  else s

/-- The registers that show the current flight's layout (BLOCKS, SPAN_E, SPAN_W), with FLIGHT_CHANGE when the flight changes. -/
def setFlight (f : Nat) (s : State) : State :=
  let changed := curFlight s ≠ f
  s |> setR Page.stair Reg.stairStatusCurFlight f
    |> setR Page.stair Reg.stairBlocks (cycleBlocks s.stair.active f)
    |> setR Page.stair Reg.stairSpanE (flightSpan s.stair.active f false)
    |> setR Page.stair Reg.stairSpanW (flightSpan s.stair.active f true)
    |> raiseIf changed Page.stair Ev.stairFlightChange

/-! ### Loading (R107) -/

/-- A load error: code in STAIR.ERR and LOAD_ERR raised. -/
def loadError (code off : Nat) (s : State) : State := raiseEv Page.stair Ev.stairLoadErr (stairErr code off s)

/-- A word written to IND_DATA at an image offset (R107). -/
def loadWord (off v : Nat) (s : State) : State :=
  if pendState s ≠ pendLoading then loadError errState off s
  else if off % 4 ≠ 0 then loadError errAlign off s
  else
    let late := match s.stair.highOff with
      | some h => decide (off ≤ h)
      | none => false
    if late then loadError errOrder off s
    else if keptOffset s.stair.pend (nodeId s) off then
      { s with stair := { s.stair with pend := memPutNat s.stair.pend off 4 v, highOff := some off } }
      |> addCnt Page.stair Reg.stairPendUsage 4 |> syncPendHash
    else { s with stair := { s.stair with highOff := some off } }

/-- The word that a read of IND_DATA returns at an image offset (R107). DESIGN CHOICE (log entry 184): at an offset that is no multiple of 4 it is the
four bytes from there on. -/
def loadedWord (s : State) (off : Nat) : Nat :=
  if pendState s = pendLoading ∨ pendState s = pendReady ∨ pendState s = pendFailed then memNat s.stair.pend off 4 else 0

/-! ### Commands (R107–R112) -/

/-- A refused STAIR command: code in STAIR.ERR, CMD_REFUSED raised, and the refusal journaled (R109, R393). -/
def stairRefuse (who : Option Master) (cmd code value : Nat) (s : State) : State :=
  s |> stairErr code 0 |> raiseEv Page.stair Ev.stairCmdRefused |> journal who 0x02 cmd value code

/-- ACT_CYCLE as the guarded registers hold it. -/
def actCycle (s : State) : Nat := getPair s Page.stair Reg.stairActCycleLo Reg.stairActCycleHi

/-- ACT_PENDING follows what is scheduled. -/
def syncActPending (s : State) : State :=
  setFlag Page.stair Reg.stairStatusActPending (s.stair.sched.isSome || s.stair.deact) s

/-- LOAD_BEGIN (R107). -/
def loadBegin (s : State) : State :=
  { s with stair := { s.stair with pend := [], highOff := none } }
  |> setPend pendLoading |> setR Page.stair Reg.stairPendUsage 0 |> syncPendHash

/-- ABORT (R107). -/
def stairDiscard (s : State) : State :=
  { s with stair := { s.stair with pend := [], highOff := none } }
  |> setPend pendEmpty |> setR Page.stair Reg.stairPendUsage 0 |> syncPendHash

/-- The code of the first reason to refuse an ACTIVATE (R109), in the order of the list. -/
def activateRefusal (s : State) : Option Nat :=
  let m := s.stair.pend
  let c := actCycle s
  if pendState s ≠ pendReady then some errState
  else if getR s Page.stair Reg.stairActHashChk ≠ imgHash m then some errHashChk
  else if imgFlights m ≤ getR s Page.stair Reg.stairActCycleHiActFlight then some errFlight
  else if c * imgPeriod m < (cycleNow s + 2) * period s then some errLate
  else if staircaseActive s && imgCycleK m ≠ imgCycleK s.stair.active && c * imgPeriod m % imgPeriod s.stair.active ≠ 0 then some errCycleK
  else none

/-- A STAIR command (R107–R112): refusal with STATE where the pending bank state does not accept it; while a DEACTIVATE is scheduled only
CANCEL is accepted. Every command is journaled with its code as TARGET and ACT_CYCLE (ACTIVATE) or PEND_HASH as VALUE (R446). -/
def stairCommand (who : Option Master) (cmd : Nat) (s : State) : State :=
  let st := pendState s
  let value := if cmd = 4 then actCycle s else getR s Page.stair Reg.stairPendHash
  let refuse (code : Nat) := stairRefuse who cmd code value s
  let done (t : State) := journal who 0x02 cmd value 0 t
  if s.stair.deact && cmd ≠ 5 then refuse errState
  else if cmd = 1 then
    if st = pendEmpty ∨ st = pendReady ∨ st = pendFailed then done (loadBegin s) else refuse errState
  else if cmd = 2 then
    if st = pendLoading then done (setPend pendPreparing s) else refuse errState
  else if cmd = 3 then
    if st = pendLoading ∨ st = pendPreparing then done (stairDiscard s) else refuse errState
  else if cmd = 4 then
    match activateRefusal s with
    | some code => refuse code
    | none =>
      done (syncActPending { s with stair := { s.stair with
        sched := some (actCycle s, getR s Page.stair Reg.stairActCycleHiActFlight, actCycle s * imgPeriod s.stair.pend), alone := false } })
  else if cmd = 5 then
    if s.stair.deact ∨ st = pendReady then
      done (syncActPending { s with stair := { s.stair with sched := none, alone := false, deact := false } })
    else refuse errState
  else if cmd = 6 then
    if staircaseActive s && s.stair.sched.isNone && (st = pendEmpty || st = pendReady || st = pendFailed) then
      done (syncActPending { s with stair := { s.stair with deact := true } })
    else refuse errState
  else refuse errState

/-- PREPARE ends (R108): the checks decide READY or FAILED. DESIGN CHOICE (log entry 185): a PREPARE that succeeds clears STAIR.ERR. -/
def prepareEnds (s : State) : State :=
  if pendState s ≠ pendPreparing then s
  else
    match prepareCheck s.stair.pend (nodeId s) with
    | none =>
      s |> setPend pendReady |> setR Page.stair Reg.stairPendUsage (usageOf s.stair.pend (nodeId s)) |> stairErr 0 0
        |> syncPendHash |> raiseEv Page.stair Ev.stairPrepOk
    | some (code, off) => s |> setPend pendFailed |> stairErr code off |> raiseEv Page.stair Ev.stairPrepFail

/-! ### Freshness table (IMG indirect pair) -/

/-- The entry of a READ action that no copy has reached since activation. -/
def freshNever : Nat := 2 ^ 22

/-- The key of a READ action's freshness entry: kept apart for each flight, which has its own actions (R102). -/
def freshKey (f i : Nat) : Nat := f * 65536 + i

/-- The freshness entry of an action of the current flight; WRITE actions read 0. -/
def freshEntry (s : State) (i : Nat) : Nat :=
  match (flightActions s.stair.active (nodeId s) (curFlight s))[i]? with
  | some a => if a.write then 0 else storeGet freshNever s.image.fresh (freshKey (curFlight s) i)
  | none => 0

/-- A freshness entry set, by its key. -/
def setFresh (k v : Nat) (s : State) : State :=
  { s with image := { s.image with fresh := storeSet freshNever s.image.fresh k v } }

/-! ### Meanings -/

/-- PREPARE_DONE (R108). -/
def execPrepareDone (s : State) : Answer := alive s (prepareEnds s)

end Sys2Proof.Machine
end

