-- ==== Sys2Proof/Machine/Can.lean ====
section
/-!
DEFINITION. The CAN FD controllers (R279–R302): modes, filtering, storing, transmit buffers, attempts and their ends, fault confinement
and identifier clashes.
-/

namespace Sys2Proof.Machine

open Sys2Proof

/-- A channel. -/
def canOf (s : State) (n : Nat) : CanState := storeGet canReset s.cans n

/-- A channel replaced. -/
def setCan (n : Nat) (v : CanState) (s : State) : State := { s with cans := storeSet canReset s.cans n v }

/-- A field of a CAN page. -/
def canR (s : State) (n : Nat) (f : Fld) : Nat := getR s (Page.can n) f

/-- A one-bit field of a CAN page. -/
def canFlag (s : State) (n : Nat) (f : Fld) : Bool := flag s (Page.can n) f

def canConfig : Nat := 0
def canNormal : Nat := 1
def canMonitor : Nat := 2
def canLoopInt : Nat := 3
def canLoopExt : Nat := 4

/-- The mode in force. -/
def canMode (s : State) (n : Nat) : Nat := canR s n Reg.canStatusModeAct

/-- Fault confinement states (STATUS.FC_STATE). -/
def fcActive : Nat := 0
def fcPassive : Nat := 1
def fcBusOff : Nat := 2

/-- FC_STATE. -/
def canFc (s : State) (n : Nat) : Nat := canR s n Reg.canStatusFcState

/-! ### RESULT codes of a buffer -/

def txOk : Nat := 1
def txFailed : Nat := 2
def txBusOff : Nat := 3
def txCancelled : Nat := 4
def txClashed : Nat := 5
def txParked : Nat := 6
def txGated : Nat := 7
def txFormat : Nat := 8

/-! ### Frame images (R286) -/

/-- The data bytes that a DLC stands for. -/
def dlcBytes (fdf : Bool) (d : Nat) : Nat :=
  if d ≤ 8 then d
  else if !fdf then 8
  else match d with
    | 9 => 12 | 10 => 16 | 11 => 20 | 12 => 24 | 13 => 32 | 14 => 48 | _ => 64

def imgIde (w0 : Nat) : Bool := bit w0 29
def imgRtr (w0 : Nat) : Bool := bit w0 30
def imgDlc (w1 : Nat) : Nat := bits w1 3 0
def imgFdf (w1 : Nat) : Bool := bit w1 4

/-- An image's identifier: 11 or 29 bits. -/
def imgId (w0 : Nat) : Nat := if imgIde w0 then bits w0 28 0 else bits w0 10 0

/-- The data bytes of an image: a classical remote frame has none. -/
def imgBytes (w0 w1 : Nat) : Nat := if imgRtr w0 && !imgFdf w1 then 0 else dlcBytes (imgFdf w1) (imgDlc w1)

/-- Bytes as little-endian words, the last padded with zeros. -/
def bytesToWords (n : Nat) (bs : List Byte) : List Nat :=
  (List.range ((n + 3) / 4)).map fun i => leNat ((List.range 4).map fun j => if 4 * i + j < n then bs.getD (4 * i + j) 0 else 0)

/-! ### Bit timing (R282, R284) -/

/-- The nominal bit time in CAN clocks. -/
def canNominalClocks (s : State) (n : Nat) : Nat :=
  (1 + max 2 (canR s n Reg.canNbtTseg1M1 + 1) + (canR s n Reg.canNbtTseg2M1 + 1)) * (canR s n Reg.canNbtBrpM1 + 1)

/-- The data bit time in CAN clocks. -/
def canDataClocks (s : State) (n : Nat) : Nat :=
  (1 + (canR s n Reg.canDbtTseg1M1 + 1) + (canR s n Reg.canDbtTseg2M1 + 1)) * (canR s n Reg.canDbtBrpM1 + 1)

/-- Whether a channel compensates the transmitter delay in its data phases (R285): TDC_EN, and a data BRP of 1 or 2. -/
def canCompensates (s : State) (n : Nat) : Bool := canFlag s n Reg.canCfgTdcEn && decide (canR s n Reg.canDbtBrpM1 ≤ 1)

/-- Where a transmitted bit of the data phase is checked, in CAN clocks from its start (R285): the secondary sample point at TDCV + TDCO, or
the ordinary sample point. -/
def canCheckPoint (s : State) (n : Nat) : Nat :=
  if canCompensates s n then canR s n Reg.canTdcTdcv + canR s n Reg.canTdcTdco
  else (1 + (canR s n Reg.canDbtTseg1M1 + 1)) * (canR s n Reg.canDbtBrpM1 + 1)

/-- The delay between the edges at CANn_TX and CANn_RX, in tenths of a nanosecond, is measured in CAN clocks of 12.5 ns, rounded up, 127 where no
edge is found by then; one below TDCF is discarded (R285). -/
def measureDelay (n delay : Nat) (s : State) : State :=
  let v := min 127 ((delay + 124) / 125)
  if v < canR s n Reg.canTdcTdcf then s else setR (Page.can n) Reg.canTdcTdcv v s

/-- The length of a channel's filter list; above 256 it acts as 256. -/
def filterCount (s : State) (n : Nat) : Nat := min 256 (canR s n Reg.canFltCount)

/-- The configuration check of a mode change (R282). -/
def canConfigOk (s : State) (n : Nat) : Bool :=
  decide (80 ≤ canNominalClocks s n) && (!canFlag s n Reg.canCfgFdEn || decide (10 ≤ canDataClocks s n)) &&
    decide (canR s n Reg.canFltBase + filterCount s n ≤ 4096)

/-! ### Transmit buffers (R293–R295) -/

/-- A word of a transmit buffer; word 19 shows PENDING as TXB_PEND has it. -/
def bufWord (s : State) (n b w : Nat) : Nat := storeGet 0 (canOf s n).bufs (32 * b + w)

/-- A word of a transmit buffer set. -/
def setBufWord (n b w v : Nat) (s : State) : State :=
  let c := canOf s n
  setCan n { c with bufs := storeSet 0 c.bufs (32 * b + w) (v % 2 ^ 32) } s

/-- Whether a buffer is pending. -/
def bufPending (s : State) (n b : Nat) : Bool := bit (canR s n Reg.canTxbPend) b

/-- Whether a buffer is parked. -/
def bufParked (s : State) (n b : Nat) : Bool := bit (canR s n Reg.canTxbParked) b

/-- One bit of a 32-bit map register. -/
def setMapBit (pg : Nat) (f : Fld) (b : Nat) (v : Bool) (s : State) : State :=
  let w := getR s pg f
  setR pg f (if v then w ||| 2 ^ b else w &&& (2 ^ b ^^^ 0xFFFFFFFF)) s

/-- RESULT, ERR_ATTEMPTS and CLASH_CNT of a buffer. -/
def bufResult (s : State) (n b : Nat) : Nat := bits (bufWord s n b 19) 3 0
def bufErrors (s : State) (n b : Nat) : Nat := bits (bufWord s n b 19) 7 4
def bufClashes (s : State) (n b : Nat) : Nat := bits (bufWord s n b 19) 11 8

/-- The status word of a buffer set. -/
def setBufStatus (n b result errors clashes : Nat) (s : State) : State :=
  setBufWord n b 19 (result + 2 ^ 4 * min 15 errors + 2 ^ 8 * min 15 clashes) s

/-- The buffer of the bridge (R293). -/
def mailboxBuf (s : State) (n : Nat) : Nat := canR s n Reg.canCfgMbxBuf

/-- A request ends (R295): PENDING and any parking clear, RESULT is written, TX_DONE or TX_FAIL is raised. -/
def endRequest (n b result : Nat) (s : State) : State :=
  let pg := Page.can n
  let s1 := s |> setMapBit pg Reg.canTxbPend b false |> setMapBit pg Reg.canTxbParked b false
    |> setBufStatus n b result (bufErrors s n b) (bufClashes s n b)
  let c := canOf s1 n
  s1 |> setCan n { c with cancels := c.cancels &&& (2 ^ b ^^^ 0xFFFFFFFF), mailbox := if b = mailboxBuf s n then some result else c.mailbox }
     |> raiseEv pg (if result = txOk then Ev.canTxDone else Ev.canTxFail)

/-- Requests are discarded: the channel is gated or in MONITOR (R165, R281). -/
def txDiscards (s : State) (n : Nat) : Bool := canFlag s n Reg.canStatusGated || canMode s n = canMonitor

/-- A request for a buffer (R293, R295): merged when pending; ended at once in bus-off, and when requests are discarded. -/
def requestBuf (n b : Nat) (s : State) : State :=
  if bufPending s n b then s
  else
    let s1 := setBufStatus n b (bufResult s n b) 0 0 s
    if canFc s n = fcBusOff then endRequest n b txBusOff s1
    else if txDiscards s n then
      s1 |> whenS (canFlag s n Reg.canStatusGated) (incCnt Page.duplex Reg.duplexGatedTx) |> endRequest n b txGated
    else setMapBit (Page.can n) Reg.canTxbPend b true s1

/-- A request at a set time: one that finds the buffer pending counts as missed (R297). -/
def requestTimed (n b : Nat) (s : State) : State :=
  if bufPending s n b then s |> incCnt (Page.can n) Reg.canTtMissCnt |> raiseEv (Page.can n) Ev.canTtMiss else requestBuf n b s

/-- Every pending request that a condition selects ends in the same way. -/
def endPending (n result : Nat) (sel : Nat → Bool) (s : State) : State :=
  forEach ((List.range 32).filter fun b => bufPending s n b && sel b) (fun b u => endRequest n b result u) s

/-- Whether a buffer is in an attempt. -/
def inAttempt (s : State) (n b : Nat) : Bool :=
  match (canOf s n).attempt with
  | some (b', _) => b = b'
  | none => false

/-- TXB_REQ: buffers in ascending order. -/
def txbRequest (n map : Nat) (s : State) : State := forEach ((List.range 32).filter fun b => bit map b) (fun b u => requestBuf n b u) s

/-- TXB_CANCEL (R295): during an attempt it waits for its end. -/
def txbCancel (n map : Nat) (s : State) : State :=
  forEach ((List.range 32).filter fun b => bit map b) (fun b u =>
    if !bufPending u n b then u
    else if inAttempt u n b then setCan n { canOf u n with cancels := (canOf u n).cancels ||| 2 ^ b } u
    else endRequest n b txCancelled u) s

/-- TXB_UNPARK (R299): attempts restart with CLASH_CNT 0. -/
def txbUnpark (n map : Nat) (s : State) : State :=
  forEach ((List.range 32).filter fun b => bit map b) (fun b u =>
    if bufParked u n b then u |> setMapBit (Page.can n) Reg.canTxbParked b false |> setBufStatus n b 0 (bufErrors u n b) 0 else u) s

/-- The arbitration field of an image as a number; the lower wins, so on the same base identifier the 11-bit one does (R294). -/
def arbitration (w0 w1 : Nat) : Nat :=
  let rtr := b2n (imgRtr w0 && !imgFdf w1)
  if imgIde w0 then bits w0 28 18 * 2 ^ 21 + 2 ^ 20 + 2 ^ 19 + bits w0 17 0 * 2 + rtr
  else bits w0 10 0 * 2 ^ 21 + rtr * 2 ^ 20

/-- The pending buffer, not parked, that would win arbitration; equal fields in ascending buffer order (R294). -/
def winningBuf (s : State) (n : Nat) : Option Nat :=
  let key (b : Nat) := arbitration (bufWord s n b 0) (bufWord s n b 1)
  ((List.range 32).filter fun b => bufPending s n b && !bufParked s n b).foldl (fun best b => match best with
    | some k => if key b < key k then some b else some k
    | none => some b) none

/-- An image that cannot be sent (R295): FDF while FD_EN is 0, or a classical DLC with RTR and FDF both set. -/
def badFormat (s : State) (n b : Nat) : Bool :=
  let w0 := bufWord s n b 0
  let w1 := bufWord s n b 1
  imgFdf w1 && (!canFlag s n Reg.canCfgFdEn || (imgRtr w0 && decide (imgDlc w1 ≤ 8)))

/-- Whether a channel may send: its mode, SYNC, no gating, no STANDBY, not in bus-off (R280, R281, R463). -/
def mayTransmit (s : State) (n : Nat) : Bool :=
  (canMode s n = canNormal || canMode s n = canLoopInt || canMode s n = canLoopExt) && canFlag s n Reg.canStatusSync && !inStandby s &&
    !canFlag s n Reg.canStatusGated && canFc s n ≠ fcBusOff && !pageFenced s (Page.can n)

/-- An attempt starts with the content that the winning buffer holds (R293, R294); an image that cannot be sent ends its request. -/
def attemptStart (n : Nat) (s : State) : State :=
  if !mayTransmit s n || (canOf s n).attempt.isSome then s
  else
    match winningBuf s n with
    | none => s
    | some b =>
      if badFormat s n b then endRequest n b txFormat s
      else s |> setCan n { canOf s n with attempt := some (b, (List.range 18).map fun w => bufWord s n b w) }
             |> setFlag (Page.can n) Reg.canStatusTxBusy true

/-! ### Fault confinement (R298) -/

/-- FC_STATE and its levels follow the counters; entry to bus-off ends every pending request. -/
def syncFc (n : Nat) (s : State) : State :=
  let pg := Page.can n
  let old := canFc s n
  let fc := if old = fcBusOff then fcBusOff
    else if 256 ≤ canR s n Reg.canEcntTec then fcBusOff
    else if 128 ≤ canR s n Reg.canEcntTec ∨ 128 ≤ canR s n Reg.canEcntRec then fcPassive
    else fcActive
  s |> setR pg Reg.canStatusFcState fc |> setLevel pg Ev.canErrPassive (fc = fcPassive) |> setLevel pg Ev.canBusOff (fc = fcBusOff)
    |> whenS (fc = fcBusOff && old ≠ fcBusOff) (fun u => u |> incCnt pg Reg.canBusoffCnt |> endPending n txBusOff (fun _ => true)
         |> setFlag pg Reg.canStatusRecovering (canFlag u n Reg.canCfgAutoRecover))

/-- An error is counted and its code kept for its phase. -/
def noteError (n code : Nat) (dataPhase : Bool) (s : State) : State :=
  let pg := Page.can n
  s |> incCnt pg Reg.canErrCnt |> setR pg (if dataPhase then Reg.canStatusLecData else Reg.canStatusLecNom) code

/-- RECOVER (R298): recovery starts; without effect when the channel is not bus-off. -/
def canRecover (n : Nat) (s : State) : State :=
  if canFc s n = fcBusOff then setFlag (Page.can n) Reg.canStatusRecovering true s else s

/-- Recovery completes after 128 occurrences of 11 recessive bits (R298). -/
def recoveryDone (n : Nat) (s : State) : State :=
  let pg := Page.can n
  if canFc s n = fcBusOff && canFlag s n Reg.canStatusRecovering then
    s |> setR pg Reg.canEcntTec 0 |> setR pg Reg.canEcntRec 0 |> setFlag pg Reg.canStatusRecovering false
      |> setR pg Reg.canStatusFcState fcActive |> setLevel pg Ev.canBusOff false
  else s

/-! ### Modes (R281–R283) -/

/-- The mode takes effect: SYNC is lost from and to CONFIG (log entry 199), and MONITOR discards what is pending, but not a frame already begun. -/
def enterMode (n mode : Nat) (s : State) : State :=
  let s1 := s |> setR (Page.can n) Reg.canStatusModeAct mode
    |> whenS (mode = canConfig || canMode s n = canConfig) (setFlag (Page.can n) Reg.canStatusSync false)
    |> setCan n { canOf s n with leaving := false }
  whenS (mode = canMonitor) (endPending n txGated (fun b => !inAttempt s n b)) s1

/-- A write to CFG.MODE (R282): the check when it leaves CONFIG; a change to CONFIG waits for the end of the frame in progress. -/
def canModeWrite (n mode : Nat) (s : State) : State :=
  let pg := Page.can n
  let m := if 5 ≤ mode then canConfig else mode
  let s1 := s |> setR pg Reg.canCfgMode mode |> setFlag pg Reg.canStatusCfgErr false
  let act := canMode s n
  if m = act then setCan n { canOf s1 n with leaving := false } s1
  else if act = canConfig then
    if canConfigOk s1 n then enterMode n m s1 else setFlag pg Reg.canStatusCfgErr true s1
  else if m = canConfig ∧ (canOf s1 n).attempt.isSome then setCan n { canOf s1 n with leaving := true } s1
  else enterMode n m s1

/-- CAN_SYNC (R282): 11 recessive bits have been seen. -/
def canSync (n : Nat) (s : State) : State :=
  if canMode s n = canConfig || inStandby s then s else setFlag (Page.can n) Reg.canStatusSync true s

/-- A channel is gated or released (R165); a gating waits for the frame already begun. -/
def setCanGate (n : Nat) (on : Bool) (s : State) : State :=
  let c := canOf s n
  if on then
    if c.attempt.isSome then setCan n { c with gateWait := true } s
    else if canFlag s n Reg.canStatusGated then s
    else
      let k := ((List.range 32).filter fun b => bufPending s n b).length
      s |> setFlag (Page.can n) Reg.canStatusGated true |> addCnt Page.duplex Reg.duplexGatedTx k |> endPending n txGated (fun _ => true)
  else s |> setFlag (Page.can n) Reg.canStatusGated false |> setCan n { c with gateWait := false }

/-! ### The end of an attempt (R295, R298, R299) -/

/-- CLASH_LIMIT, 1 to 15; 1 while R300 holds. -/
def clashLimit (s : State) (n : Nat) : Nat :=
  if decide (cycleNow s < (canOf s n).giveWay) && bit (getR s Page.duplex Reg.duplexCanGate) n then 1 else max 1 (canR s n Reg.canCfgClashLimit)

/-- The clash limit is reached (R299): recorded, and the request is ended or parked. For the bridge's buffer CLASH_PARK acts as 0. -/
def clashReached (n b : Nat) (img : List Nat) (s : State) : State :=
  let pg := Page.can n
  let s1 := s |> raiseEv pg Ev.canClash |> setR pg Reg.canClashIdId (imgId (img.getD 0 0)) |> setFlag pg Reg.canClashIdIde (imgIde (img.getD 0 0))
    |> setR pg Reg.canClashInfoBuffer b |> incCnt pg Reg.canClashInfoCount
  if canFlag s n Reg.canCfgClashPark && b ≠ mailboxBuf s n then
    s1 |> setMapBit pg Reg.canTxbParked b true |> setBufStatus n b txParked (bufErrors s1 n b) (bufClashes s1 n b)
  else endRequest n b txClashed s1

/-- An attempt that ended in an error (R295, R299): clash first, then RETRY. -/
def attemptError (n b : Nat) (img : List Nat) (code : Nat) (dataPhase clash exempt : Bool) (s : State) : State :=
  let pg := Page.can n
  let errs := bufErrors s n b
  let clashes := bufClashes s n b + b2n clash
  let retry := bits (bufWord s n b 18) 3 0
  let s1 := s |> noteError n code dataPhase |> whenS (!exempt) (addCnt pg Reg.canEcntTec 8)
    |> setBufStatus n b (bufResult s n b) (errs + 1) clashes
  let s2 := if clash && decide (clashLimit s n ≤ clashes) then clashReached n b img s1
    else if retry ≠ 0 ∧ errs = retry then endRequest n b txFailed s1
    else s1
  syncFc n s2

/-- Whether the delay is measured in an attempt (R285): an FD frame sent with BRS set, on a channel that compensates and drives its pin. -/
def delayMeasured (s : State) (n : Nat) (img : List Nat) : Bool :=
  canCompensates s n && canMode s n ≠ canLoopInt && imgFdf (img.getD 1 0) && bit (img.getD 1 0) 5

/-- The transmitter delay of an attempt, where it came to the edge between FDF and res. -/
def outcomeDelay : CanOutcome → Option Nat
  | .sent _ delay | .error _ _ _ _ delay => delay
  | .lost => none

/-- An attempt ends (R295): its delay is measured first (R285). A cancel and a gating that waited for it take effect then. -/
def attemptEnd (n : Nat) (o : CanOutcome) (s : State) : State :=
  match (canOf s n).attempt with
  | none => s
  | some (b, img) =>
    let pg := Page.can n
    let s0 := match outcomeDelay o with
      | some d => whenS (delayMeasured s n img) (measureDelay n d) s
      | none => s
    let s1 := s0 |> setCan n { canOf s0 n with attempt := none } |> setFlag pg Reg.canStatusTxBusy false
    let s2 := match o with
      | .sent stamp _ => s1 |> incCnt pg Reg.canTxCnt |> setR pg Reg.canEcntTec (canR s1 n Reg.canEcntTec - 1)
          |> setBufWord n b 20 stamp.toNat |> endRequest n b txOk |> syncFc n
      | .lost => s1
      | .error code ph clash exempt _ => attemptError n b img code ph clash exempt s1
    let s3 := if !bufPending s2 n b then s2
      else if bit (canOf s2 n).cancels b then endRequest n b txCancelled s2
      else if canMode s2 n = canMonitor then endRequest n b txGated s2 else s2
    let s4 := setCan n { canOf s3 n with cancels := (canOf s3 n).cancels &&& (2 ^ b ^^^ 0xFFFFFFFF) } s3
    let s5 := if (canOf s4 n).gateWait then setCanGate n true (setCan n { canOf s4 n with gateWait := false } s4) else s4
    if (canOf s5 n).leaving then enterMode n canConfig s5 else s5

/-! ### Receiving and filtering (R287–R292) -/

/-- Word w of filter element e. -/
def filterWord (s : State) (e w : Nat) : Nat := storeGet 0 s.filters (4 * e + w)

/-- Whether an element matches an identifier (R288). -/
def filterMatches (s : State) (e w0 : Nat) : Bool :=
  let f0 := filterWord s e 0
  let f1 := filterWord s e 1
  let ide := imgIde f0
  let cut (v : Nat) : Nat := if ide then bits v 28 0 else bits v 10 0
  let id := imgId w0
  if imgIde w0 ≠ ide then false
  else match bits f0 31 30 with
    | 1 => decide (cut f0 ≤ id ∧ id ≤ cut f1)
    | 2 => id = cut f0 || id = cut f1
    | 3 => (id &&& cut f1) = (cut f0 &&& cut f1)
    | _ => false

/-- The first element of a channel's list that matches: its index within the list (R287). -/
def firstMatch (s : State) (n w0 : Nat) : Option Nat :=
  (List.range (filterCount s n)).find? fun i => filterMatches s (canR s n Reg.canFltBase + i) w0

/-- A frame is discarded (R291). -/
def rxLost (n : Nat) (s : State) : State := s |> incCnt (Page.can n) Reg.canRxLostCnt |> raiseEv (Page.can n) Ev.canRxLost

/-- A frame waits to be stored (R290, R291); the ninth is discarded. -/
def queueFrame (n q : Nat) (prio : Bool) (w0 w1 stamp : Nat) (data : List Byte) (s : State) : State :=
  let c := canOf s n
  let bytes := imgBytes w0 w1
  if 8 ≤ c.waiting.length then rxLost n s
  else setCan n { c with waiting := c.waiting ++
    [{ queue := q, words := [stamp, w0, w1 + 2 ^ 17 * b2n prio] ++ bytesToWords bytes data, bytes := bytes, prio := prio }] } s

/-- A frame is written to a mapping slot (R290). -/
def mapFrame (n slot w0 w1 stamp : Nat) (data : List Byte) (s : State) : State :=
  let words := [w0, w1] ++ bytesToWords 64 (data.take (imgBytes w0 w1)) ++ [1, stamp]
  let c := canOf s n
  let m := (List.range 20).foldl (fun (m : Store Nat) i => storeSet 0 m (32 * slot + i) (words.getD i 0)) c.slots
  setCan n { c with slots := m } s

/-- The first two words of a received image: identifier word; DLC, FDF, BRS, FILTER and CHANNEL (R286). -/
def rxWord0 (f : CanFrame) : Nat := f.id.toNat
def rxWord1 (f : CanFrame) (filter n : Nat) : Nat := f.dlc.val + 2 ^ 4 * b2n f.fdf + 2 ^ 5 * b2n (f.fdf && f.brs) + 2 ^ 8 * filter + 2 ^ 20 * n

/-- A frame is filtered (R287, R290). -/
def filterFrame (n : Nat) (f : CanFrame) (stamp : Nat) (s : State) : State :=
  let w0 := rxWord0 f
  if imgRtr w0 && !f.fdf && canFlag s n Reg.canCfgRejectRtr then s
  else
    match firstMatch s n w0 with
    | none =>
      if canFlag s n Reg.canCfgNomatchStore then queueFrame n (canR s n Reg.canDefq) false w0 (rxWord1 f 0x100 n) stamp f.data s else s
    | some i =>
      let e := canR s n Reg.canFltBase + i
      let s1 := { s with filters := storeSet 0 s.filters (4 * e + 3) (satInc 32 (filterWord s e 3)) }
      let w1 := rxWord1 f i n
      let w2 := filterWord s e 2
      match bits (filterWord s e 1) 31 30 with
      | 1 => queueFrame n (bits w2 11 0) false w0 w1 stamp f.data s1
      | 2 => queueFrame n (bits w2 11 0) true w0 w1 stamp f.data s1
      | 3 => mapFrame n (bits w2 20 16) w0 w1 stamp f.data s1
      | _ => s1

/-- Whether a channel receives a frame (R281): its own frames only in the loop modes, others not in LOOP_INT. -/
def mayReceive (s : State) (n : Nat) (own : Bool) : Bool :=
  let m := canMode s n
  m ≠ canConfig && canFlag s n Reg.canStatusSync && !inStandby s && canFc s n ≠ fcBusOff && !pageFenced s (Page.can n) &&
    (if own then m = canLoopInt || m = canLoopExt else m ≠ canLoopInt)

/-- REC after a frame received without error, as the standard has it: one less, or a value from 119 to 127 that the standard leaves open. -/
def recAfterGood (n : Nat) (s : State) : State :=
  let r := canR s n Reg.canEcntRec
  if 127 < r then
    let (v, s1) := freeValue s
    setR (Page.can n) Reg.canEcntRec (119 + v % 9) s1
  else setR (Page.can n) Reg.canEcntRec (r - 1) s

/-- A received frame becomes valid (R287, R296). -/
def frameReceived (n : Nat) (f : CanFrame) (own : Bool) (stamp : Nat) (s : State) : State :=
  if !mayReceive s n own then s
  else
    s |> incCnt (Page.can n) Reg.canRxCnt |> setR (Page.can n) Reg.canStampLast stamp
      |> whenS (!own) (fun u => syncFc n (recAfterGood n u)) |> filterFrame n f stamp

/-- The oldest waiting frame is stored when its OPEN succeeds (R291). -/
def storeFrame (n : Nat) (s : State) : State :=
  match (canOf s n).waiting with
  | [] => s
  | w :: rest =>
    let (r, s1) := cabProduce portCan w.queue w.words (4 * w.words.length - (12 + w.bytes)) false s
    if r = cabWaitCredit then s
    else
      let s2 := setCan n { canOf s1 n with waiting := rest } s1
      if r = cabOk then raiseIf w.prio (Page.can n) Ev.canRxPrio s2 else rxLost n s2

/-- An error in a frame being received (R298): REC rises by 1, or by 8 where the standard says so. -/
def rxError (n code : Nat) (dataPhase severe : Bool) (s : State) : State :=
  if !mayReceive s n false then s
  else
    s |> noteError n code dataPhase
      |> whenS (canMode s n ≠ canMonitor && !canFlag s n Reg.canStatusGated)
           (fun u => syncFc n (addCnt (Page.can n) Reg.canEcntRec (if severe then 8 else 1) u))

/-! ### Indirect spaces (R289) -/

/-- A write to a word of the filter memory: words 0–2 go to the holding copy, which word 2 makes the element; word 3 is cleared. -/
def filterWrite (k v : Nat) (s : State) : State :=
  let e := k / 4
  let held (w : Nat) : Nat := (storeFind (4 * e + w) s.filterHold).getD (filterWord s e w)
  match k % 4 with
  | 3 => { s with filters := storeDel k s.filters }
  | 2 => { s with
      filters := storeSet 0 (storeSet 0 (storeSet 0 s.filters (4 * e) (held 0)) (4 * e + 1) (held 1)) (4 * e + 2) (v &&& 0x001F0FFF)
      filterHold := storeDel (4 * e) (storeDel (4 * e + 1) s.filterHold) }
  | 1 => { s with filterHold := storePut k (v &&& 0xDFFFFFFF) s.filterHold }
  | _ => { s with filterHold := storePut k v s.filterHold }

/-- The word that a channel's indirect pair reads. -/
def canIndRead (s : State) (n addr : Nat) : Nat :=
  match bits addr 17 16 with
  | 0 => storeGet 0 s.filters (addr % 2 ^ 14)
  | 1 =>
    let b := bits addr 9 5
    let w := addr % 32
    if w = 19 then bufWord s n b 19 + 2 ^ 16 * b2n (bufPending s n b) else if w ≤ 20 then bufWord s n b w else 0
  | 2 => if addr % 32 ≤ 19 then storeGet 0 (canOf s n).slots (32 * (bits addr 9 5) + addr % 32) else 0
  | _ => 0

/-- A write through a channel's indirect pair: filter memory, and words 0–18 of the transmit buffers. -/
def canIndWrite (n addr v : Nat) (s : State) : State :=
  match bits addr 17 16 with
  | 0 => filterWrite (addr % 2 ^ 14) (v % 2 ^ 32) s
  | 1 =>
    let w := addr % 32
    if w < 18 then setBufWord n (bits addr 9 5) w v s
    else if w = 18 then setBufWord n (bits addr 9 5) 18 (v &&& 0x3FF) s
    else s
  | _ => s

/-- VALID of every slot of a channel cleared, at activation (R292). -/
def clearSlots (n : Nat) (s : State) : State :=
  let c := canOf s n
  setCan n { c with slots := c.slots.filter fun e => e.1 % 32 ≠ 18 } s

/-- The frames waiting under R291 are lost (R301). -/
def dropWaiting (n : Nat) (s : State) : State := setCan n { canOf s n with waiting := [] } s

/-- CNT_CTRL.CLR of a CAN page. -/
def canCntClear (n : Nat) (s : State) : State :=
  clearAll (Page.can n) [Reg.canRxCnt, Reg.canTxCnt, Reg.canRxLostCnt, Reg.canTtMissCnt, Reg.canErrCnt] s

/-! ### Meanings -/

/-- CAN_SYNC (R282). -/
def execCanSync (n : Fin 16) (s : State) : Answer := alive s (canSync n s)

/-- CAN_FRAME_RECEIVED (R287). -/
def execCanFrameReceived (n : Fin 16) (frame : CanFrame) (own : Bool) (stamp : Word) (s : State) : Answer :=
  alive s (frameReceived n frame own stamp.toNat s)

/-- CAN_STORE (R291). -/
def execCanStore (n : Fin 16) (s : State) : Answer := alive s (storeFrame n s)

/-- A CAN_TT entry of the current flight at its TIME, in a cycle in which it is active (R297). -/
def canTtRequest (i : Nat) (s : State) : State :=
  if !staircaseActs s then s
  else
    match (flightCanTt s.stair.active (nodeId s) (curFlight s))[i]? with
    | some t => if cycleNow s % 2 ^ t.div = t.phase then requestTimed t.channel t.buffer s else s
    | none => s

/-- CAN_TT_REQUEST (R297): entry `index` of the current flight. -/
def execCanTtRequest (index : Nat) (s : State) : Answer := alive s (canTtRequest index s)

/-- RECOVERY_DONE (R298). -/
def execRecoveryDone (n : Fin 16) (s : State) : Answer := alive s (recoveryDone n s)

/-- CAN_RX_ERROR (R298). -/
def execCanRxError (n : Fin 16) (code : Fin 8) (dataPhase severe : Bool) (s : State) : Answer := alive s (rxError n code dataPhase severe s)

end Sys2Proof.Machine
end

