-- ==== Sys2Proof/Machine/Engine.lean ====
section
/-!
DEFINITION. Dovetail engines and pin tiles (R248–R278): FIFOs, LUT evaluation, actions, swaps, starting and stopping, pad claims and
pad states.
-/

namespace Sys2Proof.Machine

open Sys2Proof

/-- An engine. -/
def engOf (s : State) (e : Nat) : EngState := storeGet engReset s.engines e

/-- An engine replaced. -/
def setEng (e : Nat) (v : EngState) (s : State) : State := { s with engines := storeSet engReset s.engines e v }

/-- A field of an ENG page. -/
def engR (s : State) (e : Nat) (f : Fld) : Nat := getR s (Page.eng e) f

/-- A one-bit field of an ENG page. -/
def engFlag (s : State) (e : Nat) (f : Fld) : Bool := flag s (Page.eng e) f

/-- A field of an ENG page set. -/
def setEngR (e : Nat) (f : Fld) (v : Nat) (s : State) : State := setR (Page.eng e) f v s

/-- A one-bit field of an ENG page set. -/
def setEngFlag (e : Nat) (f : Fld) (b : Bool) (s : State) : State := setFlag (Page.eng e) f b s

/-- An engine is running (STATUS.RUNNING). -/
def engRunning (s : State) (e : Nat) : Bool := engFlag s e Reg.engStatusRunning

/-- An engine has its ticks: it is running and not gated by STANDBY, which keeps its registers as they stand (R15, R463). -/
def engTicks (s : State) (e : Nat) : Bool := engRunning s e && !inStandby s

/-! ### FIFOs (R263, R264) -/

/-- The words a FIFO holds at most. -/
def fifoDepth : Nat := 16

/-- The TX FIFO replaced, with its level shown. -/
def setTxf (e : Nat) (ws : List Nat) (s : State) : State :=
  setEngR e Reg.engFifoStatusTxLevel ws.length (setEng e { engOf s e with txf := ws } s)

/-- The RX FIFO replaced, with its level shown. -/
def setRxf (e : Nat) (ws : List Nat) (s : State) : State :=
  setEngR e Reg.engFifoStatusRxLevel ws.length (setEng e { engOf s e with rxf := ws } s)

/-- Whether the TX FIFO has no room. -/
def txfFull (s : State) (e : Nat) : Bool := fifoDepth ≤ (engOf s e).txf.length

/-- Whether the RX FIFO has no room. -/
def rxfFull (s : State) (e : Nat) : Bool := fifoDepth ≤ (engOf s e).rxf.length

/-- A word pushed to the TX FIFO. -/
def pushTxf (e w : Nat) (s : State) : State := setTxf e ((engOf s e).txf ++ [w % 2 ^ 32]) s

/-- A word pushed to the RX FIFO. -/
def pushRxf (e w : Nat) (s : State) : State := setRxf e ((engOf s e).rxf ++ [w % 2 ^ 32]) s

/-- A page push: refused when bound, discarded when full (R264). -/
def pagePush (e w : Nat) (s : State) : State :=
  if engFlag s e Reg.engFifoStatusTxfBound then s |> incCnt (Page.eng e) Reg.engBindRefuseCnt |> raiseEv (Page.eng e) Ev.engFifoErr
  else if txfFull s e then s |> incCnt (Page.eng e) Reg.engHostFifoCnt |> raiseEv (Page.eng e) Ev.engFifoErr
  else pushTxf e w s

/-- A page pop: 0 when bound or empty, else the oldest word (R264). -/
def pagePop (e : Nat) (s : State) : Nat × State :=
  if engFlag s e Reg.engFifoStatusRxfBound then (0, s |> incCnt (Page.eng e) Reg.engBindRefuseCnt |> raiseEv (Page.eng e) Ev.engFifoErr)
  else
    match (engOf s e).rxf with
    | [] => (0, s |> incCnt (Page.eng e) Reg.engHostFifoCnt |> raiseEv (Page.eng e) Ev.engFifoErr)
    | w :: ws => (w, setRxf e ws s)

/-! ### Pads (R273–R277) -/

/-- The tile of an engine. -/
def tileOf (e : Nat) : Nat := e / 8

/-- Byte i of PINMAP: the mapping of logical pin i. -/
def pinMap (s : State) (e i : Nat) : Nat := bits (engR s e Reg.engPinmap) (8 * i + 7) (8 * i)

/-- The pad a mapping names. -/
def mapPad (b : Nat) : Nat := b % 32
/-- A mapping's EN. -/
def mapEn (b : Nat) : Bool := bit b 5
/-- A mapping's DRIVE. -/
def mapDrive (b : Nat) : Bool := bit b 6

/-- The claim of a pad: engine within the tile and logical pin (OWNER registers). -/
def padOwner (s : State) (t p : Nat) : Option (Nat × Nat) :=
  let b := bits (getR s (Page.tile t) (Reg.tileOwner (p / 4))) (8 * (p % 4) + 7) (8 * (p % 4))
  if bit b 7 then some (bits b 4 2, bits b 1 0) else none

/-- The claim of a pad set. -/
def setOwner (t p : Nat) (o : Option (Nat × Nat)) (s : State) : State :=
  let f := Reg.tileOwner (p / 4)
  let sh := 8 * (p % 4)
  let b := match o with
    | some (j, i) => 128 + 4 * j + i
    | none => 0
  setR (Page.tile t) f (mergeMask (getR s (Page.tile t) f) (b * 2 ^ sh) (0xFF * 2 ^ sh)) s

/-- The pads of a bank are undriven and its inputs read 0: BANK_EN 0, VIO_SEL 3 or VIO_FAULT (R273). -/
def bankOff (s : State) (t : Nat) : Bool :=
  !flag s (Page.tile t) Reg.tileCfgBankEn || getR s (Page.tile t) Reg.tileCfgVioSel = 3 || levelOn s (Page.tile t) Ev.tileVioFault

/-- The synchronised level of a pad. -/
def padIn (s : State) (t p : Nat) : Bool := !bankOff s t && bit (getR s (Page.tile t) Reg.tilePinIn) p

/-- The level that a logical pin sees: its pad, or 0 when the mapping's EN is 0 (R250). -/
def logicalIn (s : State) (e i : Nat) : Bool :=
  let b := pinMap s e i
  mapEn b && padIn s (tileOf e) (mapPad b)

/-- Whether the pad that logical pin i claims is at its safe level: its engine stopped, fenced, gated, in STANDBY, or the pin set by no entry
applied since the engine's start or its FORCE tick (R265, R270, R276). -/
def engineSafe (s : State) (e i : Nat) : Bool :=
  !engTicks s e || pageFenced s (Page.eng e) || pageFenced s (Page.tile (tileOf e)) || engFlag s e Reg.engStatusGated || !bit (engOf s e).pinsSet i

/-- The state of a pad before open drain: driven and its level; HOLD keeps what the pad had (R274, R276). -/
def padDrive (s : State) (t p : Nat) : Bool × Bool :=
  let pg := Page.tile t
  match padOwner s t p with
  | none => (false, false)
  | some (j, i) =>
    let e := 8 * t + j
    if engineSafe s e i then
      match getR s pg (Reg.tilePincfgSafe p) with
      | 0 => (true, false)
      | 1 => (true, true)
      | 3 => if engFlag s e Reg.engStatusGated then (false, false)
             else (bit (getR s pg Reg.tilePinOe) p, bit (getR s pg Reg.tilePinVal) p)
      | _ => (false, false)
    else (bit (engR s e Reg.engStatusPinOe) i, bit (engR s e Reg.engStatusPinVal) i)

/-- The state of a pad (R276): driven, and its level; with OD a 1 leaves the pad undriven. -/
def padState (s : State) (t p : Nat) : Bool × Bool :=
  if bankOff s t then (false, false)
  else
    let (oe, v) := padDrive s t p
    if !oe ∨ (v ∧ flag s (Page.tile t) (Reg.tilePincfgOd p)) then (false, false) else (oe, v)

/-- Claimed pads of a tile that are at their safe level, as a bit map. -/
def safePads (s : State) (t : Nat) : Nat :=
  if bankOff s t then 0
  else (List.range 32).foldl (fun m p => match padOwner s t p with
    | some (j, i) => if engineSafe s (8 * t + j) i then m + 2 ^ p else m
    | none => m) 0

/-- The pads of a tile take the states that R276 gives; SAFE_APPLIED is raised when a claimed pad goes to its safe level (R278). -/
def syncTile (t : Nat) (s : State) : State :=
  let pg := Page.tile t
  let oe := (List.range 32).foldl (fun m p => if (padState s t p).1 then m + 2 ^ p else m) 0
  let val := (List.range 32).foldl (fun m p => if (padState s t p).2 then m + 2 ^ p else m) 0
  let safe := safePads s t
  let before := storeGet 0 s.tileSafe t
  { s with tileSafe := storeSet 0 s.tileSafe t safe }
  |> whenS (bankOff s t) (setR pg Reg.tilePinIn 0) |> setR pg Reg.tilePinOe oe |> setR pg Reg.tilePinVal val
  |> raiseIf (decide (safe &&& (before ^^^ 0xFFFFFFFF) ≠ 0)) pg Ev.tileSafeApplied

/-- A pad refused to a logical pin (R275). -/
def claimConflict (t p j i : Nat) (s : State) : State :=
  let pg := Page.tile t
  s |> setR pg Reg.tileConflictPad p |> setR pg Reg.tileConflictEngine j |> setR pg Reg.tileConflictPin i
    |> incCnt pg Reg.tileConflictCount |> raiseEv pg Ev.tilePinConflict

/-- Whether a mapping drives its pad. -/
def mapClaims (b : Nat) : Bool := mapEn b && mapDrive b

/-- A claim that a new PINMAP value gives up is released (R275). -/
def releaseClaim (e new i : Nat) (s : State) : State :=
  let t := tileOf e
  let o := pinMap s e i
  let n := bits new (8 * i + 7) (8 * i)
  let given := mapClaims o && (!mapClaims n || mapPad o ≠ mapPad n)
  whenS (given && padOwner s t (mapPad o) = some (e % 8, i)) (setOwner t (mapPad o) none) s

/-- A claim that a new PINMAP value requests: given, or refused with DRIVE stored as 0 (R275). The pair is the value stored and the state. -/
def requestClaim (e i : Nat) (acc : Nat × State) : Nat × State :=
  let (new, s) := acc
  let t := tileOf e
  let n := bits new (8 * i + 7) (8 * i)
  if !mapClaims n then acc
  else
    match padOwner s t (mapPad n) with
    | none => (new, setOwner t (mapPad n) (some (e % 8, i)) s)
    | some o => if o = (e % 8, i) then acc else (new - 0x40 * 2 ^ (8 * i), claimConflict t (mapPad n) (e % 8) i s)

/-! ### Logical pin filters (R250, R252) -/

/-- Filter length n of logical pin i: 0 and 1 are off, 9–15 act as 8 (R252). -/
def filterLen (s : State) (e i : Nat) : Nat := min 8 (bits (engR s e Reg.engFilt) (4 * i + 3) (4 * i))

/-- One sample of a logical pin filter (R252). -/
def filterStep (n : Nat) (v : Bool) (f : PinFilter) : PinFilter :=
  if n < 2 ∨ v = f.level then { level := v, run := 0 }
  else if f.run + 1 < n then { f with run := f.run + 1 }
  else { level := v, run := 0 }

def pinFilterReset : PinFilter := { level := false, run := 0 }

/-- A logical pin filter. -/
def pinFilter (s : State) (e i : Nat) : PinFilter := storeGet pinFilterReset (engOf s e).filters i

/-- A logical pin filter set. -/
def setFilter (e i : Nat) (f : PinFilter) (s : State) : State :=
  let v := engOf s e
  setEng e { v with filters := storeSet pinFilterReset v.filters i f } s

/-- The level of condition PINi: what the filter passes; 0 when the mapping's EN is 0 (R250). -/
def pinCondition (s : State) (e i : Nat) : Bool := mapEn (pinMap s e i) && (pinFilter s e i).level

/-- PIN_IN shows C0–C3. -/
def syncPinIn (e : Nat) (s : State) : State :=
  setEngR e Reg.engStatusPinIn ((List.range 4).foldl (fun m i => m + 2 ^ i * b2n (pinCondition s e i)) 0) s

/-! ### Claims written (R275) -/

/-- A write to PINMAP (R275): releases first, then the requests of the lower logical pins. -/
def pinmapWrite (e v : Nat) (s : State) : State :=
  let new := v &&& 0x7F7F7F7F
  let s1 := forEach (List.range 4) (fun i u => releaseClaim e new i u) s
  let (stored, s2) := (List.range 4).foldl (fun acc i => requestClaim e i acc) (new, s1)
  s2 |> setEngR e Reg.engPinmap stored |> syncPinIn e |> syncTile (tileOf e)

/-- A write to TILE.CFG: with the monitor off VIO_FAULT clears and STATUS reads 0 (R273); with it on STATUS shows a measurement. -/
def tileCfgWrite (t sel en : Nat) (s : State) : State :=
  let pg := Page.tile t
  let wasOff := !flag s pg Reg.tileCfgBankEn || getR s pg Reg.tileCfgVioSel = 3
  let s1 := s |> setR pg Reg.tileCfgVioSel sel |> setR pg Reg.tileCfgBankEn en
  let off := !flag s1 pg Reg.tileCfgBankEn || getR s1 pg Reg.tileCfgVioSel = 3
  let s2 :=
    if off then s1 |> setLevel pg Ev.tileVioFault false |> setFlag pg Reg.tileStatusVioOk false |> setR pg Reg.tileStatusVioMv 0
    else if wasOff then
      let (mv, s3) := freeValue s1
      s3 |> setFlag pg Reg.tileStatusVioOk true |> setR pg Reg.tileStatusVioMv mv
    else s1
  syncTile t s2

/-- VIOt has stayed out of tolerance for 10 µs at `mv` millivolts (R273). -/
def vioFault (t mv : Nat) (s : State) : State :=
  let pg := Page.tile t
  if !flag s pg Reg.tileCfgBankEn || getR s pg Reg.tileCfgVioSel = 3 then s
  else s |> setLevel pg Ev.tileVioFault true |> setFlag pg Reg.tileStatusVioOk false |> setR pg Reg.tileStatusVioMv mv |> syncTile t

/-- VIOt has been within limits for 1 ms (R273). -/
def vioFaultClear (t mv : Nat) (s : State) : State :=
  let pg := Page.tile t
  if !flag s pg Reg.tileCfgBankEn || getR s pg Reg.tileCfgVioSel = 3 then s
  else s |> setLevel pg Ev.tileVioFault false |> setFlag pg Reg.tileStatusVioOk true |> setR pg Reg.tileStatusVioMv mv |> syncTile t

/-- A driven pad has differed from its input for 16 base ticks (R277): reported where RB_EN is set and the pad is driven. -/
def readback (t p : Nat) (s : State) : State :=
  let pg := Page.tile t
  if flag s pg (Reg.tilePincfgRbEn p) && bit (getR s pg Reg.tilePinOe) p then
    s |> setR pg Reg.tileReadbackPad p |> incCnt pg Reg.tileReadbackCount |> raiseEv pg Ev.tileReadback
  else s

/-- VIO_FAULT (R273). -/
def execVioFault (t : Fin 16) (mv : Fin 4096) (s : State) : Answer := alive s (vioFault t mv s)

/-- VIO_FAULT_CLEAR (R273). -/
def execVioFaultClear (t : Fin 16) (mv : Fin 4096) (s : State) : Answer := alive s (vioFaultClear t mv s)

/-- READBACK (R277). -/
def execReadback (t : Fin 16) (p : Fin 32) (s : State) : Answer := alive s (readback t p s)

/-! ### Divider (R248, R249) -/

/-- D in 1/256 base ticks; N = 0 acts as 1. -/
def engDiv (s : State) (e : Nat) : Nat := max 1 (engR s e Reg.engDivN) * 256 + engR s e Reg.engDivF

/-- The divider starts. -/
def startDivider (e : Nat) (s : State) : State :=
  setEng e { engOf s e with divD := engDiv s e, divCount := 0, divK := 0, divNew := false } s

/-- One base tick of a divider: the state, and whether the next engine tick falls at it, which is base tick ⌈k × D⌉. -/
def dividerTick (e : Nat) (s : State) : State × Bool :=
  let v := engOf s e
  let n := v.divCount + 1
  (setEng e { v with divCount := n } s, decide ((v.divK + 1) * v.divD ≤ n * 256))

/-- The divider at an engine tick: it counts it, and takes a new D when DIV was written since the last one. -/
def dividerAtTick (e : Nat) (s : State) : State :=
  let v := engOf s e
  if v.divNew then startDivider e s
  else setEng e { v with divK := v.divK + 1, divCount := ceilDiv ((v.divK + 1) * v.divD) 256 } s

/-! ### Program banks and swaps (R267–R271) -/

/-- The active bank. -/
def engBank (s : State) (e : Nat) : Nat := engR s e Reg.engStatusBank

/-- A LUT entry of a bank. -/
def lutEntry (s : State) (e bank i : Nat) : Nat := storeGet 0 (engOf s e).prog (2048 * bank + i % 1024)

/-- A select word of a bank. -/
def selWord (s : State) (e bank st : Nat) : Nat := storeGet 0 (engOf s e).prog (2048 * bank + 1024 + st % 64)

/-- The pending swap set or withdrawn, with SWAP_PEND. -/
def setSwap (e : Nat) (w : Option (Nat × Bool)) (s : State) : State :=
  setEngFlag e Reg.engStatusSwapPend w.isSome (setEng e { engOf s e with swap := w } s)

/-- The banks are exchanged. -/
def exchangeBanks (e : Nat) (s : State) : State := setEngR e Reg.engStatusBank (1 - engBank s e) s

/-- A retained entry is abandoned. -/
def dropRetained (e : Nat) (s : State) : State :=
  setEngFlag e Reg.engStatusStalled false (setEng e { engOf s e with retained := none } s)

/-- A SAFE or CYCLE swap takes effect (R268, R269). -/
def takeSwap (e : Nat) (restart : Bool) (s : State) : State :=
  s |> exchangeBanks e |> whenS restart (setEngR e Reg.engStatusState 0) |> setSwap e none |> raiseEv (Page.eng e) Ev.engSwapDone

/-- What a start and a FORCE tick clear: SR, BITS, CNT, STALE, both latches, both links, and the timer stops (R265, R270). -/
def clearEngine (e : Nat) (s : State) : State :=
  clearAll (Page.eng e) [Reg.engSr, Reg.engCntValue, Reg.engCntBits, Reg.engFifoStatusStale, Reg.engFifoStatusTreadLatch,
    Reg.engFifoStatusTrigLatch, Reg.engFifoStatusLinkOut, Reg.engTmoRunning, Reg.engTmoDelayDone, Reg.engStatusState] s

/-- A FORCE swap takes effect (R270). -/
def forceTick (e : Nat) (s : State) : State :=
  s |> dropRetained e |> clearEngine e |> (fun u => setEng e { engOf u e with delay := 0, pinsSet := 0 } u)
    |> exchangeBanks e |> setSwap e none |> setEngFlag e Reg.engStatusInSafe true
    |> raiseEv (Page.eng e) Ev.engForcedSwap |> syncTile (tileOf e)

/-- A request made while the engine is not running exchanges the banks at once (R271). -/
def swapAtRest (e : Nat) (s : State) : State :=
  s |> exchangeBanks e |> setEngR e Reg.engStatusState 0 |> setSwap e none |> raiseEv (Page.eng e) Ev.engSwapDone

/-- A request of MODE and RESTART (R271); MODE 3 acts as 0. It replaces a pending SAFE or CYCLE swap; a pending FORCE swap stands (log entry 198). -/
def requestSwap (e mode : Nat) (restart : Bool) (s : State) : State :=
  if !engRunning s e then swapAtRest e s
  else
    match (engOf s e).swap with
    | some (2, _) => s
    | _ => setSwap e (some (if mode = 3 then 0 else mode, restart)) s

/-- CANCEL withdraws a pending SAFE or CYCLE swap (R271). -/
def cancelSwap (e : Nat) (s : State) : State :=
  match (engOf s e).swap with
  | some (2, _) => s
  | _ => setSwap e none s

/-- A write to SWAP: MODE and RESTART are stored; CANCEL is done before REQ (R271). -/
def swapWrite (e mode : Nat) (restart req cancel : Bool) (s : State) : State :=
  s |> setEngR e Reg.engSwapMode mode |> setEngFlag e Reg.engSwapRestart restart |> whenS cancel (cancelSwap e)
    |> whenS req (requestSwap e mode restart)

/-- The word that the engine's indirect spaces hold (R267). -/
def engIndRead (s : State) (e addr : Nat) : Nat :=
  let b := if bit addr 17 then engBank s e else 1 - engBank s e
  if bit addr 16 then selWord s e b (addr % 64) else lutEntry s e b (addr % 1024)

/-- A write to an indirect space; none where it is ignored with the error bit: the active bank, or a pending swap (R267). -/
def engIndWrite (e addr v : Nat) (s : State) : Option State :=
  if bit addr 17 || (engOf s e).swap.isSome then none
  else
    let base := 2048 * (1 - engBank s e)
    let (k, w) := if bit addr 16 then (base + 1024 + addr % 64, v % 2 ^ 16) else (base + addr % 1024, v % 2 ^ 32)
    some (setEng e { engOf s e with prog := storeSet 0 (engOf s e).prog k w } s)

/-! ### Conditions (R250–R252, R258–R261) -/

/-- The filters of an engine take a sample. -/
def sampleFilters (e : Nat) (s : State) : State :=
  syncPinIn e (forEach (List.range 4) (fun i u =>
    setFilter e i (filterStep (filterLen u e i) (logicalIn u e i) (pinFilter u e i)) u) s)

/-- The timeout timer's decrement (R259). -/
def timerTick (e : Nat) (s : State) : State :=
  if engFlag s e Reg.engTmoRunning then
    let v := engR s e Reg.engTmoValue - 1
    let s1 := setEngR e Reg.engTmoValue v s
    if v = 0 then s1 |> setEngFlag e Reg.engTmoRunning false |> setEngFlag e Reg.engTmoDelayDone true else s1
  else s

/-- LEN (R258). -/
def shiftLen (s : State) (e : Nat) : Nat := engR s e Reg.engShiftCfgLenM1 + 1

/-- A link output as the neighbour sees it from the base tick after its change on; 0 while the engine is not running (R261). -/
def linkOut (s : State) (e k : Nat) : Bool := engRunning s e && bit (engOf s e).links k

/-- The neighbours see an engine's link outputs from here on (R261). -/
def latchLinks (e : Nat) (s : State) : State := setEng e { engOf s e with links := engR s e Reg.engFifoStatusLinkOut } s

/-- The base tick is over: every link change is visible (R261). -/
def latchAllLinks (s : State) : State := forEach (List.range 128) latchLinks s

/-- The neighbour of an engine in its tile, j places above, wrapping (R261). -/
def tileNeighbour (e j : Nat) : Nat := 8 * (e / 8) + (e + j) % 8

/-- A condition signal (R250). -/
def condition (s : State) (e c : Nat) : Bool :=
  match c with
  | 0 | 1 | 2 | 3 => pinCondition s e c
  | 4 => (engOf s e).txf.isEmpty
  | 5 => rxfFull s e
  | 6 => decide (shiftLen s e ≤ engR s e Reg.engCntBits)
  | 7 => engFlag s e Reg.engTmoDelayDone
  | 8 => engFlag s e Reg.engFifoStatusTrigLatch
  | 9 => engFlag s e Reg.engFifoStatusTreadLatch
  | 10 => linkOut s (tileNeighbour e 7) 0
  | 11 => linkOut s (tileNeighbour e 1) 1
  | 12 => engR s e Reg.engCntValue = 0
  | 13 => engFlag s e Reg.engFifoStatusStale
  | 14 => padIn s (tileOf e) (engR s e Reg.engCselTileInSel)
  | _ => true

/-- The condition that field j of a select word names. -/
def selField (w j : Nat) : Nat := bits w (4 * j + 3) (4 * j)

/-- The condition index (R251). -/
def conditionIndex (s : State) (e w : Nat) : Nat :=
  (List.range 4).foldl (fun m j => m + 2 ^ j * b2n (condition s e (selField w j))) 0

/-- Whether a select word names a condition. -/
def selNames (w c : Nat) : Bool := (List.range 4).any fun j => selField w j = c

/-- The entry that an evaluation selects, and the state with the named latches read and cleared (R251, R260). -/
def selectEntry (e : Nat) (s : State) : Nat × State :=
  let st := engR s e Reg.engStatusState
  let w := selWord s e (engBank s e) st
  let entry := lutEntry s e (engBank s e) (16 * st + conditionIndex s e w)
  (entry, s |> whenS (selNames w 8) (setEngFlag e Reg.engFifoStatusTrigLatch false)
            |> whenS (selNames w 9) (setEngFlag e Reg.engFifoStatusTreadLatch false))

/-! ### Actions (R258, R259, R262, R263) -/

def entryNext (w : Nat) : Nat := bits w 31 26
def entryVal (w : Nat) : Nat := bits w 25 22
def entryOe (w : Nat) : Nat := bits w 21 18
def entryAction (w : Nat) : Nat := bits w 17 12
def entryDelay (w : Nat) : Nat := bits w 11 2
def entryHold (w : Nat) : Bool := bit w 1
def entrySafe (w : Nat) : Bool := bit w 0

/-- The outgoing bit of the shift register (R258). -/
def shiftOutBit (s : State) (e : Nat) : Bool :=
  bit (engR s e Reg.engSr) (if engFlag s e Reg.engShiftCfgMsbFirst then shiftLen s e - 1 else 0)

/-- One shift with an incoming bit, on bits [LEN − 1:0] only; BITS saturates at 63 (R258). -/
def shiftOnce (e : Nat) (b : Bool) (s : State) : State :=
  let n := shiftLen s e
  let sr := engR s e Reg.engSr
  let low := sr % 2 ^ n
  let low' := if engFlag s e Reg.engShiftCfgMsbFirst then (low * 2 + b2n b) % 2 ^ n else low / 2 + 2 ^ (n - 1) * b2n b
  s |> setEngR e Reg.engSr (sr - low + low') |> setEngR e Reg.engCntBits (min 63 (engR s e Reg.engCntBits + 1))

/-- The incoming bit: the unfiltered level of the pad of IN_PIN (R258). -/
def shiftInBit (s : State) (e : Nat) : Bool := logicalIn s e (engR s e Reg.engShiftCfgInPin)

/-- A FIFO action that moved a word clears STALE; one that moved none sets it, counts and may raise FIFO_ERR (R263). -/
def noteStale (e : Nat) (moved : Bool) (s : State) : State :=
  if moved then setEngFlag e Reg.engFifoStatusStale false s
  else s |> setEngFlag e Reg.engFifoStatusStale true |> incCnt (Page.eng e) Reg.engStaleCnt
         |> raiseIf (engFlag s e Reg.engCtrlStaleEvt) (Page.eng e) Ev.engFifoErr

/-- A pop: the word and the state, none where a blocking pop must wait (R263). -/
def popAction (e : Nat) (blocking : Bool) (s : State) : Option (Nat × State) :=
  match (engOf s e).txf with
  | w :: ws => some (w, s |> setTxf e ws |> setEngR e Reg.engLastPop w |> noteStale e true)
  | [] => if blocking then none else some (engR s e Reg.engLastPop, noteStale e false s)

/-- A push, none where a blocking push must wait (R263). -/
def pushAction (e w : Nat) (blocking : Bool) (s : State) : Option State :=
  if rxfFull s e then (if blocking then none else some (noteStale e false s))
  else some (noteStale e true (pushRxf e w s))

/-- A popped word into SR, BITS 0. -/
def loadSr (e : Nat) (r : Option (Nat × State)) : Option State :=
  r.map fun (w, u) => u |> setEngR e Reg.engSr w |> setEngR e Reg.engCntBits 0

/-- A popped word into CNT. -/
def loadCnt (e : Nat) (r : Option (Nat × State)) : Option State := r.map fun (w, u) => setEngR e Reg.engCntValue w u

/-- One bit of LINK_OUT set. -/
def setLink (e k : Nat) (b : Bool) (s : State) : State :=
  let v := engR s e Reg.engFifoStatusLinkOut
  setEngR e Reg.engFifoStatusLinkOut (if b then v ||| 2 ^ k else v &&& (2 ^ k ^^^ 3)) s

/-- An action (R262): the state after it, none where it stalls; reserved codes act as NOP. -/
def engAction (e code : Nat) (s : State) : Option State :=
  let cnt := engR s e Reg.engCntValue
  match code with
  | 0x01 => some (shiftOnce e (shiftInBit s e) s)
  | 0x02 => some (shiftOnce e false s)
  | 0x03 => some (shiftOnce e (shiftInBit s e) s)
  | 0x04 => loadSr e (popAction e true s)
  | 0x05 => loadSr e (popAction e false s)
  | 0x06 => pushAction e (engR s e Reg.engSr % 2 ^ shiftLen s e) true s
  | 0x07 => pushAction e (engR s e Reg.engSr % 2 ^ shiftLen s e) false s
  | 0x08 => loadCnt e (popAction e true s)
  | 0x09 => loadCnt e (popAction e false s)
  | 0x0A => pushAction e cnt true s
  | 0x0B => pushAction e cnt false s
  | 0x0C => some (setEngR e Reg.engCntValue (engR s e Reg.engCntReload) s)
  | 0x0D => some (setEngR e Reg.engCntValue (cnt + 0xFFFF) s)
  | 0x0E => some (setEngR e Reg.engCntValue (cnt + 1) s)
  | 0x0F => some (setEngR e Reg.engCntValue 0 s)
  | 0x10 => some (s |> setEngR e Reg.engTmoValue (engR s e Reg.engTmoReload) |> setEngFlag e Reg.engTmoRunning true
                    |> setEngFlag e Reg.engTmoDelayDone false)
  | 0x11 => some (s |> setEngFlag e Reg.engTmoRunning false |> setEngFlag e Reg.engTmoDelayDone false)
  | 0x12 => some (setLink e 0 true s)
  | 0x13 => some (setLink e 0 false s)
  | 0x14 => some (setLink e 1 true s)
  | 0x15 => some (setLink e 1 false s)
  | 0x16 => some (setEngFlag e Reg.engFifoStatusStale false s)
  | 0x17 => some (s |> setEngR e Reg.engSr 0 |> setEngR e Reg.engCntBits 0)
  | 0x18 => some (setEngR e Reg.engCntValue (engR s e Reg.engSr) s)
  | 0x19 => some (raiseEv (Page.eng e) Ev.engUser s)
  | _ => some s

/-- The drive state of the logical pins after an entry (R253): enables and values; `out` is the outgoing bit of a SHIFT or SHIFT_OUT with
OUT_EN 1, which drives OUT_PIN (R258). -/
def entryPins (w oe val : Nat) (outPin : Nat) (out : Option Bool) : Nat × Nat :=
  (List.range 4).foldl (fun (acc : Nat × Nat) i =>
    let now := (bit oe i, bit val i)
    let set := if entryHold w then now
      else if bit (entryOe w) i then (true, bit (entryVal w) i)
      else if bit (entryVal w) i then now else (false, false)
    let (o, v) := match out with
      | some b => if i = outPin then (true, b) else set
      | none => set
    (acc.1 + 2 ^ i * b2n o, acc.2 + 2 ^ i * b2n v)) (0, 0)

/-- The logical pins that an entry sets, where the others keep their present drive state (R253, R258). -/
def entrySets (w outPin : Nat) (out : Option Bool) : Nat :=
  (List.range 4).foldl (fun acc i =>
    let keeps := entryHold w || (!bit (entryOe w) i && bit (entryVal w) i)
    acc + 2 ^ i * b2n (!keeps || (out.isSome && i = outPin))) 0

/-- The outgoing bit that an entry drives, taken before its action (R258). -/
def entryOut (s : State) (e w : Nat) : Option Bool :=
  if engFlag s e Reg.engShiftCfgOutEn && (entryAction w = 1 || entryAction w = 2) then some (shiftOutBit s e) else none

/-- A SAFE swap that is due after an entry (R268); a CYCLE swap acts as SAFE without an active Staircase (R269). -/
def safeSwap (e : Nat) (s : State) : State :=
  match (engOf s e).swap with
  | some (0, r) => takeSwap e r s
  | some (1, r) => if staircaseActive s then s else takeSwap e r s
  | _ => s

/-- An entry whose action completed is applied (R254 step 6 and 7). -/
def applyEntry (e w : Nat) (out : Option Bool) (s : State) : State :=
  let outPin := engR s e Reg.engShiftCfgOutPin
  let (oe, val) := entryPins w (engR s e Reg.engStatusPinOe) (engR s e Reg.engStatusPinVal) outPin out
  s |> dropRetained e
    |> setEngR e Reg.engStatusPinOe oe |> setEngR e Reg.engStatusPinVal val
    |> setEngR e Reg.engStatusState (entryNext w) |> setEngFlag e Reg.engStatusInSafe (entrySafe w)
    |> (fun u => setEng e { engOf u e with delay := entryDelay w, pinsSet := (engOf u e).pinsSet ||| entrySets w outPin out } u)
    |> whenS (entrySafe w) (safeSwap e)
    |> syncTile (tileOf e)

/-- An entry is tried: applied, or retained with the engine stalled (R254 step 5, R256). -/
def tryEntry (e w : Nat) (s : State) : State :=
  let out := entryOut s e w
  match engAction e (entryAction w) s with
  | some u => applyEntry e w out u
  | none => s |> setEngFlag e Reg.engStatusStalled true |> incCnt (Page.eng e) Reg.engStallCnt
              |> (fun u => setEng e { engOf u e with retained := some w } u)

/-- What a running engine does in an engine tick (R254). -/
def engineEval (e : Nat) (s : State) : State :=
  if !engTicks s e then s
  else
    let s1 := s |> timerTick e |> sampleFilters e
    let v := engOf s1 e
    let force := match v.swap with
      | some (2, _) => true
      | _ => false
    if force then forceTick e s1
    else if v.delay ≠ 0 then setEng e { v with delay := v.delay - 1 } s1
    else
      match v.retained with
      | some w => tryEntry e w s1
      | none => let (w, s2) := selectEntry e s1
                tryEntry e w s2

/-- An engine tick of a running engine, counted by its divider (R248, R254). -/
def engineTick (e : Nat) (s : State) : State := engineEval e (whenS (engTicks s e) (dividerAtTick e) s)

/-- An engine starts (R265). -/
def startEngine (e : Nat) (s : State) : State :=
  s |> clearEngine e |> dropRetained e |> setEngR e Reg.engLastPop 0 |> setEngFlag e Reg.engStatusInSafe true
    |> setEngFlag e Reg.engStatusRunning true |> startDivider e
    |> (fun u => setEng e { engOf u e with delay := 0, pinsSet := 0 } u)
    |> forEach (List.range 4) (fun i u => setFilter e i { level := logicalIn u e i, run := 0 } u)
    |> syncPinIn e |> syncTile (tileOf e)

/-- Whether a requested start waits for a cycle boundary (R249). -/
def startWaits (s : State) (e : Nat) : Bool := engFlag s e Reg.engCtrlAtBoundary && staircaseActive s

/-- A start that is due: RUN is 1 and the engine is not running; fenced engines and those in STANDBY do not start (R265, R437, R465). -/
def startDue (s : State) (e : Nat) : Bool :=
  engFlag s e Reg.engCtrlRun && !engRunning s e && !pageFenced s (Page.eng e) && !inStandby s

/-- A running engine stops (R266, R271); its link outputs show 0 (R261). -/
def haltEngine (e : Nat) (s : State) : State :=
  let s1 := s |> setEngFlag e Reg.engStatusRunning false |> setEngR e Reg.engFifoStatusLinkOut 0 |> dropRetained e
    |> (fun u => setEng e { engOf u e with delay := 0, pinsSet := 0 } u)
  let s2 := match (engOf s1 e).swap with
    | some _ => swapAtRest e s1
    | none => s1
  syncTile (tileOf e) s2

/-- A stop that is due: RUN is 0 while the engine runs (R266). -/
def stopDue (s : State) (e : Nat) : Bool := !engFlag s e Reg.engCtrlRun && engRunning s e

/-- The engines at a cycle boundary (R248, R249, R269): a CYCLE swap first, then a requested start or the new divider count. -/
def engineBoundary (e : Nat) (s : State) : State :=
  let s1 := match (engOf s e).swap with
    | some (1, r) =>
      if engTicks s e && staircaseActive s && engFlag s e Reg.engStatusInSafe then s |> dropRetained e |> takeSwap e r else s
    | _ => s
  if startDue s1 e && startWaits s1 e then startEngine e s1
  else if engTicks s1 e && engFlag s1 e Reg.engCtrlCycSync && staircaseActive s1 then engineEval e (startDivider e s1)
  else s1

/-- Whether the boundary at this base tick was an engine's start or its engine tick 0 (R249, R265): it has no other engine tick here. -/
def boundaryTook (before after : State) (e : Nat) : Bool :=
  engTicks after e && (!engRunning before e || (engFlag after e Reg.engCtrlCycSync && staircaseActive after))

/-- The base tick of an engine on an empty queue: a due stop or start, then the engine tick where the divider has reached it. -/
def engineBaseTick (e : Nat) (s : State) : State :=
  if stopDue s e then haltEngine e s
  else if startDue s e then (if startWaits s e then s else startEngine e s)
  else if engTicks s e then
    let (s1, due) := dividerTick e s
    if due then engineTick e s1 else s1
  else s

/-- The levels latched by a tile's synchroniser (R257). -/
def setPads (t v : Nat) (s : State) : State := setR (Page.tile t) Reg.tilePinIn (if bankOff s t then 0 else v) s

/-- ENGINE_TICK (R254): `pads` are the pad levels of the engine's tile latched two base ticks before. -/
def execEngineTick (e : Fin 128) (pads : BitVec 32) (s : State) : Answer :=
  alive s (latchLinks e (engineTick e (setPads (tileOf e) pads.toNat s)))

/-- FORCE_SWAP (R270): the engine tick after a FORCE request. -/
def execForceSwap (e : Fin 128) (s : State) : Answer :=
  match (engOf s e).swap with
  | some (2, _) => alive s (latchLinks e (engineTick e s))
  | _ => alive s s

/-- ENGINE_START (R265): the start after RUN went to 1; with AT_BOUNDARY it falls at the boundary that this command stands for (R249). -/
def execEngineStart (e : Fin 128) (s : State) : Answer := alive s (whenS (startDue s e) (fun u => latchLinks e (startEngine e u)) s)

/-- ENGINE_STOP (R266): the stop after RUN went to 0. -/
def execEngineStop (e : Fin 128) (s : State) : Answer := alive s (whenS (stopDue s e) (fun u => latchLinks e (haltEngine e u)) s)

/-- The trigger latch is set (R260). -/
def setTrigLatch (e : Nat) (s : State) : State := setEngFlag e Reg.engFifoStatusTrigLatch true s

/-- The tread latch is set (R260). -/
def setTreadLatch (e : Nat) (s : State) : State := setEngFlag e Reg.engFifoStatusTreadLatch true s

/-- CNT_CTRL.CLR of an ENG page. -/
def engCntClear (e : Nat) (s : State) : State :=
  clearAll (Page.eng e) [Reg.engStaleCnt, Reg.engStallCnt, Reg.engBindRefuseCnt, Reg.engHostFifoCnt] s

end Sys2Proof.Machine
end

