-- ==== Sys2Proof/Machine/Clock.lean ====
section
/-!
DEFINITION. Clock sources and the root (R357–R361) and the gating tree (R363–R366).
-/

namespace Sys2Proof.Machine

open Sys2Proof

/-! ### Sources and the root -/

/-- XTA is lost: the root moves to the fast oscillator (R360). -/
def xtaLost (s : State) : State :=
  s |> setFlag Page.clk Reg.clkStatusXtaOk false |> setFlag Page.clk Reg.clkStatusRootSrc true |> setLevel Page.clk Ev.clkXtaLost true

/-- XTA has run within ±200 ppm for 100 ms (R361). -/
def xtaOk (s : State) : State :=
  let was := flag s Page.clk Reg.clkStatusXtaOk
  s |> setFlag Page.clk Reg.clkStatusXtaOk true
    |> raiseIf (!was && flag s Page.clk Reg.clkStatusRootSrc) Page.clk Ev.clkXtaReturn

/-- XTA_SELECT (R361): none where it is refused. -/
def xtaSelect (s : State) : Option State :=
  if flag s Page.clk Reg.clkStatusXtaOk then
    some (s |> setFlag Page.clk Reg.clkStatusRootSrc false |> setLevel Page.clk Ev.clkXtaLost false)
  else none

/-- The fast oscillator is measured and its trim adjusted (R359): against XTA while it runs, else against gallery starts while a Staircase
is active, else not at all. -/
def foscTrim (trim err : Nat) (s : State) : State :=
  let lost := levelOn s Page.clk Ev.clkXtaLost && !flag s Page.clk Reg.clkStatusXtaOk
  if lost && !staircaseActive s then s
  else s |> setR Page.clk Reg.clkFoscTrim trim |> setR Page.clk Reg.clkFoscErr err |> setFlag Page.clk Reg.clkStatusTrimRef lost
         |> setFlag Page.clk Reg.clkStatusTrimValid true

/-- XTA_LOST (R360). -/
def execXtaLost (s : State) : Answer := alive s (xtaLost s)

/-- XTA_OK (R361). -/
def execXtaOk (s : State) : Answer := alive s (xtaOk s)

/-- FOSC_TRIM (R359): the trim code and the measured error in ppm. -/
def execFoscTrim (trim : BitVec 10) (err : BitVec 16) (s : State) : Answer := alive s (foscTrim trim.toNat err.toNat s)

/-- MAIN_PLL_UNLOCK (R384). -/
def execMainPllUnlock (s : State) : Answer :=
  alive s (s |> setFlag Page.clk Reg.clkStatusPllLock false |> setLevel Page.clk Ev.clkPllUnlock true)

/-- MAIN_PLL_LOCK (R384). -/
def execMainPllLock (s : State) : Answer :=
  alive s (s |> setFlag Page.clk Reg.clkStatusPllLock true |> setLevel Page.clk Ev.clkPllUnlock false)

/-! ### Gates (R363–R366) -/

/-- Where a gate's state stands: the register and bit of a target code; none for a code that is not in the tree. -/
def gateBit (code : Nat) : Option (Fld × Nat) :=
  if 1 ≤ code ∧ code ≤ 6 then some (Reg.clkDomainOn, code - 1)
  else if 0x20 ≤ code ∧ code ≤ 0x2F then some (Reg.clkTileOn, code - 0x20)
  else if 0x30 ≤ code ∧ code ≤ 0xAF then some (Reg.clkEngOn ((code - 0x30) / 32), (code - 0x30) % 32)
  else if 0xB0 ≤ code ∧ code ≤ 0xBF then some (Reg.clkCanOn, code - 0xB0)
  else none

/-- Whether a gate is ON; a code without a gate counts as ON. -/
def gateOn (s : State) (code : Nat) : Bool :=
  match gateBit code with
  | some (f, b) => bit (getR s Page.clk f) b
  | none => true

/-- A gate set. -/
def setGate (code : Nat) (on : Bool) (s : State) : State :=
  match gateBit code with
  | some (f, b) => setR Page.clk f (if on then getR s Page.clk f ||| 2 ^ b else getR s Page.clk f &&& (2 ^ b ^^^ 0xFFFFFFFF)) s
  | none => s

/-- The parent gate; none for a child of the root (Gating tree table). -/
def gateParent (code : Nat) : Option Nat :=
  if code = 4 ∨ code = 5 ∨ code = 6 then some 1
  else if 0x20 ≤ code ∧ code ≤ 0x2F then some 2
  else if 0x30 ≤ code ∧ code ≤ 0xAF then some (0x20 + (code - 0x30) / 8)
  else if 0xB0 ≤ code ∧ code ≤ 0xBF then some 3
  else none

/-- Whether some child of a gate is ON. -/
def gateChildOn (s : State) (code : Nat) : Bool := (List.range 256).any fun c => gateParent c = some code && gateOn s c

/-- The page whose block a gate code clocks (R366). -/
def pageGate (page : Nat) : Option Nat :=
  match kindOf page with
  | .tile | .eng | .can => some page
  | .cab | .mirror | .bridge => some 5
  | .key => some 6
  | _ => none

/-- Whether a page's block is gated (R366). -/
def pageGated (s : State) (page : Nat) : Bool :=
  match pageGate page with
  | some g => !gateOn s g
  | none => false

def gateOk : Nat := 0
def gateChildErr : Nat := 1
def gateBusyErr : Nat := 2
def gateParentErr : Nat := 3
def gateActiveErr : Nat := 4
def gateNone : Nat := 5
def gateDenied : Nat := 6
def gatePendingErr : Nat := 7

/-- Master class NEWEL (R396). -/
def classNewel : Nat := 1

/-- Why a gate request is refused (R364, R365), in the order the rules list the cases. -/
def gateRefusal (s : State) (cls target : Nat) (on : Bool) : Option Nat :=
  if (gateBit target).isNone then some gateNone
  else if on then
    match gateParent target with
    | some p => if gateOn s p then none else some gateParentErr
    | none => none
  else if gateChildOn s target then some gateChildErr
  else if (kindOf target = .eng ∧ engFlag s (target - 0x30) Reg.engCtrlRun) ∨ (kindOf target = .can ∧ canMode s (target - 0xB0) ≠ canConfig) then
    some gateActiveErr
  else if cls = classNewel ∧ (target = 1 ∨ target = 4) then some gateDenied
  else none

/-- A refused gate request. -/
def refuseGate (code : Nat) (s : State) : State := s |> setR Page.clk Reg.clkGateStatusResult code |> raiseEv Page.clk Ev.clkGateRefused

/-- A write to GATE_CMD (R364, R365): OP 1 OFF, 2 ON; ignored with PENDING while a change is running. -/
def gateCommand (cls target op : Nat) (s : State) : State :=
  if op ≠ 1 ∧ op ≠ 2 then s
  else if flag s Page.clk Reg.clkGateStatusBusy then refuseGate gatePendingErr s
  else
    let s1 := setR Page.clk Reg.clkGateStatusTarget target s
    match gateRefusal s1 cls target (op = 2) with
    | some code => refuseGate code s1
    | none => setFlag Page.clk Reg.clkGateStatusBusy true { s1 with gov := { s1.gov with gate := some (target, op = 2) } }

/-- The pending gate change completes (R364, R365). -/
def gateDone (s : State) : State :=
  match s.gov.gate with
  | none => s
  | some (target, on) =>
    { s with gov := { s.gov with gate := none } }
    |> setGate target on |> setFlag Page.clk Reg.clkGateStatusBusy false |> setR Page.clk Reg.clkGateStatusResult gateOk
    |> raiseEv Page.clk Ev.clkGateDone

/-- The target of a pending OFF is not idle after 10 µs (R364). -/
def gateStillBusy (s : State) : State :=
  match s.gov.gate with
  | some (_, false) =>
    { s with gov := { s.gov with gate := none } } |> setFlag Page.clk Reg.clkGateStatusBusy false |> refuseGate gateBusyErr
  | _ => s

end Sys2Proof.Machine
end

