-- ==== Sys2Proof/Machine/Gov.lean ====
section
/-!
DEFINITION. Operating points and the sequencer (R367–R370), the local governor (R371–R376), the status record (R377) and the master's choice
of flights (R379–R383).
-/

namespace Sys2Proof.Machine

open Sys2Proof

/-! ### Sequencer -/

/-- The current operating point. -/
def opNow (s : State) : Nat := getR s Page.gov Reg.govStatusOp

/-- Whether a change is running. -/
def seqBusy (s : State) : Bool := flag s Page.gov Reg.govStatusSeqBusy

/-- A change begins (R368): a raise waits for power-good before the divider changes, a lowering changes the divider first. -/
def beginOp (target : Nat) (s : State) : State :=
  if target = opNow s then s
  else
    let up := decide (target < opNow s)
    { s with gov := { s.gov with raising := up } }
    |> setR Page.gov Reg.govStatusOpTarget target |> setFlag Page.gov Reg.govStatusSeqBusy true
    |> whenS (!up) (setR Page.gov Reg.govStatusOp target)

/-- A request of an operating point (R370). A forced OP3 ends a raise that waits for power-good. -/
def requestOp (target : Nat) (forced : Bool) (s : State) : State :=
  if !seqBusy s then beginOp target s
  else if forced && s.gov.raising then
    { s with gov := { s.gov with raising := false, waiting := none } }
    |> setR Page.gov Reg.govStatusOp 3 |> setR Page.gov Reg.govStatusOpTarget 3
  else { s with gov := { s.gov with waiting := some target } }

/-- The latest waiting target is taken (R370). -/
def nextOp (s : State) : State :=
  match s.gov.waiting with
  | some t => beginOp t { s with gov := { s.gov with waiting := none } }
  | none => s

/-- Power-good arrives (R368): a raise changes the divider, and the change completes. -/
def powerGood (s : State) : State :=
  if !seqBusy s then s
  else
    { s with gov := { s.gov with raising := false, lastChange := s.time.tb2 } }
    |> setR Page.gov Reg.govStatusOp (getR s Page.gov Reg.govStatusOpTarget) |> setFlag Page.gov Reg.govStatusSeqBusy false
    |> incCnt Page.gov Reg.govOpCnt |> raiseEv Page.gov Ev.govOpChange |> nextOp

/-- No power-good 100 µs into a raise (R369): it is abandoned, and no raise is requested for 1 s. -/
def vrailFail (s : State) : State :=
  if seqBusy s && s.gov.raising then
    { s with gov := { s.gov with raising := false, noRaise := s.time.tb2 + 1000000000 } }
    |> setR Page.gov Reg.govStatusOpTarget (opNow s) |> setFlag Page.gov Reg.govStatusSeqBusy false
    |> raiseEv Page.gov Ev.govVrailFail |> nextOp
  else s

/-- POWER_GOOD (R368). -/
def execPowerGood (s : State) : Answer := alive s (powerGood s)

/-- VRAIL_FAIL (R369). -/
def execVrailFail (s : State) : Answer := alive s (vrailFail s)

/-! ### Limits and headroom (R371, R372) -/

def govSigned8 (s : State) (f : Fld) : Int := sgn 8 (getR s Page.gov f)

/-- DOWN_THR. -/
def downThr (s : State) : Int := govSigned8 s Reg.govThrDownThr

/-- UP_THR; not above DOWN_THR it acts as DOWN_THR + 1. -/
def upThr (s : State) : Int := max (govSigned8 s Reg.govThrUpThr) (downThr s + 1)

/-- T_LIMIT in °C, 60 to 120. -/
def tLimit (s : State) : Nat := max 60 (min 120 (getR s Page.gov Reg.govTCfgTLimit))

/-- T_MAX in 0.25 °C. -/
def tMax (s : State) : Int := sgn 16 (getR s Page.gov Reg.govTempMaxTMax)

/-- A headroom term ⌊100 × n / d⌋ limited to −128 to +127; open where d is 0. -/
def headTerm (n : Int) (d free : Nat) : Int := clampI (-128) 127 (if d = 0 then sgn 8 free else 100 * n / (d : Int))

/-- The three terms of R372 for a module power of pMod and a card power of pCard; `free` stands where a limit is 0. -/
def headP (s : State) (free : Nat) (pMod : Int) : Int := headTerm ((getR s Page.gov Reg.govPLimit : Int) - pMod) (getR s Page.gov Reg.govPLimit) free
def headC (s : State) (free pCard : Nat) : Int :=
  headTerm ((getR s Page.gov Reg.govCardLimit : Int) - pCard) (getR s Page.gov Reg.govCardLimit) free
def headT (s : State) : Int := headTerm (4 * (tLimit s : Int) - tMax s) (4 * max 1 (getR s Page.gov Reg.govTCfgTSpan)) 0

/-- Whether a sensor reading is valid (R371). -/
def sensorValid (r : BitVec 16 × Bool) : Bool := r.2 && decide (-220 ≤ sgn 16 r.1.toNat ∧ sgn 16 r.1.toNat ≤ 600)

/-- The sensors are taken (R371): TEMPi, SENSOR_FAIL, TEMP_MAX; with no valid sensor T_MAX is T_LIMIT. -/
def takeSensors (temps : List (BitVec 16 × Bool)) (s : State) : State :=
  let pg := Page.gov
  let at_ (i : Nat) : BitVec 16 × Bool := temps.getD i (0, false)
  let valid := (List.range 9).filter fun i => sensorValid (at_ i)
  let best := valid.foldl (fun (b : Option Nat) i => match b with
    | some j => if sgn 16 (at_ j).1.toNat < sgn 16 (at_ i).1.toNat then some i else some j
    | none => some i) none
  let s1 := forEach (List.range 9) (fun i u =>
    u |> setR pg (Reg.govTempValue i) (at_ i).1.toNat |> setFlag pg (Reg.govTempValid i) (sensorValid (at_ i))) s
  let s2 := setLevel pg Ev.govSensorFail (decide (valid.length < 9)) s1
  match best with
  | some i => s2 |> setR pg Reg.govTempMaxTMax (at_ i).1.toNat |> setR pg Reg.govTempMaxSensor i
  | none => s2 |> setR pg Reg.govTempMaxTMax (4 * tLimit s2) |> setR pg Reg.govTempMaxSensor 0

/-- The ceiling (R373): OP_MAX of the current flight, or OP0 without an active Staircase. -/
def opCeiling (s : State) : Nat := if staircaseActive s then flightOpMax s.stair.active (nodeId s) (curFlight s) % 4 else 0

/-- BOW stands (R352). -/
def bowStands (s : State) : Bool := flag s Page.brk Reg.brkSupplyStatusBow

/-- A packet held in one of queues 0x010–0x01F throughout the last 1 ms (R374). -/
def backlog (s : State) : Bool :=
  (List.range 16).any fun i => match (queueOf s (0x10 + i)).pkts.head? with
    | some p => decide (1000000 ≤ timeDiff32 (tb2Lo s) (p.word / 2 ^ 32))
    | none => false
where timeDiff32 (a b : Nat) : Nat := (a + 2 ^ 32 - b % 2 ^ 32) % 2 ^ 32

/-- POLICY, with 3 acting as 0. -/
def govPolicy (s : State) : Nat := let p := getR s Page.gov Reg.govCfgPolicy; if p = 3 then 0 else p

/-- T_MAX against T_LIMIT less k guards, in 0.25 °C. -/
def guardLine (s : State) (k : Nat) : Int := 4 * ((tLimit s : Int) - (k * getR s Page.gov Reg.govTCfgTGuard : Nat))

/-- DECLARED_PWR of a flight. -/
def declaredPower (s : State) (f : Nat) : Nat := flightDeclared s.stair.active (nodeId s) f

/-- The point that a decision asks for (R373–R375). -/
def decidePoint (s : State) (hP : Int) (cur : Nat) : Nat :=
  let hMin := min hP (headT s)
  let ceil := opCeiling s
  let load := getR s Page.gov Reg.govCoreLoad
  let settled := decide (s.gov.lastChange + 10000000 ≤ s.time.tb2) && decide (s.gov.noRaise ≤ s.time.tb2)
  let (down, up) := match govPolicy s with
    | 1 => (decide (guardLine s 1 ≤ tMax s ∨ hP < 0), decide (tMax s ≤ guardLine s 2 ∧ upThr s ≤ hP))
    | 2 => (decide (10 ≤ s.gov.lowLoad ∨ hMin < 0), decide (75 ≤ load ∧ 0 ≤ hMin))
    | _ => (decide (hMin < 0), decide (upThr s ≤ hMin))
  if flag s Page.gov Reg.govCfgFixEn then
    let want := max (getR s Page.gov Reg.govCfgFixOp) ceil
    if want < cur && decide (s.time.tb2 < s.gov.noRaise) then cur else want
  else if cur < ceil then ceil
  else if down then min 3 (cur + 1)
  else if up && settled && decide (ceil < cur) then cur - 1
  else cur

/-- REQ of the status record: LEANEST while BOW stands, else DOWN as the policy gives (R374). -/
def requestNow (s : State) : Nat :=
  if bowStands s then 2 else match govPolicy s with
    | 1 => if guardLine s 1 ≤ tMax s then 1 else 0
    | 2 => if 100 ≤ s.gov.lowReq then 1 else 0
    | _ => 0

/-- BOW has cleared: its request of the leanest flight is withdrawn (R354). -/
def withdrawLeanest (s : State) : State := setR Page.gov Reg.govStatusReq (requestNow s) s

/-- REQ and UP_OK of the status record (R374). -/
def decideReq (s : State) (hP' hC : Int) : Nat × Bool :=
  let h' := min hP' (min hC (headT s))
  let f := curFlight s
  let ok := match govPolicy s with
    | 1 => decide (upThr s ≤ h' ∧ tMax s ≤ guardLine s 2)
    | 2 => decide (upThr s ≤ h') && backlog s
    | _ => decide (upThr s ≤ h')
  (requestNow s, ok && f ≠ 0 && staircaseActive s)

/-- FORCED_OP3 follows BOW and OVERTEMP (R373). -/
def forcing (s : State) : Bool := bowStands s || levelOn s Page.gov Ev.govOvertemp

/-- The operating point that stands requested: the waiting target, else that of the running change, else the current one (R370). -/
def pointAsked (s : State) : Nat := s.gov.waiting.getD (if seqBusy s then getR s Page.gov Reg.govStatusOpTarget else opNow s)

/-- OP3 is forced, or the forcing ends (R373). -/
def syncForced (s : State) : State :=
  let f := forcing s
  s |> setLevel Page.gov Ev.govForcedOp3 f |> setFlag Page.gov Reg.govStatusForced f
    |> whenS (f && !pageFenced s Page.gov && (pointAsked s ≠ 3 || s.gov.raising)) (requestOp 3 true)

/-- The measurements of a decision stored (R371). -/
def takeSense (m : Sense) (s : State) : State :=
  s |> setR Page.brk Reg.brkPInModule m.pMod.toNat |> setR Page.brk Reg.brkPInCard m.pCard.toNat
    |> setR Page.gov Reg.govCoreLoad m.load.val |> takeSensors m.temps

/-- Whether a headroom has no value: its limit is 0 (a free value). -/
def limitZero (s : State) : Bool := getR s Page.gov Reg.govPLimit = 0 || getR s Page.gov Reg.govCardLimit = 0

/-- OVERTEMP with its 5 °C of hysteresis (R373). -/
def syncOvertemp (s : State) : State :=
  let limit : Int := if levelOn s Page.gov Ev.govOvertemp then (tLimit s : Int) - 5 else (tLimit s : Int)
  setLevel Page.gov Ev.govOvertemp (decide (4 * limit ≤ tMax s)) s

/-- The counts of decisions with a low load, of those that allow a lower request, and of those over the declared power (R374, R375). -/
def countDecision (m : Sense) (s : State) : State :=
  let g := s.gov
  let low := decide (m.load.val < 30)
  { s with gov := { g with
    lowLoad := if low then g.lowLoad + 1 else 0
    lowReq := if low && opNow s = 3 && !backlog s then g.lowReq + 1 else 0
    overRun := if staircaseActive s && decide (declaredPower s (curFlight s) < m.pMod.toNat) then g.overRun + 1 else 0 } }

/-- The headroom h_P' predicted for the next fuller flight (R374). -/
def headAbove (m : Sense) (free : Nat) (s : State) : Int :=
  let f := curFlight s
  headP s free ((m.pMod.toNat : Int) + ((declaredPower s (f - 1) : Int) - (declaredPower s f : Nat)))

/-- STATUS and the levels of the GOV page after the measurements (R372–R375); HEADROOM is −128 while the page is fenced. -/
def showDecision (m : Sense) (free : Nat) (s : State) : State :=
  let hC := headC s (free / 2 ^ 8) m.pCard.toNat
  let h := min (headP s free (m.pMod.toNat : Int)) (min hC (headT s))
  let (req, ok) := decideReq s (headAbove m (free / 2 ^ 16) s) hC
  s |> setR Page.gov Reg.govStatusHeadroom (if pageFenced s Page.gov then 0x80 else unsgn 8 h)
    |> setLevel Page.gov Ev.govHeadroomLow (decide (h < downThr s)) |> setLevel Page.gov Ev.govPowerOver (decide (100 ≤ s.gov.overRun))
    |> setR Page.gov Reg.govStatusReq req |> setFlag Page.gov Reg.govStatusUpOk ok |> setR Page.gov Reg.govStatusOpCeil (opCeiling s) |> syncForced

/-- The operating point the policy wants is requested (R374); not while the page is fenced or OP3 is forced, nor before boot has started Newel. -/
def chooseOp (m : Sense) (free : Nat) (s : State) : State :=
  if pageFenced s Page.gov || forcing s || s.boot.booting.isSome then s
  else
    let cur := pointAsked s
    let want := decidePoint s (headP s free (m.pMod.toNat : Int)) cur
    if want = cur then s else requestOp want false s

/-- The 1 ms decision of the governor (R371–R375). While the page is fenced the core keeps its point. -/
def governorDecision (m : Sense) (s : State) : State :=
  let s0 := takeSense m s
  let (free, s1) := freeIf (limitZero s0) s0
  s1 |> syncOvertemp |> countDecision m |> showDecision m free |> chooseOp m free

/-- GOVERNOR_DECISION (R374). -/
def execGovernorDecision (sense : Sense) (s : State) : Answer := alive s (governorDecision sense s)

/-- The governor's check of a branch with EXPECT in 10 mA (R376). -/
def admissionAllowed (s : State) (expect : Nat) : Bool :=
  decide (getR s Page.brk Reg.brkPInCard * 10000 + getR s Page.brk Reg.brkSupplyVin * expect ≤ getR s Page.gov Reg.govCardLimit * 10000) &&
    decide (0 ≤ headT s) && !levelOn s Page.gov Ev.govOvertemp && !pageFenced s Page.gov &&
    (govPolicy s ≠ 1 || decide (tMax s ≤ guardLine s 1))

/-- CNT_CTRL.CLR of the GOV page. -/
def govCntClear (s : State) : State := clearAll Page.gov [Reg.govOpCnt, Reg.govAdmitDenyCnt] s

/-! ### Status record (R377) -/

/-- The first 16 bytes of this hub's status record of cycle c, with half of a time report. -/
def statusRecord (s : State) (c : Nat) (half : List Byte) : List Byte :=
  let g (f : Fld) := getR s Page.gov f
  let b3 := g Reg.govStatusReq + 4 * g Reg.govStatusUpOk + 8 * (c % 2) + 16 * g Reg.govStatusOp + 64 * b2n (levelOn s Page.gov Ev.govPowerOver)
    + 128 * b2n (levelOn s Page.gov Ev.govOvertemp)
  leBytes 1 1 ++ leBytes 1 (nodeId s) ++ leBytes 1 (if pageFenced s Page.gov then 0x80 else g Reg.govStatusHeadroom) ++ leBytes 1 b3 ++ half

/-- A status record with KIND 0x01 has committed (R380). -/
def noteStatusRecord (bs : List Byte) (s : State) : State :=
  let b (i : Nat) : Nat := (bs.getD i 0).toNat
  if b 0 ≠ 1 then s
  else
    let r : StatusRec := { headroom := sgn 8 (b 2), req := b 3 % 4, upOk := bit (b 3) 2, committed := cycleNow s }
    { s with gov := { s.gov with records := storePut (b 1) r s.gov.records } }

/-! ### Flight selection (R379–R383) -/

/-- The records counted at a boundary: of member nodes and of this hub, committed within the last 4 cycles (R380). -/
def countedRecords (s : State) (c : Nat) (member : Nat → Bool) : List (Nat × StatusRec) :=
  s.gov.records.filter fun e => (member e.1 || e.1 = nodeId s) && decide (c ≤ e.2.committed + 4)

/-- The node with the least HEADROOM, the lowest such, and its value. -/
def worstOf (rs : List (Nat × StatusRec)) : Option (Nat × Int) :=
  rs.foldl (fun b e => match b with
    | some (n, h) => if e.2.headroom < h then some (e.1, e.2.headroom) else some (n, h)
    | none => some (e.1, e.2.headroom)) none

/-- WORST is shown (R380). -/
def showWorst (rs : List (Nat × StatusRec)) (s : State) : State :=
  let pg := Page.gov
  match worstOf rs with
  | some (n, h) => s |> setR pg Reg.govWorst (unsgn 8 h) |> setR pg Reg.govWorstNode n |> setFlag pg Reg.govWorstValid true
      |> setR pg Reg.govWorstCount (min 255 rs.length)
  | none => s |> setFlag pg Reg.govWorstValid false |> setR pg Reg.govWorstCount 0

/-- DWELL; below 16 it acts as 16. -/
def dwell (s : State) : Nat := max 16 (getR s Page.gov Reg.govThrDwell)

/-- A flight is decided at the boundary of cycle c (R380, R381). -/
def decideFlight (c f loop : Nat) (up : Bool) (s : State) : State :=
  let ann := c + c % 2
  let n := max (flightLead s.stair.active f) (max (2 * loop + 2) (getR s Page.gov Reg.govLeadMin))
  { s with gov := { s.gov with noDwell := false } }
  |> recordAnnouncement f (ann + n) ann |> setR Page.gov Reg.govDecideFlight f |> setFlag Page.gov Reg.govDecideUp up
  |> raiseEv Page.gov Ev.govFlightDecided

/-- A recorded step up is withdrawn with the null announcement (R382). -/
def withdrawStepUp (s : State) : State :=
  syncAnnounced { s with stair := { s.stair with announced := none, annGal := cycleNow s }, gov := { s.gov with noDwell := true } }

/-- The master's decision at the boundary of cycle c (R379–R382). -/
def flightDecision (c loop : Nat) (member : Nat → Bool) (s : State) : State :=
  let rs := countedRecords s c member
  let s1 := showWorst rs s
  let f := curFlight s1
  match worstOf rs with
  | none => s1
  | some (_, worst) =>
    let down := decide (worst < downThr s1) || rs.any fun e => e.2.req ≠ 0
    let up := decide (upThr s1 ≤ worst) && rs.all fun e => e.2.upOk && e.2.req = 0
    match s1.stair.announced with
    | some (g, _, _) => if g < f && down then withdrawStepUp s1 else s1
    | none =>
      if !(s1.gov.noDwell || decide (s1.gov.flightAt + dwell s1 ≤ c)) then s1
      else if down && decide (f + 1 < imgFlights s1.stair.active) then decideFlight c (f + 1) loop false s1
      else if up && decide (0 < f) then decideFlight c (f - 1) loop true s1
      else s1

/-- DECIDE shows the cycles since the current flight took effect. -/
def showSince (c : Nat) (s : State) : State := setR Page.gov Reg.govDecideSince (min (2 ^ 24 - 1) (c - s.gov.flightAt)) s

/-- A flight takes effect (R383): the ceiling, and a hub above it lowers at once. -/
def applyCeiling (s : State) : State :=
  let ceil := opCeiling s
  let s1 := setR Page.gov Reg.govStatusOpCeil ceil s
  if pointAsked s1 < ceil ∧ !pageFenced s1 Page.gov then requestOp ceil false s1 else s1

end Sys2Proof.Machine
end

