-- ==== Sys2Proof/Machine/Brk.lean ====
section
/-!
DEFINITION. Power entry, breakers and hold-up (R330–R356): channel states, trips, curves, staging, shedding and restoration, trip records.
-/

namespace Sys2Proof.Machine

open Sys2Proof

/-! ### Channel states and causes (R340) -/

def chOff : Nat := 0
def chQueued : Nat := 1
def chRamp : Nat := 2
def chOn : Nat := 3
def chWait : Nat := 4
def chLockout : Nat := 5
def chShed : Nat := 6

def causeFast : Nat := 1
def causeRampFast : Nat := 2
def causeSoa : Nat := 3
def causeCurve : Nat := 4
def causeRampTimeout : Nat := 5
def causeEntryLost : Nat := 6
def causeFlight : Nat := 7
def causeShedBow : Nat := 8
def causeOffCmd : Nat := 9
def causeVrst : Nat := 10

/-- STATE of a channel. -/
def chState (s : State) (ch : Nat) : Nat := getR s Page.brk (Reg.brkChStatusState ch)
/-- REQ of a channel. -/
def chReq (s : State) (ch : Nat) : Bool := flag s Page.brk (Reg.brkChStatusReq ch)
/-- The gate is up: RAMP or ON. -/
def chUp (s : State) (ch : Nat) : Bool := chState s ch = chRamp || chState s ch = chOn

def setReq (ch : Nat) (b : Bool) (s : State) : State := setFlag Page.brk (Reg.brkChStatusReq ch) b s
def setCause (ch c : Nat) (s : State) : State := setR Page.brk (Reg.brkChStatusCause ch) c s

/-- The nine channels. -/
def channels : List Nat := List.range 9
/-- The branch channels. -/
def branches : List Nat := (List.range 8).map fun b => b + 1

/-- QUEUE and the LOCKOUT level follow the channels; RESTORED is raised when the last branch being restored has reached ON or left the queue
(R354, R356). -/
def syncBrk (s : State) : State :=
  let pg := Page.brk
  let map (st : Nat) : Nat := branches.foldl (fun m ch => if chState s ch = st then m + 2 ^ (ch - 1) else m) 0
  let left := s.brk.restore.filter fun ch => chState s ch = chQueued || chState s ch = chRamp
  let done := !s.brk.restore.isEmpty && left.isEmpty
  { s with brk := { s.brk with
      queue := s.brk.queue.filter fun ch => chState s ch = chQueued
      shed := s.brk.shed.filter fun ch => chState s ch = chShed
      restore := left } }
  |> setR pg Reg.brkQueueQueued (map chQueued) |> setR pg Reg.brkQueueShed (map chShed)
  |> setR pg Reg.brkQueueRamp ((channels.find? fun ch => chState s ch = chRamp).getD 0xF)
  |> setLevel pg Ev.brkLockout (channels.any fun ch => chState s ch = chLockout)
  |> setFlag pg Reg.brkSupplyStatusRestoring (!left.isEmpty) |> raiseIf done pg Ev.brkRestored

/-- STATE set, the gate with it. -/
def setChState (ch st : Nat) (s : State) : State :=
  s |> setR Page.brk (Reg.brkChStatusState ch) st |> setFlag Page.brk (Reg.brkChStatusGate ch) (st = chRamp || st = chOn)

/-- A branch enters the admission queue at its tail (R346). -/
def enqueueBranch (ch : Nat) (s : State) : State :=
  setChState ch chQueued { s with brk := { s.brk with queue := (s.brk.queue.filter fun x => x ≠ ch) ++ [ch] } }

/-- A channel enters RAMP (R338). -/
def beginRamp (ch : Nat) (s : State) : State :=
  setChState ch chRamp { s with brk := { s.brk with rampAt := storePut ch s.time.tb2 s.brk.rampAt } }

/-- ENTRY left ON or RAMP: every branch in RAMP or ON is queued with CAUSE ENTRY_LOST (R345). -/
def entryLost (s : State) : State :=
  forEach (branches.filter fun ch => chUp s ch) (fun ch u => u |> enqueueBranch ch |> setCause ch causeEntryLost) s

/-- A channel leaves RAMP or ON for a state with its gate down. -/
def lowerGate (ch st : Nat) (s : State) : State :=
  let was := chUp s ch
  s |> setChState ch st |> whenS (ch = 0 && was) entryLost

/-! ### Trips (R342–R344, R350) -/

/-- The record that Mitre is to write of a channel (R350). -/
def tripRecord (s : State) (ch : Nat) (uncleared : Bool) : TripRecord :=
  let g (f : Nat → Fld) := getR s Page.brk (f ch)
  { cause := g Reg.brkChStatusCause, attempts := g Reg.brkChStatusAttempts, lastD := g Reg.brkChTimerLastD
    lock := g Reg.brkChStatusLock ≠ 0, tb2 := s.time.tb2, tb1Sec := s.time.tb1Sec, tb1Ns := s.time.tb1Ns, uncleared := uncleared }

/-- A record waits to be written to flash. -/
def queueRecord (ch : Nat) (uncleared : Bool) (s : State) : State :=
  { s with brk := { s.brk with toWrite := s.brk.toWrite ++ [(ch, tripRecord s ch uncleared)] } }

/-- Whether the power die runs its ROM defaults (R474, R475): in safe mode. -/
def romDefaults (s : State) : Bool := flag s Page.upd Reg.updStatusSafeMode

/-- RETRIES of a channel: 3 under the ROM defaults. -/
def retriesOf (s : State) (ch : Nat) : Nat := if romDefaults s then 3 else getR s Page.brk (Reg.brkChCfgRetries ch)

/-- Whether breakpoint k of a channel's curve is enabled (R334): the ROM defaults give ENTRY breakpoints 0 and 1 (R475). -/
def pointEnabled (s : State) (ch k : Nat) : Bool :=
  if romDefaults s then ch = 0 && decide (k < 2) else storeGet 0 s.brk.curves (16 * ch + 2 * k) ≠ 0

/-- OFF_MIN in ms; 0 acts as 1 (R343); 10.0 s under the ROM defaults (R475). -/
def offMinMs (s : State) (ch : Nat) : Nat := if romDefaults s then 10000 else 100 * max 1 (getR s Page.brk (Reg.brkChCfgOffMin ch))

/-- The off time in ms for d in 10 µs: max(OFF_MIN × 0.1 s, 100 × d) (R343). -/
def offTimeMs (s : State) (ch d : Nat) : Nat := max (offMinMs s ch) d

/-- d, from the start of the ramp to now, in 10 µs, at most 255 ms (R343). -/
def rampTime (s : State) (ch : Nat) : Nat := min 25500 ((s.time.tb2 - storeGet s.time.tb2 s.brk.rampAt ch) / 10000)

/-- A trip (R342, R343). -/
def tripChannel (ch cause : Nat) (s : State) : State :=
  let pg := Page.brk
  let d := rampTime s ch
  let n := min 15 (getR s pg (Reg.brkChStatusAttempts ch) + 1)
  let retries := retriesOf s ch
  let lock := decide (retries ≠ 15 ∧ retries < n)
  s |> setR pg (Reg.brkChStatusAttempts ch) n |> setCause ch cause |> setFlag pg (Reg.brkChStatusRecord ch) true
    |> setR pg (Reg.brkChTimerLastD ch) d |> incCnt pg (Reg.brkChCountTripCnt ch)
    |> (if lock then fun u => u |> setFlag pg (Reg.brkChStatusLock ch) true |> setReq ch false |> setR pg (Reg.brkChTimerRemain ch) 0
          |> lowerGate ch chLockout
        else fun u => u |> setR pg (Reg.brkChTimerRemain ch) (offTimeMs s ch d) |> lowerGate ch chWait)
    |> raiseEv pg Ev.brkTrip |> queueRecord ch true |> syncBrk

/-- A trip in one of the states that its cause acts in. -/
def tripIf (b : Bool) (ch cause : Nat) (s : State) : State := if b then tripChannel ch cause s else s

/-- FAST_TRIP (R336). -/
def execFastTrip (ch : Fin 9) (s : State) : Answer := alive s (tripIf (chUp s ch) ch causeFast s)

/-- CURVE_TRIP (R334): breakpoint k. -/
def execCurveTrip (ch : Fin 9) (k : Fin 8) (s : State) : Answer :=
  let on := chState s ch = chOn && pointEnabled s ch k
  alive s (tripIf on ch causeCurve (whenS on (setR Page.brk (Reg.brkChStatusCurveK ch) k) s))

/-- SOA_TRIP (R337). -/
def execSoaTrip (ch : Fin 9) (s : State) : Answer := alive s (tripIf (chUp s ch) ch causeSoa s)

/-- RAMP_FAST (R339). -/
def execRampFast (ch : Fin 9) (s : State) : Answer := alive s (tripIf (chState s ch = chRamp) ch causeRampFast s)

/-- RAMP_TIMEOUT (R338). -/
def execRampTimeout (ch : Fin 9) (s : State) : Answer := alive s (tripIf (chState s ch = chRamp) ch causeRampTimeout s)

/-- RAMP_DONE (R338). -/
def execRampDone (ch : Fin 9) (s : State) : Answer :=
  alive s (if chState s ch = chRamp then s |> setChState ch chOn |> raiseEv Page.brk Ev.brkRampDone |> syncBrk else s)

/-- The off timer is at 0 (R340): a requested branch is queued, a requested ENTRY ramps, others are OFF. -/
def offTimerDone (ch : Nat) (s : State) : State :=
  if chState s ch ≠ chWait then s
  else
    let s1 := setR Page.brk (Reg.brkChTimerRemain ch) 0 s
    syncBrk (if !chReq s1 ch then setChState ch chOff s1 else if ch = 0 then beginRamp ch s1 else enqueueBranch ch s1)

/-- OFF_TIMER_EXPIRY (R340). -/
def execOffTimerExpiry (ch : Fin 9) (s : State) : Answer := alive s (offTimerDone ch s)

/-- 60 s ON without a trip (R342): ATTEMPTS and RECORD clear, and a clear record is written. -/
def autoClear (ch : Nat) (s : State) : State :=
  if chState s ch ≠ chOn then s
  else s |> setR Page.brk (Reg.brkChStatusAttempts ch) 0 |> setFlag Page.brk (Reg.brkChStatusRecord ch) false |> queueRecord ch false

/-- AUTO_CLEAR (R342). -/
def execAutoClear (ch : Fin 9) (s : State) : Answer := alive s (autoClear ch s)

/-- The oldest waiting record is written, or its write fails, as it does while FLASH is fenced (R350, R485). -/
def writeRecord (ok : Bool) (s : State) : State :=
  match s.brk.toWrite with
  | [] => s
  | (ch, r) :: rest =>
    let s1 := { s with brk := { s.brk with toWrite := rest } }
    if ok && !pageFenced s Page.flash then { s1 with brk := { s1.brk with records := storePut ch r s1.brk.records } } else raiseEv Page.brk Ev.brkRecordFail s1

/-- TRIP_RECORD (R350): `ok` says whether the write succeeds. -/
def execTripRecord (ok : Bool) (s : State) : Answer := alive s (writeRecord ok s)

/-! ### Commands (R341) -/

/-- CMD_REFUSED of the BRK page. -/
def brkRefused (s : State) : State := raiseEv Page.brk Ev.brkCmdRefused s

/-- Whether a channel does not turn on: it is not fitted, locked out or fenced, or it is a branch under the ROM defaults (R333, R341, R475). -/
def channelRefuses (s : State) (ch : Nat) : Bool :=
  getR s Page.brk (Reg.brkChCalShuntUohm ch) = 0 || chState s ch = chLockout || pageFenced s Page.brk || (romDefaults s && ch ≠ 0)

/-- ON (R333, R341): whether it is accepted, and the state. -/
def channelOn (ch : Nat) (s : State) : Bool × State :=
  if channelRefuses s ch then (false, brkRefused s)
  else
    let s1 := setReq ch true s
    (true, syncBrk (if chState s1 ch = chOff then (if ch = 0 then beginRamp ch s1 else enqueueBranch ch s1) else s1))

/-- OFF (R341). -/
def channelOff (ch : Nat) (s : State) : State :=
  let st := chState s ch
  let s1 := s |> setReq ch false |> setCause ch causeOffCmd
  syncBrk (if st = chWait ∨ st = chLockout then s1 else lowerGate ch chOff s1)

/-- CLEAR (R341). -/
def channelClear (ch : Nat) (s : State) : State :=
  let pg := Page.brk
  s |> setR pg (Reg.brkChStatusAttempts ch) 0 |> setFlag pg (Reg.brkChStatusRecord ch) false |> setFlag pg (Reg.brkChStatusLock ch) false
    |> setReq ch false |> whenS (chState s ch = chLockout) (setChState ch chOff) |> queueRecord ch false |> syncBrk

/-- Breakpoint k of a staging curve: THR and TIME. -/
def stagedPoint (s : State) (ch k : Nat) : Nat × Nat :=
  (storeGet 0 s.brk.staging (16 * ch + 2 * k), storeGet 0 s.brk.staging (16 * ch + 2 * k + 1))

/-- The rules of R335 on a staging curve. -/
def curveOk (s : State) (ch : Nat) : Bool :=
  let pts := (List.range 8).map fun k => stagedPoint s ch k
  let enabled := pts.takeWhile fun p => p.1 ≠ 0
  (pts.drop enabled.length).all (fun p => p.1 = 0) &&
    (enabled.zip (enabled.drop 1)).all (fun e => decide (e.1.1 < e.2.1 ∧ e.2.2 < e.1.2)) &&
    enabled.all fun p => decide (2 ≤ p.2 ∧ p.2 ≤ 12000000 ∧ p.1 < getR s Page.brk (Reg.brkChLimitsFast ch))

/-- APPLY_CURVE (R335): whether it is accepted, and the state. -/
def applyCurve (ch : Nat) (s : State) : Bool × State :=
  if curveOk s ch then
    let words := (List.range 16).foldl (fun m i => storeSet 0 m (16 * ch + i) (storeGet 0 s.brk.staging (16 * ch + i))) s.brk.curves
    (true, { s with brk := { s.brk with curves := words } })
  else (false, raiseEv Page.brk Ev.brkCurveRefused s)

/-- ATTEMPTS and CAUSE of a channel, as the journal keeps them before a command (R445); their places are open (log entry 36). -/
def breakerValue (s : State) (ch : Nat) : Nat :=
  Config.breakerEntry (getR s Page.brk (Reg.brkChStatusAttempts ch)) (getR s Page.brk (Reg.brkChStatusCause ch))

/-- A guarded CHCMD (R341): channels 9–15 and other commands are ignored. Every command is journaled (R446). -/
def breakerCommand (who : Option Master) (ch cmd : Nat) (s : State) : State :=
  if 9 ≤ ch then s
  else
    let value := breakerValue s ch
    let target := ch + 2 ^ 8 * cmd
    let note (r : Bool × State) : State := if r.1 then journal who 0x04 target value 0 r.2 else journalRefused who 0x04 target value r.2
    match cmd with
    | 1 => note (channelOn ch s)
    | 2 => note (true, channelOff ch s)
    | 3 => note (true, channelClear ch s)
    | 4 => note (applyCurve ch s)
    | _ => s

/-- The word that the BRK indirect pair reads. -/
def brkIndRead (s : State) (addr : Nat) : Nat :=
  match bits addr 17 16 with
  | 0 => storeGet 0 s.brk.staging (addr % 256)
  | 1 => storeGet 0 s.brk.curves (addr % 256)
  | _ => 0

/-- A write through the BRK indirect pair; none where it sets the error bit: the active curves. -/
def brkIndWrite (addr v : Nat) (s : State) : Option State :=
  match bits addr 17 16 with
  | 0 =>
    if addr % 256 < 144 then
      let w := if addr % 2 = 0 then v % 2 ^ 12 else v % 2 ^ 24
      some { s with brk := { s.brk with staging := storeSet 0 s.brk.staging (addr % 256) w } }
    else some s
  | 1 => none
  | _ => some s

/-! ### Staging (R346, R347) -/

/-- The 1 ms measurements are shown (R333, R352). -/
def takePower (m : PowerMeas) (s : State) : State :=
  let pg := Page.brk
  s |> setR pg Reg.brkSupplyVin m.vin.toNat |> setR pg Reg.brkSupplyVhold m.vhold.toNat
    |> setFlag pg Reg.brkSupplyStatusVholdOk (decide (3000 ≤ m.vhold.toNat))
    |> setR pg Reg.brkPInCard m.card.toNat |> setR pg Reg.brkPInModule m.module.toNat
    |> forEach channels (fun ch u => u |> setR pg (Reg.brkChMeasCurrent ch) (m.chans.getD ch (0, 0)).1.toNat
         |> setR pg (Reg.brkChMeasVDs ch) (m.chans.getD ch (0, 0)).2.toNat)

/-- Whether a branch passes every check of R346 but the governor's. -/
def admissible (s : State) (ch : Nat) : Bool :=
  let pg := Page.brk
  let entry := getR s pg (Reg.brkChMeasCurrent 0)
  let budget := getR s pg Reg.brkEntryAdmit
  let shunt := getR s pg (Reg.brkChCalShuntUohm ch)
  chState s 0 = chOn && channels.all (fun x => chState s x ≠ chRamp) && !bowStands s && !pageFenced s pg &&
    (s.brk.restore.isEmpty || s.brk.restore.contains ch) &&
    (!staircaseActive s || bit (flightBranchAllow s.stair.active (nodeId s) (curFlight s)) (ch - 1)) &&
    decide (entry ≤ budget) && decide (getR s pg (Reg.brkChLimitsRampLimit ch) * 5000000 ≤ (budget - entry) * 4096 * shunt) &&
    decide (entry + getR s pg (Reg.brkChCalExpect ch) ≤ budget)

/-- The queue is examined from a branch on: the first that passes ramps; one that only the governor denies is counted (R346, R376). -/
def admitFrom : List Nat → State → State
  | [], s => s
  | ch :: rest, s =>
    if admissible s ch then
      if admissionAllowed s (getR s Page.brk (Reg.brkChCalExpect ch)) then beginRamp ch s
      else admitFrom rest (s |> incCnt Page.gov Reg.govAdmitDenyCnt |> raiseEv Page.gov Ev.govAdmitDenied)
    else admitFrom rest s

/-- ADMISSION (R346): at a 1 ms boundary. -/
def execAdmission (meas : PowerMeas) (s : State) : Answer :=
  let s1 := takePower meas s
  alive s (if s.boot.booting.isSome then s1 else syncBrk (admitFrom s1.brk.queue s1))

/-- A flight takes effect: branches that it does not allow are queued with CAUSE FLIGHT (R347). -/
def flightBranches (s : State) : State :=
  let allow := flightBranchAllow s.stair.active (nodeId s) (curFlight s)
  syncBrk (forEach (branches.filter fun ch => chUp s ch && !bit allow (ch - 1)) (fun ch u => u |> enqueueBranch ch |> setCause ch causeFlight) s)

/-- ENTRY starts itself once the power die runs, with AUTO_ON (R347); one that is not fitted or locked out stays as it is, without a command
that could be refused (R333, R475). -/
def entryAutoOn (s : State) : State :=
  if flag s Page.brk (Reg.brkChCfgAutoOn 0) && !channelRefuses s 0 then (channelOn 0 s).2 else s

/-! ### Ride-through (R352–R355) -/

/-- A branch is shed (R353). -/
def shedBranch (ch : Nat) (s : State) : State :=
  { s with brk := { s.brk with shed := s.brk.shed ++ [ch] } }
  |> setChState ch chShed |> setCause ch causeShedBow |> incCnt Page.brk (Reg.brkChCountShedCnt ch) |> raiseEv Page.brk Ev.brkShed |> syncBrk

/-- BRANCH_PRIO of a branch; 0 without an active Staircase (R353). -/
def branchPrio (s : State) (ch : Nat) : Nat :=
  if staircaseActive s then bits (flightBranchPrio s.stair.active (nodeId s) (curFlight s)) (4 * (ch - 1) + 3) (4 * (ch - 1)) else 0

/-- The branch to shed next: ON, the least priority, of equals the higher number; priority 15 never (R353). -/
def shedChoice (s : State) : Option Nat :=
  (branches.filter fun ch => chState s ch = chOn && branchPrio s ch ≠ 15).foldl (fun b ch => match b with
    | some x => if branchPrio s ch ≤ branchPrio s x then some ch else some x
    | none => some ch) none

/-- BOW is raised (R352). -/
def bowRaised (s : State) : State :=
  let pg := Page.brk
  let s1 := { s with brk := { s.brk with restore := [] } }
    |> setFlag pg Reg.brkSupplyStatusBow true |> setFlag pg Reg.brkSupplyStatusBowSeen true |> setLevel pg Ev.brkBow true
    |> setR Page.gov Reg.govStatusReq 2 |> syncForced |> startCheckpoint
  forEach (branches.filter fun ch => chState s1 ch = chRamp) (fun ch u => shedBranch ch u) s1 |> syncBrk

/-- BOW (R352): VIN below VWARN for 100 µs. -/
def execBow (meas : PowerMeas) (s : State) : Answer := alive s (bowRaised (takePower meas s))

/-- SHED (R353): one 1 ms decision while BOW stands. -/
def execShed (meas : PowerMeas) (s : State) : Answer :=
  let s1 := takePower meas s
  alive s (if bowStands s1 && decide (getR s1 Page.brk Reg.brkBowBudget < getR s1 Page.brk Reg.brkPInCard) then
      match shedChoice s1 with
      | some ch => shedBranch ch s1
      | none => s1
    else s1)

/-- BOW clears and the shed branches are queued in reverse order of shedding, ahead of the others (R354). -/
def restoreBranches (s : State) : State :=
  if !bowStands s then s
  else
    let back := s.brk.shed.reverse
    let s1 := { s with brk := { s.brk with queue := back ++ s.brk.queue, restore := back, shed := [] } }
      |> setFlag Page.brk Reg.brkSupplyStatusBow false |> setLevel Page.brk Ev.brkBow false |> withdrawLeanest |> syncForced
    forEach back (fun ch u => setChState ch chQueued u) s1 |> syncBrk

/-- RESTORATION (R354): VIN above 35.0 V for 10 ms. -/
def execRestoration (meas : PowerMeas) (s : State) : Answer := alive s (restoreBranches (takePower meas s))

/-- OV (R330): VIN passes the overvoltage limit, or returns. -/
def execOv (on : Bool) (s : State) : Answer :=
  alive s (s |> setFlag Page.brk Reg.brkSupplyStatusOv on |> setLevel Page.brk Ev.brkOv on)

/-- VHOLD_LOW (R349): VHOLD has stayed below 3.0 V for 500 ms with VIN at or above 36 V, or is back. -/
def execVholdLow (on : Bool) (s : State) : Answer :=
  alive s (s |> setLevel Page.brk Ev.brkVholdLow on |> setFlag Page.brk Reg.brkSupplyStatusVholdOk (!on))

/-- VIN below VRST (R349, R355): every gate is pulled down, and each running off timer is lengthened by 3 % of its remainder. -/
def gatesDown (s : State) : State :=
  forEach channels (fun ch u =>
    let up := chUp u ch
    let t := getR u Page.brk (Reg.brkChTimerRemain ch)
    u |> whenS up (fun w => w |> setCause ch causeVrst |> setChState ch chOff)
      |> setR Page.brk (Reg.brkChTimerRemain ch) (min 65535 (t + (3 * t + 99) / 100))) s

/-- The channel states rebuilt from their H fields (R348). -/
def rebuildChannels (s : State) : State :=
  forEach channels (fun ch u =>
    u |> setReq ch false
      |> setChState ch (if flag u Page.brk (Reg.brkChStatusLock ch) then chLockout
           else if getR u Page.brk (Reg.brkChTimerRemain ch) ≠ 0 then chWait else chOff))
    { s with brk := { s.brk with queue := [], shed := [], restore := [], rampAt := [] } } |> syncBrk

/-- A POR with invalid H fields (R350): each channel whose latest record is uncleared starts in LOCKOUT, or in WAIT with a full off time. -/
def coldStart (s : State) : State :=
  let pg := Page.brk
  let s1 := setFlag pg Reg.brkSupplyStatusColdStart true s
  forEach channels (fun ch u => match storeFind ch u.brk.records with
    | some r =>
      if r.uncleared then
        u |> setR pg (Reg.brkChStatusAttempts ch) r.attempts |> setR pg (Reg.brkChTimerLastD ch) r.lastD |> setFlag pg (Reg.brkChStatusRecord ch) true
          |> setFlag pg (Reg.brkChStatusLock ch) r.lock
          |> setR pg (Reg.brkChTimerRemain ch) (if r.lock then 0 else offTimeMs u ch r.lastD) |> raiseEv pg Ev.brkColdOfftime
      else u
    | none => u) s1 |> rebuildChannels

/-- A fence of the BRK page: every gate is pulled down, the H fields are kept (Fence effects table). -/
def fenceBrk (s : State) : State := syncBrk (forEach (channels.filter fun ch => chUp s ch) (fun ch u => setChState ch chOff u) s)

/-- One millisecond passes for the off timers (R343). -/
def brkMillisecond (s : State) : State :=
  forEach (channels.filter fun ch => chState s ch = chWait) (fun ch u =>
    let t := getR u Page.brk (Reg.brkChTimerRemain ch)
    if t ≤ 1 then offTimerDone ch u else setR Page.brk (Reg.brkChTimerRemain ch) (t - 1) u) s

end Sys2Proof.Machine
end

