-- ==== Sys2Proof/Machine/Access.lean ====
section
/-!
DEFINITION. Deciding an access (R386, R396–R407): the local map, access rows, the secure map, DRAM regions, fences and gates, and the denial
log.
-/

namespace Sys2Proof.Machine

open Sys2Proof

/-- What an address of the local map reaches (R182): a register page, a bank of the process image, the partner windows, DRAM, flash, or
nothing. -/
inductive MapRegion where
  | page (p off : Nat)
  | committed (off : Nat)
  | staging (off : Nat)
  | partner (p off : Nat)
  | dram (off : Nat)
  | flash (off : Nat)
  | nothing
deriving DecidableEq, Repr

/-- Whether n bytes from an address up lie wholly in a range. -/
def within (a n base size : Nat) : Bool := decide (base ≤ a ∧ a + n ≤ base + size)

/-- The region of an access of n bytes (R182). -/
def mapRegion (a n : Nat) : MapRegion :=
  if within a n 0 0x100000 then .page (a / 4096) (a % 4096)
  else if within a n 0x1000000 0x400000 then .committed (a - 0x1000000)
  else if within a n 0x1400000 0x400000 then .staging (a - 0x1400000)
  else if within a n 0x10000000 0x8000000 then .partner ((a - 0x10000000) / 0x10000) (a % 0x10000)
  else if within a n 0x100000000 0x8000000 then .dram (a - 0x100000000)
  else if within a n 0x200000000 0x2000000 then .flash (a - 0x200000000)
  else .nothing

/-- The partners whose windows an access of n bytes from an offset of window p on touches. -/
def windowsOf (p off n : Nat) : List Nat := (List.range ((off + n - 1) / 0x10000 + 1)).map (p + ·)

/-- The kinds of access, as the denial log codes them (R404). -/
inductive AccessKind where
  | read | write | guarded
deriving DecidableEq, Repr

/-- KIND of a denial log entry. -/
def AccessKind.code : AccessKind → Nat
  | .read => 0
  | .write => 1
  | .guarded => 2

/-- Whether rights (R397) allow a kind of access. -/
def AccessKind.allowedBy (k : AccessKind) (rights : Nat) : Bool :=
  match k with
  | .read => decide (1 ≤ rights)
  | .write => decide (2 ≤ rights)
  | .guarded => rights = 3

def denyRow : Nat := 1
def denySecure : Nat := 2
def denyLifecycle : Nat := 3

/-- Master classes that rules name (R396). -/
def classPlinth : Nat := 0
def classMitre : Nat := 2
def classHost : Nat := 3
def classLocal : Nat := 4
def classDebug : Nat := 5
def classPair : Nat := 6
def classMaster : Nat := 7
def classPeer : Nat := 8
def classDma : Nat := 9

/-- Whether JTAG debug access may exist in the life-cycle state: PROVISIONING and SERVICE (R401, R423). -/
def debugState (s : State) : Bool := s.key.lc = 1 || s.key.lc = 3

/-- The field of a class in an access row (R397). -/
def rowField (row cls : Nat) : Nat := if cls = 15 then 0 else bits row (2 * cls + 1) (2 * cls)

/-- The row of a page (R398); in the ACC page's own row the secure classes act as 11 (R399). -/
def pageRow (s : State) (p : Nat) : Nat :=
  let r := storeGet 0x0001C7FF s.access.rows p
  if p = Page.acc then r ||| 0x3F else r

/-- Whether a page is SECURE (R399). -/
def pageSecure (s : State) (p : Nat) : Bool := bit (getR s Page.acc (Reg.accSecure (p / 32))) (p % 32)

/-- The rights of a class under a row and a secure bit, with the cause of a denial (R397, R399, R401). -/
def classRights (s : State) (row : Nat) (secure : Bool) (cls : Nat) : Nat × Nat :=
  if secure && !secureClass cls then (0, denySecure)
  else if cls = classDebug && !debugState s then (0, denyLifecycle)
  else (rowField row cls, denyRow)

/-- The rights of a class on a page. -/
def pageRights (s : State) (p cls : Nat) : Nat × Nat := classRights s (pageRow s p) (pageSecure s p) cls

/-- A word of a DRAM region descriptor (R406): 0 BASE, 1 SIZE, 2 ROW, 3 EN. -/
def dramWord (s : State) (r w : Nat) : Nat := storeGet 0 s.access.dramRegions (4 * r + w)

/-- Whether region r holds a DRAM byte (R400, R406). -/
def dramRegionHas (s : State) (r a : Nat) : Bool :=
  let base := bits (dramWord s r 0) 26 12 * 4096
  let size := bits (dramWord s r 1) 15 0 * 4096
  bit (dramWord s r 3) 0 && decide (size ≠ 0 ∧ base + size ≤ 0x8000000 ∧ base ≤ a ∧ a < base + size)

/-- The row of a DRAM byte (R400). -/
def dramRow (s : State) (a : Nat) : Nat :=
  match (List.range 16).find? fun r => dramRegionHas s r a with
  | some r => dramWord s r 2
  | none => getR s Page.acc Reg.accDramDefault

/-- The update staging area of DRAM, which only the update engine reaches (R467). -/
def updStaging : Nat := 0x3800000

/-- The rights of a class on a DRAM byte; no class reaches the update staging area. -/
def dramRights (s : State) (a cls : Nat) : Nat × Option Nat :=
  if updStaging ≤ a ∧ a < updStaging + 0x800000 then (0, none)
  else
    let (r, c) := classRights s (dramRow s a) false cls
    (r, some c)

/-- Why a class may not access n bytes of DRAM: none where it may. Regions begin and end at multiples of 4 KB, so one byte of each
4 KB is looked at (R400, R406). -/
def dramDenial (s : State) (a n cls : Nat) (k : AccessKind) : Option (Option Nat) :=
  let first := a / 4096
  let count := (a + n - 1) / 4096 + 1 - first
  (List.range count).findSome? fun i =>
    let (r, c) := dramRights s (max a ((first + i) * 4096)) cls
    if k.allowedBy r then none else some c

/-- Whether a class may access n bytes of DRAM, and DRAM is not fenced (R400, R485). -/
def dramAllowed (s : State) (a n cls : Nat) (k : AccessKind) : Bool :=
  decide (a + n ≤ 0x8000000) && (dramDenial s a n cls k).isNone && !pageFenced s Page.dram

/-- Whether the hub is in safe mode (R474). -/
def safeMode (s : State) : Bool := flag s Page.upd Reg.updStatusSafeMode

/-- Whether safe mode leaves an access to a non-secure class: UPD under its row, HUB for reads (R474). -/
def safeModeAllows (cls : Nat) (r : MapRegion) (k : AccessKind) : Bool :=
  secureClass cls ||
    (match r with
     | .page p _ => p = Page.upd || (p = Page.hub && k = .read)
     | _ => false)

/-- Why a region's row, secure bit or the life-cycle state denies an access; `some none` where the spec names no cause. None where it is
permitted (R398–R401, R474). -/
def rightsDenial (s : State) (m : Master) (r : MapRegion) (n : Nat) (k : AccessKind) : Option (Option Nat) :=
  let cls := m.cls.val
  let under (x : Nat × Nat) : Option (Option Nat) := if k.allowedBy x.1 then none else some (some x.2)
  if safeMode s && !safeModeAllows cls r k then some none
  else
    match r with
    | .page p _ => under (pageRights s p cls)
    | .committed _ => under (pageRights s Page.img cls)
    | .staging _ => if k = .read then under (pageRights s Page.img cls) else some (some denyRow)
    | .flash _ => if k = .read then under (pageRights s Page.flash cls) else some (some denyRow)
    | .partner p off => (windowsOf p off n).findSome? fun q => under (classRights s (storeGet 0 s.bridge.descs (8 * q + 3)) false cls)
    | .dram a => dramDenial s a n cls k
    | .nothing => none

/-- The offset of a page access with its alias removed (R391). -/
def baseOffset (off : Nat) : Nat := off % 0x400

/-- Whether a fenced page still serves an offset (R440): the common registers, their aliases, and UCMD with its complement. -/
def servedFenced (off : Nat) : Bool := decide (baseOffset off < 0x40) || decide (0x37C ≤ off ∧ off < 0x380) || decide (0x3FC ≤ off ∧ off < 0x400)

/-- Whether the fence of the target unit answers an access (R402, R439, R440, R485). -/
def fencedTarget (s : State) (r : MapRegion) : Bool :=
  match r with
  | .page p off => pageFenced s p && !servedFenced off
  | .committed _ | .staging _ => pageFenced s Page.img
  | .dram _ => pageFenced s Page.dram
  | .partner _ _ => pageFenced s Page.bridge
  | .flash _ | .nothing => false

/-- Whether the gate of the target block answers an access (R366): a read of PAGE_ID goes through. -/
def gatedTarget (s : State) (r : MapRegion) (k : AccessKind) : Bool :=
  match r with
  | .page p off => pageGated s p && !(k = .read && decide (baseOffset off < 4))
  | .partner _ _ => pageGated s Page.bridge
  | _ => false

/-- How an access is decided (R402). `absent` is an unlisted page: a read returns 0 and a write is ignored (R386). -/
inductive Verdict where
  | ok | absent | decode | fenced | gated
  | denied (cause : Option Nat)
deriving DecidableEq, Repr

/-- Whether a page access has an accepted width and alignment (R390). -/
def pageWidthOk (off n : Nat) : Bool := ((n = 1 || n = 2 || n = 4) && off % n = 0) || (n = 8 && off % 4 = 0)

/-- Whether a page number is implemented for a master: the MSI-X pages only for class HOST through PCIe (R386, R387). -/
def pageListed (m : Master) (p : Nat) : Bool :=
  kindOf p ≠ .none || ((p = 0xE0 || p = 0xE1) && m.cls.val = classHost && m.ifc.val = 0)

/-- The decision on an access of n bytes (R402): decode, rights, fence, gate, in this order. -/
def decide_ (s : State) (m : Master) (k : AccessKind) (a n : Nat) : Verdict :=
  let r := mapRegion a n
  let rest : Verdict :=
    match rightsDenial s m r n k with
    | some c => .denied c
    | none => if fencedTarget s r then .fenced else if gatedTarget s r k then .gated else .ok
  match r with
  | .nothing => .decode
  | .page p off => if !pageWidthOk off n then .decode else if !pageListed m p then .absent else rest
  | .partner p off => if (windowsOf p off n).all fun q => bit (storeGet 0 s.bridge.descs (8 * q)) 0 then rest else .decode
  | _ => rest

/-! ### Status codes (Status codes table) -/

def stOk : Nat := 0
def stDenied : Nat := 1
def stFenced : Nat := 2
def stDecode : Nat := 3
def stPartnerNak : Nat := 4
def stBusErr : Nat := 5
def stPartnerTimeout : Nat := 6
def stAlign : Nat := 7
def stUnsupported : Nat := 8
def stLost : Nat := 9
def stUnreachable : Nat := 0xA

/-- The status code of a verdict. -/
def Verdict.status : Verdict → Nat
  | .ok | .absent | .gated => stOk
  | .decode => stDecode
  | .fenced => stFenced
  | .denied _ => stDenied

/-! ### The denial log (R403, R404) -/

/-- Word 1 of a denial log entry. -/
def denialWord (m : Master) (k : AccessKind) (cause a : Nat) : Nat :=
  a / 2 ^ 32 % 256 + 2 ^ 8 * m.cls.val + 2 ^ 12 * k.code + 2 ^ 16 * (cause % 16) + 2 ^ 20 * m.ifc.val +
    2 ^ 24 * (if m.ifc.val = 5 then m.node.toNat else 0)

/-- Whether an entry stands for the same master, address and kind in the same microsecond (R403); CAUSE is left aside. -/
def denialPending (s : State) (w0 w1 : Nat) : Bool :=
  s.access.denials.any fun e => e.1 = w0 && e.2.1 &&& 0xFFF0FFFF = w1 &&& 0xFFF0FFFF && e.2.2 / 1000 = tb2Lo s / 1000

/-- The cause of a denial; one the spec does not name is a free value. -/
def denialCause (cause : Option Nat) (s : State) : Nat × State :=
  match cause with
  | some c => (c, s)
  | none => freeValue s

/-- An access is denied: ACCESS, DENY_CNT, and one entry of the denial log (R403, R404). -/
def logDenial (m : Master) (k : AccessKind) (cause : Option Nat) (a : Nat) (s : State) : State :=
  let (code, s1) := denialCause cause s
  let w0 := a % 2 ^ 32
  let w1 := denialWord m k code a
  let s2 := s1 |> incCnt Page.acc Reg.accDenyCnt |> raiseEv Page.acc Ev.accAccess
  if denialPending s2 w0 w1 then s2
  else if 8 ≤ s2.access.denials.length then
    s2 |> incCnt Page.acc Reg.accDenyStatusOverflow |> setFlag Page.acc Reg.accDenyStatusLost true |> raiseEv Page.acc Ev.accDenyOverflow
  else
    { s2 with access := { s2.access with denials := s2.access.denials ++ [(w0, w1, tb2Lo s2)] } }
    |> setR Page.acc Reg.accDenyStatusCount (s2.access.denials.length + 1)

/-- DENY_CTRL.POP (R404). -/
def denyPop (s : State) : State :=
  let ds := s.access.denials.drop 1
  setR Page.acc Reg.accDenyStatusCount ds.length { s with access := { s.access with denials := ds } }

/-- An access to a gated block is counted (R366). -/
def noteGated (s : State) : State := s |> incCnt Page.clk Reg.clkGatedAccCnt |> raiseEv Page.clk Ev.clkGatedAccess

/-- What a decision leaves behind: a denial is logged, a gated access counted (R366, R403). -/
def noteVerdict (v : Verdict) (m : Master) (k : AccessKind) (a : Nat) (s : State) : State :=
  match v with
  | .denied c => logDenial m k c a s
  | .gated => noteGated s
  | _ => s

/-! ### Access tables (R405–R407) -/

/-- The entry of a node in the group table: 1–5 a group, else none (R405). -/
def groupOf (s : State) (n : Nat) : Nat :=
  let g := bits (storeGet 0 s.access.groups (n / 8)) (4 * (n % 8) + 3) (4 * (n % 8))
  if 1 ≤ g ∧ g ≤ 5 ∧ n ≠ 0 ∧ n ≠ 255 then g else 0

/-- A word of an ACC table by space (ACC indirect spaces; space 3 of ROW_SEL is the secure map with DRAM_DEFAULT). -/
def accItem (s : State) (space index : Nat) : Option Nat :=
  match space with
  | 0 => if index < 256 then some (storeGet 0x0001C7FF s.access.rows index) else none
  | 1 => if index < 64 then some (storeGet 0 s.access.dramRegions index) else none
  | 2 => if index < 32 then some (storeGet 0 s.access.groups index) else none
  | _ => if index < 8 then some (getR s Page.acc (Reg.accSecure index)) else if index = 8 then some (getR s Page.acc Reg.accDramDefault) else none

/-- What of a value an item holds: reserved bits read 0 (R405, R406). -/
def accMask (space index v : Nat) : Nat :=
  match space with
  | 1 => match index % 4 with
    | 0 => v &&& 0x07FFF000
    | 1 => v &&& 0xFFFF
    | 3 => v &&& 1
    | _ => v
  | 2 => if index = 0 then v &&& 0xFFFFFFF0 else if index = 31 then v &&& 0x0FFFFFFF else v
  | _ => v

/-- Whether a ROW_VAL write of an item is refused whole: the item does not exist, or BASE, SIZE or ROW of an enabled region (R406, R407). -/
def rowValRefused (s : State) (space index : Nat) : Bool :=
  (accItem s space index).isNone || (space = 1 && index % 4 ≠ 3 && bit (dramWord s (index / 4) 3) 0)

/-- An item replaced. -/
def setAccItem (space index v : Nat) (s : State) : State :=
  match space with
  | 0 => { s with access := { s.access with rows := storeSet 0x0001C7FF s.access.rows index v } }
  | 1 => { s with access := { s.access with dramRegions := storeSet 0 s.access.dramRegions index v } }
  | 2 => { s with access := { s.access with groups := storeSet 0 s.access.groups index v } }
  | _ => if index < 8 then setR Page.acc (Reg.accSecure index) v s else setR Page.acc Reg.accDramDefault v s

/-- A guarded write of ROW_VAL (R407): the selected item is replaced; KEY's secure bit stays 1. -/
def rowVal (who : Option Master) (v : Nat) (s : State) : State :=
  let space := getR s Page.acc Reg.accRowSelSpace
  let index := getR s Page.acc Reg.accRowSelIndex
  let target := index + 2 ^ 16 * space
  let old := (accItem s space index).getD 0
  if rowValRefused s space index then
    s |> raiseEv Page.acc Ev.accRowRefused |> journalRefused who 0x06 target (old + 2 ^ 32 * v)
  else
    let locked := space = 3 && index = 0 && !bit v 7
    let new := if locked then v ||| 0x80 else accMask space index v
    s |> setAccItem space index new |> journal who 0x06 target (old + 2 ^ 32 * new) 0 |> raiseEv Page.acc Ev.accRowChanged
      |> raiseIf locked Page.acc Ev.accRowRefused

/-- The word that the ACC indirect pair reads (ACC indirect spaces). -/
def accIndRead (s : State) (addr : Nat) : Option Nat :=
  let i := addr % 2 ^ 16
  match bits addr 17 16 with
  | 3 =>
    if 32 ≤ i then none
    else match s.access.denials[i / 4]? with
      | some e => some (match i % 4 with
        | 0 => e.1
        | 1 => e.2.1
        | 2 => e.2.2
        | _ => 0)
      | none => some 0
  | sp => accItem s sp i

/-! ### Reads and writes of DRAM by the hub's own engines -/

/-- n bytes of DRAM. -/
def dramRead (s : State) (a n : Nat) : List Byte := memReadN s.dram a n

/-- Bytes written to DRAM. -/
def dramWrite (a : Nat) (bs : List Byte) (s : State) : State := healDram a bs.length { s with dram := memWriteN s.dram a bs }

/-! ### GUARD_FAIL (R392) -/

def guardSequence : Nat := 1
def guardMismatch : Nat := 2
def guardInterrupted : Nat := 3
def guardTimeout : Nat := 4
def guardWidth : Nat := 5
def guardAlias : Nat := 6

/-- A guarded sequence fails (R392): HUB.GUARD_LAST, GUARD_FAIL_CNT and GUARD_FAIL. `n` is the offset in the value window. -/
def guardFail (m : Master) (page n cause : Nat) (s : State) : State :=
  s |> setR Page.hub Reg.hubGuardLastPage page |> setR Page.hub Reg.hubGuardLastOffset n |> setR Page.hub Reg.hubGuardLastClass m.cls.val
    |> setR Page.hub Reg.hubGuardLastCause cause |> setR Page.hub Reg.hubGuardLastNode (if m.ifc.val = 5 then m.node.toNat else 0)
    |> incCnt Page.hub Reg.hubGuardFailCnt |> raiseEv Page.evt Ev.evtGuardFail

end Sys2Proof.Machine
end

