-- ==== Sys2Proof/Machine/Blocks.lean ====
section
/-!
DEFINITION. The blocks of a gallery: CRC-32C (R76), control block contents (R115–R117), tread trailers (R119–R121), and what an origin or a
completer sends (R120, R130, R137).
-/

namespace Sys2Proof.Machine

open Sys2Proof

/-! ### CRC-32C (R76) -/

/-- n shift steps of the reflected CRC-32C register. -/
def crcShift (c : Nat) : Nat → Nat
  | 0 => c
  | n + 1 => crcShift (if c % 2 = 1 then (c / 2) ^^^ 0x82F63B78 else c / 2) n

/-- The CRC register after a byte string. -/
def crcBytes (c : Nat) : List Byte → Nat
  | [] => c
  | b :: bs => crcBytes (crcShift (c ^^^ b.toNat) 8) bs

/-- CRC-32C of a byte string. -/
def crc32c (bs : List Byte) : Nat := crcBytes 0xFFFFFFFF bs ^^^ 0xFFFFFFFF

/-- The stomped form of a CRC (R121). -/
def stomp (crc : Nat) : Nat := crc ^^^ 0xFFFFFFFF

/-! ### Trailers (R119, R120) -/

/-- A tread trailer. -/
def trailerOf (crc tag writer : Nat) (void through rewritten : Bool) : Nat :=
  b2n void + 2 * b2n through + 4 * b2n rewritten + 2 ^ 4 * (writer % 256) + 2 ^ 12 * (tag % 2 ^ 20) + 2 ^ 32 * (crc % 2 ^ 32)

def trailerCrc (t : Nat) : Nat := bits t 63 32
def trailerTag (t : Nat) : Nat := bits t 31 12
def trailerWriter (t : Nat) : Nat := bits t 11 4
def trailerVoid (t : Nat) : Bool := bit t 0
def trailerThrough (t : Nat) : Bool := bit t 1

/-! ### Control blocks (R115–R117) -/

/-- An ANNOUNCE GALLERY START. -/
def gsAnnounce (west : Bool) (flight cycle nextFlight nextCycle : Nat) (masterOrigin : Bool) : Nat :=
  0xA5 + 2 ^ 8 * b2n west + 2 ^ 9 * (flight % 8) + 2 ^ 12 * (cycle % 2 ^ 24) + 2 ^ 36 * (nextFlight % 8) +
    2 ^ 39 * (nextCycle % 2 ^ 24) + 2 ^ 63 * b2n masterOrigin

/-- An IDENT GALLERY START. -/
def gsIdent (west : Bool) (flight cycle origin hash protocol : Nat) : Nat :=
  0xA5 + 2 ^ 8 * b2n west + 2 ^ 9 * (flight % 8) + 2 ^ 12 * (cycle % 2 ^ 24) + 2 ^ 36 * (origin % 256) +
    2 ^ 44 * (hash % 2 ^ 16) + 2 ^ 60 * (protocol % 16)

def gsWest (p : Nat) : Bool := bit p 8
def gsFlight (p : Nat) : Nat := bits p 11 9
def gsCycle24 (p : Nat) : Nat := bits p 35 12
def gsIsIdent (p : Nat) : Bool := bit p 12
def gsNextFlight (p : Nat) : Nat := bits p 38 36
def gsNextCycle24 (p : Nat) : Nat := bits p 62 39
def gsMasterOrigin (p : Nat) : Bool := bit p 63
def gsOrigin (p : Nat) : Nat := bits p 43 36
def gsHash (p : Nat) : Nat := bits p 59 44
def gsProtocol (p : Nat) : Nat := bits p 63 60

/-- The cycle nearest a hub's own whose bits [23:0] are given (R116). -/
def nearestCycle (now c24 : Nat) : Nat :=
  let base := now / 2 ^ 24 * 2 ^ 24 + c24
  if base + 2 ^ 23 < now then base + 2 ^ 24
  else if now + 2 ^ 23 < base ∧ 2 ^ 24 ≤ base then base - 2 ^ 24
  else base

/-- The first cycle not earlier than a gallery's whose bits [23:0] are given (R116). -/
def firstCycleFrom (g c24 : Nat) : Nat :=
  let base := g / 2 ^ 24 * 2 ^ 24 + c24
  if base < g then base + 2 ^ 24 else base

/-- A GALLERY END. -/
def galleryEndBlock (west : Bool) (flight cycle origin : Nat) (completer : Option Nat) : Nat :=
  0x78 + 2 ^ 8 * b2n west + 2 ^ 9 * (flight % 8) + 2 ^ 12 * (cycle % 2 ^ 24) + 2 ^ 36 * (origin % 256) +
    (match completer with
     | some n => 2 ^ 44 + 2 ^ 45 * (n % 256)
     | none => 0)

/-- A LANDING START. -/
def landingStartBlock (first count cycle : Nat) : Nat :=
  0x66 + 2 ^ 8 * (first % 2 ^ 16) + 2 ^ 24 * (count % 256) + 2 ^ 32 * (cycle % 2 ^ 24)

/-- A LANDING END; `damaged` is the first damaged share. -/
def landingEndBlock (first : Nat) (damaged : Option Nat) : Nat :=
  0x99 + 2 ^ 8 * (first % 2 ^ 16) +
    (match damaged with
     | some i => 2 ^ 24 + 2 ^ 32 * (i % 2 ^ 16)
     | none => 0)

/-- The idle block (R74). -/
def idleBlock : Nat := 2 ^ 64 - 1

end Sys2Proof.Machine
end

