-- ==== Sys2Proof/Machine/LanePort.lean ====
section
/-!
DEFINITION. A ring port and its lanes: accessors, the line code (R31–R38), width, parking and exit (R39–R42, R55–R60), test modes
(R61–R63) and counters (R64). What the ring stations do at a LINK_UP or LINK_DOWN is in Lane.lean.
-/

namespace Sys2Proof.Machine

open Sys2Proof

/-- The other port. -/
def otherSide : Side → Side
  | .east => .west
  | .west => .east

/-- A port. -/
def portOf (s : State) : Side → PortState
  | .east => s.portE
  | .west => s.portW

/-- A port replaced. -/
def setPort (p : Side) (v : PortState) (s : State) : State :=
  match p with
  | .east => { s with portE := v }
  | .west => { s with portW := v }

/-- A lane. -/
def laneOf (s : State) (p : Side) (n : Nat) : LaneState := storeGet laneReset (portOf s p).lanes n

/-- A lane replaced. -/
def setLane (p : Side) (n : Nat) (v : LaneState) (s : State) : State :=
  setPort p { portOf s p with lanes := storeSet laneReset (portOf s p).lanes n v } s

def laneDisabled : Nat := 0
def laneTraining : Nat := 1
def laneActive : Nat := 2
def laneQuiet : Nat := 3
def laneDeep : Nat := 4
def laneTest : Nat := 5

/-- Ln_LSTATUS.STATE. -/
def laneStateOf (s : State) (p : Side) (n : Nat) : Nat := getR s (Page.lane p) (Reg.laneLLstatusState n)

/-- Ln_LSTATUS.STATE set. -/
def setLaneState (p : Side) (n v : Nat) (s : State) : State := setR (Page.lane p) (Reg.laneLLstatusState n) v s

/-- A one-bit field of a lane page. -/
def laneFlag (s : State) (p : Side) (f : Fld) : Bool := flag s (Page.lane p) f

/-- Whether a lane is within the received width (IN_WIDTH). -/
def inWidth (s : State) (p : Side) (n : Nat) : Bool := laneFlag s p (Reg.laneLLstatusInWidth n)

/-- Lanes of the current transmit width of a port. -/
def txLanes (s : State) (p : Side) : Nat := widthLanes (getR s (Page.lane p) Reg.lanePortCfgWidth)

/-- Lanes of the received width; 0 before the first marker stripe. -/
def rxLanes (s : State) (p : Side) : Nat :=
  match (portOf s p).rxWidth with
  | some w => widthLanes w
  | none => 0

/-- LINK_UP of a port (R51). -/
def linkUp (s : State) (p : Side) : Bool := laneFlag s p Reg.lanePortStatusLinkUp

/-- Whether a lane is ready for R51: block lock, marker lock, no HI_BER. -/
def laneReady (s : State) (p : Side) (n : Nat) : Bool :=
  laneFlag s p (Reg.laneLLstatusBlockLock n) && laneFlag s p (Reg.laneLLstatusMarkerLock n) && !laneFlag s p (Reg.laneLLstatusHiBer n)

/-- Whether a lane holds PLL_UNLOCK up (R65): its PLL is not locked in TRAINING, ACTIVE, QUIET or TEST, or it leaves DEEP too slowly. -/
def pllBad (s : State) (p : Side) (n : Nat) : Bool :=
  let st := laneStateOf s p n
  !laneFlag s p (Reg.laneLLstatusPllLock n) &&
    (st = laneTraining || st = laneActive || st = laneQuiet || st = laneTest || (st = laneDeep && (laneOf s p n).exitLate))

/-- The level sources of a lane page that depend on all its lanes: HI_BER and PLL_UNLOCK (R48, R65). -/
def syncLaneLevels (p : Side) (s : State) : State :=
  s |> setLevel (Page.lane p) Ev.laneHiBer ((List.range 4).any fun n => laneFlag s p (Reg.laneLLstatusHiBer n))
    |> setLevel (Page.lane p) Ev.lanePllUnlock ((List.range 4).any fun n => pllBad s p n)

/-! ### Scrambler and parity (R32, R36, R37) -/

/-- One bit of the self-synchronous descrambler x⁵⁸ + x³⁹ + 1: the state holds the last 58 line bits, the newest lowest. -/
def descrambleBit (st : Nat) (b : Bool) : Bool × Nat :=
  (b ^^ bit st 38 ^^ bit st 57, (2 * st + b2n b) % 2 ^ 58)

/-- n bits of a payload descrambled from bit i up: the accumulated plain payload and the new state. -/
def descrambleBits (w : Nat) (st : Nat) : Nat → Nat → Nat × Nat
  | _, 0 => (0, st)
  | i, n + 1 =>
    let (o, st') := descrambleBit st (bit w i)
    let (rest, st'') := descrambleBits w st' (i + 1) n
    (b2n o * 2 ^ i + rest, st'')

/-- A 64-bit payload descrambled (R32). -/
def descramble (st w : Nat) : Nat × Nat := descrambleBits w st 0 64

/-- One bit of the scrambler: the line bit is fed back. -/
def scrambleBits (w : Nat) (st : Nat) : Nat → Nat → Nat × Nat
  | _, 0 => (0, st)
  | i, n + 1 =>
    let o := bit w i ^^ bit st 38 ^^ bit st 57
    let (rest, st'') := scrambleBits w ((2 * st + b2n o) % 2 ^ 58) (i + 1) n
    (b2n o * 2 ^ i + rest, st'')

/-- A 64-bit payload scrambled (R32). -/
def scramble (st w : Nat) : Nat × Nat := scrambleBits w st 0 64

/-- The 16-bit interleaved parity of a payload (R36). -/
def bipOf (w : Nat) : Nat := bits w 15 0 ^^^ bits w 31 16 ^^^ bits w 47 32 ^^^ bits w 63 48

/-- The number of ones of an n-bit number. -/
def popCount (w : Nat) : Nat → Nat
  | 0 => 0
  | n + 1 => b2n (bit w n) + popCount w n

/-- The control block types of R33. -/
def knownType (t : Nat) : Bool := t = 0xA5 || t = 0x78 || t = 0x1E || t = 0xC3 || t = 0x66 || t = 0x99

/-- A bad block (R34). -/
def badBlock (sync payload : Nat) : Bool := sync = 0 || sync = 3 || (sync = 2 && !knownType (payload % 256))

/-- The FILLER block (R35). -/
def fillerBlock : Nat := 0x1E

/-- The lane alignment marker that a lane sends (R36). -/
def markerBlock (lane width : Nat) (west : Bool) (seq node bip : Nat) : Nat :=
  0xC3 + 2 ^ 8 * (lane % 4) + 2 ^ 10 * (width % 4) + 2 ^ 12 * b2n west + 2 ^ 16 * (seq % 2 ^ 16) + 2 ^ 32 * (node % 256) +
    2 ^ 48 * (bip % 2 ^ 16)

/-! ### Test patterns (R62) -/

/-- The two taps of a pattern code; none for off. -/
def prbsTaps (pat : Nat) : Option (Nat × Nat) :=
  if pat = 1 then some (7, 6) else if pat = 2 then some (9, 5) else if pat = 3 then some (15, 14)
  else if pat = 4 then some (23, 18) else if pat = 5 then some (31, 28) else none

/-- n received bits against the predicted ones: errors and the new history. A locked checker runs on its own prediction, an unlocked one
on the received bits. -/
def prbsCheck (taps : Nat × Nat) (inv locked : Bool) (w : Nat) (hist : Nat) : Nat → Nat → Nat × Nat
  | _, 0 => (0, hist)
  | i, n + 1 =>
    let b := bit w i ^^ inv
    let e := bit hist (taps.1 - 1) ^^ bit hist (taps.2 - 1)
    let h := (2 * hist + b2n (if locked then e else b)) % 2 ^ 31
    let (k, h') := prbsCheck taps inv locked w h (i + 1) n
    (b2n (b ^^ e) + k, h')

/-- n bits of a generator's pattern, the first lowest, and its history after them (R62). -/
def prbsBits (taps : Nat × Nat) (inv : Bool) (hist : Nat) : Nat → Nat → Nat × Nat
  | _, 0 => (0, hist)
  | i, n + 1 =>
    let b := bit hist (taps.1 - 1) ^^ bit hist (taps.2 - 1)
    let (rest, h) := prbsBits taps inv ((2 * hist + b2n b) % 2 ^ 31) (i + 1) n
    (b2n (b ^^ inv) * 2 ^ i + rest, h)

/-! ### Parking and exit (R55–R60) -/

/-- A lane begins to enter its park state (R55, R60) once it is in neither direction's stream; a lane in TEST or DISABLED is not parked (R61).
DESIGN CHOICE (log entry 114): the two directions share the one STATE, so the lane parks when the second of them drops it. -/
def beginPark (p : Side) (n : Nat) (deep : Bool) (s : State) : State :=
  let st := laneStateOf s p n
  if (st = laneActive ∨ st = laneTraining) ∧ txLanes s p ≤ n ∧ rxLanes s p ≤ n then
    setLane p n { laneOf s p n with parkTo := some (if deep then laneDeep else laneQuiet), exitReq := false } s
  else s

/-- A parked lane leaves its park state: from QUIET the lane sends again at once; from DEEP its PLL must lock first (R56). -/
def leavePark (p : Side) (n : Nat) (s : State) : State :=
  if laneStateOf s p n = laneQuiet then setLane p n { laneOf s p n with exitReq := false } (setLaneState p n laneActive s)
  else if laneStateOf s p n = laneDeep then setLane p n { laneOf s p n with exitReq := true } s
  else s

/-- An exit request for a lane: it waits while the lane is still entering its park state (R57, R60). -/
def requestExit (p : Side) (n : Nat) (s : State) : State :=
  if (laneOf s p n).parkTo.isSome then setLane p n { laneOf s p n with exitReq := true } s
  else leavePark p n s

/-- The entry into the park state completes (R60): the lane's locks go, DEEP saves the equaliser and stops the PLL, and a waiting exit
request takes effect. DESIGN CHOICE (log entry 181): CDR_LOCK reads 0 in QUIET, where the CDR holds its frequency but follows no signal. -/
def finishPark (p : Side) (n : Nat) (s : State) : State :=
  let pg := Page.lane p
  let l := laneOf s p n
  match l.parkTo with
  | none => s
  | some st =>
    let eq := getR s pg (Reg.laneLRxeqCtle n)
    let t := s |> setLaneState p n st
      |> setFlag pg (Reg.laneLLstatusBlockLock n) false |> setFlag pg (Reg.laneLLstatusMarkerLock n) false
      |> setFlag pg (Reg.laneLLstatusCdrLock n) false
      |> whenS (st = laneDeep) (setFlag pg (Reg.laneLLstatusPllLock n) false)
      |> setLane p n { l with
           parkTo := none, exitReq := false, exitLate := false, lastSeq := none, savedEq := if st = laneDeep then eq else l.savedEq }
      |> syncLaneLevels p
    whenS l.exitReq (requestExit p n) t

/-- Every lane within a width starts its exit on a port (R57). -/
def wakeLanes (p : Side) (width : Nat) (s : State) : State :=
  forEach (List.range (widthLanes width)) (requestExit p) s

/-- The lanes of a port from one number up to another that leave a stream enter their park state (R55). -/
def parkLanes (p : Side) (lo hi : Nat) (deep : Bool) (s : State) : State :=
  forEach ((List.range 4).filter fun n => lo ≤ n && n < hi) (fun n => beginPark p n deep) s

/-- Whether a lead riser of a width finds a lane late (R59, R61): one that the width newly needs, or one in TEST, has no block lock. -/
def lateLane (s : State) (p : Side) (width : Nat) : Bool :=
  (List.range (widthLanes width)).any fun n =>
    (decide (txLanes s p ≤ n) || laneStateOf s p n = laneTest) && !laneFlag s p (Reg.laneLLstatusBlockLock n)

/-- A port sends from a lead riser on at a width (R41, R58): a late lane raises LANE_LATE (R59, R61), and the lanes that it drops enter their park
state after their last block (R55). -/
def setTxWidth (p : Side) (width : Nat) (deep : Bool) (s : State) : State :=
  s |> raiseIf (lateLane s p width) (Page.lane p) Ev.laneLaneLate |> setR (Page.lane p) Reg.lanePortCfgWidth width
    |> parkLanes p (widthLanes width) (txLanes s p) deep

/-- All counters of a lane page (R64, PORT_CFG.CNT_CLR): the lane counters, lock losses and elastic counts; FILL_MIN and FILL_MAX restart
at the present fill. -/
def laneCntClear (p : Side) (s : State) : State :=
  let pg := Page.lane p
  let per (n : Nat) : List Fld :=
    [Reg.laneLLocklossBlock n, Reg.laneLLocklossMarker n, Reg.laneLPrbsErrLo n, Reg.laneLPrbsErrHi n, Reg.laneLPrbsBitsLo n,
     Reg.laneLPrbsBitsHi n, Reg.laneLBlkErrLo n, Reg.laneLBlkErrHi n, Reg.laneLBipErrLo n, Reg.laneLBipErrHi n]
  let fill := getR s pg Reg.lanePortElasticFill
  s |> clearAll pg ([Reg.lanePortBringupLinkupCnt, Reg.lanePortFillInsCount, Reg.lanePortFillDelCount] ++ (List.range 4).flatMap per)
    |> setR pg Reg.lanePortElasticFillMin fill |> setR pg Reg.lanePortElasticFillMax fill

/-! ### Injection (R63) -/

/-- The line bits (66, sync header lowest) of the next transmitted group with the requested flips applied, and the lane after it:
a single flip, the bits of a burst that fall in this group, and the periodic flip; a bit named twice is flipped once. -/
def injectGroup (s : State) (p : Side) (n : Nat) (w : Nat) : Nat × LaneState :=
  let l := laneOf s p n
  let pos := getR s (Page.lane p) (Reg.laneLInjCtrlPos n)
  let period := getR s (Page.lane p) (Reg.laneLInjPeriodN n)
  let periodic := period ≠ 0 && (l.group + 1) % period = 0
  let inBurst (i : Nat) : Bool := match l.burst with
    | some (from_, len) => from_ ≤ i && i < from_ + len
    | none => false
  let mask := ((List.range 66).map fun i =>
    if l.single = some i || (periodic && i = pos) || inBurst i then 2 ^ i else 0).foldl (· + ·) 0
  let burst' := match l.burst with
    | some (from_, len) => if 66 ≤ from_ ∨ from_ + len ≤ 66 then none else some (0, from_ + len - 66)
    | none => none
  (w ^^^ mask, { l with single := none, burst := burst', group := if periodic then 0 else l.group + 1 })

end Sys2Proof.Machine
end

