-- ==== Sys2Proof/Machine/StationRegs.lean ====
section
/-!
DEFINITION. What the ring stations are read and written by: stations, ports, roles, arrival windows, and the port stamps (R307).
-/

namespace Sys2Proof.Machine

open Sys2Proof

/-- A station: `east` is STN_E, the station of the east-going gallery. -/
def stationOf (s : State) : Side → StationState
  | .east => s.stnE
  | .west => s.stnW

/-- A station replaced. -/
def setStation (st : Side) (v : StationState) (s : State) : State :=
  match st with
  | .east => { s with stnE := v }
  | .west => { s with stnW := v }

/-- The port a station receives from: STN_E from WEST, STN_W from EAST (R114). -/
def rxPort (st : Side) : Side := otherSide st
/-- The port a station transmits on. -/
def txPort (st : Side) : Side := st
/-- The station that receives from a port. -/
def rxStation (p : Side) : Side := otherSide p

/-- Whether a station's gallery is west-going (DIR). -/
def dirWest (st : Side) : Bool := st = .west
/-- Whether a port is the EAST port. -/
def isEast (p : Side) : Bool := p = .east

def roleForward : Nat := 0
def roleMasterOrigin : Nat := 1
def roleLocalOrigin : Nat := 2
def roleCompleter : Nat := 3
def roleForwarder : Nat := 4
def roleStandby : Nat := 5

/-- STATUS.ROLE. -/
def shownRole (s : State) (st : Side) : Nat := getR s (Page.stn st) Reg.stnStatusRole

/-- The role in which a station acts: FORWARDER while the hub does not act on a Staircase, as after reset (R143). -/
def roleOf (s : State) (st : Side) : Nat := if staircaseActs s then shownRole s st else roleForwarder

/-- STATUS.ROLE set, with ROLE_CHANGE when it changes. -/
def setRole (st : Side) (r : Nat) (s : State) : State :=
  let changed := shownRole s st ≠ r
  s |> setR (Page.stn st) Reg.stnStatusRole r |> raiseIf changed (Page.stn st) Ev.stnRoleChange

/-- Whether a port is open (R144): the state its receiving station shows. -/
def portOpen (s : State) (p : Side) : Bool := flag s (Page.stn (rxStation p)) Reg.stnStatusRxOpen

/-- A port opened or closed: RX_OPEN of the station that receives from it, TX_OPEN of the one that sends on it, QUARANTINED (R144). -/
def setPortOpen (p : Side) (b : Bool) (s : State) : State :=
  s |> setFlag (Page.stn (rxStation p)) Reg.stnStatusRxOpen b |> setFlag (Page.stn p) Reg.stnStatusTxOpen b
    |> setLevel (Page.stn (rxStation p)) Ev.stnQuarantined (!b)

/-- Whether a port is open and up. -/
def portOpenUp (s : State) (p : Side) : Bool := portOpen s p && linkUp s p

/-- Whether a station can send a gallery now: its transmit port open and up, its page not fenced (R140). -/
def canSend (s : State) (st : Side) : Bool := portOpenUp s (txPort st) && !pageFenced s (Page.stn st)

/-- The hop latency h in ns (R123). -/
def hopNs (rate : Nat) : Nat := if rate = 0 then 180 else 420

/-- The Staircase that galleries of a cycle are executed under: the previous bank for cycles before the activation, while it is
RETIRING (R111). -/
def bankFor (s : State) (c : Nat) : Memory :=
  if pendState s = pendRetiring && c < s.stair.actCycle then s.stair.pend else s.stair.active

/-- ns after the boundary of a cycle, by TB0; negative before it. -/
def sinceBoundary (s : State) (c : Nat) : Int := (s.time.tb0 : Int) - (c * period s : Nat)

/-- EXPECT_NS of the receive port of a station for the flight of a cycle. -/
def expectNs (s : State) (st : Side) (c : Nat) : Nat := arrivalExpect (bankFor s c) (nodeId s) (flightFor s c) (isEast (rxPort st))
def earlyNs (s : State) (st : Side) (c : Nat) : Nat := arrivalEarly (bankFor s c) (nodeId s) (flightFor s c) (isEast (rxPort st))
def lateNs (s : State) (st : Side) (c : Nat) : Nat := arrivalLate (bankFor s c) (nodeId s) (flightFor s c) (isEast (rxPort st))

/-- ns after the boundary of cycle c of the slot time S_c (R135). -/
def slotNs (s : State) (st : Side) (c : Nat) : Nat := expectNs s st c + hopNs (imgRate (bankFor s c))

/-- LOOP_CYCLES (R156): ⌈E / P⌉ for the larger EXPECT_NS of the hub's two ARRIVAL entries in the current flight. -/
def loopCycles (s : State) : Nat :=
  let m := s.stair.active
  if staircaseActive s then
    ceilDiv (max (arrivalExpect m (nodeId s) (curFlight s) true) (arrivalExpect m (nodeId s) (curFlight s) false)) (period s)
  else 0

/-! ### Port stamps (R307) -/

/-- The key of a stamp. -/
def stampKey (c : Nat) (p : Side) (dep : Bool) : Nat := 4 * c + 2 * b2n (isEast p) + b2n dep

/-- A stamp recorded; stamps of the last 16 cycles are kept. -/
def recordStamp (c : Nat) (p : Side) (dep : Bool) (v : Int) (s : State) : State :=
  let m := storePut (stampKey c p dep) v s.time.stamps
  { s with time := { s.time with stamps := m.filter fun e => c < e.1 / 4 + 16 } }

end Sys2Proof.Machine
end

