-- ==== Sys2Proof/Machine/Keys.lean ====
section
/-!
DEFINITION. Key drawers and the life-cycle (R409–R427): slots and tags, the drawer commands with their checks in order, the ring key switch, the
key service, and transitions.
-/

namespace Sys2Proof.Machine

open Sys2Proof

/-! ### Slots (R409–R414) -/

/-- n zero bytes. -/
def zeros (n : Nat) : List Byte := List.replicate n 0

/-- A byte string cut or padded with zeros to n bytes. -/
def fit (n : Nat) (bs : List Byte) : List Byte := (bs ++ zeros (n - bs.length)).take n

/-- An EMPTY slot. -/
def drawerEmpty : Drawer := { material := zeros 64, attr := 0, tag := zeros 8, st := 0 }

def slotEmpty : Nat := 0
def slotValid : Nat := 1
def slotBad : Nat := 2

/-- A drawer slot. -/
def drawerOf (s : State) (n : Nat) : Drawer := storeGet drawerEmpty s.key.slots n

/-- A drawer slot replaced. -/
def setDrawer (n : Nat) (d : Drawer) (s : State) : State := { s with key := { s.key with slots := storeSet drawerEmpty s.key.slots n d } }

/-- Fields of the attribute word (Drawer attribute word table). -/
def attrType (a : Nat) : Nat := bits a 2 0
def attrUsage (a : Nat) : Nat := bits a 7 3
def attrVerify (a : Nat) : Bool := bit a 3
def attrCmac (a : Nat) : Bool := bit a 4
def attrGcm (a : Nat) : Bool := bit a 5
def attrKdf (a : Nat) : Bool := bit a 6
def attrWrap (a : Nat) : Bool := bit a 7
def attrAnyWorld (a : Nat) : Bool := bit a 8
def attrLock (a : Nat) : Bool := bit a 12
def attrAes (a : Nat) : Bool := attrType a = 1 || attrType a = 2
def attrPub (a : Nat) : Bool := attrType a = 3 || attrType a = 4

/-- Whether an attribute word is consistent (R411). -/
def attrOk (a : Nat) : Bool :=
  attrUsage a ≠ 0 && ((attrPub a && attrUsage a = 1) || (attrAes a && !attrVerify a && (attrType a = 2 || (!attrWrap a && !attrKdf a))))

/-- The key bytes of an AES slot (Key material layout). -/
def aesKey (d : Drawer) : List Byte := d.material.take (if attrType d.attr = 1 then 16 else 32)

/-- Material as a slot holds it: bytes that the type does not name are 0 (R410). -/
def materialFor (attr : Nat) (bs : List Byte) : List Byte :=
  fit 64 (bs.take (match attrType attr with
    | 1 => 16
    | 2 => 32
    | 4 => 49
    | _ => 64))

/-- The integrity tag of a slot's content (R413). -/
def drawerTag (n attr : Nat) (material : List Byte) : List Byte :=
  (Config.aesCmac Config.rootKey (leBytes 1 n ++ leBytes 4 attr ++ material)).take 8

/-- Whether a slot's tag is good. -/
def tagGood (n : Nat) (d : Drawer) : Bool := d.tag = drawerTag n d.attr d.material

/-- A slot written: VALID, with its tag computed (R413). -/
def writeDrawer (n attr : Nat) (material : List Byte) (s : State) : State :=
  let m := materialFor attr material
  setDrawer n { material := m, attr := attr, tag := drawerTag n attr m, st := slotValid } s

/-- A slot whose tag fails becomes BAD (R414). -/
def spoilDrawer (n : Nat) (s : State) : State := setDrawer n { drawerOf s n with material := zeros 64, st := slotBad } s

/-- Whether the secure classes or a slot's CLASS_MASK and WORLD permit a class (R418). -/
def classPermits (d : Drawer) (cls : Nat) : Bool := bit d.attr (16 + cls) && (attrAnyWorld d.attr || secureClass cls)

/-- Whether LC_MASK permits the life-cycle state. -/
def lcPermits (s : State) (d : Drawer) : Bool := decide (1 ≤ s.key.lc ∧ s.key.lc ≤ 3) && bit d.attr (8 + s.key.lc)

/-- Whether a key or parent may be used by a class (R418). -/
def keyPermits (s : State) (d : Drawer) (cls : Nat) : Bool := classPermits d cls && lcPermits s d

/-! ### The ring key (R415, R420, R421) -/

/-- The slot of the ring key. -/
def ringSlot (s : State) : Nat := 8 + getR s Page.duplex Reg.duplexCfgKeySlot

/-- The slot that signs messages in galleries of a cycle: the previous one before the last switch (R420). -/
def ringSlotFor (s : State) (c : Nat) : Nat := if c < s.key.switched then s.key.oldSlot else ringSlot s

/-- Whether a slot can serve as ring key now (R421). -/
def ringUsable (s : State) (n : Nat) : Bool :=
  let d := drawerOf s n
  d.st = slotValid && attrAes d.attr && attrCmac d.attr && keyPermits s d classNewel

/-- CMAC-64 under the ring key of a cycle's galleries (R185). -/
def ringCmac (s : State) (c : Nat) (msg : List Byte) : Nat := leNat ((Config.aesCmac (aesKey (drawerOf s (ringSlotFor s c))) msg).take 8)

/-- The levels that follow the slots: DRAWER_BAD and KEY_UNUSABLE (R414, R421). -/
def syncKey (s : State) : State :=
  s |> setLevel Page.key Ev.keyDrawerBad (s.key.slots.any fun e => e.2.st = slotBad)
    |> setLevel Page.key Ev.keyKeyUnusable (!ringUsable s (ringSlot s))

/-- The bridge takes its copy of the ring key, whose tag is checked (R414, R415). -/
def takeRingKey (s : State) : State :=
  let n := ringSlot s
  s |> whenS ((drawerOf s n).st = slotValid && !tagGood n (drawerOf s n)) (spoilDrawer n) |> syncKey

/-- The ring key switches at the boundary of RING_AT (R420). -/
def ringSwitch (c : Nat) (s : State) : State :=
  if flag s Page.key Reg.keyRingSwitchPend && decide (s.key.switchAt ≤ c) then
    let next := getR s Page.key Reg.keyRingRingNext
    { s with key := { s.key with oldSlot := ringSlot s, switched := s.key.switchAt } }
    |> setR Page.duplex Reg.duplexCfgKeySlot next |> setFlag Page.key Reg.keyRingSwitchPend false |> raiseEv Page.key Ev.keyRingSwitched
    |> journal none 0x05 (8 + next + 2 ^ 8 * 0x30) (drawerOf s (8 + next)).attr 0 |> takeRingKey
  else s

/-- A word of SLOT_STATE. -/
def slotStateWord (s : State) (i : Nat) : Nat :=
  ((List.range 16).map fun k => (drawerOf s (16 * i + k)).st * 2 ^ (2 * k)).foldl (· + ·) 0

/-- The word that the KEY indirect pair reads: attribute words, public key material; none for an index or space that does not exist. -/
def keyIndRead (s : State) (addr : Nat) : Option Nat :=
  let i := addr % 2 ^ 16
  match bits addr 17 16 with
  | 0 => if i < 64 then some (drawerOf s i).attr else none
  | 1 =>
    if i < 1024 then
      let d := drawerOf s (i / 16)
      some (if d.st = slotValid && attrPub d.attr then leNat ((d.material.drop (4 * (i % 16))).take 4) else 0)
    else none
  | _ => none

/-! ### Result codes (Result codes table) -/

def keyOk : Nat := 0
def keyState : Nat := 1
def keySlotErr : Nat := 2
def keyLocked : Nat := 3
def keyEmpty : Nat := 4
def keyUsage : Nat := 5
def keyClass : Nat := 6
def keyBad : Nat := 7
def keySigFail : Nat := 8
def keyTagFail : Nat := 9
def keyDenied : Nat := 0xA
def keyFormat : Nat := 0xB
def keyAuth : Nat := 0xC
def keyEntropy : Nat := 0xD
def keyLate : Nat := 0xE
def keyGated : Nat := 0xF
def keyExhausted : Nat := 0x10

/-- Whether a code is in the Drawer commands table. -/
def keyKnown (c : Nat) : Bool := decide (1 ≤ c ∧ c ≤ 6) || decide (0x10 ≤ c ∧ c ≤ 0x15) || c = 0x20 || c = 0x21 || c = 0x30

/-- Whether the life-cycle state admits a command (Drawer commands table, R412). -/
def keyStateOk (lc code slot : Nat) : Bool :=
  let prov := lc = 1 || lc = 3
  let live := prov || lc = 2
  match code with
  | 0x01 => if slot < 4 then lc = 0 else prov
  | 0x02 | 0x03 | 0x05 | 0x30 => live
  | 0x04 => if slot < 4 then live else if slot < 8 then prov else live
  | 0x06 | 0x14 => true
  | 0x10 | 0x11 | 0x12 | 0x13 => live
  | _ => lc ≠ 4

/-- Whether the slot numbers are in range for a command (R417); a request record may name slots that do not exist. -/
def keySlotOk (c : KeyCmd) : Bool :=
  match c.code with
  | 0x02 | 0x03 => decide (8 ≤ c.slot ∧ c.slot < 64 ∧ c.parent < 64)
  | 0x04 => decide (4 ≤ c.slot ∧ c.slot < 64)
  | 0x01 | 0x05 | 0x06 | 0x10 | 0x11 | 0x12 | 0x13 => decide (c.slot < 64)
  | 0x14 => decide (c.slot < 2)
  | 0x30 => decide (8 ≤ c.slot ∧ c.slot < 16)
  | _ => true

/-- The slot a command uses as key or parent; none for a command without one. -/
def keySource (c : KeyCmd) : Option Nat :=
  match c.code with
  | 0x02 | 0x03 => some c.parent
  | 0x06 | 0x10 | 0x11 | 0x12 | 0x13 | 0x30 => some c.slot
  | _ => none

/-- Whether types, usages and attribute words suit a command (R411, R416, R418). -/
def keyUsageOk (s : State) (c : KeyCmd) : Bool :=
  let d := drawerOf s ((keySource c).getD 0)
  match c.code with
  | 0x01 => attrOk c.attr
  | 0x02 => attrOk c.attr && attrWrap d.attr
  | 0x03 => attrOk c.attr && attrAes c.attr && attrKdf d.attr
  | 0x06 => attrPub d.attr
  | 0x10 => attrVerify d.attr
  | 0x11 => attrCmac d.attr
  | 0x12 | 0x13 => attrGcm d.attr
  | 0x30 => attrAes d.attr && attrCmac d.attr
  | _ => true

/-- Whether the class may give a command (R418). -/
def keyClassOk (s : State) (c : KeyCmd) : Bool :=
  let d := drawerOf s ((keySource c).getD 0)
  match c.code with
  | 0x02 | 0x03 | 0x10 | 0x11 | 0x12 | 0x13 => keyPermits s d c.actAs
  | 0x04 | 0x05 => secureClass c.actAs || classPermits (drawerOf s c.slot) c.actAs
  | 0x30 => secureClass c.actAs || c.actAs = classHost || c.actAs = classLocal || c.actAs = classMaster
  | _ => true

/-- The bytes a command reads at SRC and writes at DST (Drawer commands table). -/
def keyLengths (s : State) (c : KeyCmd) : Nat × Nat :=
  match c.code with
  | 0x01 => (64, 0)
  | 0x02 => (92, 0)
  | 0x03 => (c.len, 0)
  | 0x06 => (0, 64)
  | 0x10 => (c.len, 0)
  | 0x11 => (c.len, 16)
  | 0x12 => (c.len, c.len - 14 - leNat ((dramRead s (c.src + 12) 2)) + 16)
  | 0x13 => (c.len, c.len - 30 - leNat ((dramRead s (c.src + 12) 2)))
  | 0x14 => (c.len, if c.slot = 0 then 32 else 48)
  | 0x15 => (0, c.len)
  | 0x21 => (0x20 + (if attrType (drawerOf s (leNat (dramRead s (c.src + 6) 1))).attr = 4 then 96 else 64), 0)
  | _ => (0, 0)

/-- The checks of a command in the order of R417, up to the DRAM access; 0 where all pass. -/
def keyCheck (s : State) (c : KeyCmd) : Nat :=
  let src := keySource c
  let d := drawerOf s (src.getD 0)
  let target := drawerOf s c.slot
  let writes := c.code = 0x01 || c.code = 0x02 || c.code = 0x03
  let (rd, wr) := keyLengths s c
  if !keyKnown c.code then keyFormat
  else if !keyStateOk s.key.lc c.code c.slot then keyState
  else if !gateOn s 6 || pageFenced s Page.key then keyGated
  else if !keySlotOk c then keySlotErr
  else if (writes || c.code = 0x04) && attrLock target.attr then keyLocked
  else if src.isSome && d.st = slotEmpty then keyEmpty
  else if src.isSome && d.st = slotBad then keyBad
  else if (writes || c.code = 0x04 || c.code = 0x05) && target.st = slotBad && (!writes || !debugState s) then keyBad
  else if !keyUsageOk s c then keyUsage
  else if !keyClassOk s c then keyClass
  else if src.isSome && !tagGood (src.getD 0) d then keyBad
  else if (rd ≠ 0 && !dramAllowed s c.src rd c.actAs .read) || (wr ≠ 0 && !dramAllowed s c.dst wr c.actAs .write) then keyDenied
  else keyOk

/-! ### Life-cycle transitions (R424–R427) -/

/-- The standing nonce, 16 bytes. -/
def lcNonce (s : State) : List Byte := (List.range 4).flatMap fun i => leBytes 4 (getR s Page.key (Reg.keyLcNonce i))

/-- The nonce is consumed or discarded. -/
def dropNonce (s : State) : State :=
  s |> setFlag Page.key Reg.keyStatusNonceValid false |> forEach (List.range 4) (fun i u => setR Page.key (Reg.keyLcNonce i) 0 u)

/-- The unique identifier (R517): the fuses, with the two values that no part has excluded. -/
def uid : Nat :=
  let v := Config.uidFuses.toNat
  if v = 0 ∨ v = 2 ^ 64 - 1 then 1 else v

/-- Whether the pair FROM, TO and the signer stand in the Transitions table. -/
def transitionListed (s : State) (from_ upto signer : Nat) : Bool :=
  let empty (lo hi : Nat) : Bool := ((List.range (hi + 1 - lo)).all fun i => (drawerOf s (lo + i)).st = slotEmpty)
  let owner := decide (4 ≤ signer ∧ signer < 8) || (decide (signer < 4) && empty 4 7)
  match from_, upto with
  | 0, 1 => decide (signer < 4) && ((List.range 4).all fun i => (drawerOf s i).st = slotValid)
  | 1, 2 => decide (signer < 8)
  | 2, 3 => owner
  | 3, 2 => owner
  | 1, 4 | 2, 4 | 3, 4 => decide (signer < 8)
  | _, _ => false

/-- The result of an authorisation record at SRC (R424–R426). -/
def transitionResult (s : State) (c : KeyCmd) : Nat :=
  let r := dramRead s c.src (0x20 + 96)
  let signer := (r.getD 6 0).toNat
  let d := drawerOf s signer
  let upto := (r.getD 5 0).toNat
  let n := if attrType d.attr = 4 then 96 else 64
  let body := r.take 0x20
  let digest := if attrType d.attr = 4 then Config.sha384 body else Config.sha256 body
  if flag s Page.key Reg.keyStatusNonceValid && r.take 4 = [0x4C, 0x43, 0x41, 0x31] && (r.getD 4 0).toNat = s.key.lc
      && leNat ((r.drop 8).take 8) = uid && (r.drop 0x10).take 16 = lcNonce s && d.st = slotValid && tagGood signer d && attrVerify d.attr
      && classPermits d c.actAs && transitionListed s s.key.lc upto signer && Config.ecdsaVerify d.material digest ((r.drop 0x20).take n) then
    if upto = 3 ∧ s.key.svcLeft = 0 then keyExhausted else keyOk
  else keyAuth

/-- The debug port follows the life-cycle state and DAP_EN: a session ends when debug closes (R426, R429). -/
def syncDebug (s : State) : State :=
  let open_ := debugState s && flag s Page.debug Reg.debugDbgCtrlDapEn
  s |> setFlag Page.debug Reg.debugDbgStatusAvailable open_ |> whenS (!open_) (setFlag Page.debug Reg.debugDbgStatusActive false)

/-- Every slot wiped, in the hub and in the node record (R427). -/
def wipeDrawers (s : State) : State := { s with key := { s.key with slots := [], stored := [] } }

/-- A transition takes effect when its fuse write completes (R426): the new state, SERVICE_LEFT, what the Transitions table adds, the journal
entry and LC_CHANGE. -/
def takeTransition (who : Option Master) (upto : Nat) (s : State) : State :=
  let from_ := s.key.lc
  let nonce := leNat ((lcNonce s).take 8)
  let k := { s.key with
    lc := upto, svcLeft := if upto = 3 then s.key.svcLeft - 1 else s.key.svcLeft }
  let lock (u : State) : State := forEach (List.range 4) (fun i v =>
    let d := drawerOf v i
    let a := d.attr ||| 2 ^ 12
    setDrawer i { d with attr := a, tag := drawerTag i a d.material } v) u
  { s with key := k }
  |> whenS (from_ = 0) lock |> whenS (upto = 4) wipeDrawers
  |> journal who 0x0B upto nonce 0 |> raiseEv Page.key Ev.keyLcChange |> syncDebug

/-! ### The operations (Drawer commands table) -/

/-- GCM: the IV, the additional data and the rest at SRC; none when LEN is too short for its layout. -/
def gcmParts (s : State) (c : KeyCmd) (tail_ : Nat) : Option (List Byte × List Byte × List Byte × List Byte) :=
  let bs := dramRead s c.src c.len
  let aad := leNat ((bs.drop 12).take 2)
  if c.len < 14 + aad + tail_ then none
  else
    let text := (bs.drop (14 + aad)).take (c.len - 14 - aad - tail_)
    some (bs.take 12, (bs.drop 14).take aad, text, bs.drop (c.len - tail_))

/-- n bytes from the entropy source (free values). -/
def entropy (n : Nat) (s : State) : List Byte × State := freeBytes n s

/-- Whether a request record's LEN is past its DATA (Request record table). -/
def recordTooLong (c : KeyCmd) : Bool := c.record.isSome && decide (496 < c.len)

/-- The operation itself, all checks passed: the result, the output and the state. -/
def keyRun (c : KeyCmd) (s : State) : Nat × List Byte × State :=
  let d := drawerOf s ((keySource c).getD 0)
  if recordTooLong c then (keyFormat, [], s) else
  let src (n : Nat) : List Byte := dramRead s c.src n
  let fails := levelOn s Page.key Ev.keyEntropyFail
  match c.code with
  | 0x01 => (keyOk, [], writeDrawer c.slot c.attr (src 64) s)
  | 0x02 =>
    match Config.gcmDec (aesKey d) (src 12) (leBytes 1 c.slot ++ leBytes 4 c.attr) ((src 76).drop 12) ((src 92).drop 76) with
    | some m => (keyOk, [], writeDrawer c.slot c.attr (fit 64 m) s)
    | none => (keyTagFail, [], s)
  | 0x03 =>
    if 1 ≤ c.len ∧ c.len ≤ 64 then
      (keyOk, [], writeDrawer c.slot c.attr (Config.kdf (aesKey d) (src c.len) (if attrType c.attr = 1 then 16 else 32)) s)
    else (keyFormat, [], s)
  | 0x04 => (keyOk, [], setDrawer c.slot drawerEmpty s)
  | 0x05 =>
    let t := drawerOf s c.slot
    let a := t.attr ||| 2 ^ 12
    (keyOk, [], setDrawer c.slot { t with attr := a, tag := drawerTag c.slot a t.material } s)
  | 0x06 => (keyOk, d.material, s)
  | 0x10 =>
    let n := if attrType d.attr = 3 then 32 else 48
    if c.len ≠ 3 * n then (keyFormat, [], s)
    else if Config.ecdsaVerify d.material (src n) ((src c.len).drop n) then (keyOk, [], s) else (keySigFail, [], s)
  | 0x11 => (keyOk, fit 16 (Config.aesCmac (aesKey d) (src c.len)), s)
  | 0x12 =>
    match gcmParts s c 0 with
    | some (iv, aad, text, _) => (keyOk, fit (text.length + 16) (Config.gcmEnc (aesKey d) iv aad text), s)
    | none => (keyFormat, [], s)
  | 0x13 =>
    match gcmParts s c 16 with
    | some (iv, aad, text, tag) =>
      match Config.gcmDec (aesKey d) iv aad text tag with
      | some out => (keyOk, fit text.length out, s)
      | none => (keyTagFail, [], s)
    | none => (keyFormat, [], s)
  | 0x14 => (keyOk, if c.slot = 0 then fit 32 (Config.sha256 (src c.len)) else fit 48 (Config.sha384 (src c.len)), s)
  | 0x15 =>
    if !decide (1 ≤ c.len ∧ c.len ≤ 4096) then (keyFormat, [], s)
    else if fails then (keyEntropy, [], s)
    else
      let (bs, s1) := entropy c.len s
      (keyOk, bs, s1)
  | 0x20 =>
    if fails then (keyEntropy, [], s)
    else
      let (bs, s1) := entropy 16 s
      (keyOk, [], s1 |> forEach (List.range 4) (fun i u => setR Page.key (Reg.keyLcNonce i) (leNat ((bs.drop (4 * i)).take 4)) u)
                     |> setFlag Page.key Reg.keyStatusNonceValid true)
  | 0x21 =>
    let r := transitionResult s c
    if r = keyOk then (keyOk, [], takeTransition c.who ((dramRead s c.src 6).getD 5 0).toNat s) else (r, [], s)
  | _ =>
    if c.ringAt < cycleNow s + loopCycles s + 2 then (keyLate, [], s)
    else
      (keyOk, [], { s with key := { s.key with switchAt := c.ringAt } }
        |> setPair Page.key Reg.keyRingAtLo Reg.keyRingAtHi c.ringAt |> setR Page.key Reg.keyRingRingNext (c.slot - 8) |> setFlag Page.key Reg.keyRingSwitchPend true)

/-- The answer of a request record (R422): output, its length, the result, then OWNER 0x02. -/
def answerRecord (rec_ result : Nat) (out : List Byte) (s : State) : State :=
  s |> dramWrite (rec_ + 16) out |> dramWrite (rec_ + 8) (leBytes 4 out.length) |> dramWrite (rec_ + 12) (leBytes 4 result)
    |> dramWrite rec_ [2] |> raiseEv Page.key Ev.keyReqDone

/-- What a command leaves in DRAM: the answer of a service record, or the output at DST. -/
def keyOutput (c : KeyCmd) (r : Nat) (out : List Byte) (s : State) : State :=
  match c.record with
  | some rec_ => answerRecord rec_ r out s
  | none => whenS (!out.isEmpty) (dramWrite c.dst out) s

/-- A command completes (R417): its checks, its operation, its result; a failed command changes no slot and writes nothing to DST, and a tag
that fails spoils its slot. Changed drawers are in flash before it completes (R412). -/
def keyFinish (c : KeyCmd) (s : State) : State :=
  let code := keyCheck s c
  let badTag := match keySource c with
    | some n => code = keyBad && (drawerOf s n).st = slotValid
    | none => false
  let failed := (code, ([] : List Byte), whenS badTag (spoilDrawer ((keySource c).getD 0)) s)
  let (r, out, s1) := if code = keyOk then keyRun c s else failed
  let s2 := whenS (c.code = 0x21) dropNonce s1
  { s2 with key := { s2.key with running := none, stored := s2.key.slots } }
  |> keyOutput c r out
  |> setFlag Page.key Reg.keyStatusBusy false
  |> setR Page.key Reg.keyResultCode r |> setR Page.key Reg.keyResultCommand c.code |> setR Page.key Reg.keyResultSlot c.slot
  |> whenS (c.code ≠ 0x21 || r ≠ keyOk) (journal c.who 0x05 (c.slot % 64 + 2 ^ 8 * c.code) (c.attr + 2 ^ 32 * r) r)
  |> raiseEv Page.key (if r = keyOk then Ev.keyCmdDone else Ev.keyCmdFail)
  |> raiseIf (c.code = 0x21 && r = keyAuth) Page.key Ev.keyLcFail
  |> syncKey

/-- A command begins (R416): ignored while BUSY; a command that fails its checks ends at once. -/
def keyStart (c : KeyCmd) (s : State) : State :=
  if flag s Page.key Reg.keyStatusBusy then
    s |> incCnt Page.key Reg.keyRefuseCnt |> raiseEv Page.evt Ev.evtCmdRefused
      |> journalRefused c.who 0x05 (c.slot % 64 + 2 ^ 8 * c.code) c.attr
  else if keyCheck s c ≠ keyOk then keyFinish c s
  else setFlag Page.key Reg.keyStatusBusy true { s with key := { s.key with running := some c } }

/-- RING_AT. -/
def ringAt (s : State) : Nat := getPair s Page.key Reg.keyRingAtLo Reg.keyRingAtHi

/-- The command that a CMD write by a master stands for, with the operand registers as they stand (R416). The secure classes act as the class
in OP_ACT_AS; 0xF acts as 0x1. -/
def keyCmdOf (s : State) (m : Master) (code : Nat) : KeyCmd :=
  let g (f : Fld) := getR s Page.key f
  let act := g Reg.keyOpActAs
  { code := code, slot := g Reg.keyOpSlotSlot, parent := g Reg.keyOpSlotParent, attr := g Reg.keyOpAttrAttr &&& 0xFFFF1FFF, src := g Reg.keyOpSrc
    dst := g Reg.keyOpDst, len := g Reg.keyOpLen, actAs := if secureClass m.cls.val then (if act = 15 then 1 else act) else m.cls.val
    ringAt := ringAt s, record := none, who := some m }

/-- A guarded write of KEY.CMD. -/
def keyCommand (m : Master) (code : Nat) (s : State) : State := keyStart (keyCmdOf s m code) s

/-- The running command completes. -/
def keyDone (s : State) : State :=
  match s.key.running with
  | some c => keyFinish c s
  | none => s

/-- One step of the background scrub (R413–R415): the next slot's tag is checked if it is VALID; it pauses while CRYPTO is gated and waits
while a command runs. -/
def scrubStep (s : State) : State :=
  if !gateOn s 6 || s.key.running.isSome then s
  else
    let n := s.key.scrub % 64
    let d := drawerOf s n
    { s with key := { s.key with scrub := (n + 1) % 64 } }
    |> whenS (d.st = slotValid && !tagGood n d) (spoilDrawer n) |> whenS (n = 63) (incWrap Page.key Reg.keyScrubCnt) |> syncKey

/-! ### Key service (R422) -/

/-- The request record of class c. -/
def recordAt (s : State) (c : Nat) : Nat := getR s Page.key Reg.keyReqBaseBase * 8192 + 512 * c

/-- Whether the DRAM rows grant write rights on record c to class c and to no other non-secure class. -/
def recordRows (s : State) (c : Nat) : Bool :=
  let a := recordAt s c
  let may (cls : Nat) : Bool := (dramDenial s a 512 cls .write).isNone
  may c && ((List.range 12).all fun i => i + 3 = c || !may (i + 3))

/-- The command in request record c; its DATA serves as SRC and DST. -/
def recordCmd (s : State) (c : Nat) : KeyCmd :=
  let a := recordAt s c
  let w (o n : Nat) : Nat := leNat (dramRead s (a + o) n)
  { code := w 1 1, slot := w 2 1, parent := w 3 1, attr := w 4 4 &&& 0xFFFF1FFF, src := a + 16, dst := a + 16, len := w 8 4, actAs := c
    ringAt := w 16 6, record := some a
    who := some { cls := Fin.ofNat 15 c, ifc := 2, node := 0 } }

/-- One record is examined. -/
def serveRecord (c : Nat) (s : State) : State :=
  let a := recordAt s c
  if leNat (dramRead s a 1) ≠ 1 ∨ s.key.running.isSome then s
  else if !recordRows s c then
    if s.key.refused.contains c then s
    else raiseEv Page.key Ev.keyReqRefused { s with key := { s.key with refused := c :: s.key.refused } }
  else keyFinish (recordCmd s c) s

/-- The key service examines each record (R422). It stops with Newel (R444), unless Plinth runs it in BLANK. -/
def keyService (s : State) : State :=
  if !flag s Page.key Reg.keyReqBaseSvcEn || (s.event.newel.isSome && s.key.lc ≠ 0) || pageFenced s Page.dram then s
  else forEach ((List.range 12).map fun i => i + 3) (fun c u => serveRecord c u) s

/-- The entropy health tests fail, or 1,024 samples have passed (R419). -/
def setEntropy (ok : Bool) (s : State) : State :=
  s |> setFlag Page.key Reg.keyStatusEntropyOk ok |> setLevel Page.key Ev.keyEntropyFail (!ok)

/-- SCRUB (R413). -/
def execScrub (s : State) : Answer := alive s (scrubStep s)

/-- ENTROPY_FAIL (R419). -/
def execEntropyFail (s : State) : Answer := alive s (setEntropy false s)

/-- ENTROPY_OK (R419). -/
def execEntropyOk (s : State) : Answer := alive s (setEntropy true s)

/-! ### Debug port (R429) -/

/-- Whether JTAG debug access is available. -/
def debugAvailable (s : State) : Bool := debugState s && flag s Page.debug Reg.debugDbgCtrlDapEn

/-- An attempt is refused at the debug access port. -/
def dapDenied (s : State) : State := s |> incCnt Page.debug Reg.debugDbgStatusRefused |> raiseEv Page.debug Ev.debugDapDenied

/-- DAP_ATTACH (R429): a session begins, or the attempt is refused while debug access is not available. -/
def execDapAttach (s : State) : Answer :=
  alive s (if debugAvailable s then s |> setFlag Page.debug Reg.debugDbgStatusActive true |> raiseEv Page.debug Ev.debugDapAttach
    else dapDenied s)

/-- DAP_DENIED (R429). -/
def execDapDenied (s : State) : Answer := alive s (whenS (!debugAvailable s) dapDenied s)

/-- DAP_DETACH (R429). -/
def execDapDetach (s : State) : Answer := alive s (setFlag Page.debug Reg.debugDbgStatusActive false s)

end Sys2Proof.Machine
end

