-- ==== Sys2Proof/Machine/Transmit.lean ====
section
/-!
DEFINITION. The transmit path: striping, markers and FILLER, scrambling, injection and the test generators (R32, R35, R36, R40, R43, R56, R61–R63), and
what the items of a gallery put on the lanes, in their order (R72, R74, R81, R120, R130, R137).
-/

namespace Sys2Proof.Machine

open Sys2Proof

/-! ### One lane (R32, R61–R63) -/

/-- One transmitted 66-bit group with the requested flips (R63), put on the line. -/
def sendGroup (p : Side) (n w : Nat) (s : State) : State :=
  let (w', l) := injectGroup s p n w
  emit (.line p n w') (setLane p n l s)

/-- Whether a lane's transmitter carries blocks: its PLL is locked in TRAINING or ACTIVE and TX_EN is set (Lane states table). -/
def laneSends (s : State) (p : Side) (n : Nat) : Bool :=
  (laneStateOf s p n = laneTraining || laneStateOf s p n = laneActive) && laneFlag s p (Reg.laneLLstatusPllLock n) &&
    laneFlag s p (Reg.laneLLctrlTxEn n)

/-- A block on a lane: scrambled, its parity kept for the next marker (R32, R36). -/
def laneBlock (p : Side) (n sync payload bip : Nat) (s : State) : State :=
  let l := laneOf s p n
  let (line, scr) := scramble l.scr payload
  sendGroup p n (sync + 4 * line) (setLane p n { l with scr := scr, txBip := bip } s)

/-- A content or FILLER block on a lane that sends. -/
def laneData (p : Side) (sync payload n : Nat) (s : State) : State :=
  whenS (laneSends s p n) (laneBlock p n sync payload ((laneOf s p n).txBip ^^^ bipOf payload)) s

/-- A marker on a lane that sends: this hub's node ID, the port's sequence number, the parity of the blocks since the last one (R36). -/
def laneMarker (p : Side) (n : Nat) (s : State) : State :=
  whenS (laneSends s p n) (laneBlock p n 2
    (markerBlock n (getR s (Page.lane p) Reg.lanePortCfgWidth) (!isEast p) (portOf s p).txSeq (nodeId s) (laneOf s p n).txBip) 0) s

/-! ### Stripes (R39, R40, R43, R56) -/

/-- Lanes beyond the stream's width that are awake send FILLER of their own for every stripe (R56). -/
def wakingFiller (p : Side) (s : State) : State :=
  forEach ((List.range 4).filter fun n => txLanes s p ≤ n) (laneData p 2 fillerBlock) s

/-- A stripe of FILLER blocks; awake lanes beyond the width send one too. -/
def fillerStripe (p : Side) (s : State) : State :=
  let t := forEach (List.range 4) (laneData p 2 fillerBlock) s
  setPort p { portOf t p with sinceMark := (portOf t p).sinceMark + 1, col := 0 } t

/-- A stripe of markers, of one sequence number; awake lanes beyond the width send it too. DESIGN CHOICE (log entry 182): their idle streams take the
port's markers. -/
def markerOut (p : Side) (s : State) : State :=
  let t := forEach (List.range 4) (laneMarker p) s
  setPort p { portOf t p with txSeq := ((portOf t p).txSeq + 1) % 2 ^ 16, sinceMark := 1, col := 0 } t

/-- The rest of a stripe that a gallery left unfinished is FILLER. DESIGN CHOICE (log entry 183): only a gallery that breaks its layout leaves one. -/
def closeStripe (p : Side) (s : State) : State :=
  if (portOf s p).col = 0 then s
  else
    let t := forEach ((List.range 4).filter fun n => (portOf s p).col ≤ n) (laneData p 2 fillerBlock) s
    setPort p { portOf t p with sinceMark := (portOf t p).sinceMark + 1, col := 0 } t

/-- The FILLER stripes that a riser sent now needs at least (R43). -/
def leastRiser (s : State) (p : Side) : Nat := leastFill (portOf s p).sinceMark

/-- A riser: the marker stripe and its FILLER stripes, never fewer than R43 asks. -/
def sendRiser (p : Side) (fill : Nat) (s : State) : State :=
  let t := closeStripe p s
  forEach (List.range (max fill (leastRiser t p))) (fun _ => fillerStripe p) (markerOut p t)

/-- A stream block: block j of a run goes to lane j mod W (R40). -/
def sendBlock (p : Side) (sync payload : Nat) (s : State) : State :=
  let v := portOf s p
  let t := laneData p sync payload v.col s
  if v.col + 1 < txLanes s p then setPort p { portOf t p with col := v.col + 1 } t
  else
    let u := wakingFiller p t
    setPort p { portOf u p with sinceMark := (portOf u p).sinceMark + 1, col := 0 } u

/-- One stripe of the idle stream: a marker stripe at least every 4,096 blocks per lane, else FILLER (R43). -/
def idleStripe (p : Side) (s : State) : State :=
  if (portOf s p).sinceMark = 0 ∨ 4096 ≤ (portOf s p).sinceMark then markerOut p s else fillerStripe p s

/-! ### Test modes (R61, R62) -/

/-- The generator's next group of a lane and the lane after it; none while TX_PAT is off. -/
def nextPattern (s : State) (p : Side) (n : Nat) : Option (Nat × LaneState) :=
  (prbsTaps (getR s (Page.lane p) (Reg.laneLPrbsCtrlTxPat n))).map fun taps =>
    let (w, h) := prbsBits taps (laneFlag s p (Reg.laneLPrbsCtrlTxInv n)) (laneOf s p n).prbsGen 0 66
    (w, { laneOf s p n with prbsGen := h })

/-- A 66-bit group at the checker of a lane in TEST: it counts bits and errors once it is locked (R62). -/
def prbsReceive (p : Side) (n group : Nat) (s : State) : State :=
  let pg := Page.lane p
  let l := laneOf s p n
  match prbsTaps (getR s pg (Reg.laneLPrbsCtrlRxPat n)) with
  | none => s
  | some taps =>
    let locked := laneFlag s p (Reg.laneLLstatusPrbsLock n)
    let (errs, hist) := prbsCheck taps (laneFlag s p (Reg.laneLPrbsCtrlRxInv n)) locked group l.prbsHist 0 66
    let s1 := setLane p n { l with prbsHist := hist, prbsClean := l.prbsClean && !(locked && errs ≠ 0) } s
    if !locked then s1
    else
      s1 |> addPair pg (Reg.laneLPrbsBitsLo n) (Reg.laneLPrbsBitsHi n) 66
         |> addPair pg (Reg.laneLPrbsErrLo n) (Reg.laneLPrbsErrHi n) errs
         |> raiseIf (l.prbsClean && errs ≠ 0) pg Ev.lanePrbsErr

def modeMission : Nat := 0
def modePrbs : Nat := 1
def modeNearLb : Nat := 2
def modeFarLb : Nat := 3

/-- Ln_LCTRL.MODE. -/
def laneModeOf (s : State) (p : Side) (n : Nat) : Nat := getR s (Page.lane p) (Reg.laneLLctrlMode n)

/-- What a group does that a lane in NEAR_LB sends: the flips of R63, the loop to its own receiver, and the pads unless TX_IDLE holds them idle. -/
def nearLoop (p : Side) (n w : Nat) (s : State) : State :=
  let (w', l) := injectGroup s p n w
  s |> setLane p n l |> whenS (!laneFlag s p (Reg.laneLLctrlTxIdle n)) (emit (.line p n w')) |> prbsReceive p n w'

/-- One group time of a lane in TEST (R61): PRBS sends the generator's group, NEAR_LB loops it too. -/
def testGroup (p : Side) (n : Nat) (s : State) : State :=
  if laneStateOf s p n ≠ laneTest ∨ !laneFlag s p (Reg.laneLLstatusPllLock n) ∨ !laneFlag s p (Reg.laneLLctrlTxEn n) then s
  else
    match nextPattern s p n with
    | none => s
    | some (w, l) =>
      if laneModeOf s p n = modePrbs then sendGroup p n w (setLane p n l s)
      else if laneModeOf s p n = modeNearLb then nearLoop p n w (setLane p n l s)
      else s

/-! ### Time on the line -/

/-- The time of a block on one lane in ps, at the rate in force (R54, R67). -/
def lanePs (s : State) (p : Side) : Nat := if (portOf s p).rate = 0 then 2560 else 6400

/-- Whether a port sends the idle stream of its own (R43): its station is between galleries, and does not pass on a link's stream (R143). -/
def portIdle (s : State) (p : Side) : Bool :=
  !(stationOf s p).sending && !(!staircaseActs s && linkUp s (rxPort p))

/-- Whether anything leaves a port while time passes. -/
def portSends (s : State) (p : Side) : Bool :=
  (List.range 4).any fun n => laneFlag s p (Reg.laneLLstatusPllLock n) && decide (1 ≤ laneStateOf s p n ∧ laneStateOf s p n ≠ laneQuiet)

/-- What leaves a port in the ns that have passed since TB2 was `before`: the idle stream from the end of its last gallery on, and the groups of lanes
in TEST. -/
def portTime (before : Nat) (p : Side) (s : State) : State :=
  if !portSends s p then s
  else
    let groups (ns : Nat) : Nat := s.time.tb2 * 1000 / lanePs s p - (s.time.tb2 - ns) * 1000 / lanePs s p
    let past := s.time.tb2 - before
    s |> whenS (portIdle s p) (forEach (List.range (groups (min past (s.time.tb0 - (stationOf s p).sendEnd)))) (fun _ => idleStripe p))
      |> forEach (List.range (groups past)) (fun _ u => forEach (List.range 4) (testGroup p) u)

/-! ### The items of a gallery (R72, R74, R81, R120, R130, R137) -/

/-- The key of a tread's snapshot: the last two cycles' are kept apart, since the two directions may send different cycles (R77). -/
def snapKey (t c : Nat) : Nat := 2 * t + c % 2

/-- The snapshot of a tread for a cycle, once it has been taken (R77). -/
def snapOf (s : State) (t c : Nat) : Option Snapshot :=
  match storeFind (snapKey t c) s.image.snaps with
  | some sn => if sn.cycle = c then some sn else none
  | none => none

/-- The key of a share's contents. -/
def shareKey (st : Side) (i : Nat) : Nat := b2n (dirWest st) * 65536 + i

/-- What a cycle's share holds so far. -/
def shareBlocks (s : State) (st : Side) (c i : Nat) : List Nat :=
  match storeFind (shareKey st i) s.bridge.shares with
  | some (c0, bs) => if c0 = c then bs else []
  | none => []

/-- The data blocks of a byte string, 8 bytes each, the first lowest (R75). -/
def dataBlocks : Nat → List Byte → List Nat
  | 0, _ => []
  | n + 1, bs => leNat (bs.take 8) :: dataBlocks n (bs.drop 8)

/-- A tread's payload blocks and trailer block (R75). -/
def treadBlocks (payload : List Byte) (trailer : Nat) : List (Nat × Nat) :=
  (dataBlocks (payload.length / 8) payload ++ [trailer]).map fun w => (1, w)

/-- A writer's tread: TAG of the gallery's cycle, THROUGH 0; REWRITTEN at a standby (R120). -/
def ownTread (m : Memory) (f t : Nat) (sn : Snapshot) (rewritten : Bool) : List (Nat × Nat) :=
  treadBlocks sn.payload (trailerOf (crc32c sn.payload) sn.cycle (treadWriter m f t) sn.void false rewritten)

/-- A share in full: its messages from the first block, then idle blocks (R81). -/
def shareContent (len : Nat) (bs : List Nat) : List (Nat × Nat) :=
  ((bs ++ List.replicate (len - bs.length) idleBlock).take len).map fun w => (1, w)

/-- The blocks of an item of the gallery that a station sends, of cycle c under a Staircase and flight; none while an own tread has no snapshot yet. -/
def itemBlocks (s : State) (st : Side) (m : Memory) (f c : Nat) : OutItem → Option (List (Nat × Nat))
  | .block sync pl => some [(sync, pl)]
  | .own t => (snapOf s t c).map fun sn => ownTread m f t sn false
  | .through _ => none
  | .tread _ payload trailer => some (treadBlocks payload trailer)
  | .cut _ zeros trailer => some (List.replicate zeros (1, 0) ++ [(1, trailer)])
  | .share i => some (shareContent (shareLen m f i) (shareBlocks s st c i))
  | .idleShare i => some (shareContent (shareLen m f i) [])
  | .pad n => some (shareContent n [])
  | .riser _ => some []
  | .idleStream => some []

/-- A VOID placeholder of a tread (R120). -/
def placeholder (m : Memory) (f t c : Nat) : OutItem :=
  let z := List.replicate (treadBytes m f t) (0 : Byte)
  .tread t z (trailerOf (crc32c z) c (treadWriter m f t) true false false)

/-- The stored copy of a THROUGH tread that may be carried into a gallery of cycle c (R130). -/
def carriable (v : StationState) (t c : Nat) : Option ThroughCopy :=
  match storeFind t v.through with
  | none => none
  | some cp =>
    let age := (c + 2 ^ 20 - cp.tag) % 2 ^ 20
    let newer := match storeFind t v.lastWritten with
      | some w => decide (1 ≤ (cp.tag + 2 ^ 20 - w) % 2 ^ 20 ∧ (cp.tag + 2 ^ 20 - w) % 2 ^ 20 < 2 ^ 19)
      | none => true
    if 1 ≤ age && age ≤ 16 && newer then some cp else none

/-- A THROUGH tread is decided as its position is sent (R130): the stored copy, counted, or a placeholder. -/
def decideThrough (st : Side) (m : Memory) (f c t : Nat) (s : State) : OutItem × State :=
  match carriable (stationOf s st) t c with
  | some cp =>
    (.tread t cp.payload (trailerOf (crc32c cp.payload) cp.tag cp.writer false true false),
      s |> setStation st { stationOf s st with lastWritten := storePut t cp.tag (stationOf s st).lastWritten }
        |> incCnt (Page.stn st) Reg.stnCarryCnt)
  | none => (placeholder m f t c, s)

/-- The item at the cursor of what a station sends, in the form it goes out in. -/
def nextItem (st : Side) (m : Memory) (s : State) : Option (OutItem × State) :=
  let v := stationOf s st
  match v.out[v.cursor]? with
  | some (.through t) =>
    let (item, u) := decideThrough st m v.sendFlight v.sendCycle t s
    some (item, setStation st { stationOf u st with out := (stationOf u st).out.set v.cursor item } u)
  | some item => some (item, s)
  | none => none

/-- The layout positions that an item takes; the lead riser stands before position 0 (R68). -/
def itemLength (s : State) (st : Side) (lead : Bool) (item : OutItem) (blocks : List (Nat × Nat)) : Nat :=
  match item with
  | .riser fill => if lead then 0 else txLanes s (txPort st) * (1 + fill)
  | _ => blocks.length

/-- An item goes to the lanes; with the idle stream the gallery is over. -/
def putItem (st : Side) (item : OutItem) (blocks : List (Nat × Nat)) (s : State) : State :=
  let p := txPort st
  let v := stationOf s st
  let next : StationState := { v with
    cursor := v.cursor + 1, sendPos := v.sendPos + itemLength s st (v.cursor = 0) item blocks, sending := v.sending && item ≠ .idleStream }
  let s1 := setStation st next s
  match item with
  | .riser fill => sendRiser p fill s1
  | _ => forEach blocks (fun b u => sendBlock p b.1 b.2 u) s1

/-- Whether the time of the next item of a produced gallery has come (R68); a forwarded one's items go as they come. -/
def itemDue (s : State) (st : Side) (m : Memory) : Bool :=
  let v := stationOf s st
  !v.timed || decide (v.start + v.sendPos * blockPs (imgRate m) (flightWidth m v.sendFlight) / 1000 ≤ s.time.tb0)

/-- Up to n items of the gallery that a station sends go to the lanes: those whose time has come and whose contents are there. -/
def pumpItems (st : Side) (m : Memory) : Nat → State → State
  | 0, s => s
  | n + 1, s =>
    if !itemDue s st m then s
    else
      match nextItem st m s with
      | none => s
      | some (item, u) =>
        match itemBlocks u st m (stationOf u st).sendFlight (stationOf u st).sendCycle item with
        | none => s
        | some bs => pumpItems st m n (putItem st item bs u)

/-- Everything that a station can send now goes to the lanes. -/
def pump (st : Side) (s : State) : State :=
  let v := stationOf s st
  pumpItems st (bankFor s v.sendCycle) (v.out.length - v.cursor) s

/-- Items added to what a station sends; those that can go leave at once. -/
def sendItems (st : Side) (xs : List OutItem) (s : State) : State :=
  let v := stationOf s st
  pump st (setStation st { v with out := v.out ++ xs } s)

/-- A station begins to send a gallery: its cycle, flight and first items, the TB0 at which position 0 leaves and at which its trailing riser ends, and
whether the items wait for their positions' time. `sent` items have left already. -/
def beginSend (st : Side) (c f start until_ : Nat) (timed : Bool) (items : List OutItem) (sent : Nat) (s : State) : State :=
  let v := stationOf s st
  pump st (setStation st { v with
    sending := true, sendCycle := c, sendFlight := f, sendPos := 0, sendEnd := until_, cursor := sent, start := start, timed := timed, out := items } s)

end Sys2Proof.Machine
end

