-- ==== Sys2Proof/Machine/Landing.lean ====
section
/-!
DEFINITION. Landing messages and the sending side of the bridge (R183–R203, R212): message formats and CMAC, waiting in the Cabinet, routing,
credits, sequence numbers, outstanding requests, the posted-write error log and the notice queue.
-/

namespace Sys2Proof.Machine

open Sys2Proof

/-! ### Formats (R183, R185) -/

def lmRequest : Nat := 0
def lmResponse : Nat := 1
def lmPosted : Nat := 2
def lmNotice : Nat := 3
def lmCredit : Nat := 4

def opRead : Nat := 0
def opWrite : Nat := 1
def opGuarded : Nat := 2

def noticePwe : Nat := 0
def noticeAttention : Nat := 1
def noticeSeqGap : Nat := 2
def noticeLinkReport : Nat := 3

/-- A request ended by REMOTE_TIMEOUT (R201): inside the hub only; it is shown as PARTNER_TIMEOUT, and through BAR2 as a Completer Abort. -/
def stRemoteTimeout : Nat := 0x10

/-- The status code that an interface shows. -/
def publicStatus (st : Nat) : Nat := if st = stRemoteTimeout then stPartnerTimeout else st

/-- The number of blocks of a byte string. -/
def blockCount (bs : List Byte) : Nat := (bs.length + 7) / 8

/-- n blocks of a byte string, byte 0 lowest in the first. -/
def blockList : Nat → List Byte → List Nat
  | 0, _ => []
  | n + 1, bs => leNat (bs.take 8) :: blockList n (bs.drop 8)

/-- The header block (Landing message header table). -/
def msgHeader (src arg : Nat) (m : OutMsg) : Nat :=
  let n := blockCount m.data
  m.cls + 2 ^ 3 * b2n m.mgmt + 2 ^ 4 * m.dest + 2 ^ 12 * src + 2 ^ 20 * m.mclass + 2 ^ 24 * (m.tag % 1024) + 2 ^ 34 * n + 2 ^ 40 * m.stream +
    2 ^ 44 * m.op + 2 ^ 48 * (arg % 256) + 2 ^ 56 * (8 * n - m.data.length)

/-- Blocks of a message (R183). -/
def msgSize (m : OutMsg) : Nat := 1 + b2n m.addr.isSome + blockCount m.data + b2n m.mgmt

/-- The CMAC block of a message in a gallery of cycle c (R185). -/
def msgMac (s : State) (c header : Nat) (addr : List Nat) (blocks : List Nat) : Nat :=
  ringCmac s c (leBytes 6 c ++ leBytes 8 header ++ addr.flatMap (leBytes 8) ++ blocks.flatMap (leBytes 8))

/-- Whether R185 requires MGMT: a register page target, a GUARDED_WRITE or a NOTICE. -/
def needsMgmt (cls op addr : Nat) : Bool :=
  cls = lmNotice || ((cls = lmRequest || cls = lmPosted) && (op = opGuarded || decide (addr % 2 ^ 40 < 0x100000)))

/-! ### Waiting in the Cabinet (R187, R225) -/

/-- The queue of messages of a stream that wait for a share. -/
def outQueue (stream : Nat) : Nat := 0x10 + stream % 16

/-- The words of a waiting message as a packet holds them: header, address block, data. -/
def outWords (s : State) (m : OutMsg) : List Nat :=
  let two (b : Nat) : List Nat := [b % 2 ^ 32, b / 2 ^ 32 % 2 ^ 32]
  two (msgHeader (nodeId s) m.arg m) ++ (match m.addr with
    | some a => two a
    | none => []) ++ (blockList (blockCount m.data) m.data).flatMap two

/-- One packet of a queue is taken out and its cells freed. -/
def dropPacket (q i : Nat) (s : State) : State :=
  let v := queueOf s q
  match v.pkts[i]? with
  | none => s
  | some p =>
    s |> setQueue q { v with pkts := v.pkts.eraseIdx i } |> returnCells p.cells |> adjustGrant q |> mirrorRelease v.consumer q p |> syncCab

/-- One waiting message tries to enter the Cabinet: the messages tried so far, the streams that are stuck, the state. -/
def retryMsg (acc : List OutMsg × List Nat × State) (m : OutMsg) : List OutMsg × List Nat × State :=
  let (done, stuck, u) := acc
  if m.inCab || stuck.contains m.stream then (done ++ [m], stuck, u)
  else
    let (r, u1) := cabProduce m.port (outQueue m.stream) (outWords u m) 0 false u
    if r = cabOk then (done ++ [{ m with inCab := true }], stuck, u1) else (done ++ [m], m.stream :: stuck, u)

/-- Every waiting message that does not stand in the Cabinet yet tries again, in order within its stream (R230). -/
def retryOut (s : State) : State :=
  let (out, _, t) := s.bridge.out.foldl retryMsg ([], [], s)
  { t with bridge := { t.bridge with out := out } }

/-- A message enters the bridge and waits for a share. -/
def queueOut (m : OutMsg) (s : State) : State := retryOut { s with bridge := { s.bridge with out := s.bridge.out ++ [m] } }

/-- A waiting message leaves the bridge, sent or discarded. -/
def removeOut (i : Nat) (s : State) : State :=
  match s.bridge.out[i]? with
  | none => s
  | some m =>
    let before := (s.bridge.out.take i).filter fun o => o.stream = m.stream && o.inCab
    { s with bridge := { s.bridge with out := s.bridge.out.eraseIdx i } }
    |> whenS m.inCab (dropPacket (outQueue m.stream) before.length) |> retryOut

/-- A waiting message, with what most messages share. -/
def outMsg (s : State) (port cls dest stream op : Nat) (mgmt : Bool) (data : List Byte) : OutMsg :=
  { cls := cls, mgmt := mgmt, dest := dest, mclass := 0, tag := 0, stream := stream, op := op, arg := 0, addr := none, data := data
    entered := s.time.tb2, port := port, inCab := false, copies := [], placed := 0 }

/-! ### Posted-write failures (R202, R203) -/

/-- PWSEQ, the next value. -/
def pwSeq (s : State) : Nat := getPair s Page.bridge Reg.bridgePwseqLo Reg.bridgePwseqHi

/-- The latest issued sequence value whose low 24 bits match (R202). -/
def pwRebuild (s : State) (low : Nat) : Nat :=
  let last := pwSeq s + 2 ^ 48 - 1
  (last - (last - low % 2 ^ 24) % 2 ^ 24) % 2 ^ 48

/-- A posted-write failure is logged (R202, R203). `addr` is a fabric address, `far` the far node. -/
def logPwe (addr mclass cause far seq : Nat) (s : State) : State :=
  if 16 ≤ s.bridge.pwe.length then
    s |> incCnt Page.bridge Reg.bridgePweStatusOverflow |> setFlag Page.bridge Reg.bridgePweStatusLostPwe true
      |> raiseEv Page.bridge Ev.bridgePweOverflow
  else
    let e := [addr % 2 ^ 32, addr / 2 ^ 32 % 2 ^ 16 + 2 ^ 16 * (mclass % 16) + 2 ^ 20 * (cause % 16) + 2 ^ 24 * (far % 256), seq % 2 ^ 32,
      seq / 2 ^ 32 % 2 ^ 16, s.time.tb2 % 2 ^ 32, s.time.tb2 / 2 ^ 32 % 2 ^ 32, 0, 0]
    { s with bridge := { s.bridge with pwe := s.bridge.pwe ++ [e] } }
    |> setR Page.bridge Reg.bridgePweStatusCount (s.bridge.pwe.length + 1) |> raiseEv Page.bridge Ev.bridgePwe

/-- PWE_CTRL.POP. -/
def pwePop (s : State) : State :=
  let l := s.bridge.pwe.drop 1
  setR Page.bridge Reg.bridgePweStatusCount l.length { s with bridge := { s.bridge with pwe := l } }

/-! ### The notice queue (R208, R217) -/

/-- The notice queue shown: NOTICE_STATUS, NOTICE_HEAD and NOTICE_RX. -/
def syncNotices (s : State) : State :=
  let h := s.bridge.notices.headD []
  s |> setR Page.bridge Reg.bridgeNoticeStatus s.bridge.notices.length
    |> forEach (List.range 6) (fun i u => setR Page.bridge (Reg.bridgeNoticeHead i) (h.getD i 0) u)
    |> setLevel Page.bridge Ev.bridgeNoticeRx (!s.bridge.notices.isEmpty)

/-- A notice enters the local queue; none where the Cabinet has no cell for it now. -/
def enterNotice (port : Nat) (words : List Nat) (s : State) : Option State :=
  let (r, t) := cabProduce port 0x21 words 0 false s
  if r = cabOk then some (syncNotices { t with bridge := { t.bridge with notices := t.bridge.notices ++ [words] } }) else none

/-- NOTICE_CTRL.POP. -/
def noticePop (s : State) : State :=
  if s.bridge.notices.isEmpty then s
  else syncNotices (dropPacket 0x21 0 { s with bridge := { s.bridge with notices := s.bridge.notices.drop 1 } })

/-! ### The end of an access (R194, R201, R212, R214) -/

/-- The PCIe link is up. -/
def pcieUp (s : State) : Bool := flag s Page.pcie Reg.pcieLinkUp

/-- LH.STATUS: tickets held, and done and unfetched. -/
def syncTickets (s : State) : State :=
  let held := s.bridge.tickets.filter fun e => e.2.held
  s |> setR Page.lh Reg.lhStatusUsed held.length
    |> setR Page.lh Reg.lhStatusDone (held.filter fun e => e.2.result.isSome).length

/-- A ticket of the local host port becomes done (R214). -/
def ticketDone (slot st : Nat) (data : List Byte) (s : State) : State :=
  match storeFind slot s.bridge.tickets with
  | none => s
  | some t =>
    { s with bridge := { s.bridge with tickets := storePut slot { t with result := some (st, data) } s.bridge.tickets } }
    |> syncTickets |> raiseEv Page.lh Ev.lhTicketDone

/-- Whether LH_ATTN_N is driven low (R215). -/
def lhAttn (s : State) : Bool :=
  (flag s Page.lh Reg.lhCfgAttnTicket && (s.bridge.tickets.any fun e => e.2.held && e.2.result.isSome))
    || ((List.range 128).any fun g => arrayBit s Page.evt Reg.evtGrpLh g && groupAsserted s g)

/-- What AER makes of a request that ends in error: a correctable error, an uncorrectable one, or nothing; R210 and R218 name AER and its events
and no more (DESIGN CHOICE, log entry 192). -/
def aerReport (s : State) : State :=
  let (v, t) := freeValue s
  t |> raiseIf (v % 3 = 1) Page.pcie Ev.pcieAerCorr |> raiseIf (v % 3 = 2) Page.pcie Ev.pcieAerUncorr

/-- A BAR2 read through a window of a node completes (R201, R212): with its data, with every byte 0xFF, or with a Completer Abort. -/
def completeBar2 (tag node addr len st : Nat) (data : List Byte) (s : State) : State :=
  if !pcieUp s then s
  else if st = stOk then emit (.completion tag 0 data) s
  else if st = stRemoteTimeout then
    s |> emit (.completion tag 2 []) |> incCnt Page.pcie Reg.pcieCaCnt |> raiseEv Page.pcie Ev.pcieCaSent |> aerReport
  else
    s |> emit (.completion tag 0 (List.replicate len 0xFF)) |> setR Page.pcie Reg.pcieLastErr st
      |> setR Page.pcie Reg.pcieLastAddrLo (addr % 2 ^ 32) |> setR Page.pcie Reg.pcieLastAddrHi (addr / 2 ^ 32 % 2 ^ 8 + 2 ^ 8 * node)

/-- A NOTICE waits to be sent. -/
def sendNotice (port dest stream op : Nat) (blocks : List Nat) (s : State) : State :=
  queueOut (outMsg s port lmNotice dest stream op true (blocks.flatMap (leBytes 8))) s

/-- The end of an access for the one who waits for it. `addr` is the fabric address, `len` the bytes that a read asked for. A posted write that
executed here answers nothing unless it failed and came from another node. A failed read gives a master all ones; PCIe shows no status (R403). -/
def endWaiter (w : Waiter) (addr len st : Nat) (data : List Byte) (s : State) : State :=
  let code := publicStatus st
  match w with
  | .bar2 tag node => completeBar2 tag node addr len st data s
  | .ticket slot => ticketDone slot code (if code = stOk then data else []) s
  | .remote src tag stream mgmt =>
    queueOut { outMsg s portHub lmResponse src stream 0 mgmt (if code = stOk then data else []) with
      tag := tag, arg := code } s
  | .posted src mclass a seq stream =>
    if code = stOk ∨ src = nodeId s then s
    else sendNotice portHub src stream noticePwe [a % 2 ^ 40 + 2 ^ 40 * code + 2 ^ 44 * mclass, seq % 2 ^ 24] s
  | .master m => emit (.answer m (if m.ifc.val = 0 then 0 else code) (if code = stOk then leNat data else 2 ^ (8 * len) - 1)) s
  | .part _ _ | .nobody => s

/-- The end of an access or of one of its pieces (R205): the access ends when its last piece has. -/
def endAccess (w : Waiter) (addr len st : Nat) (data : List Byte) (s : State) : State :=
  match w with
  | .part id i =>
    match storeFind id s.bridge.gathers with
    | none => s
    | some g =>
      let g1 := { g with
        parts := g.parts.set i (some (if st = stOk then data else List.replicate len 0)), status := if g.status = stOk then st else g.status }
      if g1.parts.all Option.isSome then
        let all_ := g1.parts.flatMap fun p => p.getD []
        endWaiter g.waiter g.addr all_.length g1.status all_ { s with bridge := { s.bridge with gathers := storeDel id s.bridge.gathers } }
      else { s with bridge := { s.bridge with gathers := storePut id g1 s.bridge.gathers } }
  | _ => endWaiter w addr len st data s

/-! ### Cutting (R205) -/

/-- The pieces of an access: address and length, each cut at the next multiple of what `g` gives at its address. -/
def cutPieces (g : Nat → Nat) (a : Nat) : Nat → Nat → List (Nat × Nat)
  | 0, _ => []
  | fuel + 1, n =>
    if n = 0 then []
    else
      let k := min n (g a - a % g a)
      (a, k) :: cutPieces g (a + k) fuel (n - k)

/-- A word of a partner descriptor (R204). -/
def descWord (s : State) (p w : Nat) : Nat := storeGet 0 s.bridge.descs (8 * p + w)

/-- The grain of the cuts at a local address: 256 bytes, and in the window of a partner that is described here its page (R205). -/
def cutGrain (s : State) (addr : Nat) : Nat :=
  let a := addr % 2 ^ 40
  let p := (a - 0x10000000) / 0x10000
  if 0x10000000 ≤ a ∧ a < 0x18000000 ∧ bit (descWord s p 0) 0 then min 256 (2 ^ bits (descWord s p 0) 17 13) else 256

/-- The pieces of an access with the data of each and who waits for it: the one waiter, or the parts of a gather. -/
def splitAccess (s : State) (w : Waiter) (addr len : Nat) (data : List Byte) : List (Nat × Nat × List Byte × Waiter) × State :=
  let ps := cutPieces (cutGrain s) addr len len
  let piece (p : Nat × Nat) (v : Waiter) : Nat × Nat × List Byte × Waiter := (p.1, p.2, (data.drop (p.1 - addr)).take p.2, v)
  match ps with
  | [p] => ([piece p w], s)
  | _ =>
    let id := (s.bridge.gathers.map fun e => e.1 + 1).foldl max 0
    let g : Gather := { waiter := w, addr := addr, parts := ps.map fun _ => none, status := stOk }
    (((List.range ps.length).zip ps).map fun e => piece e.2 (.part id e.1),
      { s with bridge := { s.bridge with gathers := storePut id g s.bridge.gathers } })

/-! ### Requests, posted writes, notices (R190–R202) -/

/-- STATUS.OUTSTANDING: tags in use. -/
def syncTags (s : State) : State := setR Page.bridge Reg.bridgeStatusOutstanding (s.bridge.reqs.filter fun e => e.1 < 1024).length s

/-- A free tag, the hub's choice among those free; none of 1,024 free (R201). -/
def freeTag (s : State) : Option Nat × State :=
  let free := (List.range 1024).filter fun t => (storeFind t s.bridge.reqs).isNone
  if free.isEmpty then (none, s)
  else
    let (v, s1) := freeValue s
    (some (free.getD (v % free.length) 0), s1)

/-- A request of this hub ends: its tag and its reserved cells are free again (R197, R201). -/
def endRemote (tag st : Nat) (data : List Byte) (s : State) : State :=
  match storeFind tag s.bridge.reqs with
  | none => s
  | some r =>
    { s with bridge := { s.bridge with reqs := storeDel tag s.bridge.reqs }, cab := { s.cab with respRsv := s.cab.respRsv - r.cells } }
    |> syncTags |> syncCab |> endAccess r.waiter (r.dest * 2 ^ 40 + r.addr) r.len st data

/-- A request without a free tag waits under a number from 1,024 on. -/
def takeTag (s : State) : Nat × State :=
  match freeTag s with
  | (some t, s1) => (t, s1)
  | (none, s1) => ((s1.bridge.reqs.map fun e => e.1 + 1).foldl max 1024, s1)

/-- A REQUEST enters the bridge (R197, R201). That of a write carries PWSEQ as it stands: it is no posted write and takes none of its values
(DESIGN CHOICE, log entry 193). Without a usable ring key a message that needs a CMAC ends with DENIED (R421). -/
def sendRequest (port dest mclass stream op addr len : Nat) (data : List Byte) (w : Waiter) (s : State) : State :=
  let mgmt := needsMgmt lmRequest op addr
  if mgmt && !ringUsable s (ringSlot s) then endAccess w (dest * 2 ^ 40 + addr) len stDenied [] s
  else
    let (tag, s1) := takeTag s
    let read := op = opRead
    let r : OutReq := { dest := dest, addr := addr, len := if read then len else 0, waiter := w, entered := s.time.tb2, cells := 0 }
    let blk := addr % 2 ^ 40 + 2 ^ 40 * (if read then len - 1 else pwSeq s % 2 ^ 24)
    { s1 with bridge := { s1.bridge with reqs := storePut tag r s1.bridge.reqs } }
    |> syncTags |> queueOut { outMsg s1 port lmRequest dest stream op mgmt data with
      tag := tag, mclass := mclass, addr := some blk }

/-- A POSTED message enters the bridge with the next posted-write sequence (R202). Destination 0xFF is a broadcast, refused with DECODE but to
the register pages and the committed image (R191). -/
def sendPosted (port dest mclass stream op addr : Nat) (data : List Byte) (s : State) : State :=
  let seq := pwSeq s
  let mgmt := needsMgmt lmPosted op addr
  let a := addr % 2 ^ 40
  let target := within a (max 1 data.length) 0 0x100000 || within a (max 1 data.length) 0x1000000 0x400000
  let s1 := setPair Page.bridge Reg.bridgePwseqLo Reg.bridgePwseqHi ((seq + 1) % 2 ^ 48) s
  let fails (cause : Nat) : State := logPwe (dest * 2 ^ 40 + a) mclass cause (nodeId s1) seq s1
  if dest = 0xFF && !target then fails stDecode
  else if mgmt && !ringUsable s1 (ringSlot s1) then fails stDenied
  else queueOut { outMsg s1 port lmPosted dest stream op mgmt data with
    mclass := mclass, addr := some (a + 2 ^ 40 * (seq % 2 ^ 24)) } s1

/-! ### Routing (R186, R189) -/

/-- The number of links from a to x in a direction, counted in RING_ORDER; RING_SIZE from a node to itself. -/
def ringHops (m : Memory) (a x : Nat) (west : Bool) : Option Nat :=
  match (ringOrder m).findIdx? (· = a), (ringOrder m).findIdx? (· = x) with
  | some i, some j =>
    let n := (ringOrder m).length
    let d := if west then (i + n - j) % n else (j + n - i) % n
    some (if d = 0 then n else d)
  | _, _ => none

/-- The absorber of a direction: ORIGIN_SEEN of its station, or MASTER_A. -/
def absorberOf (s : State) (st : Side) : Nat :=
  if (stationOf s st).originSeen then getR s (Page.stn st) Reg.stnStatusOriginSeen else imgMasterA s.stair.active

/-- The hops to a destination in a direction in which it is reachable. -/
def reachHops (s : State) (dest : Nat) (st : Side) : Option Nat :=
  let m := s.stair.active
  match ringHops m (nodeId s) dest (dirWest st), ringHops m (nodeId s) (absorberOf s st) (dirWest st) with
  | some d, some a => if d ≤ a then some d else none
  | _, _ => none

/-- The direction of a message: the reachable one with fewer hops, east on a tie. -/
def routeOf (s : State) (dest : Nat) : Option Side :=
  if !staircaseActive s then none
  else
    match reachHops s dest .east, reachHops s dest .west with
    | some e, some w => some (if e ≤ w then .east else .west)
    | some _, none => some .east
    | none, some _ => some .west
    | none, none => none

/-- Key of a destination or source with a class, or with a stream. -/
def classKey (node cls : Nat) : Nat := node * 8 + cls
def streamKey (node stream : Nat) : Nat := node * 32 + stream

/-- Whether a stream may use a direction now: a change of direction holds it for LOOP_CYCLES + 2 cycles (R189). -/
def steer (st : Side) (c : Nat) (m : OutMsg) (s : State) : Bool × State :=
  let k := streamKey m.dest m.stream
  let d := b2n (dirWest st)
  let put (v : Nat × Nat) : State := { s with bridge := { s.bridge with dirHold := storePut k v s.bridge.dirHold } }
  match storeFind k s.bridge.dirHold with
  | none => (true, put (d, c))
  | some (d0, until_) => if d0 = d then (decide (until_ ≤ c), s) else (false, put (d, c + loopCycles s + 2))

/-! ### Placing a message in a share (R185, R188, R196, R197) -/

/-- The cycle and flight of the gallery that a station sends now. -/
def sendingGallery (s : State) (st : Side) : Option (Nat × Nat) :=
  let v := stationOf s st
  if !v.sending then none
  else some (v.sendCycle, v.sendFlight)

/-- The layout position of the first block of a share. -/
def sharePos (m : Memory) (f : Nat) (west : Bool) (i : Nat) : Option Nat :=
  (layoutPositions m f west).findSome? fun pe =>
    match pe.2 with
    | .landing first count => if first ≤ i ∧ i < first + count then some (pe.1 + 1 + regionBlocks m f first (i - first)) else none
    | _ => none

/-- Whether a share of the gallery being sent has not begun to leave the hub. -/
def shareAhead (s : State) (st : Side) (m : Memory) (f i : Nat) : Bool :=
  let v := stationOf s st
  match sharePos m f (dirWest st) i with
  | none => false
  | some p =>
    match v.rx with
    | some g =>
      if g.mode = .forward then decide (g.pos ≤ p)
      else decide (s.time.tb0 + flightSpan m f (dirWest st) * blockPs (imgRate m) (flightWidth m f) / 1000 ≤ v.sendEnd + p * blockPs (imgRate m) (flightWidth m f) / 1000)
    | none => decide (s.time.tb0 + flightSpan m f (dirWest st) * blockPs (imgRate m) (flightWidth m f) / 1000 ≤ v.sendEnd + p * blockPs (imgRate m) (flightWidth m f) / 1000)

/-- Credit left towards a destination in a class (R196). -/
def creditLeft (s : State) (dest cls : Nat) : Bool :=
  let k := classKey dest cls
  let d := (storeGet 0 s.bridge.limit k + 256 - storeGet 0 s.bridge.sentCnt k) % 256
  decide (1 ≤ d ∧ d ≤ 127)

/-- Whether a class takes credits and a sequence number (R190, R196). -/
def creditClass (cls : Nat) : Bool := cls = lmRequest || cls = lmPosted || cls = lmNotice

/-- Whether a node is the candidate of this hub's join procedure: it advertises no credits and keeps no sequence yet, so messages to it take
neither (log entry 40). -/
def toCandidate (s : State) (dest : Nat) : Bool :=
  getR s Page.duplex Reg.duplexJoinStateNode = dest && decide (2 ≤ getR s Page.duplex Reg.duplexJoinStateStep)

/-- The cells that the response to a request needs (R197): its header and data. -/
def respCells (r : OutReq) : Nat := (8 + 8 + r.len + 127) / 128

/-- A message is sent: its sequence number, its credit, the reserved cells of a request, its blocks in the share. -/
def placeMessage (st : Side) (c i k : Nat) (m : OutMsg) (s : State) : State :=
  let numbered := creditClass m.cls && !toCandidate s m.dest
  let sk := streamKey m.dest m.stream
  let ssn := storeGet 0 s.bridge.seqTx sk
  let again := m.dest = 0xFF && !m.copies.isEmpty
  let arg := if numbered && !again then ssn else m.arg
  let header := msgHeader (nodeId s) arg m
  let addr := m.addr.toList
  let blocks := blockList (blockCount m.data) m.data
  let body := header :: addr ++ blocks ++ (if m.mgmt then [msgMac s c header addr blocks] else [])
  let ck := classKey m.dest m.cls
  let cells := match m.cls, storeFind m.tag s.bridge.reqs with
    | 0, some r => respCells r
    | _, _ => 0
  let b := s.bridge
  let keep := m.dest = 0xFF && m.copies.isEmpty
  { s with
    bridge := { b with
      shares := storePut (shareKey st i) (c, shareBlocks s st c i ++ body) b.shares
      seqTx := if numbered && !again then storePut sk ((ssn + 1) % 256) b.seqTx else b.seqTx
      sentCnt := if numbered && m.dest ≠ 0xFF then storePut ck ((storeGet 0 b.sentCnt ck + 1) % 256) b.sentCnt else b.sentCnt
      reqs := match m.cls, storeFind m.tag b.reqs with
        | 0, some r => storePut m.tag { r with cells := cells } b.reqs
        | _, _ => b.reqs
      out := if keep then b.out.set k { m with arg := arg, copies := [st], placed := c } else b.out }
    cab := { s.cab with respRsv := s.cab.respRsv + cells } }
  |> syncCab |> whenS (!keep) (removeOut k)

/-- A request that waited without a tag takes one, if one is free now (R201). -/
def lateTag (k : Nat) (m : OutMsg) (s : State) : OutMsg × State :=
  if m.cls ≠ lmRequest ∨ m.tag < 1024 then (m, s)
  else
    match freeTag s, storeFind m.tag s.bridge.reqs with
    | (some t, s1), some r =>
      let m1 := { m with tag := t }
      (m1, syncTags { s1 with bridge := { s1.bridge with
        reqs := storePut t r (storeDel m.tag s1.bridge.reqs), out := s1.bridge.out.set k m1 } })
    | _, _ => (m, s)

/-- Whether everything but its direction lets a message go into a share. -/
def messageReady (s : State) (st : Side) (c i room : Nat) (m : OutMsg) : Bool :=
  m.inCab && decide ((shareBlocks s st c i).length + msgSize m ≤ room) && (!m.mgmt || ringUsable s (ringSlotFor s c)) &&
    (if m.dest = 0xFF then !m.copies.contains st && (m.copies.isEmpty || m.placed = c)
     else !creditClass m.cls || toCandidate s m.dest || creditLeft s m.dest m.cls) &&
    (m.cls ≠ lmRequest || (decide (m.tag < 1024) &&
      (match storeFind m.tag s.bridge.reqs with
       | some r => decide (respCells r ≤ mgmtFree s)
       | none => false)))

/-- One waiting message tries a share: placed, or the state with what its direction decided. -/
def tryMessage (st : Side) (c i room k : Nat) (s : State) : Bool × State :=
  match s.bridge.out[k]? with
  | none => (false, s)
  | some m0 =>
    let (m, s1) := lateTag k m0 s
    if m.dest = 0xFF then
      if messageReady s1 st c i room m then (true, placeMessage st c i k m s1) else (false, s1)
    else if routeOf s1 m.dest ≠ some st then (false, s1)
    else
      let (go, s2) := steer st c m s1
      if go && messageReady s2 st c i room m then (true, placeMessage st c i k m s2) else (false, s2)

/-- The places in `out` of the messages at the head of their streams. -/
def streamHeads (out : List OutMsg) : List Nat :=
  (List.range out.length).filter fun k =>
    match out[k]? with
    | some m => (out.take k).all fun o => o.stream ≠ m.stream
    | none => false

/-- A broadcast whose second gallery never took it has been sent in one direction only; it is over once its cycle has passed. -/
def dropStaleBroadcasts (c : Nat) (s : State) : State :=
  match s.bridge.out.findIdx? (fun m => m.dest = 0xFF && !m.copies.isEmpty && m.placed ≠ c) with
  | some k => removeOut k s
  | none => s

/-- A waiting message is placed whole in a share of the gallery that a station sends (R188): the first stream head, in the order they entered,
that may go there. -/
def shareSend (st : Side) (i : Nat) (s : State) : State :=
  match sendingGallery s st with
  | none => s
  | some (c, f) =>
    let m := bankFor s c
    if !staircaseActs s || pageFenced s Page.bridge || pageFenced s Page.cab || pageFenced s (Page.stn st) || shareOwner m f i ≠ nodeId s || decide (c < s.bridge.quietUntil)
        || !shareAhead s st m f i then s
    else
      let s0 := s |> dropStaleBroadcasts c |> retryOut
      let step (acc : Bool × State) (k : Nat) : Bool × State := if acc.1 then acc else tryMessage st c i (shareLen m f i) k acc.2
      ((streamHeads s0.bridge.out).foldl step (false, s0)).2

/-! ### Credits (R195, R196) -/

/-- Everything kept for a node starts at 0 (R196). -/
def resetPeer (n : Nat) (s : State) : State :=
  let offClass (m : Store Nat) : Store Nat := m.filter fun e => e.1 / 8 ≠ n
  let offStream (m : Store Nat) : Store Nat := m.filter fun e => e.1 / 32 ≠ n
  let b := s.bridge
  { s with bridge := { b with
    sentCnt := offClass b.sentCnt, limit := offClass b.limit, executed := offClass b.executed, advertised := offClass b.advertised
    seqTx := offStream b.seqTx, seqRx := offStream b.seqRx } }

/-- The credit epoch of this hub's own activation at cycle c (R196): all counts 0, the partners' totals too (R208), and nothing is sent for LOOP_CYCLES + 2 cycles. -/
def creditEpoch (c : Nat) (s : State) : State :=
  let b := s.bridge
  { s with bridge := { b with
    sentCnt := [], limit := [], executed := [], advertised := [], seqTx := [], seqRx := [], totals := [], quietUntil := c + loopCycles s + 2 } }
  |> setR Page.bridge Reg.bridgeStatusEpoch c |> raiseEv Page.bridge Ev.bridgeEpochChange

/-- One credit entry advertised by a node (R195, R196): its EPOCH, and in the entry of this hub the limits. The first EPOCH seen of a node is no
change. -/
def takeCredit (from_ e : Nat) (s : State) : State :=
  let ep := bits e 47 32
  let changed := match storeFind from_ s.bridge.epoch with
    | some old => old ≠ ep
    | none => false
  let s1 := whenS changed (resetPeer from_) s
  let b := s1.bridge
  let limit := if bits e 7 0 ≠ nodeId s then b.limit
    else b.limit |> storePut (classKey from_ 0) (bits e 15 8) |> storePut (classKey from_ 2) (bits e 23 16)
      |> storePut (classKey from_ 3) (bits e 31 24)
  { s1 with bridge := { b with epoch := storePut from_ ep b.epoch, limit := limit } }
  |> raiseIf changed Page.bridge Ev.bridgeEpochChange

/-- The entries of a credit tread or CREDIT message from a node (R195). -/
def takeCredits (from_ : Nat) (bs : List Byte) (s : State) : State :=
  forEach (blockList (bs.length / 8) bs) (fun e u => if bits e 7 0 = 0 then u else takeCredit from_ e u) s

/-- The allocation in force for a class (R195, R229). -/
def allocOf (s : State) (cls : Nat) : Nat :=
  let (r, p, n) := s.bridge.alloc
  if cls = lmRequest then r else if cls = lmPosted then p else n

/-- The limit of a source in a class. -/
def limitFor (s : State) (src cls : Nat) : Nat := (storeGet 0 s.bridge.executed (classKey src cls) + allocOf s cls) % 256

/-- The entry of a source. -/
def creditEntry (s : State) (src : Nat) : Nat :=
  src + 2 ^ 8 * limitFor s src 0 + 2 ^ 16 * limitFor s src 2 + 2 ^ 24 * limitFor s src 3
    + 2 ^ 32 * getR s Page.bridge Reg.bridgeStatusEpoch

/-- The limits of a source as last advertised, packed as in an entry; none before the first. -/
def advertisedOf (s : State) (src : Nat) : Option Nat := storeFind (classKey src 0) s.bridge.advertised

/-- Whether a source's limits have changed since they were last advertised. -/
def creditChanged (s : State) (src : Nat) : Bool := advertisedOf s src ≠ some (bits (creditEntry s src) 31 8)

/-- The sources: the other nodes of RING_ORDER, ascending. -/
def creditSources (s : State) : List Nat := (List.range 255).filter fun n => n ≠ 0 && n ≠ nodeId s && (ringOrder s.stair.active).contains n

/-- An entry has been advertised. -/
def markAdvertised (src : Nat) (s : State) : State :=
  { s with bridge := { s.bridge with
    advertised := storePut (classKey src 0) (bits (creditEntry s src) 31 8) s.bridge.advertised } }

/-- The advertisement of one cycle in n entries (R195): changed limits first, then the other sources in ascending order, the rotation going on
from cycle to cycle. -/
def advertise (n : Nat) (s : State) : List Byte × State :=
  let src := creditSources s
  let changed := src.filter fun k => creditChanged s k
  let rest := src.filter fun k => !creditChanged s k
  let turn := rest.filter (fun k => s.bridge.rotation < k) ++ rest.filter (fun k => k ≤ s.bridge.rotation)
  let pick := (changed ++ turn).take n
  let last := (turn.take (n - min n changed.length)).getLast?
  let bs := (pick.flatMap fun k => leBytes 8 (creditEntry s k)) ++ zeros (8 * (n - pick.length))
  let s1 := forEach pick markAdvertised s
  (bs, { s1 with bridge := { s1.bridge with rotation := last.getD s1.bridge.rotation } })

/-- Whether the current flight gives this hub a credit tread. -/
def hasCreditTread (s : State) : Bool := (flightActions s.stair.active (nodeId s) (curFlight s)).any fun a => a.write && a.endpoint = 6

/-- CREDIT messages at the boundary of cycle c where the flight has no credit tread (R195). -/
def creditMessages (c : Nat) (s : State) : State :=
  if !staircaseActs s || hasCreditTread s then s
  else
    forEach ((creditSources s).filter fun k => c % 64 = 0 || creditChanged s k) (fun k u =>
      u |> queueOut { outMsg u portHub lmCredit k 0 0 false (leBytes 8 (creditEntry u k)) with
             arg := 1 }
        |> markAdvertised k) s

/-! ### Timeouts (R187, R201) -/

/-- REMOTE_TIMEOUT in ns. -/
def remoteTimeout (s : State) : Nat := (getR s Page.bridge Reg.bridgeCfgTimeoutM1 + 1) * 1000000

/-- A request ends by REMOTE_TIMEOUT once it has passed (R201); where it still waits for a share, its message goes too. -/
def requestTimeout (tag : Nat) (s : State) : State :=
  match storeFind tag s.bridge.reqs with
  | none => s
  | some r =>
    if s.time.tb2 < r.entered + remoteTimeout s then s else
    let s1 := match s.bridge.out.findIdx? (fun m => m.cls = lmRequest && m.tag = tag) with
      | some k => removeOut k s
      | none => s
    s1 |> incCnt Page.bridge Reg.bridgeTimeoutCnt |> raiseEv Page.bridge Ev.bridgeRemoteTimeout |> endRemote tag stRemoteTimeout []

/-- The first waiting message with no reachable direction whose REMOTE_TIMEOUT has passed is discarded (R187). A notice or a response ends without more. -/
def unreachable (s : State) : State :=
  match s.bridge.out.findIdx? (fun m => m.dest ≠ 0xFF && decide (m.entered + remoteTimeout s ≤ s.time.tb2) && routeOf s m.dest = none) with
  | none => s
  | some k =>
    match s.bridge.out[k]? with
    | none => s
    | some m =>
      let a := m.addr.getD 0
      s |> removeOut k
        |> whenS (m.cls = lmRequest) (endRemote m.tag stUnreachable [])
        |> whenS (m.cls = lmPosted) (logPwe (m.dest * 2 ^ 40 + a % 2 ^ 40) m.mclass stUnreachable (nodeId s) (pwRebuild s (a / 2 ^ 40)))
        |> raiseEv Page.bridge Ev.bridgeUnreachable

/-- CNT_CTRL.CLR of the BRIDGE page. -/
def bridgeCntClear (s : State) : State :=
  clearAll Page.bridge [Reg.bridgeTimeoutCnt, Reg.bridgeCredViolCnt, Reg.bridgeAuthFailCnt, Reg.bridgeSeqGapCnt, Reg.bridgeDupCnt,
    Reg.bridgeDamagedDropCnt, Reg.bridgeFormatCnt, Reg.bridgeOrphanCnt, Reg.bridgeMbxFmtCnt] s

/-- The class of the initiator and the time are the command's: LANDING_SHARE_SEND (R188). -/
def execLandingShareSend (st : Side) (share : BitVec 16) (s : State) : Answer := alive s (shareSend st share.toNat s)

/-- UNREACHABLE (R187). -/
def execUnreachable (s : State) : Answer := alive s (unreachable s)

/-- REMOTE_TIMEOUT (R201). -/
def execRemoteTimeout (tag : Nat) (s : State) : Answer := alive s (requestTimeout tag s)

end Sys2Proof.Machine
end

