-- ==== Sys2Proof/Machine/TimeBase.lean ====
section
/-!
DEFINITION. The time bases: counting (R303), 32-bit values (R305), what the TIME registers read (R328), and the capture units (R325, R326).
-/

namespace Sys2Proof.Machine

open Sys2Proof

/-! ### States of TB0 and TB1 -/

def tbFree : Nat := 0
def tbAcquiring : Nat := 1
def tbTracking : Nat := 2
def tbLocked : Nat := 3
def tbHoldover : Nat := 4
def tbMaster : Nat := 5

def ppsFree : Nat := 0
def ppsArmed : Nat := 1
def ppsTracking : Nat := 2
def ppsLocked : Nat := 3
def ppsHoldover : Nat := 4

/-- TB0_STATE. -/
def tb0State (s : State) : Nat := getR s Page.time Reg.timeStatusTb0State
/-- TB1_STATE. -/
def tb1State (s : State) : Nat := getR s Page.time Reg.timeStatusTb1State

/-! ### Rates (R303, R306, R312) -/

/-- ±200 ppm in units of 2⁻⁴⁰. -/
def rateLimit : Int := 219902325

/-- A rate register as a signed number of 2⁻⁴⁰ units. -/
def rateOf (s : State) (f : Fld) : Int := sgn 32 (getR s Page.time f)

/-- A rate register set from a signed number. -/
def setRate (f : Fld) (v : Int) (s : State) : State := setR Page.time f (unsgn 32 v) s

/-- TB0's rate correction r (TB0 states table). -/
def tb0Rate (s : State) : Int :=
  let st := tb0State s
  if st = tbMaster then clampI (-rateLimit) rateLimit (rateOf s Reg.timeMasterRate)
  else if st = tbHoldover then rateOf s Reg.timeHoldFreq
  else if st = tbTracking ∨ st = tbLocked then rateOf s Reg.timeFreq + s.time.phase
  else rateOf s Reg.timeFreq

/-- The servo's rate of TB1: no phase term in HOLDOVER (R319). -/
def ppsRate (s : State) : Int := if tb1State s = ppsHoldover then s.time.ppsFreq else s.time.ppsFreq + s.time.ppsPhase

/-- TB1's rate correction. -/
def tb1Rate (s : State) : Int := if flag s Page.time Reg.timeTb1CfgSrc then ppsRate s else rateOf s Reg.timeTb1Rate

/-- TB3's rate correction (R320). -/
def tb3Rate (s : State) : Int :=
  if flag s Page.time Reg.timeTb3CfgRef then tb0Rate s + rateOf s Reg.timeTb3Rate else rateOf s Reg.timeTb3Rate

/-- What a base adds in one base tick, in 2⁻³² ns: 5 ns × (1 + r), rounded down (R303, log entry 3). -/
def tickStep (r : Int) : Nat := (5 * 2 ^ 32 + 5 * r / 256).toNat

/-- A base of 64-bit nanoseconds and a 32-bit fraction after n base ticks at a rate. -/
def advance64 (v frac : Nat) (r : Int) (n : Nat) : Nat × Nat :=
  let t := v * 2 ^ 32 + frac + n * tickStep r
  (t / 2 ^ 32 % 2 ^ 64, t % 2 ^ 32)

/-- TB1 after n base ticks: seconds, nanoseconds, fraction. -/
def advanceTod (sec ns frac : Nat) (r : Int) (n : Nat) : Nat × Nat × Nat :=
  let t := ns * 2 ^ 32 + frac + n * tickStep r
  let w := t / 2 ^ 32
  ((sec + w / 1000000000) % 2 ^ 48, w % 1000000000, t % 2 ^ 32)

/-- All four bases count n base ticks (R303). -/
def countTicks (n : Nat) (s : State) : State :=
  let t := s.time
  let (a, af) := advance64 t.tb0 t.tb0Frac (tb0Rate s) n
  let (b, bn, bf) := advanceTod t.tb1Sec t.tb1Ns t.tb1Frac (tb1Rate s) n
  let (c, cf) := advance64 t.tb2 t.tb2Frac 0 n
  let (d, df) := advance64 t.tb3 t.tb3Frac (tb3Rate s) n
  { s with time := { t with
      tb0 := a, tb0Frac := af, tb1Sec := b, tb1Ns := bn, tb1Frac := bf, tb2 := c, tb2Frac := cf, tb3 := d, tb3Frac := df } }

/-- The 32-bit value of a base (R305). -/
def baseValue (s : State) (base : Nat) : Nat :=
  match base with
  | 0 => s.time.tb0 % 2 ^ 32
  | 1 => (s.time.tb1Sec * 1000000000 + s.time.tb1Ns) % 2 ^ 32
  | 2 => s.time.tb2 % 2 ^ 32
  | _ => s.time.tb3 % 2 ^ 32

/-- The signed difference of two 32-bit values of one base (R305). -/
def timeDiff (a b : Nat) : Int := sgn 32 (a + 2 ^ 32 - b % 2 ^ 32)

/-! ### Registers (R328) -/

/-- What a TIME register that shows a base reads live; TB1_RATE reads the servo's rate with SRC 1. -/
def timeLive (s : State) (off : Nat) : Option Nat :=
  match off with
  | 0x48 => some (s.time.tb0 % 2 ^ 32)
  | 0x4C => some (s.time.tb0 / 2 ^ 32)
  | 0x50 => some s.time.tb1Ns
  | 0x54 => some (s.time.tb1Sec % 2 ^ 32)
  | 0x58 => some (s.time.tb1Sec / 2 ^ 32)
  | 0x5C => some (s.time.tb2 % 2 ^ 32)
  | 0x60 => some (s.time.tb2 / 2 ^ 32)
  | 0x64 => some (s.time.tb3 % 2 ^ 32)
  | 0x68 => some (s.time.tb3 / 2 ^ 32)
  | 0x90 => if flag s Page.time Reg.timeTb1CfgSrc then some (unsgn 32 (ppsRate s)) else none
  | _ => none

/-- The words that a read of one TIME register latches (R328). -/
def timeLatches (off : Nat) : List Nat :=
  match off with
  | 0x48 => [0x4C, 0x50, 0x54, 0x58, 0x5C, 0x60, 0x64, 0x68]
  | 0x50 => [0x54, 0x58]
  | 0x5C => [0x60]
  | 0x64 => [0x68]
  | _ => []

/-- The key of a latched word. -/
def latchKey (page off : Nat) : Nat := page * 2 ^ 12 + off

/-- A read of a TIME register that shows a base: a latched word is returned once; otherwise a low word latches the others of R328. -/
def timeRead (off live : Nat) (s : State) : Nat × State :=
  match storeFind (latchKey Page.time off) s.latch with
  | some v => (v, { s with latch := storeDel (latchKey Page.time off) s.latch })
  | none =>
    let put (m : Store Nat) (o : Nat) : Store Nat := match timeLive s o with
      | some v => storePut (latchKey Page.time o) v m
      | none => m
    (live, { s with latch := (timeLatches off).foldl put s.latch })

/-! ### Capture units (R325, R326) -/

/-- A capture unit takes its stamp (R326). -/
def captureUnit (n : Nat) (s : State) : State :=
  let pg := Page.trig
  let full := flag s pg (Reg.trigCapCfgFull n)
  let map (f : Fld) (u : State) : State := setR pg f (getR u pg f ||| 2 ^ n) u
  s |> setR pg (Reg.trigCapStamp n) (baseValue s (getR s pg (Reg.trigCapCfgBase n)))
    |> setFlag pg (Reg.trigCapCfgFull n) true |> incWrap pg (Reg.trigCapCfgCount n) |> map Reg.trigCapMap
    |> raiseIf (flag s pg (Reg.trigCapCfgEvt n)) pg Ev.trigCapTaken
    |> whenS full (fun u => u |> setFlag pg (Reg.trigCapCfgOverrun n) true |> map Reg.trigOvrMap |> raiseEv pg Ev.trigCapOverrun)

/-- Whether an edge is one that EDGE names: 0 rising, 1 falling, 2 and 3 both (R325). -/
def edgeMatches (edge : Nat) (rising : Bool) : Bool := if edge = 0 then rising else if edge = 1 then !rising else true

/-- Whether a capture unit watches a source (R325); a pad only while its bank has BANK_EN 1. -/
def captures (s : State) (n : Nat) (src : CaptureSource) : Bool :=
  let pg := Page.trig
  let kind := getR s pg (Reg.trigCapCfgKind n)
  let index := getR s pg (Reg.trigCapCfgIndex n)
  let edge := getR s pg (Reg.trigCapCfgEdge n)
  match src with
  | .pad i rising => kind = 1 && index = i.val && edgeMatches edge rising && flag s (Page.tile (i.val / 32)) Reg.tileCfgBankEn
  | .pps rising => kind = 2 && edgeMatches edge rising
  | .compare u => kind = 3 && index = u.val
  | .gallery p => kind = 4 && index = (if isEast p then 0 else 1)

/-- A capture source occurs: every unit that watches it captures; none while the page is fenced (R325, R439). -/
def captureSource (src : CaptureSource) (s : State) : State :=
  if pageFenced s Page.trig then s
  else forEach ((List.range 32).filter fun n => captures s n src) (fun n u => captureUnit n u) s

/-- A read of CAPn_STAMP: FULL and OVERRUN clear (R326). -/
def captureRead (n : Nat) (s : State) : Nat × State :=
  let pg := Page.trig
  (getR s pg (Reg.trigCapStamp n), s |> setFlag pg (Reg.trigCapCfgFull n) false |> setFlag pg (Reg.trigCapCfgOverrun n) false)

/-- CAPTURE (R326). -/
def execCapture (src : CaptureSource) (s : State) : Answer := alive s (captureSource src s)

end Sys2Proof.Machine
end

