-- ==== Sys2Proof/Machine/Time.lean ====
section
/-!
DEFINITION. Compare units (R321–R324), ring time (R306–R316), plant time (R318, R319) and application time (R320).
-/

namespace Sys2Proof.Machine

open Sys2Proof

/-! ### Firing (R322, R323) -/

/-- Whether a compare unit is armed. -/
def cmpArmed (s : State) (n : Nat) : Bool := flag s Page.trig (Reg.trigCmpCfgArmed n)

def cmpMode (s : State) (n : Nat) : Nat := getR s Page.trig (Reg.trigCmpCfgMode n)
def cmpTarget (s : State) (n : Nat) : Nat := getR s Page.trig (Reg.trigCmpTarget n)

/-- PERIOD; below 1,000 ns it acts as 1,000 ns. -/
def cmpPeriod (s : State) (n : Nat) : Nat := max 1000 (getR s Page.trig (Reg.trigCmpPeriod n))

/-- The PPS_OUT pulse starts or restarts: WIDTH_US, 0 acting as 1 (R323). -/
def startPulse (s : State) : State :=
  { s with time := { s.time with pulse := some (s.time.tb2 + 1000 * max 1 (getR s Page.time Reg.timePpsOutWidthUs)) } }

/-- The pulse ends, at WIDTH_US after the last firing. -/
def endPulse (s : State) : State := { s with time := { s.time with pulse := none } }

/-- Whether the PPS_OUT pad is active. -/
def ppsOutActive (s : State) : Bool := s.time.pulse.isSome && flag s Page.time Reg.timePpsOutEn && !pageFenced s Page.trig

/-- What a firing does in its base tick (R322). -/
def fireEffects (n : Nat) (late : Bool) (s : State) : State :=
  let pg := Page.trig
  let map (f : Fld) (u : State) : State := setR pg f (getR u pg f ||| 2 ^ n) u
  s |> forEach ((List.range 128).filter fun e => engR s e Reg.engCselTrigSel = n) (fun e u => setTrigLatch e u)
    |> forEach (List.range 16) (fun c u =>
         forEach ((List.range 32).filter fun b => bit (bufWord u c b 18) 4 && bits (bufWord u c b 18) 9 5 = n) (fun b w => requestTimed c b w) u)
    |> whenS (getR s Page.time Reg.timePpsOutSel = n && flag s Page.time Reg.timePpsOutEn) startPulse
    |> whenS (decide (n < 32)) (captureSource (.compare (Fin.ofNat 32 n)))
    |> map Reg.trigFiredMap |> whenS late (map Reg.trigLateMap) |> setFlag pg (Reg.trigCmpCfgLate n) late |> incWrap pg (Reg.trigCmpCfgFireCnt n)
    |> raiseIf (flag s pg (Reg.trigCmpCfgEvt n)) pg Ev.trigCmpFired |> raiseIf late pg Ev.trigCmpLate

/-- A unit is disarmed. -/
def disarmCmp (n : Nat) (s : State) : State :=
  setFlag Page.trig (Reg.trigCmpCfgArmed n) false
    { s with time := { s.time with armedLate := s.time.armedLate.filter fun i => i ≠ n, cmpFrom := storeDel n s.time.cmpFrom } }

/-- The offset of a CYCLE unit after the boundary: TARGET, or TARGET mod P (R321). -/
def cycleOffset (s : State) (n : Nat) : Nat := cmpTarget s n % period s

/-- Whether a CYCLE unit selects a cycle: c mod 2^DIV_LOG2 = PHASE. -/
def cycleSelected (s : State) (n c : Nat) : Bool :=
  let p := getR s Page.trig (Reg.trigCmpPeriod n)
  c % 2 ^ bits p 2 0 = bits p 9 3

/-- Whether an armed unit is due at the present base tick (R321). -/
def cmpDue (s : State) (n : Nat) : Bool :=
  cmpArmed s n && !pageFenced s Page.trig &&
    (match cmpMode s n with
     | 1 | 2 => decide (0 ≤ timeDiff (baseValue s (getR s Page.trig (Reg.trigCmpCfgBase n))) (cmpTarget s n))
     | 3 => staircaseActive s && cycleSelected s n (cycleNow s) && decide (storeGet 0 s.time.cmpFrom n ≤ cycleNow s) &&
              decide (cycleOffset s n ≤ s.time.tb0 % period s)
     | _ => false)

/-- A unit fires: its effects, then it disarms, or takes its next target or cycle (R321). -/
def fireUnit (n : Nat) (late : Bool) (next : Nat) (s : State) : State :=
  let s1 := fireEffects n late { s with time := { s.time with armedLate := s.time.armedLate.filter fun i => i ≠ n } }
  match cmpMode s n with
  | 1 => disarmCmp n s1
  | 2 => setR Page.trig (Reg.trigCmpTarget n) next s1
  | _ => { s1 with time := { s1.time with cmpFrom := storePut n (cycleNow s1 + 1) s1.time.cmpFrom } }

/-- A due unit fires; late when it was armed with its target already passed (R321). -/
def fireDue (n : Nat) (s : State) : State :=
  if cmpDue s n then fireUnit n (s.time.armedLate.contains n) (cmpTarget s n + cmpPeriod s n) s else s

/-- ARM (R321): with MODE OFF the unit is disarmed. -/
def armCmp (n : Nat) (s : State) : State :=
  if cmpMode s n = 0 then disarmCmp n s
  else
    let passed := decide (0 ≤ timeDiff (baseValue s (getR s Page.trig (Reg.trigCmpCfgBase n))) (cmpTarget s n))
    let s1 := setFlag Page.trig (Reg.trigCmpCfgArmed n) true (disarmCmp n s)
    if cmpMode s n = 3 then
      let c := cycleNow s
      let from_ := if staircaseActive s && decide (cycleOffset s n < s.time.tb0 % period s) then c + 1 else c
      { s1 with time := { s1.time with cmpFrom := storePut n from_ s1.time.cmpFrom } }
    else if passed then { s1 with time := { s1.time with armedLate := n :: s1.time.armedLate } }
    else s1

/-- A write to CMPn_CFG: BASE, MODE, EVT; MODE OFF disarms; ARM arms (R321). -/
def cmpCfgWrite (n base mode evt : Nat) (arm : Bool) (s : State) : State :=
  let pg := Page.trig
  s |> setR pg (Reg.trigCmpCfgBase n) base |> setR pg (Reg.trigCmpCfgMode n) mode |> setR pg (Reg.trigCmpCfgEvt n) evt
    |> whenS (mode = 0) (disarmCmp n) |> whenS (arm && !pageFenced s pg) (armCmp n)

/-- COMPARE_FIRE (R322): the unit fires at the base tick at which it is due. -/
def execCompareFire (n : Fin 32) (s : State) : Answer := alive s (fireDue n s)

/-- PPS_OUT_END (R323). -/
def execPpsOutEnd (s : State) : Answer := alive s (endPulse s)

/-! ### Steps (R324) -/

/-- An armed ONESHOT or PERIODIC unit whose target a forward step by d ns passes fires once, late; the next target of a PERIODIC unit is the
first after the new value. `old` is the base's value before the step. -/
def stepUnit (base : Nat) (d : Int) (old n : Nat) (s : State) : State :=
  let m := cmpMode s n
  let before := timeDiff old (cmpTarget s n)
  if cmpArmed s n && getR s Page.trig (Reg.trigCmpCfgBase n) = base && (m = 1 || m = 2) && decide (before < 0 ∧ 0 ≤ before + d) then
    let after := (before + d).toNat
    fireUnit n true (cmpTarget s n + cmpPeriod s n * (after / cmpPeriod s n + 1)) s
  else s

/-- A CYCLE unit after a forward step of TB0: it fires once, late, for the cycle the step lands in, if it selects that cycle and its target
has passed. -/
def stepCycleUnit (n : Nat) (s : State) : State := if cmpMode s n = 3 && cmpDue s n then fireUnit n true 0 s else s

/-- The compare units after a step of a base by d ns (R324). -/
def stepUnits (base : Nat) (d : Int) (old : Nat) (s : State) : State :=
  if d ≤ 0 ∨ pageFenced s Page.trig then s
  else s |> forEach (List.range 32) (fun n u => stepUnit base d old n u)
         |> whenS (base = 0) (fun w => forEach (List.range 32) (fun n u => stepCycleUnit n u) w)

/-- TB0 stepped by a signed number of 1/16 ns (R313, R316): raised and journaled. -/
def stepTb0 (who : Option Master) (d16 : Int) (s : State) : State :=
  let old := baseValue s 0
  let t : Int := ((s.time.tb0 * 2 ^ 32 + s.time.tb0Frac : Nat) : Int) + d16 * 2 ^ 28
  let v := unsgn 96 t
  { s with time := { s.time with tb0 := v / 2 ^ 32, tb0Frac := v % 2 ^ 32 } }
  |> raiseEv Page.time Ev.timeTb0Step |> journal who 0x0A 0 (unsgn 64 (d16 / 16)) 0 |> stepUnits 0 (d16 / 16) old

/-- TB3_STEP (R320). -/
def stepTb3 (who : Option Master) (s : State) : State :=
  let d := rateOf s Reg.timeTb3Adj
  let old := baseValue s 3
  { s with time := { s.time with tb3 := unsgn 64 ((s.time.tb3 : Int) + d) } }
  |> raiseEv Page.time Ev.timeTb3Step |> journal who 0x0A 1 (unsgn 64 d) 0 |> stepUnits 3 d old

/-- TB1 set to seconds and nanoseconds (R318, R319). -/
def setTod (sec ns : Nat) (s : State) : State :=
  let old := baseValue s 1
  let d := ((sec * 1000000000 + ns : Nat) : Int) - (s.time.tb1Sec * 1000000000 + s.time.tb1Ns : Nat)
  { s with time := { s.time with tb1Sec := sec % 2 ^ 48, tb1Ns := ns, tb1Frac := 0 } }
  |> raiseEv Page.time Ev.timeTb1Step |> stepUnits 1 d old

/-- TOD_SEC. -/
def todSec (s : State) : Nat := getPair s Page.time Reg.timeTodSecLo Reg.timeTodSecHi

/-- TB1_SET (R318). -/
def tb1Set (s : State) : State := setTod (todSec s) (min 999999999 (getR s Page.time Reg.timeTb1SetNs)) s

/-! ### TB0 states (R306) -/

/-- TB0_STATE set, with the LOCKED and HOLDOVER levels; HOLD_LOCKED clears when HOLDOVER is left (R314, R327). -/
def setTb0State (st : Nat) (s : State) : State :=
  s |> setR Page.time Reg.timeStatusTb0State st |> whenS (st ≠ tbHoldover) (setFlag Page.time Reg.timeStatusHoldLocked false)
    |> setLevel Page.time Ev.timeLocked (st = tbLocked || st = tbMaster) |> setLevel Page.time Ev.timeHoldover (st = tbHoldover)

/-- The source port shown. -/
def setPath (valid : Bool) (port hops : Nat) (s : State) : State :=
  s |> setFlag Page.time Reg.timeStatusPathValid valid |> setR Page.time Reg.timeStatusPathPort port |> setR Page.time Reg.timeStatusHops hops

/-- The hub becomes time master (R306): its present rate is kept as MASTER_RATE. -/
def becomeTimeMaster (s : State) : State :=
  if tb0State s = tbMaster then s
  else s |> setRate Reg.timeMasterRate (tb0Rate s) |> setTb0State tbMaster |> setPath false (getR s Page.time Reg.timeStatusPathPort) 0

/-- The hub stops being time master (R306). -/
def leaveTimeMaster (c : Nat) (s : State) : State :=
  if tb0State s ≠ tbMaster then s
  else
    let r := tb0Rate s
    { s with time := { s.time with phase := 0, inRun := 0, outRun := 0, lastMeas := c } }
    |> setRate Reg.timeFreq r |> setTb0State tbTracking |> setPath false (getR s Page.time Reg.timeStatusPathPort) 0xFF

/-! ### Stamps and reports (R307, R308) -/

/-- A port by its number: 0 WEST, 1 EAST. -/
def portSide (p : Nat) : Side := if p = 0 then .west else .east

/-- This hub's stamp of the gallery whose cycle number agrees with a report's in its low 24 bits (R307). -/
def ownStamp (s : State) (cycle : Nat) (p : Side) (dep : Bool) : Option (Nat × Int) :=
  (s.time.stamps.find? fun e => e.1 / 4 % 2 ^ 24 = cycle % 2 ^ 24 && e.1 % 4 = 2 * b2n (isEast p) + b2n dep).map fun e => (e.1 / 4, e.2)

/-- The time report formed at even cycle c: 24 bytes (R308). -/
def timeReport (s : State) (c : Nat) : List Byte :=
  let cy := (c + 2 ^ 48 - 8) % 2 ^ 48
  let st (p : Side) (dep : Bool) : Option Int := (ownStamp s cy p dep).map fun e => e.2
  let four := [st .east true, st .west true, st .east false, st .west false]
  let valid := (List.range 4).foldl (fun m i => m + 2 ^ (4 + i) * b2n ((four.getD i none).isSome)) 0
  let flags := tb0State s + 8 * getR s Page.time Reg.timeStatusPathPort + valid
  leBytes 6 cy ++ leBytes 1 (getR s Page.time Reg.timeStatusHops) ++ leBytes 1 flags ++
    four.flatMap fun v => leBytes 4 (unsgn 32 (v.getD 0))

/-- A report as 24 bytes give it. -/
def parseReport (bs : List Byte) (committed : Nat) : TimeReport :=
  let w (i : Nat) : Int := sgn 32 (leNat ((bs.drop i).take 4))
  { cycle := leNat (bs.take 6), hops := (bs.getD 6 0).toNat, flags := (bs.getD 7 0).toNat, depE := w 8, depW := w 12, arrE := w 16
    arrW := w 20, committed := committed }

/-- The neighbour's port that faces this hub's port p: 0 WEST, 1 EAST, by NEIGHBOUR_PORT (R309). -/
def facingPort (s : State) (p : Nat) : Nat := if flag s (Page.lane (portSide p)) Reg.lanePortStatusNeighbourPort then 0 else 1

/-- A report's departure stamp, and its arrival stamp, at the neighbour's port X; none where invalid. -/
def reportDep (r : TimeReport) (x : Nat) : Option Int :=
  if x = 1 then (if bit r.flags 4 then some r.depE else none) else (if bit r.flags 5 then some r.depW else none)
def reportArr (r : TimeReport) (x : Nat) : Option Int :=
  if x = 1 then (if bit r.flags 6 then some r.arrE else none) else (if bit r.flags 7 then some r.arrW else none)

/-- An exchange that no port has begun. -/
def exchangeReset : Exchange := { running := false, sum := 0, count := 0, began := 0, known := false, ended := 0 }

def exchangeOf (s : State) (p : Nat) : Exchange := storeGet exchangeReset s.time.exchanges p

def setExchange (p : Nat) (x : Exchange) (s : State) : State :=
  { s with time := { s.time with exchanges := storePut p x s.time.exchanges } }

/-- Whether a report makes its port a source, with exchange aside (R309): committed in the last 4 cycles, of a hub in TRACKING, LOCKED or
MASTER whose path does not run back to this hub. A time master has no path (log entry 24). -/
def reportQualifies (s : State) (c p : Nat) : Bool :=
  portOpenUp s (portSide p) &&
    (match storeFind p s.time.reports with
     | some r =>
       let st := r.flags % 8
       decide (c ≤ r.committed + 4) && (st = tbMaster || ((st = tbTracking || st = tbLocked) && bits r.flags 3 3 ≠ facingPort s p))
     | none => false)

/-- Whether a port qualifies as source (R309). -/
def portQualifies (s : State) (c p : Nat) : Bool := reportQualifies s c p && (exchangeOf s p).known

/-- The HOPS of the report last committed at a port. -/
def reportHops (s : State) (p : Nat) : Nat :=
  match storeFind p s.time.reports with
  | some r => r.hops
  | none => 0xFF

/-! ### Exchanges (R311) -/

/-- An exchange begins on a port, unless one runs. -/
def beginExchange (c p : Nat) (s : State) : State :=
  let x := exchangeOf s p
  if x.running then s else setExchange p { x with running := true, sum := 0, count := 0, began := c } s

/-- EXCHANGE_NOW (R311): on both ports. -/
def exchangeNow (s : State) : State := s |> beginExchange (cycleNow s) 0 |> beginExchange (cycleNow s) 1

/-- The DELAY register of a port. -/
def delayReg (p : Nat) : Fld := if p = 0 then Reg.timeDelayW else Reg.timeDelayE

/-- An exchange completes with the mean of d over 64 cycles; an acquiring hub enters TRACKING (R311, R313). -/
def endExchange (c p : Nat) (d : Int) (s : State) : State :=
  let old := rateOf s (delayReg p)
  let diff := d - old
  s |> setExchange p { exchangeReset with known := true, ended := c } |> setRate (delayReg p) d |> incCnt Page.time Reg.timeExchCntOk
    |> raiseEv Page.time Ev.timeExchangeDone |> raiseIf (decide (160 < diff ∨ diff < -160)) Page.time Ev.timeDelayJump
    |> whenS (tb0State s = tbAcquiring && s.time.acquirePort = p && s.time.stepped) (fun u =>
         setTb0State tbTracking { u with time := { u.time with phase := 0, inRun := 0, outRun := 0, lastMeas := c } })

/-- One cycle with all four stamps valid counts towards a running exchange (R311). -/
def countExchange (c p : Nat) (r : TimeReport) (s : State) : State :=
  let x := exchangeOf s p
  let f := facingPort s p
  match x.running, reportDep r f, ownStamp s r.cycle (portSide p) false, ownStamp s r.cycle (portSide p) true, reportArr r f with
  | true, some t1, some (_, t2), some (_, t3), some t4 =>
    let sum := x.sum + ((t2 - t1) + (t4 - t3)) / 2
    if x.count + 1 = 64 then endExchange c p (sum / 64) s else setExchange p { x with sum := sum, count := x.count + 1 } s
  | _, _, _, _, _ => s

/-! ### Servo (R310, R312) -/

/-- TC, 4 to 12. -/
def servoTc (s : State) : Nat := max 4 (min 12 (getR s Page.time Reg.timeCfgTc))

/-- The frequency and phase terms of R312 in 2⁻⁴⁰ units, for an offset in 1/16 ns and a period in ns; quotients are rounded down. -/
def servoTerms (freq theta : Int) (p tc : Nat) : Int × Int :=
  (clampI (-rateLimit) rateLimit (freq - theta * 2 ^ 36 / ((p * 2 ^ (2 * tc - 2) : Nat) : Int)),
   clampI (-10995116) 10995116 (-(theta * 2 ^ 36) / ((p * 2 ^ tc : Nat) : Int)))

/-- The link delay towards this hub: d + ASYM / 2 (R311). -/
def linkDelay (s : State) (p : Nat) : Int :=
  rateOf s (delayReg p) + sgn 16 (getR s Page.time (if p = 0 then Reg.timeAsymAsymW else Reg.timeAsymAsymE)) / 2

/-- A valid measurement: the offset θ of R310, in 1/16 ns. -/
def measuredOffset (s : State) (p : Nat) (r : TimeReport) : Option Int :=
  match reportDep r (facingPort s p), ownStamp s r.cycle (portSide p) false with
  | some t1, some (_, t2) => some (t2 - t1 - linkDelay s p)
  | _, _ => none

/-- How many measurements 10 s hold, one every 2 cycles. -/
def learnedMax (s : State) : Nat := 10000000000 / (2 * period s)

/-- The mean of the learned frequencies (HOLD_FREQ). -/
def meanOf (fs : List Int) : Int := if fs = [] then 0 else fs.foldl (· + ·) 0 / (fs.length : Int)

/-- The servo takes one valid measurement in TRACKING or LOCKED (R312). -/
def servoStep (c : Nat) (theta : Int) (s : State) : State :=
  let (freq, phase) := servoTerms (rateOf s Reg.timeFreq) theta (period s) (servoTc s)
  let near := decide (-800 ≤ theta ∧ theta ≤ 800)
  let far := decide (theta < -1600 ∨ 1600 < theta)
  let inRun := if near then s.time.inRun + 1 else 0
  let outRun := if far then s.time.outRun + 1 else 0
  let learned := (freq :: s.time.learned).take (learnedMax s)
  let st := tb0State s
  let st' := if st = tbTracking ∧ 16 ≤ inRun then tbLocked else if st = tbLocked ∧ 4 ≤ outRun then tbTracking else st
  { s with time := { s.time with
      phase := phase, lastMeas := c, learned := learned
      inRun := if st' = st then inRun else 0, outRun := if st' = st then outRun else 0 } }
  |> setRate Reg.timeFreq freq |> setRate Reg.timeHoldFreq (meanOf learned)
  |> setLevel Page.time Ev.timeRateLimit (decide (freq = rateLimit ∨ freq = -rateLimit)) |> whenS (st' ≠ st) (setTb0State st')

/-- An acquiring hub's step (R313): with all four stamps valid TB0 steps by the offset and takes the cycle number that CYCLE implies. -/
def acquireStep (c p : Nat) (r : TimeReport) (s : State) : State :=
  let f := facingPort s p
  match reportDep r f, ownStamp s r.cycle (portSide p) false, ownStamp s r.cycle (portSide p) true, reportArr r f with
  | some t1, some (own, t2), some (_, t3), some t4 =>
    let off := ((t2 - t1) - (t4 - t3)) / 2
    s |> stepTb0 none (16 * (((r.cycle : Int) - (own : Nat)) * (period s : Nat)) - off)
      |> (fun u => { u with time := { u.time with stamps := [], stepped := true } })
      |> setExchange p { exchangeOf s p with running := true, sum := 0, count := 0, began := c }
  | _, _, _, _ => s

/-- A time report commits at the port that faces its node (R308, R310–R314). `presence` says whether the present cycle has master
presence. -/
def reportCommitted (c p : Nat) (r : TimeReport) (presence : Bool) (s : State) : State :=
  let s1 := { s with time := { s.time with reports := storePut p r s.time.reports } } |> countExchange c p r
  let st := tb0State s1
  if st = tbAcquiring then
    if s1.time.acquirePort = p ∧ !(s1.time.stepped && (exchangeOf s1 p).running) then acquireStep c p r s1 else s1
  else if flag s1 Page.time Reg.timeStatusPathValid && getR s1 Page.time Reg.timeStatusPathPort = p && portQualifies s1 c p then
    match measuredOffset s1 p r with
    | none => s1
    | some theta =>
      let s2 := setRate Reg.timeOffset theta s1
      if st = tbTracking ∨ st = tbLocked then servoStep c theta s2
      else if st = tbHoldover ∧ presence then
        setTb0State tbTracking { s2 with time := { s2.time with phase := 0, inRun := 0, outRun := 0, lastMeas := c } }
      else s2
  else s1

/-- One half of a report in a status record of cycle c (R378): the first is kept, the second completes it when its tag follows. -/
def reportHalf (c p : Nat) (second : Bool) (bs : List Byte) (presence : Bool) (s : State) : State :=
  if !second then { s with time := { s.time with halves := storePut p (c, bs) s.time.halves } }
  else
    match storeFind p s.time.halves with
    | some (c0, first) =>
      if c0 % 2 = 0 ∧ c = c0 + 1 then
        reportCommitted (cycleNow s) p (parseReport (first ++ bs) (cycleNow s)) presence
          { s with time := { s.time with halves := storeDel p s.time.halves } }
      else s
    | none => s

/-- RESYNC (R316): refused in MASTER and without a valid measurement; none where it is refused. -/
def resync (who : Option Master) (s : State) : Option State :=
  let p := getR s Page.time Reg.timeStatusPathPort
  let valid := flag s Page.time Reg.timeStatusPathValid && portQualifies s (cycleNow s) p &&
    (match storeFind p s.time.reports with
     | some r => (measuredOffset s p r).isSome
     | none => false)
  if tb0State s = tbMaster ∨ !valid then none else some (stepTb0 who (-(rateOf s Reg.timeOffset)) s)

/-! ### Boundaries (R309, R311, R313, R314) -/

/-- The source port of a hub that is not time master (R309): the qualifying port with the fewest HOPS, on equality the present one, or
WEST. -/
def chooseSource (s : State) (c : Nat) : Option Nat :=
  let w := portQualifies s c 0
  let e := portQualifies s c 1
  let now := if flag s Page.time Reg.timeStatusPathValid then getR s Page.time Reg.timeStatusPathPort else 0
  if w && e then
    some (if reportHops s 0 < reportHops s 1 then 0 else if reportHops s 1 < reportHops s 0 then 1 else now)
  else if w then some 0 else if e then some 1 else none

/-- The source port is shown, with PATH_CHANGE when it changes (R309, R314). -/
def takeSource (c : Nat) (s : State) : State :=
  let old := flag s Page.time Reg.timeStatusPathValid
  let oldPort := getR s Page.time Reg.timeStatusPathPort
  match chooseSource s c with
  | none => setPath false oldPort 0xFF s
  | some p =>
    let st := tb0State s
    let hops := if st = tbTracking ∨ st = tbLocked then min 0xFF (reportHops s p + 1) else 0xFF
    let changed := old && p ≠ oldPort
    s |> setPath true p hops |> raiseIf changed Page.time Ev.timePathChange
      |> whenS changed (fun u => { u with time := { u.time with lastMeas := c } })

/-- HOLDOVER (R314). -/
def enterHoldover (s : State) : State :=
  let locked := tb0State s = tbLocked
  s |> setTb0State tbHoldover |> setFlag Page.time Reg.timeStatusHoldLocked locked
    |> setPath (flag s Page.time Reg.timeStatusPathValid) (getR s Page.time Reg.timeStatusPathPort) 0xFF

/-- Exchanges at a boundary: one runs every 2¹⁶ cycles, and is abandoned after 1,024 cycles (R311). -/
def exchangeBoundary (c p : Nat) (s : State) : State :=
  let x := exchangeOf s p
  if x.running && decide (x.began + 1024 ≤ c) then
    s |> setExchange p { x with running := false, ended := c } |> incCnt Page.time Reg.timeExchCntAbandoned
      |> raiseEv Page.time Ev.timeExchangeFail
  else if !x.running && portOpenUp s (portSide p) && x.ended ≠ 0 && decide (x.ended + 65536 ≤ c) then beginExchange c p s
  else s

/-- A port from which a FREE hub may acquire (R313); `headless` admits a neighbour in HOLDOVER. -/
def acquireFrom (s : State) (c p : Nat) (headless : Bool) : Bool :=
  reportQualifies s c p ||
    (headless && portOpenUp s (portSide p) &&
      (match storeFind p s.time.reports with
       | some r => decide (c ≤ r.committed + 4) && r.flags % 8 = tbHoldover
       | none => false))

/-- Ring time at the boundary of cycle c: `absent` is how many cycles have passed without master presence, `headless` whether R313 admits a
neighbour in HOLDOVER. -/
def timeBoundary (c absent : Nat) (headless : Bool) (s : State) : State :=
  let s1 := s |> exchangeBoundary c 0 |> exchangeBoundary c 1
  let st := tb0State s1
  if st = tbMaster then s1
  else if st = tbFree then
    let go (p : Nat) : State :=
      setTb0State tbAcquiring { s1 with time := { s1.time with acquirePort := p, stepped := false } } |> setPath false 0 0xFF
    if acquireFrom s1 c 0 headless then go 0 else if acquireFrom s1 c 1 headless then go 1 else s1
  else if st = tbAcquiring then s1
  else
    let s2 := takeSource c s1
    if (st = tbTracking ∨ st = tbLocked) ∧ (s2.time.lastMeas + 8 ≤ c ∨ 4 ≤ absent) then enterHoldover s2 else s2

/-! ### Plant time (R319) -/

/-- TB1_STATE set, with TB1_LOCKED. -/
def setTb1State (st : Nat) (s : State) : State :=
  s |> setR Page.time Reg.timeStatusTb1State st |> setLevel Page.time Ev.timeTb1Locked (st = ppsLocked)

/-- TOD_ARM (R319). -/
def todArm (s : State) : State := setTb1State ppsArmed { s with time := { s.time with ppsRejects := 0, ppsFollow := true, ppsIn := 0, ppsOut := 0 } }

/-- An accepted edge with error e in ns drives the servo and the lock (R319). -/
def acceptEdge (e : Int) (s : State) : State :=
  let (freq, phase) := servoTerms s.time.ppsFreq (16 * e) 1000000000 (servoTc s)
  let inRun := if -100 ≤ e ∧ e ≤ 100 then s.time.ppsIn + 1 else 0
  let outRun := if -100 ≤ e ∧ e ≤ 100 then 0 else s.time.ppsOut + 1
  let st := if tb1State s = ppsHoldover then ppsTracking else tb1State s
  let st' := if st = ppsTracking ∧ 16 ≤ inRun then ppsLocked else if st = ppsLocked ∧ 4 ≤ outRun then ppsTracking else st
  { s with time := { s.time with ppsFreq := freq, ppsPhase := phase, ppsIn := inRun, ppsOut := outRun, ppsRejects := 0 } }
  |> setTb1State st' |> setLevel Page.time Ev.timePpsLost false |> setRate Reg.timePpsErr e
  |> setPair Page.time Reg.timeTodSecLo Reg.timeTodSecHi (todSec s + 1)

/-- A rejected edge; after 8 in a row TB1 follows no edge until a new TOD_ARM (R319). -/
def rejectEdge (s : State) : State :=
  let n := s.time.ppsRejects + 1
  { s with time := { s.time with ppsRejects := n, ppsFollow := s.time.ppsFollow && decide (n < 8) } } |> raiseEv Page.time Ev.timePpsReject

/-- An active edge of PPS_IN with SRC 1 (R319): TB1 in FREE follows no edge before a TOD_ARM. -/
def ppsEdge (s : State) : State :=
  let st := tb1State s
  if st = ppsArmed then s |> setTod (todSec s) 0 |> setTb1State ppsTracking |> setLevel Page.time Ev.timePpsLost false
  else if st = ppsFree ∨ !s.time.ppsFollow then s
  else
    let ns := s.time.tb1Ns
    let e : Int := if 500000000 ≤ ns then (ns : Int) - 1000000000 else ns
    let win : Int := (max 1 (getR s Page.time Reg.timeTb1CfgPpsWin) * 1000 : Nat)
    if -win ≤ e ∧ e ≤ win then acceptEdge e s else rejectEdge s

/-- PPS_EDGE (R319): the capture units see the edge; with SRC 1 the active one drives TB1. -/
def execPpsEdge (rising : Bool) (s : State) : Answer :=
  let active := flag s Page.time Reg.timeTb1CfgSrc && (rising != flag s Page.time Reg.timeTb1CfgPpsFall)
  alive s (s |> captureSource (.pps rising) |> whenS active ppsEdge)

/-- 1.5 s have passed without an accepted edge (R319). -/
def ppsLost (s : State) : State :=
  let st := tb1State s
  if flag s Page.time Reg.timeTb1CfgSrc && (st = ppsTracking || st = ppsLocked) then
    s |> setTb1State ppsHoldover |> setLevel Page.time Ev.timePpsLost true
  else s

/-- PPS_LOST (R319). -/
def execPpsLost (s : State) : Answer := alive s (ppsLost s)

end Sys2Proof.Machine
end

