-- ==== Sys2Proof/Machine/Duplex.lean ====
section
/-!
DEFINITION. Mastership, the duplex pair and ring membership (R147–R179): the pair link, the lease, eligibility, yield and reclaim, the field side
of a pair, HEADLESS, link reports, the join procedure at the holder and at a candidate.
-/

namespace Sys2Proof.Machine

open Sys2Proof

/-! ### Roles -/

def pairNone : Nat := 0
def pairSingle : Nat := 1
def pairHolder : Nat := 2
def pairStandby : Nat := 3

/-- STATUS.PAIR_ROLE. -/
def pairRole (s : State) : Nat := getR s Page.duplex Reg.duplexStatusPairRole

/-- The Staircase a hub speaks for: its active one, or its pending one while it is a candidate. -/
def ownBank (s : State) : Option Memory :=
  if staircaseActive s then some s.stair.active else if isCandidate s then some s.stair.pend else none

/-- Whether a Staircase makes a hub one of a duplex pair. -/
def pairIn (m : Memory) (n : Nat) : Bool := imgMasterB m ≠ 0 && isMasterHub m n

/-- The pair partner under a Staircase. -/
def partnerIn (m : Memory) (n : Nat) : Nat := if n = imgMasterA m then imgMasterB m else imgMasterA m

/-- Whether this hub is a pair hub of its active Staircase. -/
def isPair (s : State) : Bool := staircaseActive s && pairIn s.stair.active (nodeId s)

/-- Whether this hub acts as ring master: the single one, or the holder of the lease. -/
def actsMaster (s : State) : Bool := pairRole s = pairSingle || pairRole s = pairHolder

/-- The lease holder or the single ring master; 0 while none is known. -/
def masterNode (s : State) : Nat :=
  if staircaseActive s && imgMasterB s.stair.active = 0 then imgMasterA s.stair.active
  else getR s Page.duplex Reg.duplexStatusHolder

/-- LEASE_EFF (R156). -/
def leaseEff (s : State) : Nat := max (max 4 (min 64 (getR s Page.duplex Reg.duplexCfgLeaseCycles))) (loopCycles s + 2)

/-! ### The token and the view (R154, R155) -/

/-- The stored token's fields. -/
def tokTerm (s : State) : Nat := getR s Page.duplex Reg.duplexTerm
def tokHolder (s : State) : Nat := getR s Page.duplex Reg.duplexStatusHolder
def tokExpiry (s : State) : Nat := getPair s Page.duplex Reg.duplexExpiryLo Reg.duplexExpiryHi

/-- STATUS.YIELDING: a holder that has set YIELD. -/
def syncYield (s : State) : State :=
  setFlag Page.duplex Reg.duplexStatusYielding (pairRole s = pairHolder && s.duplex.tokYield) s

/-- The two master hubs of the Staircase that a hub speaks for. -/
def masterHubs (s : State) : Nat × Nat := match ownBank s with
  | some m => (imgMasterA m, imgMasterB m)
  | none => (0, 0)

/-- A token stored. -/
def storeToken (term holder : Nat) (yield : Bool) (expiry : Nat) (s : State) : State :=
  { s with duplex := { s.duplex with tokYield := yield, tokHubs := masterHubs s } }
  |> setR Page.duplex Reg.duplexTerm term |> setR Page.duplex Reg.duplexStatusHolder holder
  |> setPair Page.duplex Reg.duplexExpiryLo Reg.duplexExpiryHi (expiry % 2 ^ 48) |> syncYield

/-- A lease view (Lease view table). -/
structure View where
  term : Nat
  holder : Nat
  yield : Bool
  expiry : Nat
  hash16 : Nat
  holding : Bool
  eligible : Bool
  preferred : Bool
  reclaim : Bool
  ack : Bool
deriving DecidableEq, Repr

/-- A view from its 128 bits. -/
def parseView (v : Nat) : View :=
  { term := bits v 31 0, holder := bits v 39 32, yield := bit v 40, expiry := bits v 95 48, hash16 := bits v 111 96, holding := bit v 112
    eligible := bit v 113, preferred := bit v 114, reclaim := bit v 115, ack := bit v 116 }

/-- Whether CFG.PREFERRED is set. -/
def preferred (s : State) : Bool := flag s Page.duplex Reg.duplexCfgPreferred

/-- HASH16 of the hub's own Staircase. -/
def ownHash16 (s : State) : Nat := match ownBank s with
  | some m => imgHash16 m
  | none => 0

/-- Whether YIELD_ACK is sent: for the yielding token that is stored (R162). -/
def ackSent (s : State) : Bool := s.duplex.ackFor = some (tokTerm s, tokExpiry s)

/-- This hub's view, 128 bits. -/
def ownView (s : State) : Nat :=
  tokTerm s + 2 ^ 32 * tokHolder s + 2 ^ 40 * b2n s.duplex.tokYield + 2 ^ 48 * tokExpiry s + 2 ^ 96 * ownHash16 s
    + 2 ^ 112 * b2n (actsMaster s) + 2 ^ 113 * getR s Page.duplex Reg.duplexStatusEligible + 2 ^ 114 * b2n (preferred s)
    + 2 ^ 115 * getR s Page.duplex Reg.duplexStatusReclaimReq + 2 ^ 116 * b2n (ackSent s)

/-- The partner's latest view, as PARTNER_VIEW shows it. -/
def partnerView (s : State) : View :=
  parseView ((List.range 4).foldl (fun n i => n + 2 ^ (32 * i) * getR s Page.duplex (Reg.duplexPartnerView i)) 0)

/-- Whether a received token replaces the stored one (R155). A view without a token (TERM 0) changes nothing. -/
def tokenReplaces (s : State) (v : View) (from_ : Nat) : Bool :=
  v.term ≠ 0 &&
    (decide (tokTerm s < v.term) ||
      (v.term = tokTerm s && v.holder = tokHolder s && (from_ = v.holder || decide (tokExpiry s < v.expiry))) ||
      (v.term = tokTerm s && v.holder ≠ tokHolder s && decide (v.holder < tokHolder s)))

/-! ### Eligibility (R161) -/

/-- The five conditions, as ELIG shows them. -/
def eligBits (s : State) : Nat :=
  let c := cycleNow s
  let tb := tb0State s
  let wd := getR s Page.duplex Reg.duplexHostWd
  let base (lo hi : Fld) : Bool := getR s Page.img lo ≠ 0 || getR s Page.img hi ≠ 0
  b2n (staircaseActs s)
  + 2 * b2n (tb = tbLocked || tb = tbMaster || (tb = tbHoldover && flag s Page.time Reg.timeStatusHoldLocked))
  + 4 * b2n (pcieUp s && flag s Page.pcie Reg.pcieLinkBme && flag s Page.img Reg.imgCfgDmaEn && base Reg.imgHostBaseALo Reg.imgHostBaseAHi
      && base Reg.imgHostBaseBLo Reg.imgHostBaseBHi)
  + 8 * b2n (wd = 0 || decide (c ≤ s.duplex.kickAt + wd))
  + 16 * b2n (!([Page.stn .east, Page.stn .west, Page.stair, Page.img, Page.duplex, Page.pcie].any fun p => pageFenced s p))

/-- ELIG, ELIGIBLE, INELIGIBLE and the partner's eligibility follow what they are made of; they stand at pair hubs (R161, R163). -/
def syncElig (s : State) : State :=
  let pair := isPair s
  let e := if pair then eligBits s else 0
  let v := partnerView s
  let heard := match s.duplex.partnerAt with
    | some c => decide (cycleNow s ≤ c + 4)
    | none => false
  s |> setR Page.duplex Reg.duplexElig e |> setFlag Page.duplex Reg.duplexStatusEligible (e = 31)
    |> setLevel Page.duplex Ev.duplexIneligible (pair && e ≠ 31)
    |> setFlag Page.duplex Reg.duplexStatusPartnerEligible v.eligible
    |> setLevel Page.duplex Ev.duplexPartnerIneligible (pair && (!v.eligible || !heard))
    |> setLevel Page.duplex Ev.duplexPrefConflict (pair && preferred s && v.preferred)
    |> setR Page.duplex Reg.duplexLeaseLeaseEff (leaseEff s) |> setR Page.duplex Reg.duplexLeaseLoopCycles (loopCycles s)

/-- Whether this hub is ELIGIBLE. -/
def eligible (s : State) : Bool := flag s Page.duplex Reg.duplexStatusEligible

/-- HOST_ALIVE.KICK. -/
def hostKick (s : State) : State := syncElig { s with duplex := { s.duplex with kickAt := cycleNow s } }

/-- A view of the partner arrives by the pair link or in its status record (R155). -/
def takeView (from_ v : Nat) (s : State) : State :=
  let w := parseView v
  if w.hash16 ≠ ownHash16 s then s |> incCnt Page.duplex Reg.duplexTokenRej |> raiseEv Page.duplex Ev.duplexTokenReject
  else
    let yielding := pairRole s = pairHolder && s.duplex.tokYield
    { s with duplex := { s.duplex with partnerAt := some (cycleNow s), ackGot := s.duplex.ackGot || (yielding && w.ack) } }
    |> forEach (List.range 4) (fun i u => setR Page.duplex (Reg.duplexPartnerView i) (v / 2 ^ (32 * i)) u)
    |> whenS (tokenReplaces s w from_) (storeToken w.term w.holder w.yield w.expiry)
    |> syncElig

/-! ### The pair link (R152, R153) -/

/-- The CRC-16 of the pair link frame and of the local host port (Pair link frame table). -/
def crc16Byte (c b : Nat) : Nat :=
  (List.range 8).foldl (fun x _ => if bit x 15 then (2 * x) % 2 ^ 16 ^^^ 0x1021 else 2 * x) (c ^^^ (2 ^ 8 * b))

/-- CRC-16 over bytes. -/
def crc16 (bs : List Byte) : Nat := bs.foldl (fun c b => crc16Byte c b.toNat) 0xFFFF

/-- The data characters of the frame that starts at the boundary of cycle c. -/
def pairFrame (s : State) (c : Nat) : List Byte :=
  let body := [0xD5, BitVec.ofNat 8 (nodeId s), BitVec.ofNat 8 s.duplex.seq, 0] ++ leBytes 3 c ++ [0] ++ leBytes 16 (ownView s)
  body ++ leBytes 2 (crc16 body)

/-- The six bits of the first half of a ten-bit code (5b/6b) by EDCBA at negative running disparity, bit a highest; the 8b/10b code that
R152 names is the standard's. -/
def code6 : List Nat :=
  [0b100111, 0b011101, 0b101101, 0b110001, 0b110101, 0b101001, 0b011001, 0b111000, 0b111001, 0b100101, 0b010101, 0b110100, 0b001101, 0b101100,
   0b011100, 0b010111, 0b011011, 0b100011, 0b010011, 0b110010, 0b001011, 0b101010, 0b011010, 0b111010, 0b110011, 0b100110, 0b010110, 0b110110,
   0b001110, 0b101110, 0b011110, 0b101011]

/-- The four bits of the second half (3b/4b) by HGF at negative running disparity, bit f highest; 8 is the alternate code of 7. -/
def code4 : List Nat := [0b1011, 0b1001, 0b0101, 0b1100, 0b1101, 0b1010, 0b0110, 0b1110, 0b0111]

/-- One half of a code of n bits: complemented at positive disparity where it is not balanced or is its exceptional balanced code; the
disparity after it. -/
def codeHalf (n code exception : Nat) (plus : Bool) : Nat × Bool :=
  let ones := ((List.range n).filter (bit code)).length
  let flips := 2 * ones ≠ n || code = exception
  (if plus && flips then 2 ^ n - 1 - code else code, plus != decide (2 * ones ≠ n))

/-- The ten-bit code of a character, bit a highest, and the running disparity after it (R152): `k` marks a special character. -/
def lineCode (plus k : Bool) (b : Nat) : Nat × Bool :=
  let x := b % 32
  let y := b / 32 % 8
  let (h, p) := if k && x = 28 then codeHalf 6 0b001111 0 plus else codeHalf 6 (code6.getD x 0) 0b111000 plus
  let alt := y = 7 && (k || (if p then x = 11 || x = 13 || x = 14 else x = 17 || x = 18 || x = 20))
  let (l, q) := if k && x = 28 && y = 5 then ((if p then 0b1010 else 0b0101), p) else codeHalf 4 (code4.getD (if alt then 8 else y) 0) 0b1100 p
  (16 * h + l, q)

/-- The bits of a ten-bit code in the order of the line: bit a lowest. -/
def lineOrder (code : Nat) : Nat := (List.range 10).foldl (fun n i => n + 2 ^ i * b2n (bit code (9 - i))) 0

/-- Characters sent one after another: the codes, and the running disparity after them. -/
def lineCodes (plus : Bool) : List (Bool × Nat) → List Nat × Bool
  | [] => ([], plus)
  | (k, b) :: cs =>
    let (code, p) := lineCode plus k b
    let (rest, q) := lineCodes p cs
    (lineOrder code :: rest, q)

def kIdle : Bool × Nat := (true, 0xBC)
def kStart : Bool × Nat := (true, 0xFB)
def kEnd : Bool × Nat := (true, 0xFD)

/-- The frame of the boundary of cycle c is sent (R152): K27.7, its data characters, K29.7. The K28.5 sent since the last frame, one each µs,
turn the running disparity. -/
def sendPairFrame (c : Nat) (s : State) : State :=
  let idles := (s.time.tb2 - s.duplex.frameAt) / 1000 - 28
  let plus := s.duplex.disparity != decide (idles % 2 = 1)
  let (codes, q) := lineCodes plus ([kStart] ++ (pairFrame s c).map (fun b => (false, b.toNat)) ++ [kEnd])
  emit (.pair codes) { s with duplex := { s.duplex with seq := (s.duplex.seq + 1) % 256, disparity := q, frameAt := s.time.tb2 } }

/-- PAIR_LINK_DOWN and its inverse in STATUS. -/
def setPairLink (down : Bool) (s : State) : State :=
  s |> setFlag Page.duplex Reg.duplexStatusPairLinkUp (!down) |> setLevel Page.duplex Ev.duplexPairLinkDown down

/-- A pair link frame arrives (R153). -/
def pairLinkFrame (bs : List Byte) (s : State) : State :=
  let b (i : Nat) : Nat := (bs.getD i 0).toNat
  let c24 := leNat ((bs.drop 4).take 3)
  let now := cycleNow s
  let from_ := match ownBank s with
    | some m => if pairIn m (nodeId s) then some (partnerIn m (nodeId s)) else none
    | none => none
  let c := if c24 = now % 2 ^ 24 then some now else if now ≠ 0 ∧ c24 = (now - 1) % 2 ^ 24 then some (now - 1) else none
  match from_, c with
  | some p, some cy =>
    if bs.length = 26 ∧ leNat (bs.drop 24) = crc16 (bs.take 24) ∧ b 1 = p then
      { s with duplex := { s.duplex with frameFor := some cy, missed := 0 } } |> setPairLink false |> takeView p (leNat ((bs.drop 8).take 16))
    else incCnt Page.duplex Reg.duplexPairErrCrcErr s
  | _, _ => incCnt Page.duplex Reg.duplexPairErrCrcErr s

/-- The pair link at the boundary of cycle c (R152, R153): the own frame, which a fence holds back, then the missing one of the cycle before. -/
def pairLinkBoundary (c : Nat) (s : State) : State :=
  match ownBank s with
  | none => s
  | some m =>
    if !pairIn m (nodeId s) then s
    else
      let s1 := if pageFenced s Page.duplex then s
        else sendPairFrame c s
      if s1.duplex.frameFor = some (c - 1) ∨ c = 0 then s1
      else
        let n := s1.duplex.missed + 1
        { s1 with duplex := { s1.duplex with missed := n } } |> incCnt Page.duplex Reg.duplexPairErrMissing
        |> whenS (4 ≤ n) (setPairLink true)

/-! ### Lease-gated ports (R164, R165, R300) -/

/-- Whether lease gating applies: a pair hub that is not holding. -/
def gatesPorts (s : State) : Bool := isPair s && pairRole s ≠ pairHolder

/-- Engines and CAN channels take the gate that the lease gives them. -/
def syncGates (s : State) : State :=
  let on := gatesPorts s
  let engGate (u : State) (e : Nat) : Bool := on && bit (getR u Page.duplex (Reg.duplexEngGate (e / 32))) (e % 32)
  s |> forEach ((List.range 128).filter fun e => engGate s e ≠ flag s (Page.eng e) Reg.engStatusGated) (fun e u =>
         u |> setFlag (Page.eng e) Reg.engStatusGated (engGate u e) |> syncTile (e / 8))
    |> forEach (List.range 16) (fun n u => setCanGate n (on && bit (getR u Page.duplex Reg.duplexCanGate) n) u)

/-- A hub that gains the lease gives way on its gated channels for 2 cycles (R300). -/
def giveWay (c : Nat) (s : State) : State := forEach (List.range 16) (fun n u => setCan n { canOf u n with giveWay := c + 2 } u) s

/-! ### The state of the join procedure -/

def joinIdle : Nat := 0
def joinOpening : Nat := 1
def joinSeen : Nat := 2
def joinChallenged : Nat := 3
def joinAwaiting : Nat := 4
def joinActivating : Nat := 5

/-- JOIN_STATE. -/
def joinStep (s : State) : Nat := getR s Page.duplex Reg.duplexJoinStateStep
def joinNode (s : State) : Nat := getR s Page.duplex Reg.duplexJoinStateNode

/-- JOIN_STATE set. -/
def setJoin (node step : Nat) (s : State) : State :=
  s |> setR Page.duplex Reg.duplexJoinStateNode node |> setR Page.duplex Reg.duplexJoinStateStep step

/-! ### Gaining and losing the lease (R157, R158) -/

/-- The LEASE journal entry. -/
def journalLease (holder : Nat) (gained : Bool) (s : State) : State :=
  journal none 0x03 (holder + (if gained then 2 ^ 8 else 2 ^ 9)) (tokTerm s + 2 ^ 32 * (tokExpiry s % 2 ^ 24)) 0 s

/-- PAIR_ROLE set. -/
def setPairRole (r : Nat) (s : State) : State := s |> setR Page.duplex Reg.duplexStatusPairRole r |> syncYield

/-- Both stations take a role. -/
def setRoles (r : Nat) (s : State) : State := s |> setRole .east r |> setRole .west r

/-- The hub claims the lease at the boundary of cycle c (R157). -/
def claimLease (c : Nat) (s : State) : State :=
  { s with duplex := { s.duplex with ackFor := none, ackGot := false, yieldCmd := false } }
  |> storeToken (tokTerm s + 1) (nodeId s) false (c + leaseEff s) |> setPairRole pairHolder |> setRoles roleMasterOrigin
  |> becomeTimeMaster |> giveWay c |> syncGates
  |> setR Page.duplex Reg.duplexReclaimCnt 0 |> setFlag Page.duplex Reg.duplexStatusReclaimReq false
  |> incCnt Page.duplex Reg.duplexLeaseCntGained |> raiseEv Page.duplex Ev.duplexLeaseGained
  |> (fun u => journalLease (nodeId u) true u)

/-- The hub stops holding (R158, R162). -/
def stopHolding (c : Nat) (s : State) : State :=
  { s with duplex := { s.duplex with ackGot := false, yieldCmd := false } }
  |> setPairRole pairStandby |> setRoles roleStandby |> leaveTimeMaster c |> syncGates |> setJoin 0 joinIdle
  |> incCnt Page.duplex Reg.duplexLeaseCntLost |> raiseEv Page.duplex Ev.duplexLeaseLost
  |> (fun u => journalLease (tokHolder u) false u)

/-- A holder whose stations become FORWARDER stops holding at once (R162): HOLDING 0, YIELD set, EXPIRY the current cycle. -/
def holderForwarder (s : State) : State :=
  if pairRole s ≠ pairHolder then s
  else
    let c := cycleNow s
    s |> storeToken (tokTerm s) (tokHolder s) true c |> setPairRole pairStandby |> leaveTimeMaster c |> syncGates |> setJoin 0 joinIdle
      |> incCnt Page.duplex Reg.duplexLeaseCntLost |> raiseEv Page.duplex Ev.duplexLeaseLost
      |> (fun u => journalLease (tokHolder u) false u)

/-! ### Renewal, yield, reclaim (R156, R162, R163) -/

/-- EXPIRY renewed. -/
def renewLease (c : Nat) (s : State) : State := storeToken (tokTerm s) (tokHolder s) false (c + leaseEff s) s

/-- YIELD_FAIL. -/
def yieldFail (s : State) : State := raiseEv Page.duplex Ev.duplexYieldFail s

/-- The holder sets YIELD (R162). -/
def beginYield (c : Nat) (s : State) : State :=
  storeToken (tokTerm s) (tokHolder s) true (c + 4) { s with duplex := { s.duplex with yieldAt := c, ackGot := false, yieldCmd := false } }

/-- The holder at the boundary of cycle c. -/
def holderBoundary (c : Nat) (s : State) : State :=
  let v := partnerView s
  if tokHolder s ≠ nodeId s then stopHolding c s
  else if s.duplex.tokYield then
    if s.duplex.yieldAt + 4 ≤ c then stopHolding c s
    else if c = s.duplex.yieldAt + 3 && !s.duplex.ackGot then s |> renewLease c |> yieldFail
    else s
  else if (!eligible s && v.eligible) || s.duplex.yieldCmd || (v.reclaim && v.eligible && !preferred s) then beginYield c s
  else renewLease c s

/-- PCMD YIELD (R162): refused with YIELD_FAIL while the partner is not ELIGIBLE; the result says whether it was refused. -/
def yieldCommand (s : State) : State × Bool :=
  if !flag s Page.duplex Reg.duplexStatusPartnerEligible then (yieldFail s, true)
  else if pairRole s = pairHolder then ({ s with duplex := { s.duplex with yieldCmd := true } }, false)
  else (s, false)

/-- Counting towards a reclaim at the boundary of cycle c (R163); the boundary at which the hub first activates starts the count at 0. -/
def reclaimBoundary (c : Nat) (s : State) : State :=
  let old := getR s Page.duplex Reg.duplexReclaimCnt
  let waits := pairRole s = pairStandby
  let n := if (s.stair.actCycle = c && !s.stair.hadBank) || !waits || !eligible s then 0
    else if preferred s then min (2 ^ 32 - 1) (old + 1) else old
  let reached := decide (max 1024 (getR s Page.duplex Reg.duplexReclaimHoldoff) ≤ n)
  s |> setR Page.duplex Reg.duplexReclaimCnt n
    |> setFlag Page.duplex Reg.duplexStatusReclaimReq
         (waits && preferred s && !(partnerView s).preferred && (flag s Page.duplex Reg.duplexStatusReclaimReq || reached))

/-- Whether a standby claims at the boundary of cycle c (R157), other than at an activation. -/
def claims (s : State) (c : Nat) : Bool :=
  eligible s && tokTerm s ≠ 0 &&
    (decide (tokExpiry s + 2 ≤ c) ||
      (s.duplex.tokYield && decide (tokExpiry s ≤ c) && (ackSent s || !(partnerView s).holding)))

/-- A standby acknowledges the yielding token it has stored in its views from here on (R162). -/
def acknowledge (s : State) : State :=
  if !s.duplex.tokYield then { s with duplex := { s.duplex with ackFor := none } }
  else if eligible s && tokHolder s ≠ nodeId s then { s with duplex := { s.duplex with ackFor := some (tokTerm s, tokExpiry s) } }
  else s

/-- A standby at the boundary of cycle c: a claim, else the acknowledgement of a yielding token and the reclaim count. An EXPIRY that stands
without a token (TERM 0) lapses as R157 states. -/
def standbyBoundary (c : Nat) (s : State) : State :=
  if claims s c || (eligible s && tokTerm s = 0 && decide (tokExpiry s + 2 ≤ c)) then claimLease c s
  else reclaimBoundary c (acknowledge s)

/-- The lease at the boundary of cycle c. -/
def leaseBoundary (c : Nat) (s : State) : State :=
  let s1 := syncElig s
  if !isPair s1 || !staircaseActs s1 then s1
  else if pairRole s1 = pairHolder then holderBoundary c s1 |> reclaimBoundary c
  else standbyBoundary c s1

/-- Whether this hub is the first claimant of a pair (R157). -/
def firstClaimant (s : State) (m : Memory) : Bool :=
  let other := (partnerView s).preferred
  if preferred s ≠ other then preferred s else nodeId s = imgMasterA m

/-- Mastership at an activation at the boundary of cycle c (R148, R157, R159): a stored token is kept where it is for the same two hubs;
`alone` marks the self-activation of R170. -/
def duplexActivate (c : Nat) (alone : Bool) (s : State) : State :=
  let m := s.stair.active
  let n := nodeId s
  let hubs := s.duplex.tokHubs
  let same := hubs = (imgMasterA m, imgMasterB m) || hubs = (imgMasterB m, imgMasterA m)
  if !isMasterHub m n then
    s |> storeToken 0 0 false 0 |> setPairRole pairNone |> setR Page.duplex Reg.duplexStatusPartner 0 |> leaveTimeMaster c |> syncGates |> syncElig
  else if imgMasterB m = 0 then
    s |> storeToken 0 n false 0 |> setPairRole pairSingle |> setR Page.duplex Reg.duplexStatusPartner 0 |> setRoles roleMasterOrigin
      |> becomeTimeMaster |> syncGates |> syncElig
  else
    let s1 := s |> whenS (!same) (storeToken 0 0 false 0) |> setR Page.duplex Reg.duplexStatusPartner (partnerIn m n) |> syncElig
    if pairRole s1 = pairHolder && same then s1 |> setRoles roleMasterOrigin |> syncGates
    else
      let s2 := s1 |> setPairRole pairStandby |> setRoles roleStandby |> leaveTimeMaster c |> syncGates |> syncElig
      if alone || (tokTerm s2 = 0 && firstClaimant s2 m && eligible s2) then claimLease c s2
      else whenS (tokTerm s2 = 0 && !firstClaimant s2 m) (fun u => storeToken 0 (tokHolder u) false (c + leaseEff u) u) s2

/-- Mastership when the hub stops acting on its Staircase (R112, R113, R159, R162). -/
def duplexDeactivate (s : State) : State :=
  let c := cycleNow s
  s |> holderForwarder |> leaveTimeMaster c |> setPairRole (if isPair s then pairStandby else pairNone) |> setJoin 0 joinIdle |> syncGates
    |> syncElig

/-- The hub is no ring master hub any more (R159): its token is cleared and nothing of it is gated. -/
def ceaseMaster (s : State) : State :=
  s |> storeToken 0 0 false 0 |> setPairRole pairNone |> setR Page.duplex Reg.duplexStatusPartner 0 |> syncGates |> syncElig

/-- Where an activation changes the cycle period, the cycles that the hub has noted keep their distance from the present one: `old` is its
number before, `new` after. -/
def renumber (old new : Nat) (s : State) : State :=
  let sh (n : Nat) : Nat := n + new - old
  let d := s.duplex
  { s with
    duplex := { d with
      partnerAt := d.partnerAt.map sh, frameFor := d.frameFor.map sh, kickAt := sh d.kickAt, yieldAt := sh d.yieldAt
      seen := d.seen.map fun e => (e.1, sh e.2), nonceCycle := sh d.nonceCycle, joinHold := sh d.joinHold
      refused := d.refused.map fun e => (e.1, (sh e.2.1, e.2.2)) }
    time := { s.time with
      stamps := if old = new then s.time.stamps else []
      reports := s.time.reports.map fun e => (e.1, { e.2 with committed := sh e.2.committed })
      exchanges := s.time.exchanges.map fun e => (e.1, { e.2 with began := sh e.2.began, ended := sh e.2.ended })
      lastMeas := sh s.time.lastMeas, cmpFrom := s.time.cmpFrom.map fun e => (e.1, sh e.2) } }

/-! ### Master presence and HEADLESS (R160, R167) -/

/-- A ring master hub is seen acting in cycle c (R167): presence, HEADLESS cleared, MASTER_CHANGE, and OVERLAP when both are. -/
def notePresence (c node holder : Nat) (s : State) : State :=
  let d := s.duplex
  let fresh := d.holders.filter fun e => e.1 = c
  let overlap := fresh.any fun e => e.2 ≠ node
  let seen := fresh.contains (c, node)
  let changed := d.recHolder ≠ 0 && d.recHolder ≠ holder
  { s with duplex := { d with
    present := true, absent := 0, recHolder := holder, holders := if seen then fresh else (c, node) :: fresh } }
  |> raiseIf (overlap && !seen) Page.duplex Ev.duplexOverlap |> raiseIf changed Page.duplex Ev.duplexMasterChange
  |> whenS (pairRole s = pairNone) (setR Page.duplex Reg.duplexStatusHolder holder)
  |> setLevel Page.duplex Ev.duplexHeadless false |> setFlag Page.duplex Reg.duplexStatusHeadless false

/-- HEADLESS at a boundary (R167): the cycle that ends is one more without master presence, or has had one. -/
def headlessBoundary (s : State) : State :=
  let n := if s.duplex.present then 0 else s.duplex.absent + 1
  let on := decide (4 ≤ n)
  { s with duplex := { s.duplex with present := false, absent := n } }
  |> setLevel Page.duplex Ev.duplexHeadless on |> setFlag Page.duplex Reg.duplexStatusHeadless on

/-- Whether HEADLESS stands. -/
def headless (s : State) : Bool := levelOn s Page.duplex Ev.duplexHeadless

/-! ### Membership (R178) -/

/-- Whether a node's MEMBER bit is set. -/
def isMember (s : State) (n : Nat) : Bool := bit (getR s Page.duplex (Reg.duplexMember (n / 32))) (n % 32)

/-- A MEMBER bit set or cleared; the bits for 0 and 255 read 0. -/
def setMember (n : Nat) (b : Bool) (s : State) : State :=
  if n = 0 ∨ 255 ≤ n then s else setArrayBit Page.duplex Reg.duplexMember n b s

/-- A member is lost. -/
def loseMember (n : Nat) (s : State) : State :=
  if isMember s n then s |> setMember n false |> raiseEv Page.duplex Ev.duplexMemberLost else s

/-- Members silent for 64 cycles at the boundary of cycle c. -/
def memberBoundary (c : Nat) (s : State) : State :=
  if pairRole s = pairNone then s
  else forEach ((List.range 255).filter fun n => isMember s n && decide (storeGet 0 s.duplex.seen n + 64 < c)) loseMember s

/-! ### Join at the holder (R173, R176–R179) -/

/-- The JOIN journal entry. -/
def journalJoin (node cause : Nat) (opening : Bool) (value : Nat) (s : State) : State :=
  journal none 0x09 (node + 2 ^ 8 * cause + 2 ^ 16 * b2n opening) value 0 s

/-- A refusal (R179). `hash` is the PEND_HASH that the node's join record has shown; a refusal without one keeps that of an earlier refusal. -/
def joinRefuse (node cause : Nat) (hash : Option Nat) (s : State) : State :=
  let mine := joinNode s = node
  let before := match storeFind node s.duplex.refused with
    | some e => e.2
    | none => 0
  { s with duplex := { s.duplex with refused := storePut node (cycleNow s, hash.getD before) s.duplex.refused } }
  |> setR Page.duplex Reg.duplexJoinResultNode node |> setR Page.duplex Reg.duplexJoinResultCause cause
  |> incCnt Page.duplex Reg.duplexJoinRefuseCnt |> raiseEv Page.duplex Ev.duplexJoinRefused |> journalJoin node cause false 0
  |> whenS mine (setJoin 0 joinIdle)

/-- A posted write of the holder's Newel to a register of another node, in stream 9 (R198). -/
def newelPost (node op page off : Nat) (data : List Byte) (s : State) : State :=
  sendPosted portNewel node 1 9 op (page * 4096 + off) data s

/-- A guarded write of the holder's Newel to another node (R184). -/
def newelGuarded (node page off v : Nat) (s : State) : State :=
  newelPost node opGuarded page off (leBytes 4 v ++ leBytes 4 (v ^^^ 0xFFFFFFFF)) s

/-- The opening of a port at one end: OPEN_CYCLE, then ARM_OPEN, at another node or here. -/
def armEnd (node : Nat) (eastPort : Bool) (c : Nat) (s : State) : State :=
  let st : Side := if eastPort then .west else .east
  if node = nodeId s then
    s |> setPair (Page.stn st) Reg.stnOpenCycleLo Reg.stnOpenCycleHi c |> setFlag (Page.stn st) Reg.stnStatusArmed true
  else
    s |> newelGuarded node (Page.stn st) 0x300 (c % 2 ^ 32) |> newelGuarded node (Page.stn st) 0x304 (c / 2 ^ 32 % 2 ^ 16)
      |> newelGuarded node (Page.stn st) 0x308 1

/-- The RING_ORDER entry next to a node on a side. -/
def ringNeighbour (m : Memory) (n : Nat) (east : Bool) : Option Nat :=
  match (ringOrder m).findIdx? (· = n) with
  | some i => (ringOrder m)[(if east then i + 1 else i + (ringOrder m).length - 1) % (ringOrder m).length]?
  | none => none

/-- A link report reaches the holder (R172, R173): from member `src`, for its EAST or WEST port, with the neighbour's node and port. -/
def linkReport (src : Nat) (eastPort : Bool) (neighbour : Nat) (neighbourWest : Bool) (s : State) : State :=
  let s1 := raiseEv Page.duplex Ev.duplexLinkReport s
  let want := ringNeighbour s1.stair.active src eastPort
  let c := cycleNow s1 + loopCycles s1 + 8
  if !actsMaster s1 then s1
  else if neighbour = 0 then joinRefuse neighbour 1 none s1
  else if want ≠ some neighbour then joinRefuse neighbour (if isMember s1 neighbour then 2 else 3) none s1
  else
    s1 |> whenS (joinStep s1 = joinIdle && !isMember s1 neighbour) (setJoin neighbour joinOpening)
       |> armEnd src eastPort c |> whenS (isMember s1 neighbour || neighbour = nodeId s1) (armEnd neighbour (!neighbourWest) c)

/-- The response over a nonce (R176): CMAC-64 over NONCE, NODE, holder and MANIFEST_HASH under the ring key of the nonce's cycle. -/
def joinMac (s : State) (c nonce node holder : Nat) (m : Memory) : Nat :=
  ringCmac s c (leBytes 8 nonce ++ leBytes 1 node ++ leBytes 1 holder ++ memReadN m 8 32)

/-- The holder lets a candidate activate (R177). -/
def joinActivate (node : Nat) (s : State) : State :=
  let c := cycleNow s + loopCycles s + 4
  { s with duplex := { s.duplex with joinHold := c } }
  |> setJoin node joinActivating
  |> newelGuarded node Page.stair 0x304 (c % 2 ^ 32) |> newelGuarded node Page.stair 0x308 (c / 2 ^ 32 % 2 ^ 16 + 2 ^ 16 * flightFor s c)
  |> newelGuarded node Page.stair 0x30C (imgHash s.stair.active) |> newelGuarded node Page.stair 0x300 4
  |> journalJoin node 0 false c

/-- The holder writes a nonce to a candidate (R176); without entropy it writes none (R419). -/
def joinChallenge (node : Nat) (s : State) : State :=
  let started (u : State) : State := { u with duplex := { u.duplex with nonceCycle := cycleNow u, nonceTime := u.time.tb2 } } |> setJoin node joinChallenged
  if levelOn s Page.key Ev.keyEntropyFail then started s
  else
    let (bs, s1) := freeBytes 8 s
    { s1 with duplex := { s1.duplex with nonce := leNat bs } } |> started
    |> newelPost node opWrite Page.duplex 0x0CC (bs.take 4) |> newelPost node opWrite Page.duplex 0x0D0 (bs.drop 4)

/-- Whether a refused node is challenged again (R179): after 2¹⁶ cycles, or with a new PEND_HASH. -/
def joinOpen (s : State) (node hash : Nat) : Bool :=
  match storeFind node s.duplex.refused with
  | some (c, h) => decide (c + 65536 ≤ cycleNow s) || h ≠ hash
  | none => true

/-- A join record from a node commits at the holder (R176, R177). One candidate is served at a time; none while the ring is headless (R168). -/
def joinRecordAt (node flags proto hash resp : Nat) (s : State) : State :=
  if !actsMaster s || headless s then s
  else
    let s1 := raiseEv Page.duplex Ev.duplexJoinCandidate s
    let step := joinStep s1
    let busy := decide (joinSeen ≤ step) && joinNode s1 ≠ node
    if busy || !joinOpen s1 node hash then s1
    else
      let s2 := { s1 with duplex := { s1.duplex with joinHash := hash } } |> whenS (decide (step < joinSeen)) (setJoin node joinSeen)
      if hash ≠ imgHash s2.stair.active then joinRefuse node 4 (some hash) s2
      else if proto < imgProtocol s2.stair.active then joinRefuse node 5 (some hash) s2
      else if joinStep s2 = joinSeen then whenS (bit flags 0) (joinChallenge node) s2
      else if joinStep s2 = joinChallenged && bit flags 1 then
        let want := joinMac s2 s2.duplex.nonceCycle s2.duplex.nonce node (nodeId s2) s2.stair.active
        if levelOn s2 Page.key Ev.keyKeyUnusable || resp ≠ want then joinRefuse node 6 (some hash) s2
        else if flag s2 Page.duplex Reg.duplexCfgAutoJoin then joinActivate node s2
        else setJoin node joinAwaiting s2
      else s2

/-- JOIN_TIMEOUT (R176): 64 cycles and 10 ms after the nonce. -/
def joinTimeout (s : State) : State :=
  let late := decide (s.duplex.nonceCycle + 64 ≤ cycleNow s) && decide (s.duplex.nonceTime + 10000000 ≤ s.time.tb2)
  if joinStep s = joinChallenged && late then joinRefuse (joinNode s) 7 (some s.duplex.joinHash) s else s

/-- JCMD (R177): 1 ADMIT, 2 REFUSE, for the node at step 4; no join proceeds in a headless ring (R168). -/
def joinCommand (cmd node : Nat) (s : State) : State :=
  if joinStep s ≠ joinAwaiting ∨ joinNode s ≠ node ∨ !actsMaster s then s
  else if cmd = 1 then (if headless s then s else joinActivate node s)
  else if cmd = 2 then joinRefuse node 8 (some s.duplex.joinHash) s else s

/-! ### Committed status records (R151, R167, R176, R178) -/

/-- A status record of a node commits in a gallery of cycle c: membership and presence (R167, R178); `view` its lease view, if it has one. -/
def memberRecord (c node : Nat) (view : Option Nat) (s : State) : State :=
  let m := s.stair.active
  let keeps := pairRole s ≠ pairNone
  let s1 := { s with duplex := { s.duplex with seen := storePut node (cycleNow s) s.duplex.seen } }
    |> whenS (keeps && !isMember s node) (fun u => u |> setMember node true
         |> raiseIf (actsMaster u && node ≠ nodeId u) Page.duplex Ev.duplexJoinDone
         |> whenS (joinNode u = node) (setJoin 0 joinIdle))
  match view with
  | none => whenS (imgMasterB m = 0 && node = imgMasterA m) (notePresence c node node) s1
  | some v =>
    let w := parseView v
    s1 |> whenS (isMasterHub m node && w.holding) (notePresence c node w.holder)
       |> whenS (isPair s1 && node = partnerIn m (nodeId s1)) (takeView node v)

/-- A record with KIND 0x02 commits (R176, R178). -/
def candidateRecord (bs : List Byte) (s : State) : State :=
  let b (i : Nat) : Nat := (bs.getD i 0).toNat
  let node := b 1
  { s with duplex := { s.duplex with seen := storePut node (cycleNow s) s.duplex.seen } }
  |> whenS (pairRole s ≠ pairNone) (loseMember node)
  |> joinRecordAt node (b 2) (b 3) (leNat ((bs.drop 4).take 4)) (leNat ((bs.drop 8).take 8))

/-- The halves of time reports that a neighbour's record carries (R377, R378). -/
def neighbourReport (c node : Nat) (bs : List Byte) (s : State) : State :=
  let one (p : Nat) (u : State) : State :=
    if portOpenUp u (portSide p) && getR u (Page.lane (portSide p)) Reg.lanePortStatusNeighbour = node then
      reportHalf c p (bit ((bs.getD 3 0).toNat) 3) ((bs.drop 4).take 12) (!headless u) u
    else u
  s |> one 0 |> one 1

/-- A STATUS delivery: the record of the gallery's cycle c. At a candidate only the time reports, presence and the pair's token are read
(R170, R174). -/
def statusDelivery (c : Nat) (bs : List Byte) (s : State) : State :=
  let node := (bs.getD 1 0).toNat
  let m0 := if staircaseActs s then s.stair.active else s.stair.pend
  let view := if 32 ≤ bs.length ∧ imgMasterB m0 ≠ 0 then some (leNat ((bs.drop 16).take 16)) else none
  if (bs.getD 0 0).toNat = 2 then candidateRecord bs s
  else if (bs.getD 0 0).toNat ≠ 1 then s
  else if staircaseActs s then s |> noteStatusRecord bs |> memberRecord c node view |> neighbourReport c node bs
  else
    let m := m0
    let holds := match view with
      | some v => (parseView v).holding
      | none => imgMasterB m = 0
    s |> whenS (isMasterHub m node && holds) (notePresence c node (match view with
           | some v => (parseView v).holder
           | none => node))
      |> whenS (pairIn m (nodeId s) && node = partnerIn m (nodeId s)) (fun u => match view with
           | some v => takeView node v u
           | none => u)
      |> neighbourReport c node bs

/-- The status record of this hub in a gallery of cycle c (R151, R377, R378): 16 bytes, or 32 with the lease view at a pair hub. -/
def ownStatusRecord (s : State) (c : Nat) : List Byte :=
  let rep := timeReport s (c - c % 2)
  let half := if c % 2 = 0 then rep.take 12 else rep.drop 12
  statusRecord s c half ++ (if isPair s then leBytes 16 (ownView s) else [])

/-! ### A candidate (R174–R176) -/

/-- The join record (R175). -/
def joinRecord (s : State) : List Byte :=
  let m := s.stair.pend
  let tb := tb0State s
  let resp := s.duplex.candResp
  leBytes 1 2 ++ leBytes 1 (nodeId s)
    ++ leBytes 1 (b2n (tb = tbLocked || tb = tbMaster) + 2 * b2n resp.isSome + 4 * b2n (isMasterHub m (nodeId s))) ++ leBytes 1 1
    ++ memReadN m 8 4 ++ leBytes 8 (resp.getD 0)

/-- A write to JOIN_NONCE_HI at a candidate starts the response (R176); the writer is the holder. -/
def joinNonceHi (from_ : Nat) (s : State) : State :=
  if !isCandidate s then s else { s with duplex := { s.duplex with candFrom := from_, candResp := none, nonceCycle := cycleNow s } }

/-- The candidate's response is ready (R176); without a usable ring key there is none. -/
def joinResponse (s : State) : State :=
  if !isCandidate s || s.duplex.candFrom = 0 || !ringUsable s (ringSlot s) then s
  else
    let nonce := getR s Page.duplex Reg.duplexJoinNonceLo + 2 ^ 32 * getR s Page.duplex Reg.duplexJoinNonceHi
    { s with duplex := { s.duplex with
      candResp := some (joinMac s s.duplex.nonceCycle nonce (nodeId s) s.duplex.candFrom s.stair.pend) } }

/-! ### Links of members (R169, R172) -/

/-- Whether a quarantined port has been up for 10 ms without a LINK_DOWN. -/
def quarantineRipe (s : State) (p : Side) : Bool :=
  linkUp s p && !portOpen s p && (match (portOf s p).upSince with
    | some t => decide (t + 10000000 ≤ s.time.tb2)
    | none => false)

/-- In a headless ring a hub arms a ripe port itself (R169). -/
def headlessArm (p : Side) (s : State) : State :=
  let st := rxStation p
  if !headless s || !staircaseActive s || !quarantineRipe s p || flag s (Page.stn st) Reg.stnStatusArmed then s
  else
    let c := cycleNow s + 16
    s |> setPair (Page.stn st) Reg.stnOpenCycleLo Reg.stnOpenCycleHi ((c + 1023) / 1024 * 1024) |> setFlag (Page.stn st) Reg.stnStatusArmed true

/-- A member sends the holder a link report of a ripe port, again every 4,096 cycles (R172); the holder's own ports report to itself. -/
def linkReportSend (p : Side) (s : State) : State :=
  let v := portOf s p
  let due := match v.reported with
    | some c => decide (c + 4096 ≤ cycleNow s)
    | none => true
  let g (f : Fld) := getR s (Page.lane p) f
  let dest := masterNode s
  if !staircaseActs s || !quarantineRipe s p || !due || dest = 0 then s
  else
    let s1 := setPort p { v with reported := some (cycleNow s) } s
    let nb := g Reg.lanePortStatusNeighbour
    let nbWest := flag s (Page.lane p) Reg.lanePortStatusNeighbourPort
    if dest = nodeId s then linkReport dest (isEast p) nb nbWest s1
    else sendNotice portHub dest 9 noticeLinkReport [b2n (!isEast p) + 2 ^ 8 * nb + 2 ^ 16 * b2n nbWest, v.upTb0] s1

/-- PAIR_LINK_FRAME (R153). -/
def execPairLinkFrame (bytes : List Byte) (s : State) : Answer := alive s (pairLinkFrame bytes s)

/-- HEADLESS_ARM (R169). -/
def execHeadlessArm (p : Side) (s : State) : Answer := alive s (headlessArm p s)

/-- LINK_REPORT_SEND (R172). -/
def execLinkReportSend (p : Side) (s : State) : Answer := alive s (linkReportSend p s)

/-- JOIN_RESPONSE (R176). -/
def execJoinResponse (s : State) : Answer := alive s (joinResponse s)

/-- JOIN_TIMEOUT (R176). -/
def execJoinTimeout (s : State) : Answer := alive s (joinTimeout s)

end Sys2Proof.Machine
end

