-- ==== Sys2Proof/Machine/Deliver.lean ====
section
/-!
DEFINITION. The endpoints of tread actions (R93, R96, R97): delivery at commit and sources at a snapshot.
-/

namespace Sys2Proof.Machine

open Sys2Proof

/-- What a write action's source gives at a snapshot (R78, R97). -/
inductive SourceData where
  | fenced
  | empty
  | data (bytes : List Byte) (short : Bool)
deriving DecidableEq, Repr

/-- Whether an engine takes no part in the data path: fenced, its tile fenced, or in STANDBY (R96, R464). -/
def engDead (s : State) (e : Nat) : Bool := pageFenced s (Page.eng e) || pageFenced s (Page.tile (tileOf e)) || inStandby s

/-- Whether a CAN channel takes no part in the data path. -/
def canDead (s : State) (n : Nat) : Bool := pageFenced s (Page.can n) || inStandby s

/-- A push to an engine's TX FIFO: all its words or none, with SINK_FULL (R96); it sets the tread latch (R260). -/
def deliverTxf (e : Nat) (data : List Byte) (s : State) : State :=
  let ws := bytesToWords data.length data
  if engDead s e then s
  else if fifoDepth < (engOf s e).txf.length + ws.length then raiseEv Page.img Ev.imgSinkFull s
  else s |> forEach ws (fun w u => pushTxf e w u) |> setTreadLatch e

/-- A load of a transmit buffer (R96): its image is replaced; transmission is requested unless a CAN_TT entry names the buffer. -/
def deliverTxb (n b : Nat) (data : List Byte) (s : State) : State :=
  if canDead s n then s
  else
    let ws := bytesToWords 72 data
    let timed := (flightCanTt s.stair.active (nodeId s) (curFlight s)).any fun t => t.channel = n && t.buffer = b
    s |> forEach ((List.range 18).zip ws) (fun e u => setBufWord n b e.1 e.2 u) |> whenS (!timed) (requestBuf n b)

/-- The rank of a VWIRE READ action in the current flight (R209). -/
def vwireRank (s : State) (a : Action) : Nat :=
  (((flightActions s.stair.active (nodeId s) (curFlight s)).filter fun x => !x.write && x.endpoint = 7).findIdx? (· = a)).getD 0

/-- A virtual wire byte (R209). -/
def deliverVwire (i : Nat) (data : List Byte) (s : State) : State :=
  let old := getR s Page.bridge Reg.bridgeVwRx
  let sh := 2 ^ (8 * (i % 4))
  let new := old - (old / sh % 256) * sh + (data.getD 0 0).toNat * sh
  s |> setR Page.bridge Reg.bridgeVwRx new |> raiseIf (new ≠ old) Page.bridge Ev.bridgeVwChange

/-- The delivery of a READ action of a copy carried in cycle c under flight f (R96, R195, R209, R377). Nothing reaches a fenced unit. -/
def deliverAction (c f : Nat) (a : Action) (data : List Byte) (s : State) : State :=
  match a.endpoint with
  | 1 => deliverTxf a.engine data s
  | 3 => deliverTxb a.channel a.slot data s
  | 5 => statusDelivery c data s
  | 6 => if pageFenced s Page.bridge then s else takeCredits (treadWriter (bankFor s c) f a.tread) data s
  | 7 => if pageFenced s Page.bridge then s else deliverVwire (vwireRank s a) data s
  | _ => s

/-- Words popped from an RX FIFO: those there are, up to n (R97). -/
def popWords (e n : Nat) (s : State) : List Nat × State :=
  let ws := (engOf s e).rxf
  (ws.take n, setRxf e (ws.drop n) s)

/-- The source of a write action in cycle c (R97): its bytes, or that it is empty or fenced (R78). -/
def sourceAction (a : Action) (c : Nat) (s : State) : SourceData × State :=
  match a.endpoint with
  | 2 =>
    if engDead s a.engine then (.fenced, s)
    else
      let n := (a.len + 3) / 4
      let (ws, t) := popWords a.engine n s
      if ws.isEmpty then (.empty, s) else (.data (ws.flatMap (leBytes 4)) (ws.length < n), t)
  | 4 =>
    if canDead s a.channel then (.fenced, s)
    else
      let w (i : Nat) : Nat := storeGet 0 (canOf s a.channel).slots (32 * a.slot + i)
      if w 18 % 2 = 0 then (.empty, s) else (.data ((List.range 18).flatMap fun i => leBytes 4 (w i)) false, s)
  | 5 => (.data (fit a.len (ownStatusRecord s c)) false, s)
  | 6 =>
    if pageFenced s Page.bridge then (.fenced, s)
    else
      let (bs, t) := advertise (a.len / 8) s
      (.data (fit a.len bs) false, t)
  | 7 => if pageFenced s Page.bridge then (.fenced, s) else (.data (leBytes 1 (getR s Page.bridge Reg.bridgeVwTx)) false, s)
  | _ => (.data (memReadN s.image.committed a.img a.len) false, s)

end Sys2Proof.Machine
end

