-- ==== Sys2Proof/Machine/Station.lean ====
section
/-!
DEFINITION. The ring stations (R114–R146): roles, forwarding and completion, checking treads, the commit gate and the commit path,
through treads, quarantine and opening.
-/

namespace Sys2Proof.Machine

open Sys2Proof

/-! ### What an origin or a completer sends (R120, R130, R137) -/

/-- The item of a tread of an originated or completed gallery (R120, R130): its own, one to be carried, or a placeholder. -/
def treadItem (m : Memory) (node f c t : Nat) : OutItem :=
  if ownsTread m node f t then .own t else if treadThrough m f t then .through t else placeholder m f t c

/-- The items of a landing region from a layout position on (R137): LANDING START, own shares, idle blocks, LANDING END. A share that another node
owns and that was partly sent is finished with idle blocks, an own one went out whole; `damaged` is the first share so far relayed damaged. -/
def regionItems (m : Memory) (node f c start first count pos : Nat) (damaged : Option Nat) : List OutItem :=
  let share (k : Nat) : List OutItem :=
    let at_ := start + 1 + regionBlocks m f first k
    let own := shareOwner m f (first + k) = node
    if pos ≤ at_ then [if own then .share (first + k) else .idleShare (first + k)]
    else if own then [] else [.pad (at_ + shareLen m f (first + k) - pos)]
  let ks := (List.range count).filter fun k => pos < start + 1 + regionBlocks m f first (k + 1)
  (if pos ≤ start then [.block 2 (landingStartBlock first count c)] else []) ++ ks.flatMap share ++
    [.block 2 (landingEndBlock first (if pos ≤ start then none else damaged))]

/-- The origin that a completion names (R137). -/
def completionOrigin (s : State) (st : Side) (m : Memory) : Nat :=
  if (stationOf s st).originSeen then getR s (Page.stn st) Reg.stnStatusOriginSeen else imgMasterA m

/-- The GALLERY START of a gallery that this hub originates or completes from position 0 (R116, R137). -/
def galleryStartBlock (s : State) (st : Side) (m : Memory) (f c origin : Nat) : Nat :=
  if c % 2 = 0 then
    let (nf, nc) := match s.stair.announced with
      | some (nf, at_, _) => if c < at_ then (nf, at_) else (f, c)
      | none => (f, c)
    gsAnnounce (dirWest st) f c nf nc (isMasterHub m origin)
  else gsIdent (dirWest st) f c origin (imgHash16 m) (imgProtocol m)

/-- The payload received so far of a tread, zero-filled to its length. -/
def sentPayload (v : StationState) (id len : Nat) : List Byte :=
  match v.copy with
  | some c => if c.tread = id then (c.payload ++ List.replicate (8 * len - c.payload.length) 0).take (8 * len)
      else List.replicate (8 * len) 0
  | none => List.replicate (8 * len) 0

/-- A trailer in the stomped form that stands for a missing one (R122, R137). -/
def stompedTrailer (m : Memory) (f c id : Nat) (payload : List Byte) : Nat :=
  trailerOf (stomp (crc32c payload)) c (treadWriter m f id) false false false

/-- One layout element of an originated or completed gallery, from a position on (R137); `v` is the station as it stands. A tread that this hub writes
in passing has gone out whole. -/
def elemItems (v : StationState) (west : Bool) (m : Memory) (node f c pos origin : Nat) (completer : Option Nat) (pe : Nat × Elem) : List OutItem :=
  match pe.2 with
  | .tread len id =>
    if pe.1 + len + 1 ≤ pos then []
    else if pe.1 < pos then
      (if (v.rx.bind (·.writes)) = some id then []
       else [.cut id (pe.1 + len - pos) (stompedTrailer m f c id (sentPayload v id len))])
    else [treadItem m node f c id]
  | .landing first count =>
    if pe.1 + 2 + regionBlocks m f first count ≤ pos then [] else regionItems m node f c pe.1 first count pos v.damaged
  | .pad n => if pe.1 + n ≤ pos then [] else [.pad (pe.1 + n - max pos pe.1)]
  | .riser fill => if pe.1 < pos then [] else [.riser fill]
  | .fin => [.block 2 (galleryEndBlock west f c origin completer)]
  | .bad => []

/-- The time in ns at which the trailing riser of a gallery ends when its position 0 leaves at `start` (R72, R73). -/
def galleryEndNs (m : Memory) (f : Nat) (west : Bool) (start : Nat) : Nat :=
  start + (spanOf m f west) * blockPs (imgRate m) (flightWidth m f) / 1000

/-- An announcement carried by a gallery (R57, R84): WIDTH_NEXT shows its flight's width, the lanes that it needs start their exit on both ports, and
those that neither it nor the current flight needs return to their park state. -/
def announceLanes (f : Nat) (s : State) : State :=
  let m := s.stair.active
  let w := flightWidth m f
  forEach [Side.east, Side.west] (fun p t =>
    t |> setR (Page.lane p) Reg.lanePortCfgWidthNext w |> wakeLanes p w
      |> parkLanes p (widthLanes (max w (flightWidth m (curFlight s)))) 4 (flightPark m (nodeId s) (curFlight s) (p = .west))) s

/-- The flight that a hub announces in a gallery of cycle c (R116): the recorded one until it takes effect, else its own. -/
def announcedFlight (s : State) (f c : Nat) : Nat :=
  match s.stair.announced with
  | some (nf, at_, _) => if c < at_ then nf else f
  | none => f

/-- A gallery of cycle c under a flight counts among those carried at this hub (R98); one of a flight without layout does not. -/
def noteCarried (c f : Nat) (s : State) : State :=
  if s.image.carried.contains (c, f) || decide (imgFlights (bankFor s c) ≤ f) then s
  else { s with image := { s.image with carried := (c, f) :: s.image.carried } }

/-- The transmit width of a station's port from the lead riser of a gallery on (R41, R55, R58). -/
def leadWidth (st : Side) (m : Memory) (f : Nat) (s : State) : State :=
  setTxWidth (txPort st) (flightWidth m f) (flightPark m (nodeId s) f (txPort st = .west)) s

/-- The items of a gallery from a position on. -/
def galleryItems (s : State) (st : Side) (m : Memory) (f c pos origin : Nat) (completer : Option Nat) : List OutItem :=
  (if pos = 0 then
    (match layoutOf m f (dirWest st) with
     | .riser fill :: _ => [.riser fill]
     | _ => []) ++ [.block 2 (galleryStartBlock s st m f c origin)]
   else []) ++
  (layoutPositions m f (dirWest st)).flatMap (elemItems (stationOf s st) (dirWest st) m (nodeId s) f c pos origin completer) ++
  [.riser (trailingFill m f (dirWest st)), .idleStream]

/-- Whether a station sends galleries of a cycle now (R140, R145): its transmit port is open and up, and has not opened for later cycles only. -/
def sendsCycle (s : State) (st : Side) (c : Nat) : Bool := canSend s st && decide ((stationOf s st).txFrom ≤ c)

/-- A gallery of cycle c under flight f produced from a position on (R116, R137); `start` is when its position 0 leaves, in ns of TB0, and
`completer` the node that completes it, if it is a completion. Nothing is sent while the transmit port is not open and up (R140). -/
def produce (st : Side) (c f pos start origin : Nat) (completer : Option Nat) (s : State) : State :=
  let m := bankFor s c
  let items := galleryItems s st m f c pos origin completer
  let until_ := galleryEndNs m f (dirWest st) start
  let s := s |> setStation st { stationOf s st with pendingCycle := max (stationOf s st).pendingCycle (c + 1) } |> noteCarried c f
    |> whenS (pos = 0) (leadWidth st m f) |> whenS (pos = 0 && c % 2 = 0) (announceLanes (announcedFlight s f c))
  if pos ≠ 0 then
    if !(stationOf s st).sending then s
    else s |> setStation st { stationOf s st with start := start, sendEnd := until_, timed := true } |> sendItems st items
  else if !sendsCycle s st c then s
  else
    s |> recordStamp c (txPort st) true (16 * ((start : Int) - (c * period s : Nat))) |> beginSend st c f start until_ true items 0

/-- A completion (R136, R138): the station raises COMPLETED, counts it and is in COMPLETER. -/
def complete (st : Side) (c f pos start : Nat) (s : State) : State :=
  s |> produce st c f pos start (completionOrigin s st (bankFor s c)) (some (nodeId s))
    |> setRole st roleCompleter
    |> incCnt (Page.stn st) Reg.stnCompleteCnt
    |> raiseEv (Page.stn st) Ev.stnCompleted

/-- A completion of the pending gallery from position 0, which leaves at `start` (R136, R138). -/
def completePending (st : Side) (start : Nat) (s : State) : State :=
  let c := (stationOf s st).pendingCycle
  complete st c (flightFor s c) 0 start s

/-- An origination at the boundary of cycle c (R67). -/
def originate (st : Side) (c : Nat) (s : State) : State := produce st c (flightFor s c) 0 (c * period s) (nodeId s) none s

/-- Whether a station's role lets it forward: FORWARD, or STANDBY at a pair hub (R136, R148). -/
def forwardsRole (r : Nat) : Bool := r = roleForward || r = roleStandby

/-- The role a station of this hub returns to when it forwards again (R139, R148). -/
def forwardRole (s : State) : Nat :=
  if imgMasterB s.stair.active ≠ 0 && isMasterHub s.stair.active (nodeId s) then roleStandby else roleForward

/-- A copy's preloads are discarded and counted (R132). -/
def undoPreloads (st : Side) (n : Nat) (s : State) : State := addCnt (Page.stn st) Reg.stnUndoCnt n s

/-- The copy being received is over: its staging ownership ends. -/
def endCopy (st : Side) (t : Nat) (s : State) : State :=
  let staged := match (stationOf s st).copy with
    | some c => c.staging && c.tread = t
    | none => false
  let s := setStation st { stationOf s st with copy := none } s
  if staged then { s with image := { s.image with stagingBy := s.image.stagingBy.filter (· ≠ t) } } else s

/-- The copy in reception is cut off (R99, R132): its preloads are discarded and its staging is free. -/
def dropCopy (st : Side) (s : State) : State :=
  match (stationOf s st).copy with
  | some c => s |> undoPreloads st c.preloads.length |> endCopy st c.tread
  | none => s

/-- A tread that fails at this link is a local error, and its copy fails (R124, R132). -/
def failCopy (st : Side) (t : Nat) (s : State) : State :=
  let n := match (stationOf s st).copy with
    | some c => if c.tread = t then c.preloads.length else 0
    | none => 0
  s |> incCnt (Page.stn st) Reg.stnLocalErrCnt |> raiseEv (Page.stn st) Ev.stnLocalErr |> undoPreloads st n |> endCopy st t

/-- The tread that a reception is within, if it holds an error mark (R124). -/
def cutTread (s : State) (st : Side) (g : RxGallery) : Option Nat :=
  match elemAt (bankFor s g.cycle) g.flight (dirWest st) g.pos with
  | some (start, .tread _ id) => if start < g.pos ∧ g.failed.contains id then some id else none
  | _ => none

/-- The gallery in reception is cut off by the loss of the receive port (R136, R85): a tread with an error mark is a local error (R124); a forwarding
station completes the gallery from the first position not yet sent, or ends one of a flight that has no layout with a trailing riser. -/
def galleryLost (st : Side) (g : RxGallery) (s : State) : State :=
  let m := bankFor s g.cycle
  let laid := g.flight < imgFlights m
  let ended (u : State) : State :=
    setStation st { stationOf u st with rx := none, sending := (stationOf u st).sending && g.mode ≠ .transparent } u
  let failed (u : State) : State :=
    match cutTread s st g with
    | some t => if laid && (g.mode = .forward || g.mode = .absorb) then failCopy st t u else dropCopy st u
    | none => dropCopy st u
  if g.mode ≠ .forward then s |> failed |> ended
  else if laid then
    s |> complete st g.cycle g.flight g.pos (s.time.tb0 - g.pos * blockPs (imgRate m) (flightWidth m g.flight) / 1000) |> failed |> ended
  else s |> sendItems st [.riser (leastRiser s (txPort st)), .idleStream] |> failed |> ended

/-- The receive port of a station stops being open and up (R136): the gallery in reception is cut off, and a pending gallery past its slot is completed
from position 0. -/
def receiveLost (st : Side) (s : State) : State :=
  let s1 := match (stationOf s st).rx with
    | some g => if g.ended then setStation st { stationOf s st with rx := none } s else galleryLost st g s
    | none => s
  let c := (stationOf s1 st).pendingCycle
  if staircaseActs s1 && forwardsRole (roleOf s1 st) && decide ((slotNs s1 st c : Int) ≤ sinceBoundary s1 c) then
    completePending st s1.time.tb0 s1
  else s1

/-- A port closes and goes into quarantine (R144); an armed opening of it is disarmed with OPEN_FAIL (R145). -/
def quarantinePort (p : Side) (s : State) : State :=
  let st := rxStation p
  let armed := flag s (Page.stn st) Reg.stnStatusArmed
  s |> setPortOpen p false
    |> setFlag (Page.stn st) Reg.stnStatusArmed false
    |> raiseIf armed (Page.stn st) Ev.stnOpenFail
    |> receiveLost st

/-- The station of a port hears that its link went down (R51, R144). -/
def stationLinkDown (p : Side) (s : State) : State := quarantinePort p s

/-! ### GALLERY START (R136, R139, R142) -/

/-- Whether this hub supports a ring protocol version: it supports version 1 (R87), and the running Newel has it in PROTO_MAP (R475). -/
def protocolSupported (s : State) (v : Nat) : Bool :=
  v = 1 && match s.boot.protoMap with
    | some map => bit map v
    | none => true

/-- What an IDENT GALLERY START shows: its HASH16 (R174), and the ring's HASH16 and protocol version where its ORIGIN is a ring master hub (R113, R143). -/
def noteIdent (payload : Nat) (s0 : State) : State :=
  let s := if gsIsIdent payload then { s0 with stair := { s0.stair with lastIdent := some (gsHash payload) } } else s0
  let m := if staircaseActive s then s.stair.active else s.stair.pend
  if gsIsIdent payload && isMasterHub m (gsOrigin payload) then
    let differs := staircaseActive s && gsHash payload ≠ imgHash16 s.stair.active
    let bad := !protocolSupported s (gsProtocol payload)
    { s with stair := { s.stair with hashDiffers := differs, protoBad := bad } }
    |> setR Page.stair Reg.stairMasterHashHash16 (gsHash payload) |> setFlag Page.stair Reg.stairMasterHashValid true
    |> setLevel Page.stair Ev.stairHashMismatch differs |> setLevel Page.stair Ev.stairProtoUnsupported bad
  else s

/-- ORIGIN_SEEN (R137, R142). -/
def noteOrigin (st : Side) (n : Nat) (s : State) : State :=
  let v := stationOf s st
  setR (Page.stn st) Reg.stnStatusOriginSeen n (setStation st { v with originSeen := true } s)

/-- An announcement received (R57, R84). -/
def applyAnnouncement (f at_ g : Nat) (s : State) : State :=
  if announcementApplies s f at_ g then s |> recordAnnouncement f at_ g |> announceLanes f else s

/-- The deviation of an accepted GALLERY START from its reference (R142). -/
def recordArrival (st : Side) (payload c : Nat) (t : Int) (s : State) : State :=
  let m := bankFor s c
  let pg := Page.stn st
  let master := if gsIsIdent payload then isMasterHub m (gsOrigin payload) else gsMasterOrigin payload
  let origin := if gsIsIdent payload then gsOrigin payload else getR s pg Reg.stnStatusOriginSeen
  let ref := if master then some (expectNs s st c) else hopDelay m (nodeId s) origin (dirWest st)
  match ref with
  | none => s
  | some r =>
    let d := t - (r : Nat)
    s |> setR pg Reg.stnArrLast (unsgn 32 d)
      |> whenS (d < sgn 32 (getR s pg Reg.stnArrMin)) (setR pg Reg.stnArrMin (unsgn 32 d))
      |> whenS (sgn 32 (getR s pg Reg.stnArrMax) < d) (setR pg Reg.stnArrMax (unsgn 32 d))
      |> raiseIf (d < -(earlyNs s st c : Int) || (lateNs s st c : Int) < d) pg Ev.stnArrivalDev

/-- A gallery begins to be received in a mode; a copy still in reception is cut off. -/
def beginRx (st : Side) (c f : Nat) (mode : RxMode) (s : State) : State :=
  let s := dropCopy st s
  setStation st { stationOf s st with
    rx := some { cycle := c, flight := f, mode := mode, pos := 1, run := 0, failed := [], regionFailed := false, ended := false, region := []
                 writes := none }
    damaged := none } s

/-- A good arrival counts towards the return to FORWARD (R139). -/
def countGood (st : Side) (c : Nat) (inWindow : Bool) (s : State) : State :=
  let pg := Page.stn st
  let v := stationOf s st
  let r := roleOf s st
  if (r = roleCompleter ∨ r = roleLocalOrigin) ∧ portOpenUp s (rxPort st) then
    let n := if inWindow then (if c = v.goodCycle + 1 then getR s pg Reg.stnStatusResumeCnt + 1 else 1) else 0
    let need_ := max 1 (getR s pg Reg.stnCfgResumeCycles)
    let t := setStation st { v with goodCycle := c } s
    if need_ ≤ n then setR pg Reg.stnStatusResumeCnt 0 (setRole st (forwardRole s) t)
    else setR pg Reg.stnStatusResumeCnt n t
  else s

/-- A GALLERY START passes a transparent forwarder (R143): its lead riser has gone before it; without an active Staircase the port sends at the width
last received on the opposite port, four lanes before any marker (R41). -/
def passStart (st : Side) (c f payload : Nat) (s : State) : State :=
  let lead := match (stationOf s st).out.getLast? with
    | some (.riser k) => ([OutItem.riser k], 1)
    | _ => ([OutItem.riser (leastRiser s (txPort st))], 0)
  s |> beginRx st c f .transparent
    |> whenS (!pageFenced s (Page.stn st)) (beginSend st c f s.time.tb0 s.time.tb0 false (lead.1 ++ [.block 2 payload]) lead.2)

/-- The hop latency of a station's path at the rate in force (R123). -/
def hopOf (s : State) (st : Side) : Nat := hopNs (portOf s (txPort st)).rate

/-- A GALLERY START is read (R84, R85, R113, R142). -/
def readStart (st : Side) (c f payload : Nat) (mode : RxMode) (s : State) : State :=
  let skew := f ≠ flightFor s c || imgFlights (bankFor s c) ≤ f
  s |> beginRx st c f mode |> noteCarried c f
    |> whenS (gsIsIdent payload) (noteOrigin st (gsOrigin payload))
    |> whenS (!gsIsIdent payload) (applyAnnouncement (gsNextFlight payload) (firstCycleFrom c (gsNextCycle24 payload)) c)
    |> raiseIf skew Page.stair Ev.stairFlightSkew

/-- An accepted gallery is forwarded (R136): the GALLERY START goes on behind the flight's lead riser. A cycle from before the opening of the transmit
port is absorbed (R145). -/
def forwardStart (st : Side) (c f payload : Nat) (t : Int) (frac : Nat) (s : State) : State :=
  let m := bankFor s c
  let start := s.time.tb0 + hopOf s st
  let sends := sendsCycle s st c
  let lead := match layoutOf m f (dirWest st) with
    | .riser fill :: _ => fill
    | _ => leastRiser s (txPort st)
  s |> readStart st c f payload (if canSend s st && !sends then .absorb else .forward) |> recordArrival st payload c t
    |> (fun u => setStation st { stationOf u st with pendingCycle := c + 1 } u)
    |> whenS (decide (f < imgFlights m)) (leadWidth st m f)
    |> whenS sends (fun u => u |> recordStamp c (txPort st) true (16 * (t + (hopOf s st : Nat)) + (frac : Nat))
        |> beginSend st c f start (galleryEndNs m f (dirWest st) start) false [.riser lead, .block 2 payload] 0)

/-- Whether a station forwards galleries of a cycle: by its role, or under the bank that a DEACTIVATE retires (R111, R112, R136). -/
def forwardsCycle (s : State) (st : Side) (c : Nat) : Bool :=
  forwardsRole (roleOf s st) || (roleOf s st = roleForwarder && decide (c < s.stair.actCycle) && pendState s = pendRetiring)

/-- Whether a GALLERY START of cycle c may be accepted by a station that forwards (R136). -/
def acceptable (s : State) (st : Side) (c : Nat) : Bool :=
  forwardsCycle s st c && decide (c = (stationOf s st).pendingCycle) && portOpenUp s (rxPort st) &&
    decide (sinceBoundary s c ≤ ((expectNs s st c + lateNs s st c : Nat) : Int))

/-- A GALLERY START at a station that acts on its Staircase (R136, R138–R140): forwarded, absorbed and read, late, or rejected. -/
def actOnStart (st : Side) (c f payload : Nat) (t : Int) (frac : Nat) (s : State) : State :=
  let pg := Page.stn st
  let v := stationOf s st
  let retired := decide (c < s.stair.actCycle) && pendState s ≠ pendRetiring
  let inWindow := decide (t ≤ ((expectNs s st c + lateNs s st c : Nat) : Int)) && decide ((expectNs s st c : Int) - (earlyNs s st c : Nat) ≤ t)
  let late (mode : RxMode) (u : State) : State :=
    u |> (if mode = .unread then beginRx st c f .unread else readStart st c f payload .absorb)
      |> incCnt pg Reg.stnLateGalCnt |> raiseEv pg Ev.stnLateGallery
  if retired then late .unread s
  else if !forwardsCycle s st c then
    -- absorbed and read, counted towards the resumption (R138–R140), which takes effect at the first cycle not yet sent (R139)
    let u := countGood st c inWindow s
    if acceptable u st c && decide (v.rxFrom ≤ c) then forwardStart st c f payload t frac u else readStart st c f payload .absorb u
  else if c < v.rxFrom ∨ c < v.pendingCycle then late .absorb s
  else if acceptable s st c then forwardStart st c f payload t frac s
  else s |> beginRx st c f .unread |> raiseEv pg Ev.stnGsReject

/-- A GALLERY START arrives: `frac` is the part of its stamp below 1 ns, in 1/16 ns (R307). Galleries of cycles before an activation are executed under
the previous bank, or forwarded transparently where there was none (R111). -/
def galleryStart (st : Side) (payload frac : Nat) (s : State) : State :=
  let c := nearestCycle (cycleNow s) (gsCycle24 payload)
  let t := sinceBoundary s c
  let f := gsFlight payload
  let former := decide (c < s.stair.actCycle)
  let s := s |> recordStamp c (rxPort st) false (16 * t + (frac : Nat)) |> captureSource (.gallery (rxPort st))
    |> whenS (!(former && !s.stair.hadBank)) (noteIdent payload)
  if former && !s.stair.hadBank || !(staircaseActs s || (former && pendState s = pendRetiring)) then
    s |> recordStamp c (txPort st) true (16 * (t + (hopOf s st : Nat)) + (frac : Nat))
      |> whenS (!staircaseActive s) (setTxWidth (txPort st) ((portOf s (rxPort st)).rxWidth.getD 2) false)
      |> passStart st c f payload
  else if gsWest payload ≠ dirWest st then
    s |> beginRx st c f .unread |> raiseEv (Page.stn st) Ev.stnGsReject
  else actOnStart st c f payload t frac s

/-! ### Blocks in passing (R69, R121, R122, R143) -/

/-- Whether a station relays the gallery it receives: it has begun to send it on its transmit port, or forwards transparently; a gallery begun is finished
when the port closes (R143, R144). -/
def relaysOn (s : State) (st : Side) (g : RxGallery) : Bool :=
  !pageFenced s (Page.stn st) &&
    (g.mode = .transparent || (g.mode = .forward && (stationOf s st).sending && decide ((stationOf s st).sendCycle = g.cycle)))

/-- Whether a gallery is handled by the layout: read under a flight that exists. -/
def hasLayout (s : State) (g : RxGallery) : Bool :=
  (g.mode = .forward || g.mode = .absorb) && g.flight < imgFlights (bankFor s g.cycle)

/-- The Staircase under which a gallery's contents are read: its own layout, or at a candidate the pending one (R174). -/
def readBank (s : State) (g : RxGallery) : Option Memory :=
  if hasLayout s g then some (bankFor s g.cycle)
  else if g.mode = .transparent && isCandidate s && decide (g.flight < imgFlights s.stair.pend) then some s.stair.pend
  else none

/-- The status tread of this hub in a flight: the tread of its WRITE action with endpoint STATUS. -/
def statusTread (m : Memory) (n f : Nat) : Option Nat := ((flightActions m n f).find? fun a => a.write && a.endpoint = 5).map (·.tread)

/-- The tread a candidate holds back until its trailer has come: its own status tread (R175). -/
def heldTread (s : State) (g : RxGallery) : Option Nat :=
  match readBank s g with
  | some m => if g.mode = .transparent then statusTread m (nodeId s) g.flight else none
  | none => none

/-- The share of a landing region that holds a layout position, given the region's start. -/
def shareAt (m : Memory) (f first count start pos : Nat) : Option Nat :=
  ((List.range count).find? fun k =>
    start + 1 + regionBlocks m f first k ≤ pos && pos < start + 1 + regionBlocks m f first (k + 1)).map fun k => first + k

/-- What a block at a position means to the reader (R174, R192): a landing share's block is kept for the bridge, an error mark fails its tread or
damages its share; the hub's own shares are not read. -/
def readBlock (st : Side) (m : Memory) (g : RxGallery) (blk : Option (Nat × Nat)) (s : State) : State :=
  let v := stationOf s st
  match elemAt m g.flight (dirWest st) g.pos, blk with
  | some (start, .landing first count), some (_, pl) =>
    if (shareAt m g.flight first count start g.pos).isNone then s
    else
      match v.rx with
      | some h => setStation st { v with rx := some { h with region := storePut g.pos pl h.region } } s
      | none => s
  | some (start, .landing first count), none =>
    match shareAt m g.flight first count start g.pos with
    | some i => if shareOwner m g.flight i = nodeId s then s else setStation st { v with damaged := some (v.damaged.getD i) } s
    | none => s
  | some (_, .tread _ id), none =>
    match v.rx with
    | some h => setStation st { v with rx := some { h with failed := h.failed ++ [id] } } s
    | none => s
  | _, _ => s

/-- The next block position of the gallery in reception. -/
def advanceRx (st : Side) (g : RxGallery) (fail : List Nat) (s : State) : State :=
  setStation st { stationOf s st with rx := some { g with pos := g.pos + 1, failed := g.failed ++ fail } } s

/-- A content block where this hub has no layout to act on (R143, R174): read where a bank allows it, and passed on as it came, but for a tread
that a candidate holds back. -/
def passBlock (st : Side) (g : RxGallery) (blk : Option (Nat × Nat)) (s : State) : State :=
  let item := match blk with
    | some (sync, pl) => OutItem.block sync pl
    | none => OutItem.block 2 0
  let held := match readBank s g, blk with
    | some m, some _ =>
      (match elemAt m g.flight (dirWest st) g.pos with
       | some (_, .tread _ id) => heldTread s g = some id
       | _ => false)
    | _, _ => false
  s |> advanceRx st g []
    |> (fun u => match readBank s g with
        | some m => readBlock st m g blk u
        | none => u)
    |> whenS (relaysOn s st g && g.pos ≠ 0 && !held) (sendItems st [item])

/-- What this hub sends in place of a tread in passing (R121, R150), if anything: its own; in STANDBY a master tread with REWRITTEN, where its own
snapshot is not VOID. -/
def ownInPassing (s : State) (st : Side) (m : Memory) (f c t : Nat) : Option OutItem :=
  if roleOf s st = roleStandby && treadMaster m f t then
    match snapOf s t c with
    | some sn =>
      if sn.void then none
      else some (.tread t sn.payload (trailerOf (crc32c sn.payload) c (treadWriter m f t) false false true))
    | none => none
  else if treadWriter m f t = nodeId s then some (.own t)
  else none

/-- The first block of a tread: this hub's own contents go out in place of the tread that begins, if it writes it (R121, R150). -/
def startTread (st : Side) (m : Memory) (g : RxGallery) (id : Nat) (s : State) : State :=
  match if relaysOn s st g then ownInPassing s st m g.flight g.cycle id else none with
  | some item => s |> sendItems st [item] |> (fun u => setStation st { stationOf u st with rx := some { g with writes := some id } } u)
  | none => s

/-- A block of a tread's region that this hub does not write (R121, R122): an error mark is relayed as zeros, the trailer's as a stomped trailer. -/
def treadBlock (st : Side) (m : Memory) (g : RxGallery) (id len : Nat) (isTrailer : Bool) (blk : Option (Nat × Nat)) (s : State) : State :=
  let relays := relaysOn s st g && g.writes ≠ some id
  match blk with
  | some (sync, pl) => s |> advanceRx st g [] |> whenS (relays && !isTrailer) (sendItems st [.block sync pl])
  | none =>
    let item : OutItem := .block 1 (if isTrailer then stompedTrailer m g.flight g.cycle id (sentPayload (stationOf s st) id len) else 0)
    s |> advanceRx st g [id] |> whenS relays (sendItems st [item]) |> whenS isTrailer (failCopy st id)

/-- A block of a landing's share `i` (R81, R118, R122): the hub's own share goes out whole as its first block comes. -/
def shareBlock (st : Side) (m : Memory) (g : RxGallery) (i : Nat) (first : Bool) (blk : Option (Nat × Nat)) (s : State) : State :=
  let relays := relaysOn s st g
  let own := shareOwner m g.flight i = nodeId s
  let s1 := s |> advanceRx st g [] |> readBlock st m g blk
  if own then whenS (relays && first) (sendItems st [.share i]) s1
  else
    match blk with
    | some (sync, pl) => whenS relays (sendItems st [.block sync pl]) s1
    | none => whenS relays (fun u => u |> sendItems st [.block 1 0] |> raiseEv (Page.stn st) Ev.stnLandingDamaged) s1

/-- A disagreement of a control block: LAYOUT_ERR and LAYOUT_CNT (R69, R118). -/
def layoutError (st : Side) (s : State) : State :=
  s |> incCnt (Page.stn st) Reg.stnLayoutCnt |> raiseEv (Page.stn st) Ev.stnLayoutErr

/-- The gallery in reception is over, and so is the one that this station sends on: its trailing riser and the idle stream follow (R72). -/
def endGallery (st : Side) (fill : Nat) (s : State) : State :=
  let v := stationOf s st
  match v.rx with
  | none => s
  | some g =>
    let relays := relaysOn s st g && g.mode = .forward
    setStation st { v with rx := some { g with ended := true }, sending := v.sending && g.mode ≠ .transparent } s |> whenS relays (sendItems st [.riser fill, .idleStream])

/-- A landing region begins: nothing of it is damaged or kept yet. -/
def openRegion (st : Side) (failed : Bool) (s : State) : State :=
  let v := stationOf s st
  match v.rx with
  | some g => setStation st { v with damaged := none, rx := some { g with regionFailed := failed, region := [] } } s
  | none => s

/-- A block at the position of a control block of type `kind` (R118, R122): one of that type waits for its command; a good block of another kind goes on
as it came and disagrees with the layout; an error mark goes on as the block it stands for. The result says whether the command will come. -/
def controlBlock (st : Side) (g : RxGallery) (kind : Nat) (stand : OutItem) (blk : Option (Nat × Nat)) (s : State) : Bool × State :=
  let relays := relaysOn s st g
  let s1 := advanceRx st g [] s
  match blk with
  | some (sync, pl) =>
    if sync = 2 ∧ pl % 256 = kind then (true, s1)
    else (false, s1 |> whenS relays (sendItems st [.block sync pl]) |> layoutError st)
  | none => (false, whenS relays (sendItems st [stand]) s1)

/-- A block of a pad (R122): an error mark goes on as an idle block. -/
def padBlock (st : Side) (g : RxGallery) (blk : Option (Nat × Nat)) (s : State) : State :=
  let item : OutItem := match blk with
    | some (sync, pl) => .block sync pl
    | none => .block 1 idleBlock
  s |> advanceRx st g [] |> whenS (relaysOn s st g) (sendItems st [item])

/-- A block at its position of the layout in force (R68, R69, R118). -/
def layoutBlock (st : Side) (m : Memory) (g : RxGallery) (blk : Option (Nat × Nat)) (s : State) : State :=
  match elemAt m g.flight (dirWest st) g.pos with
  | some (start, .tread len id) =>
    let u := if g.pos = start then startTread st m g id s else s
    treadBlock st m ((stationOf u st).rx.getD g) id len (g.pos = start + len) blk u
  | some (start, .landing first count) =>
    match shareAt m g.flight first count start g.pos with
    | some i => shareBlock st m g i (g.pos = start + 1 + regionBlocks m g.flight first (i - first)) blk s
    | none =>
      if g.pos = start then
        match controlBlock st g 0x66 (.block 2 (landingStartBlock first count g.cycle)) blk s with
        | (true, u) => u
        | (false, u) => openRegion st blk.isSome u
      else (controlBlock st g 0x99 (.block 2 (landingEndBlock first (stationOf s st).damaged)) blk s).2
  | some (_, .pad _) => padBlock st g blk s
  | some (_, .fin) =>
    match controlBlock st g 0x78 (.block 2 (galleryEndBlock (dirWest st) g.flight g.cycle (completionOrigin s st m) none)) blk s with
    | (true, u) => u
    | (false, u) => endGallery st (trailingFill m g.flight (dirWest st)) u
  | _ => advanceRx st g [] s

/-- Whether a block belongs to a gallery's content: every data block, error mark and control block but FILLER and lane alignment markers (R69). -/
def isContent : Option (Nat × Nat) → Bool
  | some (sync, pl) => !(sync = 2 && (pl % 256 = 0x1E || pl % 256 = 0xC3))
  | none => true

/-- A block that passes a transparent forwarder outside any gallery it has read (R143); an error mark goes on as a control block of type 0x00. -/
def strayBlock (st : Side) (blk : Option (Nat × Nat)) (s : State) : State :=
  let item : OutItem := match blk with
    | some (sync, pl) => .block sync pl
    | none => .block 2 0
  whenS (!staircaseActs s && isContent blk && !pageFenced s (Page.stn st)) (sendItems st [item]) s

/-- A block passed to the station by the lanes (R34): none is an error mark. Content blocks are counted (R69); a forwarded gallery's data
blocks go on unchanged but where this hub writes its own treads and shares (R121), and error marks are relayed as R122 states. Markers and FILLER are
never copied (R36). -/
def stationBlock (st : Side) (blk : Option (Nat × Nat)) (s : State) : State :=
  match (stationOf s st).rx with
  | none => strayBlock st blk s
  | some g =>
    if !isContent blk then s
    else if g.mode = .transparent || (g.mode = .forward && !hasLayout s g) then passBlock st g blk s
    else if !hasLayout s g then advanceRx st g [] s
    else layoutBlock st (bankFor s g.cycle) g blk s

/-- The treads of a layout that have a block in a range of positions. -/
def treadsBetween (m : Memory) (f : Nat) (west : Bool) (a b : Nat) : List Nat :=
  (layoutPositions m f west).filterMap fun pe =>
    match pe.2 with
    | .tread len id => if pe.1 < b && a < pe.1 + len + 1 then some id else none
    | _ => none

/-- The run that a marker stripe ends (R69): the layout position of the riser that follows it, or of the block after GALLERY END, and the position after
that riser. -/
def runEnd (m : Memory) (g : RxGallery) (west : Bool) : Option (Nat × Nat × Nat) :=
  (layoutPositions m g.flight west).findSome? fun pe =>
    match pe.2 with
    | .riser fill =>
      if g.run ≤ pe.1 then some (pe.1, pe.1 + elemBlocks m g.flight (widthLanes (flightWidth m g.flight)) (.riser fill), fill) else none
    | .fin => if g.run ≤ pe.1 then some (pe.1 + 1, pe.1 + 2, 0) else none
    | _ => none

/-- The shares of a layout that have a block in a range of positions. -/
def sharesBetween (m : Memory) (f : Nat) (west : Bool) (a b : Nat) : List Nat :=
  (layoutPositions m f west).flatMap fun pe =>
    match pe.2 with
    | .landing first count => if pe.1 < b ∧ a ≤ pe.1 then (List.range count).map (first + ·) else []
    | _ => []

/-- The key of a tread's accepted tag: galleries of cycles before the activation, under the previous bank, have their own (R110, R111). -/
def tagKey (s : State) (c t : Nat) : Nat := if c < s.stair.actCycle then 65536 + t else t

/-- A run of wrong length fails its treads and messages (R69): copies that still wait in the commit gate, the copy in reception, and messages that still
stand in the ingress buffer; LAYOUT_ERR and LAYOUT_CNT. What has committed or left the buffer stays (R118). -/
def failRun (st : Side) (m : Memory) (g : RxGallery) (upto : Nat) (s : State) : State :=
  let bad := treadsBetween m g.flight (dirWest st) g.run upto
  let shares := sharesBetween m g.flight (dirWest st) g.run upto
  let s := dropCopy st s
  let v := stationOf s st
  let hit (cp : Copy) : Bool := cp.cycle = g.cycle && cp.flight = g.flight && bad.contains cp.tread
  let lost := ((v.gate.filter hit).map fun cp => cp.preloads.length).sum
  let back (tags : Store Nat) (cp : Copy) : Store Nat :=
    match cp.prev with
    | some tag => storePut (tagKey s cp.cycle cp.tread) tag tags
    | none => storeDel (tagKey s cp.cycle cp.tread) tags
  let s := setStation st { v with
    gate := v.gate.filter fun cp => !hit cp
    rx := v.rx.map fun h => { h with failed := h.failed ++ bad, regionFailed := true } } s
  { s with
    image := { s.image with tags := (v.gate.filter hit).foldl back s.image.tags }
    bridge := { s.bridge with
      ingress := s.bridge.ingress.filter fun x => !(x.port = rxPort st && x.cycle = g.cycle && shares.contains x.share && !x.inCab) } }
  |> undoPreloads st lost |> layoutError st

/-- A marker stripe reaches the station, with the FILLER stripes of its riser (R43, R69, R85, R143). A transparent forwarder sends a riser of its own for
it, and so does a forwarder of a gallery without layout. Where there is a layout, the run just ended is checked, counting resumes after the riser, and
the riser is sent at its compiled length; behind the last run a gallery whose GALLERY END is missing is ended. -/
def stationMarker (st : Side) (fillers : Nat) (s : State) : State :=
  let passes := !staircaseActs s && !pageFenced s (Page.stn st)
  let plain (u : State) : State := sendItems st [.riser (max fillers (leastRiser u (txPort st)))] u
  match (stationOf s st).rx with
  | none => whenS passes plain s
  | some g =>
    match readBank s g with
    | none => whenS (if g.mode = .transparent then passes else relaysOn s st g) plain s
    | some m =>
      match runEnd m g (dirWest st) with
      | none => whenS (g.mode = .transparent && passes) plain s
      | some (end_, after, fill) =>
        let bad := g.pos ≠ end_
        let s1 := whenS (bad && hasLayout s g) (failRun st m g end_) s
        let s2 := setStation st { stationOf s1 st with
          rx := (stationOf s1 st).rx.map fun h => { h with pos := after, run := after } } s1
        if g.mode = .transparent then whenS passes plain s2
        else if fill = 0 then whenS (!g.ended) (endGallery st (trailingFill m g.flight (dirWest st))) s2
        else whenS (relaysOn s st g) (sendItems st [.riser fill]) s2

/-! ### Control blocks (R118) -/

/-- A GALLERY END arrives; its block has been counted (R118). The gallery has ended; a forwarding station sends it on, where it stands at its position,
with a trailing riser and the idle stream. -/
def galleryEnd (st : Side) (payload : Nat) (s : State) : State :=
  match (stationOf s st).rx with
  | none => s
  | some g =>
    if !hasLayout s g then
      s |> whenS (g.mode = .transparent && (bits payload 43 36 ≠ 0)) (noteOrigin st (bits payload 43 36))
        |> endGallery st (leastRiser s (txPort st))
    else
      let m := bankFor s g.cycle
      let place := (layoutPositions m g.flight (dirWest st)).find? fun pe => pe.2 = .fin
      let stands := place.map (·.1 + 1) = some g.pos
      let ok := stands && bit payload 8 = dirWest st && bits payload 11 9 = g.flight && bits payload 35 12 = g.cycle % 2 ^ 24
      s |> noteOrigin st (bits payload 43 36) |> whenS (!ok) (layoutError st)
        |> whenS (stands && relaysOn s st g) (sendItems st [.block 2 payload])
        |> endGallery st (trailingFill m g.flight (dirWest st))

/-- The landing region of a flight that begins with a share index. -/
def regionOf (m : Memory) (f : Nat) (west : Bool) (first : Nat) : Option (Nat × Nat) :=
  (layoutPositions m f west).findSome? fun pe =>
    match pe.2 with
    | .landing a n => if a = first then some (pe.1, n) else none
    | _ => none

/-- The landing region whose first block stands just before a position. -/
def regionStart (m : Memory) (f : Nat) (west : Bool) (pos : Nat) : Option (Nat × Nat) :=
  match elemAt m f west (pos - 1) with
  | some (start, .landing first count) => if pos = start + 1 then some (first, count) else none
  | _ => none

/-- The landing region whose last block stands just before a position. -/
def regionLast (m : Memory) (f : Nat) (west : Bool) (pos : Nat) : Option Nat :=
  match elemAt m f west (pos - 1) with
  | some (start, .landing first count) => if pos = start + 2 + regionBlocks m f first count then some first else none
  | _ => none

/-- A LANDING START arrives; its block has been counted (R118). A disagreement fails the messages of the region that begins there; one that stands
elsewhere has no other consequence. -/
def landingStart (st : Side) (payload : Nat) (s : State) : State :=
  match (stationOf s st).rx with
  | none => s
  | some g =>
    match readBank s g with
    | none => s
    | some m =>
      match regionStart m g.flight (dirWest st) g.pos with
      | none => whenS (hasLayout s g) (layoutError st) s
      | some (first, count) =>
        let ok := bits payload 23 8 = first && bits payload 31 24 = count && bits payload 55 32 = g.cycle % 2 ^ 24
        s |> openRegion st (!ok) |> whenS (!ok && hasLayout s g) (layoutError st)
          |> whenS (relaysOn s st g && hasLayout s g) (sendItems st [.block 2 payload])

/-- The station's part of a LANDING END (R118, R122): the block goes on with DAMAGED set if a share was relayed damaged. -/
def landingEndStation (st : Side) (payload : Nat) (s : State) : State :=
  let v := stationOf s st
  match v.rx with
  | none => s
  | some g =>
    if !hasLayout s g then s
    else
      match regionLast (bankFor s g.cycle) g.flight (dirWest st) g.pos with
      | none => layoutError st s
      | some first =>
        let out := if bit payload 24 then payload else
          match v.damaged with
          | some i => payload % 2 ^ 24 + 2 ^ 24 + 2 ^ 32 * (i % 2 ^ 16)
          | none => payload
        s |> whenS (bits payload 23 8 ≠ first) (layoutError st) |> whenS (relaysOn s st g) (sendItems st [.block 2 out])

/-! ### Staging (R99, R131) -/

/-- Whether any copy of a tread with a tag equal to or newer than a cycle's has committed (R99). -/
def committedSince (s : State) (t c : Nat) : Bool :=
  match storeFind (tagKey s c t) s.image.doneTags with
  | some last => decide ((last + 2 ^ 20 - c % 2 ^ 20) % 2 ^ 20 < 2 ^ 19)
  | none => false

/-- Bytes of a READ action within a payload that reaches from byte `lo` up to `hi`: image offset and bytes. -/
def actionPiece (a : Action) (payload : List Byte) (lo hi : Nat) : Nat × List Byte :=
  let from_ := max lo a.off
  let upto := min hi (a.off + a.len)
  (a.img + (from_ - a.off), (payload.drop from_).take (upto - from_))

/-- The bytes `lo` to `hi` of a tread's payload as its READ actions place them in a memory (R99). -/
def placePieces (reads : List Action) (payload : List Byte) (lo hi : Nat) (mem : Memory) : Memory :=
  reads.foldl (fun mem a => memWriteN mem (actionPiece a payload lo hi).1 (actionPiece a payload lo hi).2) mem

/-- EARLY actions of a tread, active in a cycle, whose last byte lies in `lo` to `hi` (R95, R131). -/
def earlyEnding (acts : List Action) (t c lo hi : Nat) : List Nat :=
  (List.range acts.length).filter fun i => match acts[i]? with
    | some a => !a.write && a.tread = t && a.early && a.activeIn c && lo < a.off + a.len && a.off + a.len ≤ hi
    | none => false

/-- The staging bank takes a piece of a copy, which owns the tread's staging from then on (R99). -/
def stagePiece (reads : List Action) (t lo : Nat) (payload : List Byte) (s : State) : State :=
  { s with image := { s.image with
      staging := placePieces reads payload lo (lo + 8) s.image.staging
      stagingBy := if s.image.stagingBy.contains t then s.image.stagingBy else t :: s.image.stagingBy } }

/-- A payload block of a tread copy arrives (R99, R131): it joins the copy, goes to staging where R99 allows, and EARLY actions whose last
byte is in staging preload. -/
def stagingWrite (st : Side) (t k payload : Nat) (s : State) : State :=
  let v := stationOf s st
  match v.rx with
  | none => s
  | some g =>
    match readBank s g with
    | none => s
    | some m =>
      let acts := flightActions m (nodeId s) g.flight
      let s := match v.copy with
        | some c => if k ≠ 0 && c.tread = t then s else dropCopy st s
        | none => s
      let free := hasLayout s g && !committedSince s t g.cycle && !s.image.stagingBy.contains t
      let first : RxCopy := { tread := t, payload := [], staging := free, preloads := [] }
      let cp := match v.copy with
        | some c => if k ≠ 0 && c.tread = t then c else first
        | none => first
      let lo := 8 * k
      let pl := cp.payload ++ List.replicate (lo - cp.payload.length) 0 ++ leBytes 8 payload
      let pre := if cp.staging then earlyEnding acts t g.cycle lo (lo + 8) else []
      s |> whenS cp.staging (stagePiece ((readsOf acts t).filter (·.activeIn g.cycle)) t lo pl)
        |> (fun u => setStation st { stationOf u st with copy := some { cp with payload := pl, preloads := cp.preloads ++ pre } } u)

/-! ### Trailers (R124–R129) -/

/-- How a trailer is classified (R124). -/
inductive TrailerClass where
  | good | stomped | localErr
deriving DecidableEq, Repr

/-- The class of a trailer over the payload as received. -/
def classifyTrailer (failed : Bool) (payload : List Byte) (trailer : Nat) : TrailerClass :=
  let crc := crc32c payload
  if failed then .localErr
  else if trailerCrc trailer = crc then .good
  else if trailerCrc trailer = stomp crc then .stomped
  else .localErr

/-- Whether a tag obeys R125 for a gallery's cycle. -/
def tagOk (through : Bool) (tag c : Nat) : Bool :=
  let age := (c + 2 ^ 20 - tag) % 2 ^ 20
  if through then 1 ≤ age && age ≤ 16 else age = 0

/-- The distance of a tag from the last accepted one (R126). -/
def tagDistance (s : State) (c t tag : Nat) : Option Nat :=
  (storeFind (tagKey s c t) s.image.tags).map fun last => (tag + 2 ^ 20 - last) % 2 ^ 20

/-- Whether a copy is newer than the last accepted one (R126). -/
def tagNewer : Option Nat → Bool
  | none => true
  | some d => 1 ≤ d && d < 2 ^ 19

/-- Whether a time of a gallery's cycle has passed: the position `pos` of flight `f` (R68, R98). -/
def positionPassed (s : State) (c f pos : Nat) : Bool :=
  ((pos * blockPs (imgRate (bankFor s c)) (flightWidth (bankFor s c) f) / 1000 : Nat) : Int) < sinceBoundary s c

/-- The pending deliveries of a tread's PAIR actions take place (R128). -/
def releasePairs (sel : PairWait → Bool) (s : State) : State :=
  let (go, stay) := s.image.pairWaits.partition sel
  let t := { s with image := { s.image with pairWaits := stay } }
  forEach go (fun w u =>
    match (flightActions (bankFor u w.cycle) (nodeId u) w.flight)[w.index]? with
    | some a => deliverAction w.cycle w.flight a w.data u
    | none => u) t

/-- Whether a tread's copy of a tag still waits in a commit gate. -/
def waitsInGate (s : State) (t tag : Nat) : Bool := (s.stnE.gate ++ s.stnW.gate).any fun cp => cp.tread = t && cp.tag = tag

/-- The PAIR comparison of a duplicate with the committed copy (R128). One made while the first copy still waits in the gate is kept for its commit. -/
def pairCompare (st : Side) (m : Memory) (f c t tag crc : Nat) (s : State) : State :=
  if (readsOf (flightActions m (nodeId s) f) t).any (·.pair) then
    let diff := storeFind (tagKey s c t) s.image.crcs ≠ some crc
    s |> whenS diff (fun u => u |> incCnt (Page.stn st) Reg.stnDupMismatchCnt |> setR (Page.stn st) Reg.stnMismatchTreadId t
          |> setR (Page.stn st) Reg.stnMismatchTag tag |> raiseEv (Page.stn st) Ev.stnDupMismatch)
      |> releasePairs (fun w => w.tag = tag &&
          (match (flightActions m (nodeId s) w.flight)[w.index]? with
           | some a => a.tread = t
           | none => false))
      |> whenS (waitsInGate s t tag) (fun u => { u with image := { u.image with compared := (t, tag) :: u.image.compared } })
  else s

/-- What a forwarding station sends for the trailer of a tread that it does not write (R121): it unchanged, or stomped when the CRC fails. -/
def relayTrailer (st : Side) (t trailer : Nat) (cls : TrailerClass) (payload : List Byte) (s : State) : State :=
  match (stationOf s st).rx with
  | none => s
  | some g =>
    if !relaysOn s st g || g.writes = some t then s
    else
      let out := match cls with
        | .localErr => trailer % 2 ^ 32 + 2 ^ 32 * stomp (crc32c payload)
        | _ => trailer
      sendItems st [.block 1 out] s

/-- A tread trailer at a candidate (R174, R175): copies of status treads go to the gate, and its own held tread goes on, with the join record in place
of a VOID copy. -/
def candidateTrailer (st : Side) (g : RxGallery) (m : Memory) (t trailer : Nat) (s : State) : State :=
  let v := stationOf s st
  let f := g.flight
  let want := treadBytes m f t
  let got := match v.copy with
    | some c => if c.tread = t then c.payload else []
    | none => []
  let payload := (got ++ List.replicate (want - got.length) 0).take want
  let cls := classifyTrailer (g.failed.contains t) payload trailer
  let tag := trailerTag trailer
  let ok := cls = .good && trailerWriter trailer = treadWriter m f t && tagOk (trailerThrough trailer) tag g.cycle
  let void := trailerVoid trailer
  let reads := (readsOf (flightActions m (nodeId s) f) t).any fun a => a.endpoint = 5
  let own := fit want (joinRecord s)
  let relayed : OutItem :=
    if ok && void then .tread t own (trailerOf (crc32c own) g.cycle (nodeId s) false false false) else .tread t payload trailer
  s |> whenS (heldTread s g = some t && relaysOn s st g) (sendItems st [relayed])
    |> (fun u =>
        if ok && !void && reads && tagNewer (tagDistance u g.cycle t tag) && decide ((stationOf u st).gate.length < 2) then
          let cp : Copy := { tread := t, flight := f, cycle := g.cycle, tag := tag, crc := trailerCrc trailer, payload := payload, preloads := [], prev := none }
          setStation st { stationOf u st with gate := (stationOf u st).gate ++ [cp] }
            { u with image := { u.image with tags := storePut (tagKey u g.cycle t) tag u.image.tags } }
        else u)
    |> endCopy st t

/-- A trailer's class and errors as counted (R124, R125). -/
def countTrailer (st : Side) (cls : TrailerClass) (trailerErr : Bool) (s : State) : State :=
  let pg := Page.stn st
  s |> whenS (cls = .good) (incCnt pg Reg.stnGoodCnt)
    |> whenS (cls = .stomped) (fun u => u |> incCnt pg Reg.stnUpstreamErrCnt |> raiseEv pg Ev.stnUpstreamErr)
    |> whenS (cls = .localErr) (fun u => u |> incCnt pg Reg.stnLocalErrCnt |> raiseEv pg Ev.stnLocalErr)
    |> whenS trailerErr (fun u => u |> incCnt pg Reg.stnTrailerErrCnt |> raiseEv pg Ev.stnTrailerErr)

/-- The copy a THROUGH tread's completer carries, where this one is newer (R129). -/
def keepThrough (st : Side) (t : Nat) (cp : ThroughCopy) (s : State) : State :=
  let w := stationOf s st
  let newer := match storeFind t w.through with
    | some c => decide (1 ≤ (cp.tag + 2 ^ 20 - c.tag) % 2 ^ 20 ∧ (cp.tag + 2 ^ 20 - c.tag) % 2 ^ 20 < 2 ^ 19)
    | none => true
  if newer then setStation st { w with through := storePut t cp w.through } s else s

/-- An accepted copy goes to the commit gate (R126, R133); a third one is overrun. -/
def acceptCopy (st : Side) (cp : Copy) (s : State) : State :=
  if (stationOf s st).gate.length ≥ 2 then
    s |> raiseEv (Page.stn st) Ev.stnCommitOverrun |> undoPreloads st cp.preloads.length |> endCopy st cp.tread
  else
    { s with image := { s.image with
        tags := storePut (tagKey s cp.cycle cp.tread) cp.tag s.image.tags
        crcs := storePut (tagKey s cp.cycle cp.tread) cp.crc s.image.crcs } }
    |> (fun u => setStation st { stationOf u st with gate := (stationOf u st).gate ++ [cp] } u)
    |> endCopy st cp.tread

/-- A valid copy that this hub reads (R126–R129): VOID, newer, duplicate or late. -/
def judgeCopy (st : Side) (m : Memory) (void : Bool) (cp : Copy) (s : State) : State :=
  let pg := Page.stn st
  let d := tagDistance s cp.cycle cp.tread cp.tag
  if void then
    { s with image := { s.image with voids := (cp.tread, cp.cycle) :: s.image.voids } }
    |> undoPreloads st cp.preloads.length |> endCopy st cp.tread
  else if tagNewer d then acceptCopy st cp s
  else if d = some 0 then
    s |> incCnt pg Reg.stnDupCnt |> pairCompare st m cp.flight cp.cycle cp.tread cp.tag cp.crc
      |> undoPreloads st cp.preloads.length |> endCopy st cp.tread
  else
    s |> incCnt pg Reg.stnLateCnt |> raiseEv pg Ev.stnLateCopy |> undoPreloads st cp.preloads.length |> endCopy st cp.tread

/-- The payload and preloads of the copy of a tread in reception, in the tread's length. -/
def receivedCopy (s : State) (st : Side) (t want : Nat) : List Byte × List Nat :=
  match (stationOf s st).copy with
  | some c => if c.tread = t then ((c.payload ++ List.replicate (want - c.payload.length) 0).take want, c.preloads)
    else (List.replicate want 0, [])
  | none => (List.replicate want 0, [])

/-- A tread trailer arrives at a station with the cycle's layout (R124–R133). -/
def ownTrailer (st : Side) (g : RxGallery) (t trailer : Nat) (s : State) : State :=
  let m := bankFor s g.cycle
  let f := g.flight
  let (payload, pre) := receivedCopy s st t (treadBytes m f t)
  let cls := classifyTrailer (g.failed.contains t) payload trailer
  let tag := trailerTag trailer
  let trailerErr := cls = .good && (trailerWriter trailer ≠ treadWriter m f t || !tagOk (trailerThrough trailer) tag g.cycle)
  let ok := cls = .good && !trailerErr
  let void := trailerVoid trailer
  let s := s
    |> countTrailer st cls trailerErr
    |> relayTrailer st t trailer cls payload
    |> whenS (ok && !void && treadThrough m f t)
        (keepThrough st t { payload := payload, tag := tag, writer := trailerWriter trailer })
  if (readsOf (flightActions m (nodeId s) f) t).isEmpty || pageFenced s (Page.stn st) then endCopy st t s
  else if !ok then s |> undoPreloads st pre.length |> endCopy st t
  else
    judgeCopy st m void
      { tread := t, flight := f, cycle := g.cycle, tag := tag, crc := trailerCrc trailer, payload := payload, preloads := pre, prev := storeFind (tagKey s g.cycle t) s.image.tags } s

/-- A tread trailer arrives (R124–R133, R174). -/
def treadTrailer (st : Side) (t trailer : Nat) (s : State) : State :=
  match (stationOf s st).rx with
  | none => s
  | some g =>
    if hasLayout s g then ownTrailer st g t trailer s
    else match readBank s g with
      | some m => candidateTrailer st g m t trailer s
      | none => s

/-! ### Commit (R96, R98, R128, R133) -/

/-- Whether the STAIR or IMG block is fenced: no READ action commits then. -/
def commitFenced (s : State) : Bool := pageFenced s Page.stair || pageFenced s Page.img

/-- One READ action of a committing copy: committed bank, freshness entry, delivery (R96, R98, R128). -/
def commitAction (cp : Copy) (compared : Bool) (ia : Nat × Action) (s : State) : State :=
  let a := ia.2
  if a.write || a.tread ≠ cp.tread || !a.activeIn cp.cycle then s
  else
    let data := (cp.payload.drop a.off).take a.len
    let k := freshKey cp.flight ia.1
    let endpointLate := a.deadline ≠ 0 && positionPassed s cp.cycle cp.flight a.deadline
    let unitEndpoint := a.endpoint = 1 || a.endpoint = 3
    let s := { s with image := { s.image with committed := memWriteN s.image.committed a.img data } }
    let s := if cp.cycle < s.stair.actCycle then s else setFresh k (cp.tag + (storeGet freshNever s.image.fresh k / 2 ^ 20 % 4) * 2 ^ 20) s
    if unitEndpoint && endpointLate then s
    else if unitEndpoint && a.pair && a.deadline ≠ 0 && !compared then
      { s with image := { s.image with pairWaits := s.image.pairWaits ++
          [{ index := ia.1, flight := cp.flight, cycle := cp.cycle, tag := cp.tag, data := data }] } }
    else deliverAction cp.cycle cp.flight a data s

/-- What a commit leaves behind beside its actions: the tag for R99, the record for the deadline checks, and no comparison kept. -/
def noteCommit (cp : Copy) (s : State) : State :=
  { s with image := { s.image with
      commits := (cp.tread, cp.cycle) :: s.image.commits
      doneTags := storePut (tagKey s cp.cycle cp.tread) cp.tag s.image.doneTags
      compared := s.image.compared.filter (· ≠ (cp.tread, cp.tag)) } }

/-- Whether a copy is of a gallery that this hub executes: under its active bank, or before the activation under the retiring one (R111). -/
def executes (s : State) (c : Nat) : Bool := staircaseActs s || (decide (c < s.stair.actCycle) && pendState s = pendRetiring)

/-- The copy at the head of a station's commit gate commits (R133); nothing commits while STAIR or IMG is fenced. -/
def commitHead (st : Side) (s : State) : State :=
  let v := stationOf s st
  match v.gate with
  | [] => s
  | cp :: rest =>
    let s := setStation st { v with gate := rest } s
    if commitFenced s then undoPreloads st cp.preloads.length s
    else if !executes s cp.cycle then
      forEach ((readsOf (flightActions s.stair.pend (nodeId s) cp.flight) cp.tread).filter fun a => a.endpoint = 5)
        (fun a u => statusDelivery cp.cycle ((cp.payload.drop a.off).take a.len) u) s
    else
      let acts := flightActions (bankFor s cp.cycle) (nodeId s) cp.flight
      s |> noteCommit cp
        |> forEach ((List.range acts.length).zip acts) (commitAction cp (s.image.compared.contains (cp.tread, cp.tag)))

/-- What is kept of a cycle's DMA (R103–R105). -/
def dmaRun (s : State) (c : Nat) : DmaRun :=
  (storeFind c s.image.dma).getD { flight := flightFor s c, started := [], flags := 0, recorded := false }

/-- A flag of the completion record of a cycle (R104); one already written keeps what it said. -/
def dmaFlag (c k : Nat) (s : State) : State :=
  let r := dmaRun s c
  { s with image := { s.image with dma := storePut c { r with flags := r.flags ||| k } s.image.dma } }

/-- Whether the deadline checks of a cycle apply to a flight (R98): the flights of its galleries at this hub, or before any has come the recorded one. -/
def checksFlight (s : State) (c f : Nat) : Bool :=
  if s.image.carried.any (fun e => e.1 = c) then s.image.carried.contains (c, f) else decide (f = flightFor s c)

/-- The deadline of an active READ action passes (R98, R128): a PAIR delivery that still waits takes place; with no non-VOID commit the
action misses, or ends with SOURCE_VOID if only VOID copies came. -/
def deadlineCheck (f i c : Nat) (s : State) : State :=
  let m := bankFor s c
  match (flightActions m (nodeId s) f)[i]? with
  | none => s
  | some a =>
    if !executes s c || a.write || a.deadline = 0 || !a.activeIn c || !checksFlight s c f then s
    else
      let s := releasePairs (fun w => w.index = i && w.flight = f && w.cycle = c) s
      let got := s.image.commits.contains (a.tread, c)
      let voided := !got && s.image.voids.contains (a.tread, c)
      let e := storeGet freshNever s.image.fresh (freshKey f i)
      let keep := e % 2 ^ 20 + (e / 2 ^ 22 % 2) * 2 ^ 22
      if commitFenced s then s
      else
        s |> whenS (decide (s.stair.actCycle ≤ c)) (setFresh (freshKey f i) (keep + 2 ^ 20 * b2n (!got && !voided) + 2 ^ 21 * b2n voided))
          |> whenS (!got && !voided) (fun u => u |> incCnt Page.img Reg.imgMissCnt |> raiseEv Page.img Ev.imgMissedDeadline
               |> dmaFlag c 1)
          |> whenS voided (fun u => u |> incCnt Page.img Reg.imgVoidCnt |> raiseEv Page.img Ev.imgSourceVoid
               |> dmaFlag c 2)

/-! ### Snapshots (R77, R78, R97) -/

/-- One write action of a snapshot: its data copied to the committed bank; the accumulated marks are whether any source is fenced, whether
any source had data, and whether any action is active. -/
def snapshotAction (c : Nat) (a : Action) (acc : State × Bool × Bool × Bool) : State × Bool × Bool × Bool :=
  let (s, fenced, any, active) := acc
  match sourceAction a c s with
  | (.fenced, s1) => (s1, true, any, active || a.activeIn c)
  | (.empty, s1) => (s1, fenced, any, active || a.activeIn c)
  | (.data bs short, s1) =>
    if !a.activeIn c then (s, fenced, any, active)
    else
      let s2 := { s1 with image := { s1.image with committed := memWriteN s1.image.committed a.img (bs.take a.len) } }
      (raiseIf short Page.img Ev.imgSrcShort s2, fenced, true, true)

/-- The payload of an owned tread from the committed bank: bytes that no active write action covers are 0 (R77). -/
def snapshotPayload (s : State) (acts : List Action) (c n : Nat) : List Byte :=
  let blank := List.replicate n (0 : Byte)
  acts.foldl (fun pl a =>
    if a.activeIn c then
      (pl.take a.off ++ memReadN s.image.committed a.img a.len ++ pl.drop (a.off + a.len)).take n
    else pl) blank

/-- The gallery whose copy of a tread is due (R77, R83): of those that the stations send, the earliest one that has no snapshot of the tread yet; with
none in sending the present cycle's. -/
def dueGallery (s : State) (t : Nat) : Option (Nat × Nat) :=
  let own (v : StationState) : List (Nat × Nat) := if v.sending then [(v.sendCycle, v.sendFlight)] else []
  let all := if s.stnE.sending || s.stnW.sending then own s.stnE ++ own s.stnW else [(cycleNow s, flightFor s (cycleNow s))]
  match all.filter fun e => (snapOf s t e.1).isNone with
  | [] => none
  | [e] => some e
  | e :: e' :: _ => some (if e'.1 < e.1 then e' else e)

/-- The snapshot of an owned tread for a gallery (R77, R78). -/
def takeSnapshot (t c f : Nat) (s : State) : State :=
  let m := bankFor s c
  let n := treadBytes m f t
  let acts := (flightActions m (nodeId s) f).filter fun a => a.write && a.tread = t
  let (s1, fenced, any, active) :=
    if commitFenced s then (s, true, false, false) else acts.foldl (fun acc a => snapshotAction c a acc) (s, false, false, false)
  let void := fenced || !active || !any || (treadMaster m f t && pageFenced s Page.duplex)
  let payload := if void then List.replicate n 0 else snapshotPayload s1 acts c n
  { s1 with image := { s1.image with snaps := storePut (snapKey t c) { cycle := c, payload := payload, void := void } s1.image.snaps } }

/-- A tread that this hub owns is due to be sent (R77): its contents are taken, once per cycle, and what waited for them leaves. -/
def treadSnapshot (t : Nat) (s : State) : State :=
  match dueGallery s t with
  | none => s
  | some (c, f) =>
    if !executes s c || !ownsTread (bankFor s c) (nodeId s) f t then s
    else s |> takeSnapshot t c f |> pump .east |> pump .west

/-! ### Windows and slots (R136–R138) -/

/-- The window of the pending cycle closes (R136). -/
def windowClose (st : Side) (s : State) : State :=
  let v := stationOf s st
  let c := v.pendingCycle
  if staircaseActs s && forwardsRole (roleOf s st) && portOpenUp s (rxPort st) then
    completePending st (c * period s + expectNs s st c + lateNs s st c + hopNs (imgRate (bankFor s c))) s
  else s

/-- The slot time of the pending cycle (R136, R138). -/
def slotTime (st : Side) (s : State) : State :=
  let v := stationOf s st
  let c := v.pendingCycle
  let r := roleOf s st
  if !staircaseActs s then s
  else if (forwardsRole r && !portOpenUp s (rxPort st)) || r = roleCompleter then
    completePending st (c * period s + slotNs s st c) s
  else s

/-- What a station does at the boundary of a cycle (R67, R138). -/
def stationBoundary (c : Nat) (st : Side) (s : State) : State :=
  let v := stationOf s st
  let r := roleOf s st
  if !staircaseActs s then s
  else if r = roleMasterOrigin then originate st c s
  else if (r = roleCompleter ∧ v.pendingCycle = c) ∨ (r = roleLocalOrigin ∧ v.pendingCycle ≤ c) then
    if v.sendEnd ≤ c * period s then originate st c s |> setRole st roleLocalOrigin else setRole st roleCompleter s
  else s

/-! ### Opening (R144, R145) -/

/-- OPEN_CYCLE of a station. -/
def openCycle (s : State) (st : Side) : Nat := getPair s (Page.stn st) Reg.stnOpenCycleLo Reg.stnOpenCycleHi

/-- ARM_OPEN: refused with OPEN_FAIL when the boundary is less than 2 cycles ahead. -/
def armOpen (st : Side) (s : State) : State :=
  if openCycle s st < cycleNow s + 2 then raiseEv (Page.stn st) Ev.stnOpenFail s
  else setFlag (Page.stn st) Reg.stnStatusArmed true s

/-- Whether ARM_OPEN would be refused. -/
def armRefused (s : State) (st : Side) : Bool := openCycle s st < cycleNow s + 2

/-- DISARM. -/
def disarm (st : Side) (s : State) : State := setFlag (Page.stn st) Reg.stnStatusArmed false s

/-- QUARANTINE takes effect at the next cycle boundary. -/
def quarantineCmd (st : Side) (s : State) : State := setStation st { stationOf s st with quarNext := true } s

/-- A port opens from a cycle on (R139, R145, R311): OPENED, a delay exchange begins, and a station that produced galleries forwards again. -/
def openPort (c : Nat) (p : Side) (s : State) : State :=
  let st := rxStation p
  let r := roleOf s st
  s |> setPortOpen p true |> setFlag (Page.stn st) Reg.stnStatusArmed false
    |> (fun u => setStation st { stationOf u st with rxFrom := c } u)
    |> (fun u => setStation p { stationOf u p with txFrom := c } u)
    |> whenS (r = roleCompleter ∨ r = roleLocalOrigin) (fun u => u |> setRole st (forwardRole u) |> setR (Page.stn st) Reg.stnStatusResumeCnt 0)
    |> raiseEv (Page.stn st) Ev.stnOpened |> beginExchange c (b2n (isEast p))

/-- What arming and quarantine do at the boundary of cycle c on the receive port of a station (R144, R145); the result says whether the
port opened. -/
def openingBoundary (c : Nat) (st : Side) (s : State) : State × Bool :=
  let v := stationOf s st
  let s := if v.quarNext then quarantinePort (rxPort st) (setStation st { v with quarNext := false } s) else s
  if flag s (Page.stn st) Reg.stnStatusArmed && openCycle s st ≤ c then
    if linkUp s (rxPort st) && openCycle s st = c then (openPort c (rxPort st) s, true)
    else (s |> disarm st |> raiseEv (Page.stn st) Ev.stnOpenFail, false)
  else (s, false)

/-- CNT_CLR of a station page (R146). -/
def stationCntClear (st : Side) (s : State) : State :=
  clearAll (Page.stn st)
    [Reg.stnArrMin, Reg.stnArrMax, Reg.stnGoodCnt, Reg.stnLocalErrCnt, Reg.stnUpstreamErrCnt, Reg.stnTrailerErrCnt, Reg.stnDupCnt,
     Reg.stnLateCnt, Reg.stnDupMismatchCnt, Reg.stnUndoCnt, Reg.stnCompleteCnt, Reg.stnLateGalCnt, Reg.stnLayoutCnt, Reg.stnCarryCnt] s

/-- TREAD_SNAPSHOT (R77). -/
def execTreadSnapshot (tread : BitVec 16) (s : State) : Answer := alive s (treadSnapshot tread.toNat s)

end Sys2Proof.Machine
end

