-- ==== Sys2Proof/Machine/Partner.lean ====
section
/-!
DEFINITION. Partners (R204–R208): descriptors, accesses to partner windows, engine mailbox transactions and CAN frames.
-/

namespace Sys2Proof.Machine

open Sys2Proof

/-! ### Descriptors (R204) -/

def descEnabled (s : State) (p : Nat) : Bool := bit (descWord s p 0) 0
def descKind (s : State) (p : Nat) : Nat := bits (descWord s p 0) 2 1
def descEngine (s : State) (p : Nat) : Nat := bits (descWord s p 0) 9 3
def descCan (s : State) (p : Nat) : Nat := bits (descWord s p 0) 6 3
def descWidth (s : State) (p : Nat) : Nat := bits (descWord s p 0) 11 10
/-- The bytes of a WIDTH unit. -/
def descUnit (s : State) (p : Nat) : Nat := 2 ^ descWidth s p
def descSwap (s : State) (p : Nat) : Bool := bit (descWord s p 0) 12
def descFd (s : State) (p : Nat) : Bool := bit (descWord s p 0) 18
def descAddr (s : State) (p : Nat) : Nat := bits (descWord s p 1) 28 0
def descIde (s : State) (p : Nat) : Bool := bit (descWord s p 1) 29
def descOutQ (s : State) (p : Nat) : Nat := bits (descWord s p 2) 11 0
def descInQ (s : State) (p : Nat) : Nat := bits (descWord s p 2) 27 16
def descNotify (s : State) (p : Nat) : Nat := bits (descWord s p 4) 7 0
def descStream (s : State) (p : Nat) : Nat := bits (descWord s p 4) 11 8
/-- DELIVER, a fabric address. -/
def descDeliver (s : State) (p : Nat) : Nat := descWord s p 5 + 2 ^ 32 * bits (descWord s p 6) 15 0
/-- The size of the delivery ring; DELIVER_LOG2 is 8 to 20. -/
def descRing (s : State) (p : Nat) : Nat := 2 ^ bits (descWord s p 6) 20 16
/-- PART_TIMEOUT in ns. -/
def descTimeout (s : State) (p : Nat) : Nat :=
  let t := bits (descWord s p 7) 15 0
  (if t = 0 then 65536 else t) * 10000

/-- Whether a partner is served by an engine, or by a CAN channel. -/
def engPartner (s : State) (p : Nat) : Bool := descKind s p = 0
def canPartner (s : State) (p : Nat) : Bool := descKind s p = 1

/-- The unit of a partner as a number: engine e is e, CAN channel n is 128 + n. -/
def partnerUnit (s : State) (p : Nat) : Nat := if canPartner s p then 128 + descCan s p else descEngine s p

/-- The Cabinet port that a partner's mailbox traffic goes through. -/
def partnerPort (s : State) (p : Nat) : Nat := if canPartner s p then portCan else portTile (tileOf (descEngine s p))

/-- What each descriptor word holds; reserved bits read 0. -/
def descMask (w : Nat) : Nat :=
  match w with
  | 0 => 0x0007FFFF
  | 1 => 0x3FFFFFFF
  | 2 => 0x0FFF0FFF
  | 4 => 0x00000FFF
  | 6 => 0x001FFFFF
  | 7 => 0x0000FFFF
  | _ => 0xFFFFFFFF

/-- A descriptor word stored. -/
def setDesc (p w v : Nat) (s : State) : State :=
  { s with bridge := { s.bridge with descs := storeSet 0 s.bridge.descs (8 * p + w) (v &&& descMask w) } }

/-- A write of a descriptor word through the indirect pair (R204): while ENABLE is 1 only word 0 may be written, and word 3 never is. None
where the write is refused. -/
def descWrite (i v : Nat) (s : State) : Option State :=
  let p := i / 8
  let w := i % 8
  if w = 3 then none
  else if descEnabled s p && w ≠ 0 then none
  else some (setDesc p w v s)

/-- A guarded write of ACC_ROW (R204): word 3 of the descriptor that ACC_SEL names, with its journal record; while ENABLE is 1 it is ignored and
DESC_REFUSED raised. -/
def accRow (who : Option Master) (v : Nat) (s : State) : State :=
  let p := getR s Page.bridge Reg.bridgeAccSel
  if descEnabled s p then
    s |> raiseEv Page.bridge Ev.bridgeDescRefused |> journalRefused who 0x06 (p + 2 ^ 16 * 0x17) (descWord s p 3 + 2 ^ 32 * v)
  else
  s |> setR Page.bridge Reg.bridgeAccRow v |> setDesc p 3 v |> journal who 0x06 (p + 2 ^ 16 * 0x17) (descWord s p 3 + 2 ^ 32 * v) 0

/-- A word of the BRIDGE indirect spaces: descriptors, the posted-write error log; other values read 0. -/
def bridgeIndRead (s : State) (addr : Nat) : Nat :=
  let i := addr % 2 ^ 14
  match bits addr 17 16 with
  | 0 => storeGet 0 s.bridge.descs i
  | 1 => (s.bridge.pwe.getD (i / 8) []).getD (i % 8) 0
  | _ => 0

/-! ### Data (R206, R207) -/

/-- Bytes reversed within each unit. -/
def reverseUnits (u : Nat) : Nat → List Byte → List Byte
  | 0, _ => []
  | _, [] => []
  | fuel + 1, bs => (bs.take u).reverse ++ reverseUnits u fuel (bs.drop u)

/-- The partner's bytes under SWAP; the same conversion in both directions. -/
def partnerBytes (s : State) (p : Nat) (bs : List Byte) : List Byte :=
  if descSwap s p then reverseUnits (descUnit s p) bs.length bs else bs

/-- The command word of a mailbox transaction (Engine mailbox words table). -/
def mailCommand (s : State) (t : PartTx) : Nat :=
  2 * 2 ^ 30 + 2 ^ 28 * b2n t.write + 2 ^ 16 * (t.len / descUnit s t.partner - 1) + t.off

/-- The smallest valid data length code that holds n bytes. -/
def dlcFor (fd : Bool) (n : Nat) : Nat := ((List.range 16).find? fun d => n ≤ dlcBytes fd d).getD 15

/-- The words of a transaction: the command, PARTNER_ADDR and data of an engine; a frame image of a CAN channel, with the bit rate switch as given. -/
def partnerWords (s : State) (t : PartTx) (brs : Bool) : List Nat :=
  let bs := partnerBytes s t.partner t.data
  if canPartner s t.partner then
    let fd := descFd s t.partner
    let dlc := dlcFor fd bs.length
    [descAddr s t.partner + 2 ^ 29 * b2n (descIde s t.partner), dlc + 2 ^ 4 * b2n fd + 2 ^ 5 * b2n (fd && brs)] ++
      bytesToWords (dlcBytes fd dlc) bs
  else [mailCommand s t, descAddr s t.partner] ++ (if t.write then bytesToWords bs.length bs else [])

/-! ### Waiting in OUT_Q (R200, R206) -/

/-- A transaction ends for the one who waits for it. -/
def endPartner (t : PartTx) (st : Nat) (data : List Byte) (s : State) : State :=
  endAccess t.waiter (0x10000000 + t.partner * 0x10000 + t.off) t.len st data s

/-- The place in OUT_Q of a waiting transaction's packet. -/
def partnerPacket (s : State) (t : PartTx) : Option Nat :=
  (queueOf s (descOutQ s t.partner)).pkts.findIdx? fun p => p.data = t.words

/-- One partner access tries to enter the Cabinet: the accesses tried so far, the queues that are stuck, the state. -/
def retryPartner (acc : List PartTx × List Nat × State) (t : PartTx) : List PartTx × List Nat × State :=
  let (done, stuck, u) := acc
  let q := descOutQ u t.partner
  if t.queued || stuck.contains q then (done ++ [t], stuck, u)
  else
    let (r, u1) := cabProduce t.port q t.words 0 false u
    if r = cabOk then (done ++ [{ t with queued := true }], stuck, u1) else (done ++ [t], q :: stuck, u)

/-- Waiting transactions that stand in no queue yet try again, in order within each queue (R230). -/
def retryPartners (s : State) : State :=
  let (ts, _, v) := s.bridge.partTx.foldl retryPartner ([], [], s)
  { v with bridge := { v.bridge with partTx := ts } }

/-- A waiting transaction leaves, with its packet. -/
def dropPartner (i : Nat) (s : State) : State :=
  match s.bridge.partTx[i]? with
  | none => s
  | some t =>
    let s1 := { s with bridge := { s.bridge with partTx := s.bridge.partTx.eraseIdx i } }
    retryPartners (match t.queued, partnerPacket s t with
      | true, some k => dropPacket (descOutQ s t.partner) k s1
      | _, _ => s1)

/-- The partner whose window holds a local address (R182). -/
def windowOf (a : Nat) : Nat := (a % 2 ^ 40 - 0x10000000) / 0x10000

/-- Why one piece of an access cannot be made (R205, R206, R207): ALIGN, or UNSUPPORTED for an engine whose TX FIFO is bound, a read from a CAN
partner, a CAN piece longer than a frame, and a reserved KIND or WIDTH. -/
def pieceRefusal (s : State) (write : Bool) (e : Nat × Nat) : Option Nat :=
  let p := windowOf e.1
  let u := descUnit s p
  if 2 ≤ descKind s p ∨ descWidth s p = 3 then some stUnsupported
  else if e.1 % u ≠ 0 ∨ e.2 % u ≠ 0 then some stAlign
  else if engPartner s p && engFlag s (descEngine s p) Reg.engFifoStatusTxfBound then some stUnsupported
  else if canPartner s p && (!write || decide ((if descFd s p then 64 else 8) < e.2)) then some stUnsupported
  else none

/-- Why an access to the partner windows cannot be made: the status of the whole access is that of its first piece that cannot (R205). -/
def partnerRefusal (s : State) (p off len : Nat) (write : Bool) : Option Nat :=
  (cutPieces (cutGrain s) (0x10000000 + p * 0x10000 + off) len len).findSome? (pieceRefusal s write)

/-- A decided access to a partner window, or across the end of one into the next: each piece waits in OUT_Q of its partner for the engine or
channel (R182, R200, R205). -/
def partnerAccess (port : Nat) (w : Waiter) (p off len : Nat) (write : Bool) (data : List Byte) (s : State) : State :=
  let addr := 0x10000000 + p * 0x10000 + off
  match partnerRefusal s p off len write with
  | some st => endAccess w addr len st [] s
  | none =>
    let (ps, s1) := splitAccess s w addr len data
    let put (e : Nat × Nat × List Byte × Waiter) (u : State) : State :=
      let t : PartTx :=
        { partner := windowOf e.1, write := write, off := e.1 % 0x10000, data := e.2.2.1, len := e.2.1, waiter := e.2.2.2, port := port, queued := false
          issued := 0, words := [] }
      let (v, u1) := freeIf (canPartner u (windowOf e.1)) u
      { u1 with bridge := { u1.bridge with partTx := u1.bridge.partTx ++ [{ t with words := partnerWords u1 t (bit v 0) }] } }
    retryPartners (forEach ps put s1)

/-! ### Running transactions (R206, R207) -/

/-- The transaction that a unit runs. -/
def runningTx (s : State) (unit : Nat) : Option PartTx := storeFind unit s.bridge.running

/-- The running transaction of a unit set or ended. -/
def setRunning (unit : Nat) (t : Option PartTx) (s : State) : State :=
  { s with bridge := { s.bridge with running := match t with
    | some x => storePut unit x s.bridge.running
    | none => storeDel unit s.bridge.running } }

/-- A running transaction ends. -/
def finishPartner (unit st : Nat) (data : List Byte) (s : State) : State :=
  match runningTx s unit with
  | none => s
  | some t => s |> setRunning unit none |> endPartner t st data

/-- The words of a running transaction go on into the TX FIFO as far as it has room. -/
def pumpCommand (e : Nat) (s : State) : State :=
  match runningTx s e with
  | none => s
  | some t =>
    let n := fifoDepth - (engOf s e).txf.length
    s |> forEach (t.words.take n) (fun w u => pushTxf e w u) |> setRunning e (some { t with words := t.words.drop n })

/-- The end of a CAN channel's request for the bridge, as the channel left it (R207). A result that the rule does not name gives one of the
partner codes. -/
def canMailDone (n : Nat) (s : State) : State :=
  match (canOf s n).mailbox with
  | none => s
  | some r =>
    let s1 := setCan n { canOf s n with mailbox := none } s
    if r = txOk then finishPartner (128 + n) stOk [] s1
    else if r = txFailed then finishPartner (128 + n) stPartnerNak [] s1
    else if r = txBusOff then finishPartner (128 + n) stBusErr [] s1
    else
      let (v, s2) := freeValue s1
      finishPartner (128 + n) (stPartnerNak + v % 3) [] s2

/-- The end of every channel's request for the bridge. -/
def canMailAll (s : State) : State := forEach (List.range 16) canMailDone s

/-- A transaction is given to its engine. -/
def issueEngine (e : Nat) (t : PartTx) (s : State) : State :=
  if engDead s e then endPartner t stFenced [] s
  else if engFlag s e Reg.engFifoStatusTxfBound then endPartner t stUnsupported [] s
  else s |> setRunning e (some { t with issued := s.time.tb2 }) |> pumpCommand e

/-- A frame is given to its channel: buffer MBX_BUF is loaded and requested. -/
def issueCan (n : Nat) (t : PartTx) (s : State) : State :=
  if canDead s n then endPartner t stFenced [] s
  else
    let b := mailboxBuf s n
    s |> setCan n { canOf s n with mailbox := none }
      |> forEach (List.range 18) (fun i u => setBufWord n b i (t.words.getD i 0) u)
      |> setRunning (128 + n) (some { t with issued := s.time.tb2, words := [] }) |> requestBuf n b |> canMailDone n

/-- Whether a unit can take a transaction now. -/
def unitFree (s : State) (p : Nat) : Bool :=
  (runningTx s (partnerUnit s p)).isNone && (!canPartner s p || !bufPending s (descCan s p) (mailboxBuf s (descCan s p)))

/-- The bridge issues the oldest waiting transaction of a partner when its engine or channel is free, or goes on with the words of the running
one (R206). A transaction whose packet a flush has taken away is gone. -/
def partnerTransaction (p : Nat) (s : State) : State :=
  if pageFenced s Page.bridge then s
  else
    let s1 := retryPartners (if canPartner s p then s else pumpCommand (descEngine s p) s)
    match s1.bridge.partTx.findIdx? (fun t => t.partner = p) with
    | none => s1
    | some i =>
      match s1.bridge.partTx[i]? with
      | none => s1
      | some t =>
        if !t.queued || !unitFree s1 p then s1
        else if (partnerPacket s1 t).isNone then dropPartner i s1
        else if (queueOf s1 (descOutQ s1 p)).consumer ≠ partnerPort s1 p then (ownerErr s1).2
        else
          let s2 := dropPartner i s1
          if canPartner s1 p then issueCan (descCan s1 p) t s2 else issueEngine (descEngine s1 p) t s2

/-- PARTNER_TRANSACTION (R206, R207). -/
def execPartnerTransaction (p : Fin 2048) (s : State) : Answer := alive s (partnerTransaction p.val s)

/-! ### Words from an engine (R206, R208) -/

/-- The enabled partners of an engine. -/
def enginePartners (s : State) (e : Nat) : List Nat :=
  (List.range 2048).filter fun p => descEnabled s p && engPartner s p && descEngine s p = e

/-- Whether the bridge reads an engine's RX FIFO: it serves a partner, its RX FIFO is not bound, nothing is fenced. -/
def mailReads (s : State) (e : Nat) : Bool :=
  !pageFenced s Page.bridge && !engDead s e && !engFlag s e Reg.engFifoStatusRxfBound && !(enginePartners s e).isEmpty

/-- The first word of the RX FIFO taken. -/
def takeMail (e : Nat) (s : State) : Option (Nat × State) :=
  match (engOf s e).rxf with
  | [] => none
  | w :: ws => some (w, setRxf e ws s)

/-- Words without a valid marker in front of the RX FIFO are discarded (R206). -/
def skipMail (e : Nat) : Nat → State → State
  | 0, s => s
  | fuel + 1, s =>
    match (engOf s e).rxf with
    | w :: ws =>
      if bits w 31 30 = 1 ∨ bits w 31 30 = 3 then s
      else skipMail e fuel (setRxf e ws s |> incCnt Page.bridge Reg.bridgeMbxFmtCnt |> raiseEv Page.bridge Ev.bridgeMbxFormat)
    | [] => s

/-- Data words taken from the RX FIFO for a mailbox word, up to those that are to come. -/
def collectMail (e : Nat) (m : Nat × Nat × List Nat) (s : State) : (Nat × Nat × List Nat) × State :=
  let ws := (engOf s e).rxf.take m.2.1
  ((m.1, m.2.1 - ws.length, m.2.2 ++ ws), setRxf e ((engOf s e).rxf.drop ws.length) s)

/-- The mailbox word being taken, kept or done with. -/
def setMail (e : Nat) (m : Option (Nat × Nat × List Nat)) (s : State) : State :=
  { s with bridge := { s.bridge with mail := match m with
    | some x => storePut e x s.bridge.mail
    | none => storeDel e s.bridge.mail } }

/-- Whether a status word answers the running transaction: OP and offset echoed. -/
def statusMatches (w : Nat) (t : PartTx) : Bool := bits w 29 28 = b2n t.write && bits w 15 0 = t.off && decide (bits w 27 24 ≤ 2)

/-- The transaction ends with a status word and its data words (R206). -/
def endMail (e w : Nat) (ws : List Nat) (s : State) : State :=
  match runningTx s e with
  | none => s
  | some t =>
    let data := if t.write then [] else partnerBytes s t.partner ((ws.flatMap (leBytes 4)).take t.len)
    match bits w 27 24 with
    | 0 => finishPartner e stOk data s
    | 1 => finishPartner e stPartnerNak [] s
    | _ => finishPartner e stBusErr [] s

/-- Goes on with a status word, or takes the next one (R206). A status word that answers no running transaction is discarded. -/
def mailStatus (e : Nat) (s : State) : State :=
  let finish (m : Nat × Nat × List Nat) (u : State) : State :=
    let (m1, u1) := collectMail e m u
    if m1.2.1 = 0 then u1 |> setMail e none |> endMail e m1.1 m1.2.2 else setMail e (some m1) u1
  if !mailReads s e then s
  else
    let s0 := pumpCommand e s
    match storeFind e s0.bridge.mail with
    | some m => if bits m.1 31 30 = 3 then finish m s0 else s0
    | none =>
      let s1 := skipMail e fifoDepth s0
      match takeMail e s1 with
      | some (w, s2) =>
        if bits w 31 30 ≠ 3 then s1
        else
          match runningTx s2 e with
          | some t =>
            if statusMatches w t then finish (w, if !t.write && bits w 27 24 = 0 then (t.len + 3) / 4 else 0, []) s2 else s2
          | none => s2
      | none => s1

/-- MAILBOX_STATUS (R206). -/
def execMailboxStatus (e : Fin 128) (s : State) : Answer := alive s (mailStatus e.val s)

/-- An attention word and its data enter IN_Q; the state as it was where a packet has to wait for credit (R208, R230). A packet holds the
attention word and at most 65,524 bytes. -/
def attentionPackets (port q w : Nat) : Nat → List Byte → State → Option State
  | 0, _, s => some s
  | fuel + 1, bs, s =>
    let part := bs.take 65524
    let words := w :: bytesToWords part.length part
    let (r, s1) := cabProduce port q words (4 * words.length - (4 + part.length)) false s
    if r = cabWaitCredit then none
    else if (bs.drop 65524).isEmpty then some s1
    else attentionPackets port q w fuel (bs.drop 65524) s1

/-- The attention of an engine is complete: its partner is the hub's choice among those the engine serves. -/
def endAttention (e : Nat) (m : Nat × Nat × List Nat) (s : State) : State :=
  let (v, s1) := freeValue s
  let ps := enginePartners s e
  match ps[v % ps.length]? with
  | none => setMail e none s
  | some p =>
    let bs := partnerBytes s p ((m.2.2.flatMap (leBytes 4)).take (bits m.1 15 0))
    match attentionPackets (portTile (tileOf e)) (descInQ s p) m.1 2 bs s1 with
    | some s2 => setMail e none s2
    | none => setMail e (some m) s

/-- Goes on with an attention word, or takes the next one (R206, R208). -/
def mailAttention (e : Nat) (s : State) : State :=
  let finish (m : Nat × Nat × List Nat) (u : State) : State :=
    let (m1, u1) := collectMail e m u
    if m1.2.1 = 0 then endAttention e m1 u1 else setMail e (some m1) u1
  if !mailReads s e then s
  else
    match storeFind e s.bridge.mail with
    | some m => if bits m.1 31 30 = 1 then finish m s else s
    | none =>
      let s1 := skipMail e fifoDepth s
      match takeMail e s1 with
      | some (w, s2) => if bits w 31 30 = 1 then finish (w, (bits w 15 0 + 3) / 4, []) s2 else s1
      | none => s1

/-- MAILBOX_ATTENTION (R208). -/
def execMailboxAttention (e : Fin 128) (s : State) : Answer := alive s (mailAttention e.val s)

/-- The answer limit of a partner has passed (R206): the running transaction of its unit ends, if it is this partner's and no status word has come. -/
def partnerTimeout (p : Nat) (s : State) : State :=
  match runningTx s (partnerUnit s p) with
  | none => s
  | some t =>
    let answered := match storeFind (partnerUnit s p) s.bridge.mail with
      | some m => bits m.1 31 30 = 3
      | none => false
    if t.partner ≠ p ∨ s.time.tb2 < t.issued + descTimeout s p ∨ answered = true then s
    else s |> setMail (partnerUnit s p) none |> finishPartner (partnerUnit s p) stPartnerTimeout []
           |> raiseEv Page.bridge Ev.bridgePartnerTimeout

/-- PARTNER_TIMEOUT (R206). -/
def execPartnerTimeout (p : Fin 2048) (s : State) : Answer := alive s (partnerTimeout p.val s)

/-- The transactions of a unit that is fenced end FENCED (R438). -/
def fencePartners (unit : Nat) (s : State) : State := s |> setMail unit none |> finishPartner unit stFenced []

/-- CAN_ATTEMPT_START (R294). -/
def execCanAttemptStart (n : Fin 16) (s : State) : Answer := alive s (s |> attemptStart n |> canMailDone n)

/-- CAN_ATTEMPT_END (R295). -/
def execCanAttemptEnd (n : Fin 16) (outcome : CanOutcome) (s : State) : Answer := alive s (s |> attemptEnd n outcome |> canMailDone n)

end Sys2Proof.Machine
end

