-- ==== Sys2Proof/Machine/Dma.lean ====
section
/-!
DEFINITION. Host-image DMA (R103–R106) and the DRAM-BULK channels (R244).
-/

namespace Sys2Proof.Machine

open Sys2Proof

/-! ### Host-image DMA -/

/-- The address of buffer A or B. -/
def hostBase (s : State) (b : Bool) : Nat :=
  if b then getR s Page.img Reg.imgHostBaseBLo * 4096 + getR s Page.img Reg.imgHostBaseBHi * 2 ^ 32
  else getR s Page.img Reg.imgHostBaseALo * 4096 + getR s Page.img Reg.imgHostBaseAHi * 2 ^ 32

/-- Buffer A serves even cycles, buffer B odd cycles (R103). -/
def hostBuffer (s : State) (c : Nat) : Nat := hostBase s (decide (c % 2 = 1))

/-- Whether either host base is 0. -/
def hostUnset (s : State) : Bool := hostBase s false = 0 || hostBase s true = 0

/-- Whether the hub may run DMA but for the host bases: a head hub that acts on its Staircase, DMA_EN, bus mastering, nothing fenced (R103,
R106, R438). -/
def dmaEnabled (s : State) : Bool :=
  staircaseActs s && sliceHead s.stair.active (nodeId s) && flag s Page.img Reg.imgCfgDmaEn && pcieUp s && flag s Page.pcie Reg.pcieLinkBme &&
    !pageFenced s Page.pcie && !pageFenced s Page.img && !pageFenced s Page.stair

/-- Whether a descriptor is active in a cycle. -/
def dmaActive (d : DmaDesc) (c : Nat) : Bool := c % 2 ^ d.div = d.phase

/-- The descriptors of a flight in a cycle, with their indices. -/
def dmaDescs (s : State) (c f : Nat) : List (Nat × DmaDesc) :=
  let ds := flightDma (bankFor s c) (nodeId s) f
  ((List.range ds.length).zip ds).filter fun e => dmaActive e.2 c

/-- A cycle's DMA kept. -/
def setDma (c : Nat) (r : DmaRun) (s : State) : State := { s with image := { s.image with dma := storePut c r s.image.dma } }

/-- HOST_BUF_UNSET once per activation (R106). -/
def noteHostUnset (s : State) : State :=
  if s.stair.hostBufRaised then s
  else raiseEv Page.img Ev.imgHostBufUnset { s with stair := { s.stair with hostBufRaised := true } }

/-- A descriptor of the present cycle starts at its trigger position (R103, R106). A TO_HOST transfer takes the committed bytes as they stand. -/
def dmaTrigger (i : Nat) (s : State) : State :=
  let c := cycleNow s
  let r := dmaRun s c
  match (dmaDescs s c r.flight).find? fun e => e.1 = i with
  | none => s
  | some (_, d) =>
    if !dmaEnabled s || r.started.contains i || !positionPassed s c r.flight d.trigger then s
    else if hostUnset s then noteHostUnset s
    else
      let s1 := setDma c { r with started := r.started ++ [i] } s
      if d.fromHost then s1
      else { s1 with image := { s1.image with
        host := memWriteN s1.image.host (hostBuffer s c + d.hostOff) (memReadN s.image.committed d.img d.len) } }

/-- DMA_TRIGGER (R103). -/
def execDmaTrigger (index : Nat) (s : State) : Answer := alive s (dmaTrigger index s)

/-- Data of a FROM_HOST transfer return (R105): the bytes within its length go to the committed bank, unless DMA may not run (R106). -/
def dmaDataReturn (c i off : Nat) (data : List Byte) (s : State) : State :=
  let r := dmaRun s c
  match (dmaDescs s c r.flight).find? fun e => e.1 = i with
  | none => s
  | some (_, d) =>
    if !d.fromHost || !r.started.contains i || !dmaEnabled s || hostUnset s then s
    else { s with image := { s.image with committed := memWriteN s.image.committed (d.img + off) (data.take (d.len - off)) } }

/-- DMA_DATA_RETURN (R105). -/
def execDmaDataReturn (cycle : BitVec 48) (index off : Nat) (data : List Byte) (s : State) : Answer :=
  alive s (dmaDataReturn cycle.toNat index off data s)

/-- Whether every TO_HOST transfer of a cycle that could start has: all of them, or the next boundary has passed and the rest are skipped. -/
def dmaComplete (s : State) (c : Nat) (r : DmaRun) : Bool :=
  let upto := (dmaDescs s c r.flight).filter fun e => !e.2.fromHost
  !upto.isEmpty && (decide (c < cycleNow s) || upto.all fun e => r.started.contains e.1)

/-- The completion record of a cycle (R104). -/
def dmaRecord (c flags count : Nat) : List Byte := leBytes 8 (c % 2 ^ 48) ++ leBytes 4 flags ++ leBytes 4 count

/-- All TO_HOST transfers of a cycle are complete: its record is written, once, and DMA_DONE raised (R104). -/
def dmaDone (c : Nat) (s : State) : State :=
  match storeFind c s.image.dma with
  | none => s
  | some r =>
    if !dmaEnabled s || hostUnset s || r.recorded || !dmaComplete s c r then s
    else
      let count := (s.image.dmaRecords + 1) % 2 ^ 32
      { s with image := { s.image with
        host := memWriteN s.image.host (hostBuffer s c + getR s Page.img Reg.imgStampOff * 16) (dmaRecord c r.flags count)
        dma := storePut c { r with recorded := true } s.image.dma, dmaRecords := count } }
      |> setR Page.img Reg.imgDmaCycle c |> raiseEv Page.img Ev.imgDmaDone

/-- DMA_DONE (R104). -/
def execDmaDone (cycle : BitVec 48) (s : State) : Answer := alive s (dmaDone cycle.toNat s)

/-- A PCIe error or completion timeout on a started transfer (R105). -/
def dmaErr (c i : Nat) (s : State) : State :=
  match storeFind c s.image.dma with
  | none => s
  | some r =>
    if !r.started.contains i then s
    else s |> dmaFlag c 8 |> incCnt Page.img Reg.imgDmaErrCnt |> raiseEv Page.img Ev.imgDmaErr

/-- DMA_ERR (R105). -/
def execDmaErr (cycle : BitVec 48) (index : Nat) (s : State) : Answer := alive s (dmaErr cycle.toNat index s)

/-- The boundary of cycle c (R105): descriptors of the cycle before that have not started are skipped, its record carries LATE unless it is written
already, and DMA_LATE is raised. The run of cycle c opens; what is older than 16 cycles is forgotten. -/
def dmaBoundary (c : Nat) (s : State) : State :=
  if !dmaEnabled s then s
  else if hostUnset s then whenS (!(dmaDescs s c (flightFor s c)).isEmpty) noteHostUnset s
  else
    let s1 := match storeFind (c - 1) s.image.dma with
      | none => s
      | some r =>
        if (dmaDescs s (c - 1) r.flight).all fun e => r.started.contains e.1 then s
        else s |> dmaFlag (c - 1) 4 |> raiseEv Page.img Ev.imgDmaLate
    let s2 := { s1 with image := { s1.image with dma := s1.image.dma.filter fun e => c < e.1 + 16 } }
    if (dmaDescs s2 c (flightFor s2 c)).isEmpty then s2 else setDma c (dmaRun s2 c) s2

/-- CNT_CTRL.CLR of the IMG page. -/
def imgCntClear (s : State) : State := clearAll Page.img [Reg.imgMissCnt, Reg.imgVoidCnt, Reg.imgDmaErrCnt] s

/-- Whether the deadline of every READ action of a cycle's flight has passed. -/
def deadlinesPassed (s : State) (c : Nat) : Bool :=
  (flightActions (bankFor s c) (nodeId s) (flightFor s c)).all fun a =>
    a.write || a.deadline = 0 || !a.activeIn c || positionPassed s c (flightFor s c) a.deadline

/-- IMG.DONE_CYCLE: the last cycle whose every READ deadline has passed (R102), looked for among the last 16. -/
def doneCycle (s : State) : Nat :=
  if !staircaseActs s then getPair s Page.img Reg.imgDoneCycleLo Reg.imgDoneCycleHi
  else ((List.range 16).find? fun k => deadlinesPassed s (cycleNow s - k)).elim (cycleNow s - 16) (cycleNow s - ·)

/-! ### DRAM-BULK channels (R244) -/

/-- The master that writes for the channels. -/
def dmaMaster : Master := { cls := 9, ifc := 6, node := 0 }

/-- A channel stops. -/
def bulkStop (ch : Nat) (s : State) : State :=
  s |> setFlag Page.cab (Reg.cabChCtrlStopped ch) true |> raiseEv Page.cab Ev.cabBulkStop

/-- The bytes of a packet as a channel copies it: packet word and data, padded to a multiple of 8 bytes. -/
def bulkBytes (p : Packet) : List Byte :=
  let bs := (packetWords p).flatMap (leBytes 4)
  bs ++ zeros ((8 - bs.length % 8) % 8)

/-- The packet at the head of a channel's queue is copied into its ring and released (R244). It waits while the copy would pass CHn_RD; a write
that is denied or fenced stops the channel and changes nothing. -/
def bulkCopy (ch : Nat) (s : State) : State :=
  let q := getR s Page.cab (Reg.cabChCtrlQueue ch)
  let v := queueOf s q
  if !flag s Page.cab (Reg.cabChCtrlEn ch) || flag s Page.cab (Reg.cabChCtrlStopped ch) || pageFenced s Page.cab then s
  else
    match v.pkts.head? with
    | none => s
    | some p =>
      let size := 2 ^ getR s Page.cab (Reg.cabChBaseLog2 ch)
      let base := getR s Page.cab (Reg.cabChBaseBase ch) * 4096
      let wr := getR s Page.cab (Reg.cabChWr ch) % size
      let rd := getR s Page.cab (Reg.cabChRd ch) % size
      let bs := bulkBytes p
      let first := min bs.length (size - wr)
      if v.consumer ≠ portDramBulk then (ownerErr s).2
      else if !wholePacket p then s
      else if size ≤ (wr + size - rd) % size + bs.length then s
      else
        let parts := [(base + wr, bs.take first)] ++ (if first < bs.length then [(base, bs.drop first)] else [])
        let verdict (e : Nat × List Byte) : Verdict := decide_ s dmaMaster .write (0x100000000 + e.1) e.2.length
        match parts.find? fun e => verdict e ≠ .ok with
        | some e => s |> noteVerdict (verdict e) dmaMaster .write (0x100000000 + e.1) |> bulkStop ch
        | none =>
          s |> forEach parts (fun e u => dramWrite e.1 e.2 u) |> setR Page.cab (Reg.cabChWr ch) ((wr + bs.length) % size)
            |> dropPacket q 0

/-- DRAM_BULK_COPY (R244). -/
def execDramBulkCopy (ch : Fin 4) (s : State) : Answer := alive s (bulkCopy ch.val s)

/-- A write of CHn_CTRL (R244): an enable whose queue does not name port 0x17 is refused; enabling anew clears STOPPED. -/
def bulkCtrlWrite (ch queue : Nat) (en : Bool) (s : State) : State :=
  let s1 := setR Page.cab (Reg.cabChCtrlQueue ch) queue s
  if !en then setFlag Page.cab (Reg.cabChCtrlEn ch) false s1
  else if (queueOf s queue).consumer ≠ portDramBulk then s1 |> setFlag Page.cab (Reg.cabChCtrlEn ch) false |> enableRefused
  else if flag s Page.cab (Reg.cabChCtrlEn ch) then s1
  else s1 |> setFlag Page.cab (Reg.cabChCtrlEn ch) true |> setFlag Page.cab (Reg.cabChCtrlStopped ch) false

end Sys2Proof.Machine
end

