-- ==== Sys2Proof/Machine/Ingress.lean ====
section
/-!
DEFINITION. The receiving side of the bridge (R185, R192, R197, R227): parsing the shares of a landing region, checking messages and taking them in.
-/

namespace Sys2Proof.Machine

open Sys2Proof

/-- Fields of a header block. -/
def hdCls (h : Nat) : Nat := bits h 2 0
def hdMgmt (h : Nat) : Bool := bit h 3
def hdDest (h : Nat) : Nat := bits h 11 4
def hdSrc (h : Nat) : Nat := bits h 19 12
def hdMclass (h : Nat) : Nat := bits h 23 20
def hdTag (h : Nat) : Nat := bits h 33 24
def hdLen (h : Nat) : Nat := bits h 39 34
def hdStream (h : Nat) : Nat := bits h 43 40
def hdOp (h : Nat) : Nat := bits h 47 44
def hdArg (h : Nat) : Nat := bits h 55 48
def hdTrim (h : Nat) : Nat := bits h 58 56

/-- Whether a message has an address block. -/
def hdHasAddr (h : Nat) : Bool := hdCls h = lmRequest || hdCls h = lmPosted

/-- Whether CLASS, OP and LEN are ones that R183 defines. -/
def hdKnown (h : Nat) : Bool :=
  decide (hdCls h ≤ 4) && decide (hdLen h ≤ 32) &&
    (match hdCls h with
     | 0 => decide (hdOp h ≤ 2)
     | 2 => hdOp h = 1 || hdOp h = 2
     | 3 => decide (hdOp h ≤ 3)
     | _ => true)

/-- The blocks behind a header. -/
def hdTail (h : Nat) : Nat := b2n (hdHasAddr h) + hdLen h + b2n (hdMgmt h)

/-- The messages of a share: header and following blocks; whether the parse ended on a format error. An idle block where a header may stand ends
the share (R82, R192). -/
def parseShare : Nat → List Nat → List (Nat × List Nat) × Bool
  | 0, _ => ([], false)
  | _ + 1, [] => ([], false)
  | fuel + 1, h :: rest =>
    if h = idleBlock then ([], false)
    else if !hdKnown h || bit h 63 || decide (rest.length < hdTail h) then ([], true)
    else
      let (ms, bad) := parseShare fuel (rest.drop (hdTail h))
      ((h, rest.take (hdTail h)) :: ms, bad)

/-- Whether a message is for this hub (R192). -/
def forMe (s : State) (h : Nat) : Bool := hdDest h = nodeId s || (hdDest h = 0xFF && hdCls h = lmPosted)

/-- The address block and the data bytes of a message. -/
def msgAddr (h : Nat) (tail : List Nat) : Nat := if hdHasAddr h then tail.headD 0 else 0
def msgData (h : Nat) (tail : List Nat) : List Byte :=
  ((tail.drop (b2n (hdHasAddr h))).take (hdLen h)).flatMap (leBytes 8) |>.take (8 * hdLen h - hdTrim h)

/-- Whether a message passes R185: MGMT where it is required, and a good CMAC under a usable key. -/
def msgAuth (s : State) (c h : Nat) (tail : List Nat) : Bool :=
  let a := msgAddr h tail
  let required := needsMgmt (hdCls h) (hdOp h) a ||
    (hdCls h = lmResponse &&
      (match storeFind (hdTag h) s.bridge.reqs with
       | some r => decide (r.addr % 2 ^ 40 < 0x100000)
       | none => false))
  if !hdMgmt h then !required
  else
    let addr := if hdHasAddr h then [a] else []
    ringUsable s (ringSlotFor s c) && tail.getLast? = some (msgMac s c h addr ((tail.drop addr.length).take (hdLen h)))

/-- What a candidate accepts (R174): posted management writes of the lease holder to the join nonce and the STAIR guarded window. -/
def candidateAccepts (s : State) (h a : Nat) : Bool :=
  let loc := a % 2 ^ 40
  hdCls h = lmPosted && hdMgmt h && hdDest h ≠ 0xFF && hdSrc h ≠ 0 && hdSrc h = tokHolder s &&
    ((hdOp h = opWrite && decide (Page.duplex * 4096 + 0x0CC ≤ loc ∧ loc < Page.duplex * 4096 + 0x0D4)) ||
     (hdOp h = opGuarded && decide (Page.stair * 4096 + 0x300 ≤ loc ∧ loc < Page.stair * 4096 + 0x380)))

/-- Messages of a class that have arrived from a source since the credit epoch: executed and waiting. -/
def arrivedOf (s : State) (src cls : Nat) : Nat :=
  storeGet 0 s.bridge.executed (classKey src cls)
    + (s.bridge.ingress.filter fun m => hdCls m.header = cls && hdSrc m.header = src && hdDest m.header ≠ 0xFF).length

/-- The limit of a class last advertised to a source. -/
def advertisedLimit (s : State) (src cls : Nat) : Nat :=
  let v := (advertisedOf s src).getD 0
  if cls = lmRequest then bits v 7 0 else if cls = lmPosted then bits v 15 8 else bits v 23 16

/-- Whether a message arrives within the advertised limit (R197). -/
def withinCredit (s : State) (h : Nat) : Bool :=
  !creditClass (hdCls h) || hdDest h = 0xFF || isCandidate s ||
    (let d := (advertisedLimit s (hdSrc h) (hdCls h) + 256 - arrivedOf s (hdSrc h) (hdCls h) % 256) % 256
     decide (1 ≤ d ∧ d ≤ 127))

/-- The queue of a received message: its stream's, or the response queue (R225). -/
def inQueue (h : Nat) : Nat := if hdCls h = lmResponse then 0x20 else hdStream h

/-- Whether a received message is held in a Cabinet queue: broadcasts and CREDIT messages are not (R191, R225). -/
def queuedClass (h : Nat) : Bool := hdCls h ≠ lmCredit && hdDest h ≠ 0xFF

/-- The words of a received message as a packet. -/
def inWords (m : InMsg) : List Nat :=
  let two (b : Nat) : List Nat := [b % 2 ^ 32, b / 2 ^ 32 % 2 ^ 32]
  two m.header ++ (if hdHasAddr m.header then two m.addr else []) ++ (blockList (blockCount m.data) m.data).flatMap two

/-- The cells of a message in the Cabinet. -/
def inCells (m : InMsg) : Nat := (8 + 4 * (inWords m).length + 127) / 128

/-- Whether a message is a response that fits the cells its request reserved (R197). -/
def reservedFor (s : State) (m : InMsg) : Bool :=
  hdCls m.header = lmResponse && (match storeFind (hdTag m.header) s.bridge.reqs with
    | some r => decide (inCells m ≤ r.cells)
    | none => false)

/-- The cells a request reserved, less those its response has taken. -/
def useReserved (m : InMsg) (s : State) : State :=
  match storeFind (hdTag m.header) s.bridge.reqs with
  | some r => { s with bridge := { s.bridge with reqs := storePut (hdTag m.header) { r with cells := r.cells - inCells m } s.bridge.reqs } }
  | none => s

/-- One arrived message tries to enter its queue: the messages tried so far, the queues that are stuck, the state. -/
def drainMsg (acc : List InMsg × List Nat × State) (m : InMsg) : List InMsg × List Nat × State :=
  let (done, stuck, u) := acc
  let q := inQueue m.header
  if m.inCab || !queuedClass m.header || stuck.contains q then (done ++ [m], stuck, u)
  else
    let (r, u1) := cabProduce (portLand m.port) q (inWords m) 0 (reservedFor u m) u
    if r = cabOk then (done ++ [{ m with inCab := true }], stuck, whenS (reservedFor u m) (useReserved m) u1)
    else (done ++ [m], q :: stuck, u)

/-- Received messages leave the ingress buffer for the Cabinet, in order within their queue (R227). A response takes its reserved cells (R197). -/
def drainIngress (s : State) : State :=
  let (ms, _, t) := s.bridge.ingress.foldl drainMsg ([], [], s)
  { t with bridge := { t.bridge with ingress := ms } }

/-- A received message that has been executed or dropped leaves. -/
def removeIn (i : Nat) (s : State) : State :=
  match s.bridge.ingress[i]? with
  | none => s
  | some m =>
    let before := (s.bridge.ingress.take i).filter fun o => o.inCab && inQueue o.header = inQueue m.header
    { s with bridge := { s.bridge with ingress := s.bridge.ingress.eraseIdx i } }
    |> whenS m.inCab (dropPacket (inQueue m.header) before.length) |> drainIngress

/-- The first n elements that a condition selects are kept, the further ones go; the others stay. -/
def keepFirst {α : Type} (p : α → Bool) : Nat → List α → List α
  | _, [] => []
  | n, x :: xs =>
    if !p x then x :: keepFirst p n xs
    else match n with
      | 0 => keepFirst p 0 xs
      | k + 1 => x :: keepFirst p k xs

/-- The messages whose packets have left a system queue by a command are gone with them (R237): received ones, waiting ones, notices. -/
def forgetFlushed (q : Nat) (s : State) : State :=
  let n := (queueOf s q).pkts.length
  if q = 0x21 then syncNotices { s with bridge := { s.bridge with notices := s.bridge.notices.take n } }
  else
    { s with bridge := { s.bridge with
      ingress := keepFirst (fun m => m.inCab && inQueue m.header = q) n s.bridge.ingress
      out := keepFirst (fun m => m.inCab && outQueue m.stream = q) n s.bridge.out } }

/-- One message for this hub in share i after its region's LANDING END: `room` is the fill of the ingress buffer, other classes and responses, in bytes. -/
def takeMessage (p : Side) (c i : Nat) (msg : Nat × List Nat) (acc : (Nat × Nat) × State) : (Nat × Nat) × State :=
  let ((others, resp), s) := acc
  let (h, tail) := msg
  let a := msgAddr h tail
  let size := 8 * (1 + tail.length)
  let room := if hdCls h = lmResponse then decide (others + resp + size ≤ 65536) else decide (others + size ≤ 49152 ∧ others + resp + size ≤ 65536)
  if !msgAuth s c h tail then
    ((others, resp), s |> incCnt Page.bridge Reg.bridgeAuthFailCnt |> raiseEv Page.bridge Ev.bridgeAuthFail)
  else if !staircaseActs s && !candidateAccepts s h a then ((others, resp), s)
  else if !room then ((others, resp), s |> incCnt Page.cab Reg.cabIngressDropCnt |> raiseEv Page.cab Ev.cabIngressDrop)
  else if !withinCredit s h then
    ((others, resp), s |> incCnt Page.bridge Reg.bridgeCredViolCnt |> raiseEv Page.bridge Ev.bridgeCreditViolation)
  else
    let m : InMsg := { port := p, cycle := c, share := i, header := h, addr := a, data := msgData h tail, inCab := false }
    let fill := if hdCls h = lmResponse then (others, resp + size) else (others + size, resp)
    (fill, drainIngress { s with bridge := { s.bridge with ingress := s.bridge.ingress ++ [m] } })

/-- The blocks of a share as they were received; an error mark counts as a block of zeros, as it is relayed (R122). -/
def receivedShare (m : Memory) (f first k start : Nat) (region : Store Nat) : List Nat :=
  (List.range (shareLen m f (first + k))).map fun i => storeGet 0 region (start + 1 + regionBlocks m f first k + i)

/-- One share after its region's LANDING END (R192): the messages of a damaged one are dropped and counted; a header that ends the parse is counted. -/
def takeShare (p : Side) (c i : Nat) (damaged : Bool) (blocks : List Nat) (acc : (Nat × Nat) × State) : (Nat × Nat) × State :=
  let (ms, bad) := parseShare blocks.length blocks
  let mine := ms.filter fun e => forMe acc.2 e.1
  let acc1 := if damaged then
      (acc.1, whenS (!mine.isEmpty) (fun u => u |> addCnt Page.bridge Reg.bridgeDamagedDropCnt mine.length
        |> raiseEv Page.bridge Ev.bridgeDamagedDrop) acc.2)
    else mine.foldl (fun a e => takeMessage p c i e a) acc
  (acc1.1, whenS bad (fun u => u |> incCnt Page.bridge Reg.bridgeFormatCnt |> raiseEv Page.bridge Ev.bridgeFormatErr) acc1.2)

/-- Whether the messages of share i are dropped: the LANDING END marks it or an earlier share damaged, or this station relayed one so (R122, R192). -/
def shareDamaged (v : StationState) (payload i : Nat) : Bool :=
  (bit payload 24 && decide (bits payload 47 32 ≤ i)) || (match v.damaged with
    | some d => decide (d ≤ i)
    | none => false)

/-- The bridge acts on the messages for this hub of the region whose LANDING END has come (R192, R227), unless its LANDING START disagreed or its run was
of wrong length (R69, R118). -/
def takeRegion (st : Side) (payload others responses : Nat) (s : State) : State :=
  let v := stationOf s st
  match v.rx with
  | none => s
  | some g =>
    match readBank s g with
    | none => s
    | some m =>
      match elemAt m g.flight (dirWest st) (g.pos - 1), regionLast m g.flight (dirWest st) g.pos with
      | some (start, .landing first n), some _ =>
        if g.regionFailed || pageFenced s Page.bridge || pageFenced s Page.cab || pageFenced s (Page.stn st) then s
        else
          ((List.range n).foldl (fun acc k =>
            if shareOwner m g.flight (first + k) = nodeId s then acc
            else takeShare (rxPort st) g.cycle (first + k) (shareDamaged v payload (first + k))
              (receivedShare m g.flight first k start g.region) acc)
            ((others, responses), s)).2
      | _, _ => s

/-- A LANDING END arrives (R192, R227): the bridge acts on the region's messages, then the station relays the block. -/
def landingEnd (st : Side) (payload others responses : Nat) (s : State) : State :=
  landingEndStation st payload (takeRegion st payload others responses s)

/-- LANDING_END (R192): `others` and `responses` are the bytes that stand in the landing port's ingress buffer. -/
def execLandingEnd (st : Side) (payload : BitVec 64) (others responses : Fin 65537) (s : State) : Answer :=
  alive s (landingEnd st payload.toNat others responses s)

end Sys2Proof.Machine
end

