-- ==== Sys2Proof/Machine/Lane.lean ====
section
/-!
DEFINITION. The ring lane commands (R31–R65): bring-up, lock and loss, markers and deskew, blocks received, parking, test modes, and the
station commands that follow a port.
-/

namespace Sys2Proof.Machine

open Sys2Proof

/-- A link direction is taken down (R51): LINK_DOWN, and the port is closed and quarantined (R144). -/
def takeLinkDown (p : Side) (s : State) : State :=
  if linkUp s p then
    s |> setFlag (Page.lane p) Reg.lanePortStatusLinkUp false
      |> (fun u => setPort p { portOf u p with upSince := none } u)
      |> raiseEv (Page.lane p) Ev.laneLinkDown
      |> stationLinkDown p
  else s

/-- RATE_MISMATCH stands only while the port's rate differs from the Staircase's (R54). -/
def syncRate (p : Side) (s : State) : State :=
  let m := if staircaseActive s then s.stair.active else s.stair.pend
  let differs := b2n (bit (slicePortRate m (nodeId s)) (if isEast p then 0 else 1)) ≠ getR s (Page.lane p) Reg.lanePortCfgRate
  setLevel (Page.lane p) Ev.laneRateMismatch (levelOn s (Page.lane p) Ev.laneRateMismatch && differs) s

/-- Whether a lane is enabled: its port, and its transmitter or receiver, and no fence. -/
def laneEnabled (s : State) (p : Side) (n : Nat) : Bool :=
  !pageFenced s (Page.lane p) && laneFlag s p Reg.lanePortCfgEnable && (laneFlag s p (Reg.laneLLctrlTxEn n) || laneFlag s p (Reg.laneLLctrlRxEn n))

/-- A lane loses all its locks. -/
def clearLocks (p : Side) (n : Nat) (s : State) : State :=
  let pg := Page.lane p
  s |> setFlag pg (Reg.laneLLstatusCdrLock n) false |> setFlag pg (Reg.laneLLstatusBlockLock n) false
    |> setFlag pg (Reg.laneLLstatusMarkerLock n) false

/-- A new bring-up of a port begins (R53): what was kept of an earlier one is over. -/
def freshBringup (p : Side) (s : State) : State := setPort p { portOf s p with bringupFrom := none, lateDown := false } s

/-- A lane is enabled (R52, R54): it trains, at the rate that PORT_CFG now holds and from the equaliser's default setting; a link that was using it goes
down. Nothing happens to a lane that is not enabled. -/
def laneEnable (p : Side) (n : Nat) (s : State) : State :=
  if !laneEnabled s p n then s
  else
    let test := getR s (Page.lane p) (Reg.laneLLctrlMode n) ≠ 0
    s |> setLaneState p n (if test then laneTest else laneTraining) |> clearLocks p n |> setR (Page.lane p) (Reg.laneLRxeqCtle n) 0
      |> (fun u => setPort p { portOf u p with rate := getR u (Page.lane p) Reg.lanePortCfgRate } u)
      |> freshBringup p |> syncRate p |> syncLaneLevels p |> whenS (inWidth s p n) (takeLinkDown p)

/-- A lane is disabled: its PLL stops, and a link that needs it goes down (Lane states table). -/
def laneDisable (p : Side) (n : Nat) (s : State) : State :=
  let s1 := s |> setLaneState p n laneDisabled |> clearLocks p n |> setFlag (Page.lane p) (Reg.laneLLstatusPllLock n) false
    |> freshBringup p |> syncLaneLevels p
  whenS (inWidth s p n) (takeLinkDown p) s1

/-- LANE_ENABLE (R52). -/
def execLaneEnable (p : Side) (n : Fin 4) (s : State) : Answer := alive s (laneEnable p n s)

/-- A lane PLL locks (R56), unless XTB is lost (R362): the lane transmits; a lane leaving DEEP is ACTIVE again with its saved equaliser. -/
def pllLock (p : Side) (n : Nat) (s : State) : State :=
  let pg := Page.lane p
  let st := laneStateOf s p n
  if st = laneDisabled ∨ (st = laneDeep ∧ !(laneOf s p n).exitReq) ∨ levelOn s Page.clk Ev.clkXtbLost then s
  else
    s |> setFlag pg (Reg.laneLLstatusPllLock n) true
      |> whenS (st = laneDeep) (fun u => u |> setLaneState p n laneActive
           |> setR pg (Reg.laneLRxeqCtle n) (laneOf u p n).savedEq
           |> setLane p n { laneOf u p n with exitReq := false, exitLate := false })
      |> syncLaneLevels p

/-- PLL_LOCK (R56). -/
def execPllLock (p : Side) (n : Fin 4) (s : State) : Answer := alive s (pllLock p n s)

/-- A lane PLL is unlocked (R65): PLL_UNLOCK stands for a lane in TRAINING, ACTIVE, QUIET or TEST, and for one leaving DEEP too slowly. -/
def pllUnlock (p : Side) (n : Nat) (s : State) : State :=
  let pg := Page.lane p
  let st := laneStateOf s p n
  if st = laneDisabled ∨ (st = laneDeep ∧ !(laneOf s p n).exitReq) then s
  else s |> setFlag pg (Reg.laneLLstatusPllLock n) false
         |> setLane p n { laneOf s p n with exitLate := st = laneDeep } |> syncLaneLevels p

/-- PLL_UNLOCK (R65). -/
def execPllUnlock (p : Side) (n : Fin 4) (s : State) : Answer := alive s (pllUnlock p n s)

/-- LOS stands while a lane within the received width has no signal (R65). -/
def syncLos (p : Side) (s : State) : State :=
  setLevel (Page.lane p) Ev.laneLos ((List.range 4).any fun n => inWidth s p n && (laneOf s p n).noSignal) s

/-- A receiver sees electrical idle exit (R52, R53, R56). -/
def signalDetect (p : Side) (n : Nat) (s : State) : State :=
  let s1 := setLane p n { laneOf s p n with noSignal := false } s
  let v := portOf s1 p
  s1 |> setPort p { v with bringupFrom := if !linkUp s p && !v.lateDown && v.bringupFrom.isNone then some s.time.tb2 else v.bringupFrom }
     |> syncLos p
     |> whenS (!staircaseActs s) (requestExit (otherSide p) n)

/-- SIGNAL_DETECT (R52). -/
def execSignalDetect (p : Side) (n : Fin 4) (s : State) : Answer := alive s (signalDetect p n s)

/-- A lane loses its signal (R65): within the received width LOS stands and the link goes down; a lane outside it raises nothing (R51). -/
def loseSignal (p : Side) (n : Nat) (s : State) : State :=
  let s1 := setLane p n { laneOf s p n with noSignal := true } s
  if inWidth s p n then
    s1 |> setFlag (Page.lane p) (Reg.laneLLstatusCdrLock n) false |> freshBringup p |> syncLos p |> takeLinkDown p
  else s1

/-- LOS (R65). -/
def execLos (p : Side) (n : Fin 4) (s : State) : Answer := alive s (loseSignal p n s)

/-- CDR lock and adaptation complete (R52); FREEZE holds the coefficients. -/
def cdrLock (p : Side) (n ctle : Nat) (s : State) : State :=
  let pg := Page.lane p
  if laneStateOf s p n = laneDisabled then s
  else s |> setFlag pg (Reg.laneLLstatusCdrLock n) true
         |> whenS (laneFlag s p (Reg.laneLRxeqAdapt n) && !laneFlag s p (Reg.laneLRxeqFreeze n)) (setR pg (Reg.laneLRxeqCtle n) ctle)

/-- CDR_LOCK (R52). -/
def execCdrLock (p : Side) (n : Fin 4) (ctle : Fin 32) (s : State) : Answer := alive s (cdrLock p n ctle s)

/-- Block lock is obtained (R47); the BIP of the first marker after it is not checked (R37). -/
def blockLock (p : Side) (n : Nat) (s : State) : State :=
  if laneStateOf s p n = laneDisabled then s
  else s |> setFlag (Page.lane p) (Reg.laneLLstatusBlockLock n) true
         |> setLane p n { laneOf s p n with seen := false, lastSeq := none, since := 0, rxBip := 0 }

/-- BLOCK_LOCK (R47). -/
def execBlockLock (p : Side) (n : Fin 4) (s : State) : Answer := alive s (blockLock p n s)

/-- Block lock is lost, and marker lock with it (R47, R49, R51). -/
def blockLockLost (p : Side) (n : Nat) (s : State) : State :=
  let pg := Page.lane p
  let active := inWidth s p n
  s |> setFlag pg (Reg.laneLLstatusBlockLock n) false |> setFlag pg (Reg.laneLLstatusMarkerLock n) false
    |> whenS active (fun u => u |> incCnt pg (Reg.laneLLocklossBlock n) |> raiseEv pg Ev.laneBlockLockLost)
    |> whenS (active && laneFlag s p (Reg.laneLLstatusMarkerLock n))
        (fun u => u |> incCnt pg (Reg.laneLLocklossMarker n) |> raiseEv pg Ev.laneMarkerLockLost)
    |> whenS active (takeLinkDown p)

/-- BLOCK_LOCK_LOST (R47). -/
def execBlockLockLost (p : Side) (n : Fin 4) (s : State) : Answer := alive s (blockLockLost p n s)

/-- HI_BER stands on a lane (R48): the link is down meanwhile. -/
def hiBer (p : Side) (n : Nat) (s : State) : State :=
  let active := inWidth s p n
  s |> setFlag (Page.lane p) (Reg.laneLLstatusHiBer n) true |> syncLaneLevels p |> whenS active (takeLinkDown p)

/-- HI_BER (R48). -/
def execHiBer (p : Side) (n : Fin 4) (s : State) : Answer := alive s (hiBer p n s)

/-- HI_BER_CLEAR (R48). -/
def execHiBerClear (p : Side) (n : Fin 4) (s : State) : Answer :=
  alive s (syncLaneLevels p (setFlag (Page.lane p) (Reg.laneLLstatusHiBer n) false s))

/-- Marker lock is lost (R49, R51). -/
def markerLockLost (p : Side) (n : Nat) (s : State) : State :=
  let pg := Page.lane p
  let active := inWidth s p n
  s |> setFlag pg (Reg.laneLLstatusMarkerLock n) false |> setLane p n { laneOf s p n with lastSeq := none }
    |> whenS active (fun u => u |> incCnt pg (Reg.laneLLocklossMarker n) |> raiseEv pg Ev.laneMarkerLockLost |> takeLinkDown p)

/-- MARKER_LOCK_LOST (R49). -/
def execMarkerLockLost (p : Side) (n : Fin 4) (s : State) : Answer := alive s (markerLockLost p n s)

/-! ### Marker stripes (R36–R38, R42, R45, R46, R49–R51, R53, R55, R59) -/

def markerLane (w : Nat) : Nat := bits w 9 8
def markerWidth (w : Nat) : Nat := bits w 11 10
def markerPort (w : Nat) : Bool := bit w 12
def markerSeq (w : Nat) : Nat := bits w 31 16
def markerNode (w : Nat) : Nat := bits w 39 32
def markerBip (w : Nat) : Nat := bits w 63 48

/-- Whether a received marker is mismatched by LANE or PORT (R38): an EAST receiver expects PORT 1, a WEST receiver PORT 0. DESIGN CHOICE (log entry 186):
so is one with the reserved WIDTH 0b11. -/
def markerCrossed (p : Side) (n w : Nat) : Bool := markerLane w ≠ n || markerPort w ≠ isEast p || markerWidth w = 3

/-- Whether a WIDTH names a lane without block lock (R38, R59). -/
def widthUnlocked (s : State) (p : Side) (w : Nat) : Bool :=
  (List.range (widthLanes w)).any fun n => !laneFlag s p (Reg.laneLLstatusBlockLock n)

/-- Whether a marker on a lane follows the last one in sequence (R49). -/
def markerInSeq (l : LaneState) (w : Nat) : Bool :=
  match l.lastSeq with
  | some q => markerSeq w = (q + 1) % 2 ^ 16 && l.since ≤ 16448
  | none => false

/-- The parity of a lane starts again behind a marker (R36). -/
def restartBip (p : Side) (n : Nat) (s : State) : State := setLane p n { laneOf s p n with rxBip := 0, seen := true } s

/-- A marker of the lane's own takes its place in the lane's sequence, which gives marker lock (R49). -/
def trackMarker (p : Side) (n w : Nat) (s : State) : State :=
  let inSeq := markerInSeq (laneOf s p n) w
  s |> restartBip p n |> (fun u => setLane p n { laneOf u p n with lastSeq := some (markerSeq w), since := 0 } u)
    |> whenS inSeq (setFlag (Page.lane p) (Reg.laneLLstatusMarkerLock n) true)

/-- One valid marker on a lane: its BIP, marker lock, and the neighbour it names (R37, R38, R49). -/
def takeMarker (p : Side) (n w : Nat) (s : State) : State :=
  let pg := Page.lane p
  let l := laneOf s p n
  let diff := if l.seen then popCount (markerBip w ^^^ l.rxBip) 16 else 0
  let broken := l.lastSeq.isSome && !markerInSeq l w && laneFlag s p (Reg.laneLLstatusMarkerLock n)
  let changed := getR s pg Reg.lanePortStatusNeighbour ≠ markerNode w
  let s1 := s |> whenS (diff ≠ 0) (fun u => u |> addPair pg (Reg.laneLBipErrLo n) (Reg.laneLBipErrHi n) diff |> raiseEv pg Ev.laneBipErr)
    |> whenS broken (markerLockLost p n)
  s1 |> trackMarker p n w
    |> setR pg Reg.lanePortStatusNeighbour (markerNode w)
    |> setFlag pg Reg.lanePortStatusNeighbourPort (markerPort w)
    |> raiseIf changed pg Ev.laneNeighbourChange

/-- The received width changes at a marker stripe (R42, R55): lanes within it, parking above it, and the transmit width of the opposite
port of a transparent forwarder (R41), which parks in QUIET. -/
def takeWidth (p : Side) (w : Nat) (s : State) : State :=
  let old := if (portOf s p).rxWidth.isNone then 4 else rxLanes s p
  let deep := staircaseActs s && flightPark s.stair.active (nodeId s) (curFlight s) (p = .west)
  s |> setPort p { portOf s p with rxWidth := some w }
    |> forEach (List.range 4) (fun n u => setFlag (Page.lane p) (Reg.laneLLstatusInWidth n) (decide (n < widthLanes w)) u)
    |> parkLanes p (widthLanes w) old deep |> syncLos p
    |> whenS (!staircaseActive s) (setTxWidth (otherSide p) w false)

/-- The present fill of the elastic buffer, with its extremes (PORT_ELASTIC). -/
def setFill (p : Side) (fill : Nat) (s : State) : State :=
  let pg := Page.lane p
  s |> setR pg Reg.lanePortElasticFillMin (min fill (getR s pg Reg.lanePortElasticFillMin))
    |> setR pg Reg.lanePortElasticFillMax (max fill (getR s pg Reg.lanePortElasticFillMax)) |> setR pg Reg.lanePortElasticFill fill

/-- FILLER stripes that the elastic buffer inserts into a riser (R45). -/
def fillInserts (fill : Nat) : Nat := min (8 - fill) 8
/-- FILLER stripes that it deletes from a riser of `fillers` (R45). -/
def fillDeletes (fill fillers : Nat) : Nat := min (fill - 8) (fillers - 1)

/-- The elastic buffer at a riser (R45, R46): `fill` stripes held, `fillers` FILLER stripes in the riser; the fill returns towards 8. -/
def elastic (p : Side) (fill fillers : Nat) (s : State) : State :=
  let pg := Page.lane p
  let s1 := setFill p fill s
  if fill = 0 ∨ fill = 16 then s1 |> raiseEv pg Ev.laneElasticErr |> takeLinkDown p
  else
    s1 |> addCnt pg Reg.lanePortFillInsCount (fillInserts fill) |> addCnt pg Reg.lanePortFillDelCount (fillDeletes fill fillers)
       |> setR pg Reg.lanePortElasticFill (fill + fillInserts fill - fillDeletes fill fillers)

/-- LINK_UP (R51, R53): counted and timed; the link stays in quarantine. -/
def bringUp (p : Side) (s : State) : State :=
  let pg := Page.lane p
  let us := match (portOf s p).bringupFrom with
    | some t => min ((s.time.tb2 - t) / 1000) 65535
    | none => getR s pg Reg.lanePortBringupLastUs
  s |> setFlag pg Reg.lanePortStatusLinkUp true |> incCnt pg Reg.lanePortBringupLinkupCnt |> setR pg Reg.lanePortBringupLastUs us
    |> (fun u => setPort p { portOf u p with
          bringupFrom := none, lateDown := false, upSince := some u.time.tb2, upTb0 := u.time.tb0, reported := none } u)
    |> forEach (List.range (rxLanes s p)) (fun n u => if laneStateOf u p n = laneTraining then setLaneState p n laneActive u else u)
    |> setPortOpen p false
    |> raiseEv pg Ev.laneLinkUp

/-- The markers of a stripe that arrive on lanes with block lock. -/
def stripeMarkers (s : State) (p : Side) (ms : List MarkerRx) : List MarkerRx :=
  ms.filter fun k => k.payload.toNat % 256 = 0xC3 && laneFlag s p (Reg.laneLLstatusBlockLock k.lane)

/-- Whether a marker is mismatched by its LANE or PORT, or by a WIDTH that names a lane without block lock (R38). -/
def mismatched (s : State) (p : Side) (k : MarkerRx) : Bool :=
  markerCrossed p k.lane k.payload.toNat || widthUnlocked s p (markerWidth k.payload.toNat)

/-- A stripe with a mismatched marker (R38, R59) is not used for alignment. A link that was up goes down with MARKER_MISMATCH; where a width in it needs a
lane without block lock that lane is late, deskew fails, and the new width is taken. Each lane's parity starts again, and markers of the lane's own keep
their sequence. -/
def mismatchedStripe (p : Side) (ms : List MarkerRx) (s : State) : State :=
  let pg := Page.lane p
  let good := ms.filter fun k => !markerCrossed p k.lane k.payload.toNat
  let late := good.find? fun k => widthUnlocked s p (markerWidth k.payload.toNat)
  let s1 := s |> forEach ms (fun k u =>
    if markerCrossed p k.lane k.payload.toNat then restartBip p k.lane u
    else if late.isSome then trackMarker p k.lane k.payload.toNat u else takeMarker p k.lane k.payload.toNat u)
  if !linkUp s p then s1
  else
    let s2 := s1 |> raiseEv pg Ev.laneMarkerMismatch
    match late with
    | some k =>
      s2 |> raiseEv pg Ev.laneLaneLate |> raiseEv pg Ev.laneDeskewFail |> takeLinkDown p |> takeWidth p (markerWidth k.payload.toNat)
        |> (fun u => setPort p { portOf u p with lateDown := true } u)
    | none => takeLinkDown p s2

/-- A stripe of valid markers (R50, R51, R53): the width is taken, the lanes are deskewed, and the link comes up, or goes down where R51 no longer holds.
DESIGN CHOICE (log entry 187): a skew of 64 blocks, which SKEW cannot show, reads 63. -/
def validStripe (p : Side) (good : List MarkerRx) (k0 : MarkerRx) (fill fillers : Nat) (s : State) : State :=
  let pg := Page.lane p
  let w := markerWidth k0.payload.toNat
  let delays := (good.filter fun k => k.lane.val < widthLanes w).map fun k => k.delay.val
  let lo := delays.foldl min 255
  let hi := delays.foldl max 0
  let whole := (List.range (widthLanes w)).all fun n =>
    good.any fun k => k.lane.val = n && markerSeq k.payload.toNat = markerSeq k0.payload.toNat
  let s1 := s |> forEach good (fun k u => takeMarker p k.lane k.payload.toNat u) |> takeWidth p w
    |> whenS (linkUp s p) (stationMarker (rxStation p) (fillers + fillInserts fill - fillDeletes fill fillers))
  if !(whole && hi - lo ≤ 64) then s1 |> raiseEv pg Ev.laneDeskewFail |> takeLinkDown p
  else
    let s2 := s1 |> forEach good (fun k u => setR pg (Reg.laneLLstatusSkew k.lane) (min 63 (k.delay.val - lo)) u)
      |> setR pg Reg.lanePortStatusMaxSkew (hi - lo) |> elastic p fill fillers
    let ready := (List.range (widthLanes w)).all (laneReady s2 p)
    if linkUp s2 p then whenS (!ready) (takeLinkDown p) s2
    else if ready && fill ≠ 0 && fill ≠ 16 && !pageFenced s2 pg then bringUp p s2 else s2

/-- A stripe of markers arrives (R50). -/
def markerStripe (p : Side) (ms : List MarkerRx) (fill fillers : Nat) (s : State) : State :=
  let ms := stripeMarkers s p ms
  if ms.any (mismatched s p) then mismatchedStripe p ms s
  else
    match ms with
    | [] => s
    | k0 :: _ => validStripe p ms k0 fill fillers s

/-- MARKER_STRIPE_RECEIVED (R50). -/
def execMarkerStripeReceived (p : Side) (markers : List MarkerRx) (fill : Fin 17) (fillers : Fin 256) (s : State) : Answer :=
  alive s (markerStripe p markers fill fillers s)

/-! ### Blocks (R32, R34, R37, R46, R62) -/

/-- A 66-bit group on a lane in TEST (R61): PRBS checks it, FAR_LB sends it again bit for bit and may check it, NEAR_LB does not see it. -/
def testReceive (p : Side) (n group : Nat) (s : State) : State :=
  if laneModeOf s p n = modePrbs then prbsReceive p n group s
  else if laneModeOf s p n = modeFarLb then s |> sendGroup p n group |> prbsReceive p n group
  else s

/-- A 66-bit block on a lane (R32, R34, R37): descrambled, its parity taken, counted when bad, and passed to the station that receives from
the port, as an error mark when bad. `fill` is the elastic buffer's fill (R46). -/
def blockReceived (p : Side) (n sync payload fill : Nat) (s : State) : State :=
  let pg := Page.lane p
  if laneStateOf s p n = laneDisabled then s
  else if laneStateOf s p n = laneTest then testReceive p n (sync + 4 * payload) s
  else
    let l := laneOf s p n
    let (plain, st) := descramble l.descr payload
    let marker := sync = 2 && plain % 256 = 0xC3
    let bad := badBlock sync plain
    let s1 := setLane p n { l with descr := st, since := l.since + 1, rxBip := if marker then l.rxBip else l.rxBip ^^^ bipOf plain } s
    let s2 := whenS bad (fun u => u |> addPair pg (Reg.laneLBlkErrLo n) (Reg.laneLBlkErrHi n) 1 |> raiseEv pg Ev.laneBadBlock) s1
    let passes := linkUp s p && inWidth s p n
    let s3 := whenS passes (stationBlock (rxStation p) (if bad then none else some (sync, plain))) s2
    let s4 := whenS passes (setFill p fill) s3
    if passes && (fill = 0 || fill = 16) then s4 |> raiseEv pg Ev.laneElasticErr |> takeLinkDown p else s4

/-- BLOCK_RECEIVED (R34). -/
def execBlockReceived (p : Side) (n : Fin 4) (sync : BitVec 2) (payload : BitVec 64) (fill : Fin 17) (s : State) : Answer :=
  alive s (blockReceived p n sync.toNat payload.toNat fill s)

/-- PRBS_LOCK (R62). -/
def execPrbsLock (p : Side) (n : Fin 4) (s : State) : Answer :=
  alive s (setFlag (Page.lane p) (Reg.laneLLstatusPrbsLock n) true (setLane p n { laneOf s p n with prbsClean := true } s))

/-- PRBS_LOCK_LOST (R62): the checker resynchronises. -/
def execPrbsLockLost (p : Side) (n : Fin 4) (s : State) : Answer :=
  alive s (setFlag (Page.lane p) (Reg.laneLLstatusPrbsLock n) false s)

/-- PARK_ENTRY_DONE (R60). -/
def execParkEntryDone (p : Side) (n : Fin 4) (s : State) : Answer := alive s (finishPark p n s)

/-- The test mode of a lane changes (R61): any mode but MISSION puts it in TEST and takes a link that uses it down. -/
def laneModeWrite (p : Side) (n v : Nat) (s : State) : State :=
  let pg := Page.lane p
  let used := inWidth s p n || decide (n < txLanes s p)
  let s1 := s |> setR pg (Reg.laneLMode n) v |> setR pg (Reg.laneLLctrlMode n) v
  if v % 4 = 0 then
    if laneStateOf s p n = laneTest then
      s1 |> setLaneState p n (if laneEnabled s p n then laneTraining else laneDisabled) |> clearLocks p n |> syncLaneLevels p
    else s1
  else
    s1 |> setLaneState p n laneTest |> clearLocks p n |> setFlag pg (Reg.laneLLstatusPrbsLock n) false
       |> setLane p n { laneOf s p n with parkTo := none, exitReq := false } |> syncLaneLevels p
       |> whenS used (fun u => if linkUp u p then takeLinkDown p u else quarantinePort p u)

/-- INJECT_PERIODIC (R63): the group transmitted next, with the flip of the period. -/
def execInjectPeriodic (p : Side) (n : Fin 4) (group : BitVec 66) (s : State) : Answer := alive s (sendGroup p n group.toNat s)

/-! ### Station commands -/

/-- GALLERY_START (R136). -/
def execGalleryStart (st : Side) (payload : BitVec 64) (frac : Fin 16) (s : State) : Answer := alive s (galleryStart st payload.toNat frac s)

/-- GALLERY_END (R118). -/
def execGalleryEnd (st : Side) (payload : BitVec 64) (s : State) : Answer := alive s (galleryEnd st payload.toNat s)

/-- LANDING_START (R118). -/
def execLandingStart (st : Side) (payload : BitVec 64) (s : State) : Answer := alive s (landingStart st payload.toNat s)

/-- STAGING_WRITE (R99). -/
def execStagingWrite (st : Side) (tread : BitVec 16) (block : Fin 256) (payload : BitVec 64) (s : State) : Answer :=
  alive s (stagingWrite st tread.toNat block payload.toNat s)

/-- TREAD_TRAILER (R124). -/
def execTreadTrailer (st : Side) (tread : BitVec 16) (trailer : BitVec 64) (s : State) : Answer :=
  alive s (treadTrailer st tread.toNat trailer.toNat s)

/-- COMMIT (R133). -/
def execCommit (st : Side) (s : State) : Answer := alive s (commitHead st s)

/-- PAIR_DELIVERY (R128): the waiting delivery of an action takes place. -/
def execPairDelivery (index : Nat) (cycle : BitVec 48) (s : State) : Answer :=
  alive s (releasePairs (fun w => w.index = index && w.cycle = cycle.toNat) s)

/-- DEADLINE_CHECK (R98). -/
def execDeadlineCheck (flight : Fin 8) (index : Nat) (cycle : BitVec 48) (s : State) : Answer :=
  alive s (deadlineCheck flight index cycle.toNat s)

/-- ARRIVAL_WINDOW_CLOSE (R136). -/
def execArrivalWindowClose (st : Side) (s : State) : Answer := alive s (windowClose st s)

/-- SLOT_TIME (R136). -/
def execSlotTime (st : Side) (s : State) : Answer := alive s (slotTime st s)

end Sys2Proof.Machine
end

