-- ==== Sys2Proof/Machine/Fault.lean ====
section
/-!
DEFINITION. Faults, the fence sequence and its removal (R436–R444), the ERR pair, checkpoints of the journal (R447).
-/

namespace Sys2Proof.Machine

open Sys2Proof

/-- The page code of NEWEL (R437). -/
def pageNewel : Nat := 0xFF

def causeCommand : Nat := 7

/-- Whether a fault cause is a level (Fault causes table). -/
def causeLevel (c : Nat) : Bool := c = 1 || c = 2 || c = 4 || c = 6

/-- Whether a page whose faults count exists: a page of the directory, or NEWEL. -/
def faultPage (p : Nat) : Bool := p = pageNewel || kindOf p ≠ .none

/-- How many blocks are fenced. -/
def fencedCount (s : State) : Nat := (allPages.filter fun p => pageFenced s p).length + b2n s.event.newel.isSome

/-- Whether INFRA stands. -/
def infraStands (s : State) : Bool := flag s Page.evt Reg.evtStatusInfra

/-- Whether the ERR pair is static: a block fenced, INFRA standing, or the ERR test running (R443). -/
def errStatic (s : State) : Bool := decide (0 < fencedCount s) || infraStands s || s.event.errTest

/-- EVT.STATUS and the EVT page's levels follow the fences (R443, R444, R452). -/
def syncFences (s : State) : State :=
  let n := fencedCount s
  s |> setFlag Page.evt Reg.evtStatusFencedAny (decide (0 < n)) |> setR Page.evt Reg.evtStatusBlocks (min 255 n)
    |> setFlag Page.evt Reg.evtStatusNewelDown s.event.newel.isSome |> setFlag Page.evt Reg.evtStatusSeqBusy s.event.sequence.isSome
    |> setFlag Page.evt Reg.evtStatusErrStatic (errStatic s)
    |> setLevel Page.evt Ev.evtFenced (decide (0 < n)) |> setLevel Page.evt Ev.evtNewelDown s.event.newel.isSome
    |> setLevel Page.evt Ev.evtInfra (infraStands s)

/-- The ERR pair (R443): its two pins where they are static, none while the square wave runs. `held` says that the pair is held low: unpowered,
in reset, or before Plinth's self-test. -/
def errPair (s : State) (held : Bool) : Option (Bool × Bool) :=
  if held then some (false, false) else if errStatic s then some (false, true) else none

/-! ### Outstanding bridge transactions (R439) -/

/-- Who waits for an access, seen through its pieces. -/
def waiterOwner (s : State) (w : Waiter) : Waiter :=
  match w with
  | .part id _ => match storeFind id s.bridge.gathers with
    | some g => g.waiter
    | none => .nobody
  | _ => w

/-- Every request and partner transaction of the waiters selected ends with a status. -/
def endOutstanding (sel : Waiter → Bool) (st : Nat) (s : State) : State :=
  s |> forEach (s.bridge.reqs.filter fun e => sel (waiterOwner s e.2.waiter)) (fun e u => endRemote e.1 st [] u)
    |> (fun u =>
      let (gone, left) := u.bridge.partTx.partition fun t => sel (waiterOwner u t.waiter)
      forEach gone (fun t v => endPartner t st [] v) { u with bridge := { u.bridge with partTx := left } })
    |> (fun u => forEach (u.bridge.running.filter fun e => sel (waiterOwner u e.2.waiter)) (fun e v => finishPartner e.1 st [] v) u)

/-- The partner transactions of a unit end FENCED, those that still wait for it included (R438, R439). -/
def fenceUnitTx (unit : Nat) (s : State) : State :=
  let (gone, left) := s.bridge.partTx.partition fun t => partnerUnit s t.partner = unit
  { s with bridge := { s.bridge with partTx := left } } |> forEach gone (fun t u => endPartner t stFenced [] u) |> fencePartners unit

def isBar2 (w : Waiter) : Bool := match w with
  | .bar2 _ _ => true
  | _ => false
def isTicket (w : Waiter) : Bool := match w with
  | .ticket _ => true
  | _ => false

/-- Those who waited on the PCIe link are gone: nothing completes for them any more. -/
def forgetBar2 (s : State) : State :=
  let f (w : Waiter) : Waiter := if isBar2 w then .nobody else w
  let b := s.bridge
  { s with bridge := { b with
    reqs := b.reqs.map fun e => (e.1, { e.2 with waiter := f e.2.waiter })
    partTx := b.partTx.map fun t => { t with waiter := f t.waiter }
    running := b.running.map fun e => (e.1, { e.2 with waiter := f e.2.waiter })
    gathers := b.gathers.map fun e => (e.1, { e.2 with waiter := f e.2.waiter }) } }

/-- The PCIe link goes down: LINK reads 0, nothing is outstanding on it. -/
def pcieDown (s : State) : State :=
  s |> raiseIf (pcieUp s) Page.pcie Ev.pcieLinkDown
    |> clearAll Page.pcie [Reg.pcieLinkWidth, Reg.pcieLinkSpeed, Reg.pcieLinkUp, Reg.pcieLinkBme] |> forgetBar2 |> syncElig

/-! ### What a fenced block does (Fence effects table) -/

/-- An engine: RUN cleared, pads safe, FIFOs flushed, its transactions ended. -/
def fenceEngine (e : Nat) (s : State) : State :=
  s |> setEngFlag e Reg.engCtrlRun false |> whenS (engRunning s e) (haltEngine e) |> setTxf e [] |> setRxf e [] |> fenceUnitTx e |> syncTile (tileOf e)

/-- A tile: its engines with it, but for those that are fenced already, and the Cabinet's traffic of its port. -/
def fenceTile (t cause : Nat) (s : State) : State :=
  s |> forEach (((List.range 8).map fun k => 8 * t + k).filter fun e => !pageFenced s (Page.eng e)) (fun e u =>
         u |> setFlag (Page.eng e) Reg.comFenceFenced true |> setR (Page.eng e) Reg.comFenceCause cause |> fenceEngine e)
    |> flushConsumers (fun c => c = portTile t) |> abortProducer (portTile t) |> syncTile t

/-- A CAN channel leaves the bus: the attempt is given up, pending requests are kept, waiting frames are lost. -/
def fenceCan (n : Nat) (s : State) : State :=
  s |> setCan n { canOf s n with attempt := none } |> setFlag (Page.can n) Reg.canStatusTxBusy false |> setFlag (Page.can n) Reg.canStatusSync false
    |> dropWaiting n |> fenceUnitTx (128 + n)

/-- A lane page: every lane stops, the link goes down and the port is quarantined. -/
def fenceLanes (p : Side) (s : State) : State :=
  s |> takeLinkDown p |> quarantinePort p
    |> forEach (List.range 4) (fun n u => u |> setLaneState p n laneDisabled |> clearLocks p n |> setFlag (Page.lane p) (Reg.laneLLstatusPllLock n) false)
    |> syncLaneLevels p

/-- A station: it sends the idle stream and reads nothing; a copy in reception is cut off. -/
def fenceStation (st : Side) (s : State) : State :=
  let u := dropCopy st s
  setStation st { stationOf u st with rx := none, copy := none, sending := false, out := [.idleStream] } u

/-- The bridge: its queues are flushed and everything outstanding ends FENCED. -/
def fenceBridge (s : State) : State :=
  let s1 := s |> flushConsumers (fun c => c = portHub) |> endOutstanding (fun _ => true) stFenced
  syncTags (syncNotices { s1 with bridge := { s1.bridge with
    out := [], ingress := [], notices := [], partTx := [], mail := [], guards := [], gathers := [], shares := [] } })

/-- TRIG: PPS_OUT inactive, every compare unit disarmed. -/
def fenceTrig (s : State) : State := forEach (List.range 32) disarmCmp (endPulse s)

/-- The update in progress is discarded (R485). -/
def discardUpdate (s : State) : State :=
  s |> setR Page.upd Reg.updStatusState 0 |> setR Page.upd Reg.updStatusType 0 |> setR Page.upd Reg.updStatusDefer 0
    |> setR Page.upd Reg.updProgressReceived 0 |> setR Page.upd Reg.updProgressBodyBlocks 0
    |> (fun u => { u with boot := { u.boot with hdrNext := 0, wordBlock := 0, words := [], got := [] } })

/-- The effects of a fence on its block. -/
def fenceEffects (page cause : Nat) (s : State) : State :=
  match kindOf page with
  | .eng => fenceEngine (page - 0x30) s
  | .tile => fenceTile (page - 0x20) cause s
  | .can => fenceCan (page - 0xB0) s
  | .lane => fenceLanes (if page = 0x10 then .east else .west) s
  | .stn => fenceStation (if page = 0x12 then .east else .west) s
  | .bridge => fenceBridge s
  | .mirror => abortProducer portMirror { s with cab := { s.cab with mirrorWait := [] } }
  | .key => keyDone s
  | .brk => fenceBrk s
  | .pcie => s |> pcieDown |> flushConsumers (fun c => c = portPcie) |> abortProducer portPcie
  | .lh => s |> endOutstanding isTicket stFenced |> flushConsumers (fun c => c = portLocal) |> abortProducer portLocal
  | .i2c => setFlag Page.i2c Reg.i2cStatusBusy false { s with boot := { s.boot with i2c := none } }
  | .trig => fenceTrig s
  | .upd => discardUpdate s
  | _ => s

/-- A page's fence set, with all that it does to the block (R439). -/
def setFence (page cause : Nat) (s : State) : State :=
  s |> setFlag page Reg.comFenceFenced true |> setR page Reg.comFenceCause cause |> fenceEffects page cause |> syncElig

/-! ### Dump triggers (R449) -/

/-- A dump starts, or the trigger is skipped while one is held or runs. Nothing can be written while DRAM is fenced (R485). -/
def triggerDump (trigger : Nat) (s : State) : State :=
  if flag s Page.evt Reg.evtDumpStatusHeld || flag s Page.evt Reg.evtDumpStatusBusy then
    s |> incCnt Page.evt Reg.evtDumpStatusSkipCnt |> raiseEv Page.evt Ev.evtDumpSkipped
  else if pageFenced s Page.dram then s
  else
    { s with boot := { s.boot with dump := some (trigger, s.time.tb2, cycleNow s, journalHead s) } }
    |> setFlag Page.evt Reg.evtDumpStatusBusy true |> setFlag Page.evt Reg.evtDumpStatusValid false |> setR Page.evt Reg.evtDumpStatusTrigger trigger

/-! ### The fence sequence (R436–R439, R442) -/

/-- Whether a block is fenced. -/
def blockFenced (s : State) (page : Nat) : Bool := if page = pageNewel then s.event.newel.isSome else pageFenced s page

/-- The fault records (R437, R439): the first since VALID was cleared, and the last. -/
def faultRecords (page cause at_ : Nat) (s : State) : State :=
  s |> whenS (!flag s Page.evt Reg.evtFirstFaultValid) (fun u =>
         u |> setR Page.evt Reg.evtFirstFaultPage page |> setR Page.evt Reg.evtFirstFaultCause cause |> setFlag Page.evt Reg.evtFirstFaultValid true
           |> setR Page.evt Reg.evtFirstTime at_)
    |> setR Page.evt Reg.evtLastFault (page + 2 ^ 8 * cause + 2 ^ 16) |> setR Page.evt Reg.evtLastTime at_

/-- The fence sequence of a block starts (R439): its fence, its journal record, for NEWEL a dump. -/
def startFence (who : Option Master) (page cause : Nat) (s : State) : State :=
  let s1 := { s with event := { s.event with sequence := some (page, cause, s.time.tb2) } }
  let s2 := if page = pageNewel then { s1 with event := { s1.event with newel := some cause } } else setFence page cause s1
  s2 |> journal who 0x08 page (1 + 2 ^ 8 * cause) 0 |> syncFences |> whenS (page = pageNewel) (triggerDump 1)

/-- A fault is detected (R436–R438, R442). In a block that is fenced already it is only counted. -/
def detectFault (who : Option Master) (page cause : Nat) (s : State) : State :=
  if !faultPage page then s
  else
    let s1 := incCnt Page.evt Reg.evtFaultCnt s
    if blockFenced s1 page then s1
    else if s1.event.sequence.isSome then
      s1 |> incCnt Page.evt Reg.evtLostcntCount |> setFlag Page.evt Reg.evtLostcntLost true |> raiseEv Page.evt Ev.evtLostFault
         |> whenS (causeLevel cause && !s1.event.levelFaults.contains (page, cause)) (fun u =>
              { u with event := { u.event with levelFaults := u.event.levelFaults ++ [(page, cause)] } })
    else if page ≠ pageNewel && !fenceablePage page then
      s1 |> setFlag Page.evt Reg.evtStatusInfra true |> faultRecords page cause (tb2Lo s1) |> syncFences
    else startFence who page cause s1

/-- FAULT (R436): `page` 0xFF is NEWEL. -/
def execFault (page : Byte) (cause : Byte) (s : State) : Answer :=
  alive s (if 1 ≤ cause.toNat ∧ cause.toNat ≤ 8 then detectFault none page.toNat cause.toNat s else s)

/-- The first of the presented faults in ascending page order. -/
def firstFault : List (Nat × Nat) → Option (Nat × Nat)
  | [] => none
  | x :: xs => match firstFault xs with
    | some y => if y.1 < x.1 then some y else some x
    | none => some x

/-- The level faults still presented are detected again, the lowest page first, until one starts a sequence (R442). -/
def detectLeft : Nat → State → State
  | 0, s => s
  | fuel + 1, s =>
    if s.event.sequence.isSome then s
    else
      match firstFault s.event.levelFaults with
      | none => s
      | some f => detectLeft fuel
          (detectFault none f.1 f.2 { s with event := { s.event with levelFaults := s.event.levelFaults.filter fun g => g ≠ f } })

/-- The fence sequence ends (R439, R442): records, FENCE; the level faults still presented are detected again, each with a sequence of its own.
`gone` names the faults whose condition has gone. -/
def endFence (gone : List (Nat × Nat)) (s : State) : State :=
  match s.event.sequence with
  | none => s
  | some (page, cause, at_) =>
    let left := s.event.levelFaults.filter fun f => !gone.contains f
    { s with event := { s.event with sequence := none, levelFaults := left } }
    |> faultRecords page cause (at_ % 2 ^ 32) |> raiseEv Page.evt Ev.evtFence |> syncFences |> detectLeft left.length

/-- FENCE (R439). -/
def execFence (gone : List (Byte × Byte)) (s : State) : Answer := alive s (endFence (gone.map fun g => (g.1.toNat, g.2.toNat)) s)

/-! ### Removal of a fence (R441) -/

/-- The pages that are unfenced with a page: a tile's engines go with it. -/
def fenceGroup (page : Nat) : List Nat :=
  match kindOf page with
  | .tile => page :: (List.range 8).map fun k => Page.eng (8 * (page - 0x20) + k)
  | _ => [page]

/-- A fence is removed: FENCED and CAUSE 0, UNFENCED, its journal record with the code of what removed it (2 UNIT_RESET, 3 a reset). -/
def removeFence (who : Option Master) (code page : Nat) (s : State) : State :=
  if !pageFenced s page then s
  else
    s |> forEach (fenceGroup page) (fun p u => u |> setFlag p Reg.comFenceFenced false |> setR p Reg.comFenceCause 0)
      |> raiseEv Page.evt Ev.evtUnfenced |> journal who 0x08 page (code + 2 ^ 8 * getR s page Reg.comFenceCause) 0
      |> whenS (page = Page.dram) journalDrain
      |> syncFences |> syncElig

/-- Every fence is removed by a reset (R441, R444); NEWEL restarts. -/
def removeFences (s : State) : State :=
  s |> forEach (allPages.filter fun p => pageFenced s p) (fun p u => removeFence none 3 p u)
    |> (fun u => match u.event.newel with
        | some c => { u with event := { u.event with newel := none } } |> raiseEv Page.evt Ev.evtUnfenced |> journal none 0x08 pageNewel (3 + 2 ^ 8 * c) 0
        | none => u)
    |> syncFences

/-! ### FCMD and JCMD (R443, R447, R449) -/

/-- A guarded FCMD: 1 FENCE, 2 ERR_TEST, 3 DUMP_NOW; a FENCE of a page that is not fenceable, and other values, are ignored. -/
def faultCommand (m : Master) (page cmd : Nat) (s : State) : State :=
  match cmd with
  | 1 => if fenceablePage page then detectFault (some m) page causeCommand s else s
  | 2 => syncFences { s with event := { s.event with errTest := true } }
  | 3 => triggerDump (if m.cls.val = classNewel then 2 else 3) s
  | _ => s

/-- ERR_TEST_END (R443): the 10 ms are over. -/
def execErrTestEnd (s : State) : Answer := alive s (syncFences { s with event := { s.event with errTest := false } })

/-- A checkpoint that ends (R447): its entries stand in flash, the latest 8,192; or it failed and the next one includes them. -/
def endCheckpoint (ok : Bool) (s : State) : State :=
  if !flag s Page.jrnl Reg.jrnlStatusCkptBusy then s
  else
    let s1 := setFlag Page.jrnl Reg.jrnlStatusCkptBusy false s
    if !ok || pageFenced s Page.flash || pageFenced s Page.dram then s1 |> incCnt Page.jrnl Reg.jrnlCkptFailCnt |> raiseEv Page.jrnl Ev.jrnlCkptFail
    else
      let from_ := s.boot.ckptFrom
      let upto := s.boot.ckptTo
      let entries := (List.range (upto - from_)).map fun i => (from_ + i, memReadN s.dram (journalBase + 32 * ((from_ + i) % 65536)) 32)
      let all_ := s.boot.ckpt ++ entries
      { s1 with boot := { s1.boot with ckpt := all_.drop (all_.length - 8192), ckptFrom := upto } }
      |> setPair Page.jrnl Reg.jrnlCkptLoSeq Reg.jrnlCkptHi upto
      |> setR Page.jrnl Reg.jrnlStatusHalf (1 - getR s Page.jrnl Reg.jrnlStatusHalf)
      |> eraseFlash (0x190 + 2 * (1 - getR s Page.jrnl Reg.jrnlStatusHalf)) 2 |> raiseEv Page.jrnl Ev.jrnlCkptDone
      |> whenS (decide (upto + 4096 ≤ journalHead s)) startCheckpoint

/-- CKPT_DONE (R447): `ok` says that the write succeeded. -/
def execCkptDone (ok : Bool) (s : State) : Answer := alive s (endCheckpoint ok s)

end Sys2Proof.Machine
end

