-- ==== Sys2Proof/Machine/Saved.lean ====
section
/-!
DEFINITION. What the hub keeps in flash of its settings (R481–R484): the settings copies of the node record and the two halves of the
configuration store.
-/

namespace Sys2Proof.Machine

open Sys2Proof

/-! ### Fields by key (R11) -/

/-- The page of a register key. -/
def keyPage (k : Nat) : Nat := k / 2 ^ 17 % 4096

/-- The field that a register key names. -/
def keyField (k : Nat) : Option Fld :=
  (pageFields (keyPage k)).find? fun f => f.off = k / 2 ^ 5 % 4096 && f.lsb = k % 2 ^ 5

/-- The stored fields that a condition on page and field selects. -/
def selectRegs (sel : Nat → Fld → Bool) (m : Store Nat) : Store Nat :=
  m.filter fun e => match keyField e.1 with
    | some f => sel (keyPage e.1) f
    | none => false

/-- The stored fields without those that a condition selects. -/
def withoutRegs (sel : Nat → Fld → Bool) (m : Store Nat) : Store Nat :=
  m.filter fun e => match keyField e.1 with
    | some f => !sel (keyPage e.1) f
    | none => true

/-- Fields of one table put over another. -/
def overlayRegs (new old : Store Nat) : Store Nat := new.foldl (fun m e => storePut e.1 e.2 m) old

/-! ### Who runs (R444, R471) -/

/-- Whether Newel runs: an image may boot in the life-cycle state and has, outside safe mode, and NEWEL is not fenced. -/
def newelRuns (s : State) : Bool :=
  decide (1 ≤ s.key.lc ∧ s.key.lc ≤ 3) && !flag s Page.upd Reg.updStatusSafeMode && s.boot.booting.isNone && s.event.newel.isNone
    && s.boot.holding.isNone

/-! ### Settings copies (R481, R482) -/

/-- The pages whose class N registers the settings copy keeps: the drawers and the area states have records of their own (R481). -/
def settingsPages : List Nat :=
  [Page.hub, Page.gov, Page.brk, Page.upd, Page.lane .east, Page.lane .west, Page.duplex] ++ (List.range 16).map Page.tile

/-- The class N fields of a page that the settings copy keeps. -/
def settingsFields (p : Nat) : List Fld := (pageFields p).filter fun f => f.cls = .N && !(p = Page.upd && f.off = Reg.updSlotsStates.off)

/-- The words of the active curves in the indirect space of BRK (R335). -/
def curveWords : Nat := 144

/-- The register of a settings entry: PAGE and offset (R481). -/
def settingsKey (p off : Nat) : Nat := 4096 * p + off

/-- The present class N fields as entries of a settings copy. -/
def settingsEntries (s : State) : Store Nat :=
  settingsPages.foldl (fun m p => (settingsFields p).foldl (fun m f =>
    let k := settingsKey p f.off
    storePut k ((storeFind k m).getD 0 ||| getR s p f * 2 ^ f.lsb) m) m) []

/-- An area without a valid settings copy. -/
def settingsNone : SettingsCopy := { format := 0, seq := 0, good := false, regs := [], curves := [] }

/-- Settings copy i. -/
def settingsCopy (s : State) (i : Nat) : SettingsCopy := s.boot.settings.getD i settingsNone

/-- The valid settings copy with the highest SEQ among those a condition on FORMAT admits: its index. -/
def bestSettings (s : State) (ok : Nat → Bool) : Option Nat :=
  let fits (i : Nat) : Bool := (settingsCopy s i).good && ok (settingsCopy s i).format
  if fits 0 && (!fits 1 || decide ((settingsCopy s 1).seq ≤ (settingsCopy s 0).seq)) then some 0
  else if fits 1 then some 1
  else none

/-- The copy that the next save overwrites (R482): the older one, or while a trial whose format differs from the applied copy's runs,
the one that is not applied. -/
def settingsTarget (s : State) (format : Nat) : Nat :=
  if flag s Page.upd Reg.updStatusTrial && (settingsCopy s s.boot.applied).good && (settingsCopy s s.boot.applied).format ≠ format then
    1 - s.boot.applied
  else match bestSettings s (fun _ => true) with
    | some i => 1 - i
    | none => 0

/-- The present class N fields written as a settings copy (R481). -/
def writeSettings (i format : Nat) (s : State) : State :=
  let copy : SettingsCopy :=
    { format := format, seq := max (settingsCopy s 0).seq (settingsCopy s 1).seq + 1, good := true
      regs := settingsEntries s, curves := (List.range curveWords).map fun i => (i, storeGet 0 s.brk.curves i) }
  { s with boot := { s.boot with settings := if i = 0 then [copy, settingsCopy s 1] else [settingsCopy s 0, copy] } }

/-- NR_WRITE_FAIL, and a failed program where the flash itself failed (R485, R488). -/
def saveFails (ok : Bool) (s : State) : State :=
  s |> raiseIf (!ok) Page.flash Ev.flashProgFail |> raiseEv Page.upd Ev.updNrWriteFail

/-- SAVE_NODE_RECORD (R481): `ok` says that the flash takes the write. -/
def saveNodeRecord (who : Option Master) (ok : Bool) (s : State) : State :=
  if !ok || pageFenced s Page.flash then journalRefused who 0x07 0x0D 0 (saveFails ok s)
  else
    let format := getR s Page.upd Reg.updNrFmtNrWrite
    s |> writeSettings (settingsTarget s format) format |> journal who 0x07 0x0D 0 0

/-! ### The configuration store (R483, R484) -/

/-- A half that holds nothing readable. -/
def halfNone : CfgHalf :=
  { format := 0, seq := 0, good := false, regs := [], engines := [], descs := [], rows := [], dramRegions := [], groups := []
    filters := [], canBufs := [], queues := [], stair := [] }

/-- Half i of the store. -/
def cfgHalf (s : State) (i : Nat) : CfgHalf := s.boot.store.getD i halfNone

/-- The good half with the higher SEQ. -/
def bestHalf (s : State) : Option Nat :=
  if (cfgHalf s 0).good && (!(cfgHalf s 1).good || decide ((cfgHalf s 1).seq ≤ (cfgHalf s 0).seq)) then some 0
  else if (cfgHalf s 1).good then some 1
  else none

/-- Whether the store keeps a register field: writable ones of class K, and the access tables that are registers (log entry 42). -/
def savedField (page : Nat) (f : Fld) : Bool := f.cls = .K && (f.acc = .rw || (page = Page.acc && decide (0x50 ≤ f.off ∧ f.off ≤ 0x70)))

/-- What Newel saves of the present state in a format. -/
def configImage (s : State) (format seq : Nat) : CfgHalf :=
  { format := format, seq := seq, good := true, regs := selectRegs savedField s.regs
    engines := s.engines.map fun e => (e.1, e.2.prog)
    descs := s.bridge.descs, rows := s.access.rows, dramRegions := s.access.dramRegions, groups := s.access.groups
    filters := s.filters, canBufs := s.cans.map fun e => (e.1, (e.2.bufs, e.2.slots))
    queues := (s.cab.queues.filter fun e => !systemQueue e.1).map fun e => (e.1, (e.2.word0, e.2.word1, e.2.en))
    stair := if staircaseActive s then s.stair.active else [] }

/-- The 64 sectors of a half of the store are erased for a write (R466, R483). -/
def eraseHalf (i : Nat) (s : State) : State := eraseFlash (0x110 + 64 * i) 64 s

/-- A half of the store replaced. -/
def setHalf (i : Nat) (h : CfgHalf) (s : State) : State :=
  eraseHalf i { s with boot := { s.boot with store := if i = 0 then [h, cfgHalf s 1] else [cfgHalf s 0, h] } }

/-- Newel writes the store to the older half and raises CONFIG_SAVED (R483); nothing is written while Newel does not run (R444). -/
def saveConfig (who : Option Master) (ok : Bool) (s : State) : State :=
  if !newelRuns s then s
  else if !ok || pageFenced s Page.flash then saveFails ok s
  else
    let i := match bestHalf s with
      | some b => 1 - b
      | none => 0
    let seq := max (cfgHalf s 0).seq (cfgHalf s 1).seq + 1
    s |> setHalf i (configImage s (getR s Page.upd Reg.updCfgFmtCfgWrite) seq)
      |> raiseEv Page.upd Ev.updConfigSaved |> journal who 0x07 0x0C 0 0

/-- CLEAR_CONFIG (R484): both halves overwritten. -/
def clearConfig (ok : Bool) (s : State) : State :=
  if !ok || pageFenced s Page.flash then saveFails ok s
  else { s with boot := { s.boot with store := [] } } |> eraseHalf 0 |> eraseHalf 1

/-- The store written in the running Newel's format to both halves (R484). -/
def migrateConfig (h : CfgHalf) (format : Nat) (s : State) : State :=
  let seq := max (cfgHalf s 0).seq (cfgHalf s 1).seq
  s |> setHalf 0 { h with format := format, seq := seq + 1 } |> setHalf 1 { h with format := format, seq := seq + 2 }
    |> journal none 0x07 0x0A 0 0

/-- The store contents that a reset restores (R484): tables first, then the pages' fields, each engine's RUN and each CAN unit's MODE only
with RESTORE_RUN. -/
def restoreConfig (h : CfgHalf) (s : State) : State :=
  let run := flag s Page.upd Reg.updConfirmRestoreRun
  let live (page : Nat) (f : Fld) : Bool :=
    (kindOf page = .eng && (f = Reg.engCtrlRun || f.off = Reg.engPinmap.off)) || (kindOf page = .can && f = Reg.canCfgMode)
  let value (page : Nat) (f : Fld) : Nat := (storeFind (regKey 0 page f) h.regs).getD f.rst
  let tables := { s with
    regs := overlayRegs (withoutRegs live h.regs) s.regs
    engines := h.engines.foldl (fun m e => storePut e.1 { engOf s e.1 with prog := e.2 } m) s.engines
    bridge := { s.bridge with descs := h.descs }
    access := { s.access with rows := h.rows, dramRegions := h.dramRegions, groups := h.groups }
    filters := h.filters
    cans := h.canBufs.foldl (fun m e => storePut e.1 { canOf s e.1 with bufs := e.2.1, slots := e.2.2 } m) s.cans }
  tables
  |> forEach h.queues (fun e u => setQueue e.1 { queueOf u e.1 with word0 := e.2.1, word1 := e.2.2.1 } u |> whenS e.2.2.2 (queueEnable e.1))
  |> forEach (List.range 128) (fun e u =>
       u |> pinmapWrite e (value (Page.eng e) Reg.engPinmap) |> setEngFlag e Reg.engCtrlRun (run && value (Page.eng e) Reg.engCtrlRun = 1))
  |> forEach (List.range 16) (fun n u => whenS (run && value (Page.can n) Reg.canCfgMode ≠ 0) (canModeWrite n (value (Page.can n) Reg.canCfgMode)) u)
  |> syncGates |> syncElig

/-! ### The records as bytes of the flash (R466, R481, R483) -/

/-- The numbers that a store holds. -/
def storeWords (m : Store Nat) : List Nat := m.flatMap fun e => [e.1, e.2]

/-- A byte of a settings copy (R481): the header as its table has it; TAG, COUNT and the order of the entries are open (log entry 63). -/
def settingsByte (c : SettingsCopy) (o : Nat) : Byte :=
  if o < 4 then ([0x4E, 0x44, 0x52, 0x31] : List Byte).getD o 0
  else if o < 6 then (leBytes 2 c.format).getD (o - 4) 0
  else if o < 8 ∨ (0x18 ≤ o ∧ o < 0x20) then 0
  else if o < 12 then (leBytes 4 c.seq).getD (o - 8) 0
  else Config.flashRecord (c.format :: c.seq :: storeWords c.regs ++ storeWords c.curves) o

/-- What a half of the configuration store holds, as numbers. -/
def halfWords (h : CfgHalf) : List Nat :=
  [h.format, h.seq] ++ storeWords h.regs ++ (h.engines.flatMap fun e => e.1 :: storeWords e.2) ++ storeWords h.descs ++ storeWords h.rows
    ++ storeWords h.dramRegions ++ storeWords h.groups ++ storeWords h.filters
    ++ (h.canBufs.flatMap fun e => e.1 :: storeWords e.2.1 ++ storeWords e.2.2)
    ++ (h.queues.flatMap fun e => [e.1, e.2.1, e.2.2.1, b2n e.2.2.2]) ++ (h.stair.flatMap fun e => [e.1, e.2.toNat])

/-- A byte of a half of the configuration store (R483): its header; LENGTH, TAG and the sections are open (log entry 63). -/
def halfByte (h : CfgHalf) (o : Nat) : Byte :=
  if o < 4 then ([0x43, 0x46, 0x53, 0x31] : List Byte).getD o 0
  else if o < 6 then (leBytes 2 h.format).getD (o - 4) 0
  else if o < 8 ∨ (0x18 ≤ o ∧ o < 0x20) then 0
  else if o < 12 then (leBytes 4 h.seq).getD (o - 8) 0
  else Config.flashRecord (halfWords h) o

/-- What the boot record, the drawer store, the trip log and the journal checkpoint area hold, as numbers. -/
def recordWords (s : State) (a : Nat) : List Nat :=
  if a < 0x1002000 then s.boot.areas ++ s.boot.booted
  else if a < 0x1006000 then
    s.key.stored.flatMap fun e => e.1 :: e.2.attr :: e.2.st :: (e.2.material ++ e.2.tag).map (·.toNat)
  else if a < 0x1040000 then
    s.brk.records.flatMap fun e => [e.1, e.2.cause, e.2.attempts, e.2.lastD, b2n e.2.lock, e.2.tb2, e.2.tb1Sec, e.2.tb1Ns, b2n e.2.uncleared]
  else s.boot.ckpt.flatMap fun e => e.1 :: e.2.map (·.toNat)

/-- A byte of the flash as its window shows it (R466): the areas of records from what they hold, the rest from the flash. -/
def flashByte (s : State) (a : Nat) : Byte :=
  if 0x1010000 ≤ a ∧ a < 0x1040000 then
    let c := settingsCopy s ((a - 0x1010000) / 0x18000)
    if c.good then settingsByte c ((a - 0x1010000) % 0x18000) else memRead s.flash a
  else if (0x1000000 ≤ a ∧ a < 0x1010000) ∨ (0x1900000 ≤ a ∧ a < 0x1940000) then Config.flashRecord (recordWords s a) (a % 0x10000)
  else if 0x1100000 ≤ a ∧ a < 0x1900000 then
    let h := cfgHalf s ((a - 0x1100000) / 0x400000)
    if h.good then halfByte h ((a - 0x1100000) % 0x400000) else memRead s.flash a
  else memRead s.flash a

/-- A read of n bytes of the flash window. -/
def flashRead (s : State) (off n : Nat) : List Byte := (List.range n).map fun i => flashByte s (off + i)

end Sys2Proof.Machine
end

