-- ==== Sys2Proof/Machine/Boundary.lean ====
section
/-!
DEFINITION. The cycle boundary (R66, R83–R85, R110–R113, R143, R170, R171): activation, deactivation, retirement, transparent forwarding
and flight changes, with everything else that happens at a boundary in its order; the base tick (R303); loss and return of XTB (R362).
-/

namespace Sys2Proof.Machine

open Sys2Proof

/-! ### Forwarding begins and ends (R143, R171) -/

/-- Both stations become transparent forwarders. -/
def enterForwarder (s : State) : State := s |> duplexDeactivate |> setRoles roleForwarder

/-- Without an active Staircase a port sends at the width last received on the opposite port, at four lanes before any marker (R41). -/
def forwarderWidths (s : State) : State :=
  forEach [Side.east, Side.west] (fun p u => setTxWidth p ((portOf u (otherSide p)).rxWidth.getD 2) false u) s

/-- The stations of this hub start on its Staircase at cycle c, in the role of R148. A hub that had none before has sent nothing from c on; one that acted
on another sends its pending galleries still (R111). -/
def startStation (c : Nat) (left : Bool) (st : Side) (s : State) : State :=
  let v := stationOf s st
  setR (Page.stn st) Reg.stnStatusResumeCnt 0
    (setStation st { v with pendingCycle := if left then c else min c v.pendingCycle, through := [], lastWritten := [], goodCycle := 0 } s)

/-- A hub that leaves FORWARDER at the boundary of cycle c takes each of its ports that is up as open (R171), with a delay exchange (R311). -/
def takeOpen (c : Nat) (s : State) : State :=
  forEach [Side.east, Side.west] (fun p u => if linkUp u p && !portOpen u p then
    u |> setPortOpen p true |> setFlag (Page.stn (rxStation p)) Reg.stnStatusArmed false |> beginExchange c (b2n (isEast p)) else u) s

/-- The hub acts on its Staircase from cycle c on: `left` says whether it was a forwarder. -/
def startActing (c : Nat) (alone left : Bool) (s : State) : State :=
  s |> whenS left (takeOpen c) |> startStation c left .east |> startStation c left .west |> setRoles roleForward |> duplexActivate c alone

/-! ### Flights (R57, R83, R84, R383) -/

/-- The lanes that the current flight needs leave their park state on both ports (R57); the width follows with the lead riser of the first gallery (R58). -/
def wakeFlight (s : State) : State :=
  forEach [Side.east, Side.west] (fun p u => wakeLanes p (flightWidth u.stair.active (curFlight u)) u) s

/-- A flight takes effect at the boundary of cycle c (R83, R383, R347). -/
def takeFlight (c f : Nat) (s : State) : State :=
  let old := curFlight s
  { s with
    stair := { s.stair with announced := none, taken := s.stair.announced.map fun a => (a.1, a.2.1), prevFlight := (c, old) }, gov := { s.gov with flightAt := c } }
  |> syncAnnounced |> setFlight f |> applyCeiling |> flightBranches

/-- The recorded flight takes effect when its cycle has come (R84). -/
def flightBoundary (c : Nat) (s : State) : State :=
  match s.stair.announced with
  | some (f, at_, _) => if staircaseActive s && decide (at_ ≤ c) then takeFlight c f s else s
  | none => s

/-! ### Activation (R110) -/

/-- FIFO bindings of the engines (R91). -/
def syncBindings (s : State) : State :=
  let b (e : Nat) (rx : Bool) : Bool := staircaseActive s && engBound s.stair.active (nodeId s) e rx
  forEach (List.range 128) (fun e u => u |> setEngFlag e Reg.engFifoStatusTxfBound (b e false) |> setEngFlag e Reg.engFifoStatusRxfBound (b e true)) s

/-- The landing reservation of an activation (R229): F is what is free without the reservation that stood before. An allocation of 0 acts as 1. -/
def reserveLanding (s : State) : State :=
  let g (f : Fld) := max 1 (getR s Page.bridge f)
  let s0 := { s with cab := { s.cab with landRsv := 0 } }
  let n := imgRingSize s.stair.active - 1
  let want := (g Reg.bridgeCreditAllocRequest, g Reg.bridgeCreditAllocPosted, g Reg.bridgeCreditAllocNotice)
  let (a, k) := halveAllocations n (sharedFree s0) 8 want 0
  { s0 with cab := { s0.cab with landRsv := 3 * n * (a.1 + a.2.1 + a.2.2), halvings := k }, bridge := { s0.bridge with alloc := a } }
  |> setLevel Page.cab Ev.cabReserveShort (k ≠ 0) |> syncCab

/-- Ports whose rate is not the one a Staircase was compiled for (R54). -/
def rateBad (s : State) (m : Memory) : List Side :=
  [Side.east, Side.west].filter fun p =>
    b2n (bit (slicePortRate m (nodeId s)) (if isEast p then 0 else 1)) ≠ getR s (Page.lane p) Reg.lanePortCfgRate

/-- The registers that describe the active and the pending Staircase. -/
def showBanks (actUsage pendUsage : Nat) (s : State) : State :=
  s |> setR Page.stair Reg.stairActHash (if staircaseActive s then imgHash s.stair.active else 0)
    |> setR Page.stair Reg.stairActUsage actUsage |> setR Page.stair Reg.stairPendUsage pendUsage |> syncPendHash

/-- A holder that loses its Staircase sends one more view at that boundary, with HOLDING 0, YIELD and EXPIRY the present cycle (R162). -/
def farewell (role : Nat) (s : State) : State := whenS (role = pairHolder && !pageFenced s Page.duplex) (sendPairFrame (cycleNow s)) s

/-- No Staircase is active any more: what the registers show of it reads 0, and the hub is no ring master hub (R159). -/
def clearActive (s : State) : State :=
  let pg := Page.stair
  { s with stair := { s.stair with
    active := [], announced := none, taken := none, annGal := 0, prevFlight := (0, 0), hashDiffers := false } }
  |> setActState 0 |> syncAnnounced |> setLevel pg Ev.stairHashMismatch false
  |> clearAll pg [Reg.stairStatusCurFlight, Reg.stairBlocks, Reg.stairSpanE, Reg.stairSpanW] |> applyCeiling |> ceaseMaster

/-- The activation at ACT_CYCLE `a` fails with a code (R110): the hub holds no active Staircase. -/
def activateFails (a code : Nat) (s : State) : State :=
  s |> enterForwarder |> farewell (pairRole s) |> clearActive |> forwarderWidths |> showBanks 0 (getR s Page.stair Reg.stairPendUsage) |> stairErr code 0 |> syncBindings
    |> raiseEv Page.stair Ev.stairActFail |> journal none 0x02 0x81 a code

/-- The image as it stands at an activation: no READ action has an accepted tag; those of the previous bank are kept apart (R110, R111). -/
def freshImage (s : State) : State :=
  let old (m : Store Nat) : Store Nat := (m.filter fun e => e.1 < 65536).map fun e => (e.1 + 65536, e.2)
  { s with image := { s.image with
      tags := old s.image.tags, crcs := old s.image.crcs, doneTags := old s.image.doneTags, compared := [], fresh := [] } }

/-- The pending bank becomes the active one, the one before it the pending one (R110, R111). -/
def swapBanks (a : Nat) (s : State) : State :=
  { s with
    stair := { s.stair with
      active := s.stair.pend, pend := if staircaseActive s then s.stair.active else []
      announced := none, taken := none, annGal := 0, prevFlight := (0, 0), actCycle := a, hadBank := staircaseActive s
      hashDiffers := false, hostBufRaised := false }
    gov := { s.gov with flightAt := a } }

/-- What follows the change of banks at an activation: the registers, flight, bindings, queues, credit and governor of the new bank (R110). -/
def beginBank (a f usage oldUsage : Nat) (was : Bool) (s : State) : State :=
  s |> setActState 1 |> setPend (if was then pendRetiring else pendEmpty) |> showBanks usage (if was then oldUsage else 0)
    |> setLevel Page.stair Ev.stairHashMismatch false |> syncAnnounced |> setFlight f |> freshImage |> syncBindings
    |> forEach (List.range 16) clearSlots |> setSystemQueues |> reserveLanding |> creditEpoch a
    |> wakeFlight |> applyCeiling |> flightBranches
    |> raiseEv Page.stair Ev.stairActivated |> journal none 0x02 0x80 a 0

/-- The activation of the pending bank, which is in order (R110). -/
def activateBank (a f : Nat) (alone : Bool) (s : State) : State :=
  let was := staircaseActive s
  let acted := staircaseActs s
  s |> renumber (cycleNow s) a |> swapBanks a |> beginBank a f (getR s Page.stair Reg.stairPendUsage) (getR s Page.stair Reg.stairActUsage) was
    |> (fun u => if staircaseActs u then startActing a alone (!acted) u else enterForwarder u)
    |> saveConfig none true

/-- The activation at the boundary of ACT_CYCLE `a` with flight `f` (R110). -/
def activate (a f : Nat) (s : State) : State :=
  let alone := s.stair.alone
  let s := syncActPending { s with stair := { s.stair with sched := none, alone := false } }
  let bad := rateBad s s.stair.pend
  if pendState s ≠ pendReady then activateFails a errState s
  else if !bad.isEmpty then
    s |> forEach bad (fun p u => setLevel (Page.lane p) Ev.laneRateMismatch true u) |> activateFails a errRate
  else activateBank a f alone s

/-- The bank that was active until cycle c takes the place of the pending one (R111, R112). -/
def retireBank (c : Nat) (old : Memory) (s : State) : State :=
  { s with stair := { s.stair with pend := old, actCycle := c, hadBank := true, deact := false, highOff := none } }

/-- DEACTIVATE takes effect at the boundary of cycle c (R112): the active bank retires into the pending bank. -/
def deactivate (c : Nat) (s : State) : State :=
  s |> enterForwarder |> farewell (pairRole s) |> clearActive |> forwarderWidths |> retireBank c s.stair.active |> syncActPending |> setPend pendRetiring
    |> showBanks 0 (getR s Page.stair Reg.stairActUsage) |> syncBindings

/-- Whether RETIRING ends at the boundary of cycle c (R111). -/
def retireDone (c : Nat) (s : State) : Bool :=
  let a := s.stair.actCycle
  let past (v : StationState) : Bool :=
    decide (a ≤ v.pendingCycle) && !(v.sending && decide (v.sendCycle < a)) &&
      (match v.rx with
       | some g => g.ended || decide (a ≤ g.cycle)
       | none => true)
  pendState s = pendRetiring && (decide (a + 8 ≤ c) || (past s.stnE && past s.stnW))

/-- Transparent forwarding for a hash or a protocol version begins or ends (R113, R143). -/
def forwardBoundary (c : Nat) (s : State) : State :=
  let want := s.stair.hashDiffers || s.stair.protoBad
  let st := getR s Page.stair Reg.stairStatusActState
  if st = 1 && want then s |> enterForwarder |> setActState 2
  else if st = 2 && !want then
    let s1 := setActState 1 s
    if staircaseActs s1 then startActing c false true s1 else s1
  else s

/-- A candidate that may activate by itself (R170): a ring master hub of its pending Staircase that has seen no master presence for 16 cycles. -/
def loneCandidate (s : State) : Bool :=
  isCandidate s && isMasterHub s.stair.pend (nodeId s) && decide (16 ≤ s.duplex.absent)

/-- Its activation is set for the boundary 2 cycles ahead, in a flight that the rule leaves open. -/
def selfActivate (c : Nat) (s : State) : State :=
  if loneCandidate s && s.stair.sched.isNone && (tb0State s = tbTracking || tb0State s = tbLocked) then
    let (v, t) := freeValue s
    syncActPending { t with stair := { t.stair with
      sched := some (c + 2, v % max 1 (imgFlights t.stair.pend), (c + 2) * imgPeriod t.stair.pend), alone := true } }
  else s

/-- What a boundary does to the Staircase: `t` is TB0 at it. The rules of the new period hold from then on. -/
def stairBoundary (t : Nat) (s : State) : State :=
  let s1 := if s.stair.deact then deactivate (t / period s) s else s
  let s2 := match s1.stair.sched with
    | some (a, f, at_) => if at_ ≤ t then activate a f s1 else s1
    | none => s1
  let c := t / period s2
  let s3 := if retireDone c s2 then setPend pendReady s2 else s2
  s3 |> flightBoundary c |> forwardBoundary c

/-! ### Everything at a boundary -/

/-- Openings and quarantines at the boundary of cycle c, each opening with its journal entry (R144, R145, R446). -/
def openBoundary (c : Nat) (st : Side) (s : State) : State :=
  let (s1, opened) := openingBoundary c st s
  whenS opened (fun u => journalJoin (getR u (Page.lane (rxPort st)) Reg.lanePortStatusNeighbour) 0 true c u) s1

/-- The master's flight decision (R379): not while the ring is headless (R168), nor before a joining node has activated (R177). -/
def decideBoundary (c : Nat) (s : State) : State :=
  if staircaseActs s && actsMaster s && flag s Page.gov Reg.govCfgFlightEn && !headless s && decide (s.duplex.joinHold < c)
  then flightDecision c (loopCycles s) (fun n => isMember s n || n = nodeId s) s
  else s

/-- Records of commits, VOID copies and flights of the last 16 cycles are kept. -/
def pruneImage (c : Nat) (s : State) : State :=
  let keep (xs : List (Nat × Nat)) := xs.filter fun e => decide (c < e.2 + 16)
  { s with image := { s.image with
      commits := keep s.image.commits, voids := keep s.image.voids, carried := s.image.carried.filter fun e => decide (c < e.1 + 16) } }

/-- The boundary of cycle c. -/
def boundaryEffects (c : Nat) (s : State) : State :=
  s |> ringSwitch c |> headlessBoundary |> selfActivate c |> leaseBoundary c |> pairLinkBoundary c |> memberBoundary c
    |> openBoundary c .east |> openBoundary c .west
    |> (fun u => timeBoundary c u.duplex.absent (loneCandidate u) u)
    |> decideBoundary c |> showSince c
    |> forEach (List.range 128) engineBoundary
    |> stationBoundary c .east |> stationBoundary c .west
    |> dmaBoundary c |> creditMessages c |> canMailAll |> retryOut |> pruneImage c

/-- The boundary at which TB0 stands: the Staircase first, then the rest under the Staircase that is in force from it on. -/
def cycleBoundary (s : State) : State :=
  let s1 := stairBoundary s.time.tb0 s
  boundaryEffects (cycleNow s1) s1

/-! ### Time passes (R303) -/

/-- n base ticks pass for the four bases and the breakers' off timers. -/
def passTicks (n : Nat) (s : State) : State :=
  let s1 := countTicks n s
  forEach (List.range (s1.time.tb2 / 1000000 - s.time.tb2 / 1000000)) (fun _ u => brkMillisecond u) s1

/-- The base ticks up to the first one at which TB0 has reached the next boundary. -/
def ticksToBoundary (s : State) : Nat :=
  let p := period s
  let want := (s.time.tb0 / p + 1) * p * 2 ^ 32
  ceilDiv (want - (s.time.tb0 * 2 ^ 32 + s.time.tb0Frac)) (max 1 (tickStep (tb0Rate s)))

/-- What leaves the ports in the time since TB2 was `before`: what the stations send by then, and the idle streams (R43, R68). -/
def lineTime (before : Nat) (s : State) : State :=
  s |> pump .east |> pump .west |> portTime before .east |> portTime before .west

/-- CYCLE_BOUNDARY (R67): time passes up to the next boundary. -/
def execCycleBoundary (s : State) : Answer :=
  alive s (latchAllLinks (cycleBoundary (lineTime s.time.tb2 (passTicks (ticksToBoundary s) s))))

/-- One base tick while a larger reset is asserted: only the off timers count (R349). -/
def holdTick (s : State) : State :=
  let n := s.boot.holdTicks + 1
  if n < 200000 then { s with boot := { s.boot with holdTicks := n } }
  else
    forEach channels (fun ch u => setR Page.brk (Reg.brkChTimerRemain ch) (getR u Page.brk (Reg.brkChTimerRemain ch) - 1) u)
      { s with boot := { s.boot with holdTicks := 0 } }

/-- One base tick (R303): the bases count, a boundary that TB0 has reached takes place, then engines, due compare units and the PPS_OUT pulse. -/
def baseTick (s : State) : State :=
  if s.boot.holding.isSome then holdTick s
  else
    let before := s.time.tb0 / period s
    let s1 := lineTime s.time.tb2 (passTicks 1 s)
    let meets := decide (s1.time.tb0 / period s1 ≠ before)
    let s2 := whenS meets cycleBoundary s1
    s2 |> forEach (List.range 128) (fun e u => if meets && boundaryTook s1 s2 e then u else engineBaseTick e u)
      |> latchAllLinks
      |> forEach (List.range 32) fireDue
      |> (fun u => match u.time.pulse with
          | some t => if t ≤ u.time.tb2 then endPulse u else u
          | none => u)

/-! ### XTB (R362) -/

/-- XTB_LOST (R362): the lane PLLs stop, each lane reports PLL_UNLOCK and the links go down. -/
def execXtbLost (s : State) : Answer :=
  let stop (p : Side) (u : State) : State :=
    u |> forEach (List.range 4) (fun n v => v |> pllUnlock p n |> setFlag (Page.lane p) (Reg.laneLLstatusPllLock n) false) |> takeLinkDown p
  alive s (s |> setFlag Page.clk Reg.clkStatusXtbOk false |> setLevel Page.clk Ev.clkXtbLost true |> stop .east |> stop .west)

/-- XTB_RETURN (R362): the crystal runs again; the PLLs may lock. -/
def execXtbReturn (s : State) : Answer :=
  alive s (s |> setFlag Page.clk Reg.clkStatusXtbOk true |> setLevel Page.clk Ev.clkXtbLost false)

end Sys2Proof.Machine
end

