-- ==== Sys2Proof/Machine/Regfile.lean ====
section
/-!
DEFINITION. The register file as a reader sees it (R7, R10, R388, R390–R395): the words of every page put together from their fields,
banked copies, shown state, latched pairs, data ports and indirect pairs; and the plain storing of a written word.
-/

namespace Sys2Proof.Machine

open Sys2Proof

/-- A master's identity as far as a page sees it: class, interface, source node of a remote one. -/
def masterNodeOf (m : Master) : Nat := if m.ifc.val = 5 then m.node.toNat else 0

/-! ### Capabilities (R388) -/

/-- The instance of a page within its kind. -/
def pageInstance (p : Nat) : Nat :=
  match kindOf p with
  | .lane => p - 0x10
  | .stn => p - 0x12
  | .tile => p - 0x20
  | .eng => p - 0x30
  | .can => p - 0xB0
  | _ => 0

/-- IND_SPACES: bit s set where indirect space s exists. An index that is not divided into spaces is space 0. -/
def indSpaces (k : PageKind) : Nat :=
  match k with
  | .acc | .eng => 0xF
  | .can => 0x7
  | .key | .evt | .bridge | .cab | .brk => 0x3
  | .jrnl | .stair | .img | .upd => 0x1
  | _ => 0

/-- The width of an index that is not divided into spaces. -/
def indWhole (k : PageKind) : Option Nat :=
  match k with
  | .stair | .img => some 32
  | .jrnl => some 19
  | .upd => some 21
  | _ => none

/-- The space that an indirect address names. -/
def indSpace (k : PageKind) (addr : Nat) : Nat :=
  match indWhole k with
  | some _ => 0
  | none => bits addr 17 16

/-- The width of the index field of a space; where the page states none it is the 16 bits below the space bits. -/
def indWidth (k : PageKind) (space : Nat) : Nat :=
  match indWhole k, k, space with
  | some w, _, _ => w
  | none, .eng, 0 => 10
  | none, .eng, 2 => 10
  | none, .eng, _ => 6
  | none, .can, 0 => 14
  | none, .can, _ => 10
  | none, .brk, _ => 8
  | none, .cab, 0 => 15
  | none, .bridge, 0 => 14
  | none, _, _ => 16

/-- How many items a space holds. -/
def indCount (s : State) (k : PageKind) (space : Nat) : Nat :=
  match k, space with
  | .acc, 0 => 256
  | .acc, 1 => 64
  | .acc, _ => 32
  | .key, 0 => 64
  | .key, _ => 1024
  | .evt, 0 => 128
  | .evt, _ => 512
  | .img, _ => (flightActions s.stair.active (nodeId s) (curFlight s)).length
  | .cab, 1 => 16
  | .bridge, 1 => 128
  | .brk, _ => 144
  | k, sp => 2 ^ indWidth k sp

/-- The index of an indirect address. -/
def indIndex (k : PageKind) (addr : Nat) : Nat := addr % 2 ^ indWidth k (indSpace k addr)

/-- IND_ADDR after an access (R394): advanced by STEP within the index field. -/
def indAdvance (k : PageKind) (step addr : Nat) : Nat :=
  let w := 2 ^ indWidth k (indSpace k addr)
  let u := if k = .stair then 4 else 1
  addr / w * w + (addr % w + step * u) % w

def indErrRange : Nat := 1
def indErrReadOnly : Nat := 2
def indErrRefused : Nat := 3
def indErrSpace : Nat := 4

/-- Why an indirect access fails before its page looks at it: the space or the index does not exist (R395). -/
def indFault (s : State) (k : PageKind) (addr : Nat) : Option Nat :=
  if !bit (indSpaces k) (indSpace k addr) then some indErrSpace
  else if indCount s k (indSpace k addr) ≤ indIndex k addr then some indErrRange
  else none

/-- A word of the event log space: entry i oldest first (R435). -/
def logWord (s : State) (i : Nat) : Nat :=
  match s.event.log[i / 2]? with
  | some e => if i % 2 = 0 then e.1 else e.2
  | none => 0

/-- The item at an existing index of an indirect space. -/
def indItem (s : State) (p addr : Nat) : Nat :=
  let k := kindOf p
  let i := indIndex k addr
  match k with
  | .acc => (accIndRead s addr).getD 0
  | .key => (keyIndRead s addr).getD 0
  | .evt => if indSpace k addr = 0 then storeGet 0 s.event.assertTime i else logWord s i
  | .jrnl => memNat s.dram (journalBase + 4 * i) 4
  | .stair => loadedWord s i
  | .img => freshEntry s i
  | .bridge => bridgeIndRead s addr
  | .cab => cabIndRead s addr
  | .brk => brkIndRead s addr
  | .eng => engIndRead s (p - 0x30) addr
  | .can => canIndRead s (p - 0xB0) addr
  | _ => 0

/-- What a read of IND_DATA gives, and the error code of a failed one. -/
def indRead (s : State) (p addr : Nat) : Nat × Option Nat :=
  match indFault s (kindOf p) addr with
  | some e => (0, some e)
  | none => (indItem s p addr, none)

/-! ### Words that show state -/

/-- The page and bit of an event source by its global number (R430). -/
def sourceOf (g : Nat) : Option (Nat × Nat) :=
  match allPages.find? fun p => decide (eventBase p ≤ g ∧ g < eventBase p + kindEvents (kindOf p)) with
  | some p => some (p, g - eventBase p)
  | none => none

/-- SRC_STICKY word i: the sticky bits of sources 32i to 32i + 31. -/
def srcSticky (s : State) (i : Nat) : Nat :=
  ((List.range 32).map fun b =>
    match sourceOf (32 * i + b) with
    | some (p, k) => 2 ^ b * b2n (bit (getR s p Reg.comEvtSticky) k)
    | none => 0).foldl (· + ·) 0

/-- GRP_ASSERT word i (R433). -/
def grpAssert (s : State) (i : Nat) : Nat :=
  ((List.range 32).map fun b => 2 ^ b * b2n (groupAsserted s (32 * i + b))).foldl (· + ·) 0

/-- The pending guarded value of a master's class on a page (R392). -/
def guardOf (s : State) (p cls : Nat) : Option GuardPend := s.access.guards.find? fun g => g.page = p && g.cls = cls

/-- The seconds left in the confirm window: WINDOW within its limits (R480). -/
def confirmWindow (s : State) : Nat := min 3600 (max 10 (getR s Page.upd Reg.updConfirmWindow))

/-- CONFIRM_LEFT. -/
def confirmLeft (s : State) : Nat :=
  match s.boot.confirmFrom with
  | some t => confirmWindow s - (s.time.tb2 - t) / 1000000000
  | none => 0

/-- The area states as UPD.SLOTS shows them. -/
def slotStates (s : State) : Nat := ((List.range 4).map fun i => s.boot.areas.getD i 0 * 2 ^ (4 * i)).foldl (· + ·) 0

/-- A register word that shows state instead of stored fields: the common registers. -/
def commonWord (s : State) (m : Master) (p off : Nat) : Option Nat :=
  let k := kindOf p
  match off with
  | 0x00 => some (2 ^ 8 + 2 ^ 16 * pageInstance p + 2 ^ 24 * pageType p)
  | 0x04 => some ((2 ^ kindEvents k - 1) + 2 ^ 16 * indSpaces k + 2 ^ 20 * b2n (fenceablePage p) + 2 ^ 21 * b2n (unitResetPage p))
  | 0x0C => some (b2n (pageFenced s p) + 2 * b2n (pageSecure s p) + 4 * (pageRights s p m.cls.val).1
      + 16 * b2n ((guardOf s p m.cls.val).any fun g => g.node = masterNodeOf m))
  | 0x34 => some 0
  | _ => none

/-- A register word that shows state instead of stored fields: a page's own registers. -/
def ownWord (s : State) (m : Master) (p off : Nat) : Option Nat :=
  match kindOf p with
  | .hub => match off with
    | 0x44 => some (nodeId s + 2 ^ 8 * (if staircaseActive s then masterNode s else 0))
    | 0x48 => some (uid % 2 ^ 32)
    | 0x4C => some (uid / 2 ^ 32)
    | 0x50 => some (m.cls.val + 2 ^ 8 * m.ifc.val + 2 ^ 16 * masterNodeOf m + 2 ^ 24 * b2n (secureClass m.cls.val))
    | _ => none
  | .acc => if off = 0x304 then some ((accItem s (getR s Page.acc Reg.accRowSelSpace) (getR s Page.acc Reg.accRowSelIndex)).getD 0) else none
  | .key =>
    if off = 0x40 then
      some (s.key.lc + 8 * getR s Page.key Reg.keyStatusBusy + 16 * getR s Page.key Reg.keyStatusEntropyOk
        + 32 * getR s Page.key Reg.keyStatusNonceValid + 2 ^ 8 * s.key.svcLeft)
    else if 0x48 ≤ off ∧ off < 0x58 then some (slotStateWord s ((off - 0x48) / 4))
    else if off = 0x58 then
      some (getR s Page.duplex Reg.duplexCfgKeySlot + 16 * getR s Page.key Reg.keyRingRingNext + 2 ^ 7 * getR s Page.key Reg.keyRingSwitchPend)
    else none
  | .evt =>
    if 0x80 ≤ off ∧ off < 0x90 then some (grpAssert s ((off - 0x80) / 4))
    else if 0x100 ≤ off ∧ off < 0x180 then some (srcSticky s ((off - 0x100) / 4))
    else none
  | .stair => match off with
    | 0x54 => some (cycleNow s % 2 ^ 32)
    | 0x58 => some (cycleNow s / 2 ^ 32)
    | _ => none
  | .img => match off with
    | 0x44 => some (doneCycle s % 2 ^ 32)
    | 0x48 => some (doneCycle s / 2 ^ 32 % 2 ^ 16)
    | _ => none
  | .cab => if off = 0x88 then some 0 else if off = 0x8C then some (accStatusWord s m.cls.val) else cabAccount s off
  | .eng => if off = 0x78 then some 0 else none
  | .time => timeLive s off
  | .upd => match off with
    | 0x54 => some (slotStates s + 2 ^ 16 * getR s Page.upd Reg.updSlotsNewelSlot + 2 ^ 17 * getR s Page.upd Reg.updSlotsMitreSlot)
    | 0x64 => some (confirmLeft s)
    | _ => none
  | _ => none

/-! ### Words from fields (R7, R10, R388) -/

/-- Whether a field is banked by master class: the indirect address and its control, and the Cabinet's software contexts (R388, R246). -/
def bankedField (p : Nat) (f : Fld) : Bool :=
  (f.off = 0x30 || (f.off = 0x38 && f.lsb ≠ 8)) || (p = Page.cab && (f.off = 0x80 || f.off = 0x84 || f.off = 0x8C))

/-- The bank that a master's class sees of a field. -/
def fieldBank (m : Master) (p : Nat) (f : Fld) : Nat := if bankedField p f then m.cls.val else 0

/-- The fields of one word of a page. -/
def wordFields (p off : Nat) : List Fld := (pageFields p).filter fun f => f.off = off

/-- What a field reads as: WO and WP fields read 0 (R7). -/
def fieldRead (s : State) (m : Master) (p : Nat) (f : Fld) : Nat :=
  if f.acc = .wo ∨ f.acc = .wp then 0 else getBank s (fieldBank m p f) p f

/-- A register word put together from its stored fields. -/
def storedWord (s : State) (m : Master) (p off : Nat) : Nat :=
  ((wordFields p off).map fun f => fieldRead s m p f * 2 ^ f.lsb).foldl (· + ·) 0

/-- The word at a base offset of a page, read without any effect (R450): the complement window reads 0 (R392). -/
def peekWord (s : State) (m : Master) (p off : Nat) : Nat :=
  if 0x380 ≤ off then 0
  else match commonWord s m p off with
    | some v => v
    | none => match ownWord s m p off with
      | some v => v
      | none => storedWord s m p off

/-! ### Reads with an effect (R64, R264, R326, R328, R390) -/

/-- The pairs of which a read of LO latches HI (R64): the offset of HI for a page and the offset of LO. -/
def latchedHi (p off : Nat) : Option Nat :=
  match kindOf p with
  | .lane => if 0x80 ≤ off ∧ off < 0x180 ∧ 0x20 ≤ off % 0x40 ∧ off % 8 = 0 then some (off + 4) else none
  | .stair => if off = 0x54 then some 0x58 else none
  | .img => if off = 0x44 then some 0x48 else none
  | .hub => if off = 0x48 then some 0x4C else none
  | .duplex => if off = 0x50 then some 0x54 else none
  | .bridge => if off = 0x4C then some 0x50 else none
  | .jrnl => if off = 0x40 ∨ off = 0x48 then some (off + 4) else none
  | _ => none

/-- A register word read by a master, with the effect of the read. -/
def readWord (m : Master) (p off : Nat) (s : State) : Nat × State :=
  let live := peekWord s m p off
  match kindOf p with
  | .eng => if off = 0x78 then pagePop (p - 0x30) s else (live, s)
  | .cab => if off = 0x88 then accGet m.cls.val s else (live, s)
  | .trig => if 0x280 ≤ off ∧ off < 0x300 then captureRead ((off - 0x280) / 4) s else (live, s)
  | .time => if (timeLive s off).isSome ∧ off < 0x6C then timeRead off live s else (live, s)
  | _ =>
    match latchedHi p off with
    | some hi => (live, { s with latch := storePut (latchKey p hi) (peekWord s m p hi) s.latch })
    | none => (if latchedHi p (off - 4) = some off then (storeFind (latchKey p off) s.latch).getD 0 else live, s)

/-- IND_ERR and its code set for a master's class (R395). -/
def setIndErr (m : Master) (p code : Nat) (s : State) : State :=
  s |> setBank m.cls.val p Reg.comIndCtrlErr 1 |> setBank m.cls.val p Reg.comIndCtrlErrCode code

/-- The indirect address of a master's class. -/
def indAddr (s : State) (m : Master) (p : Nat) : Nat := getBank s m.cls.val p Reg.comIndAddr

/-- The indirect address advances after an access (R394). -/
def indStep (m : Master) (p : Nat) (s : State) : State :=
  setBank m.cls.val p Reg.comIndAddr (indAdvance (kindOf p) (getBank s m.cls.val p Reg.comIndCtrlStep) (indAddr s m p)) s

/-- A read of IND_DATA (R394, R395). -/
def readIndData (m : Master) (p : Nat) (s : State) : Nat × State :=
  let (v, e) := indRead s p (indAddr s m p)
  let s1 := match e with
    | some code => setIndErr m p code s
    | none => s
  (v, indStep m p s1)

/-- A register word read by a master, IND_DATA included. -/
def readRegister (m : Master) (p off : Nat) (s : State) : Nat × State :=
  if off = 0x34 then readIndData m p s else readWord m p off s

/-! ### Storing (R7, R390) -/

/-- The bits of a word's fields with one of some access codes. -/
def accMaskOf (p off : Nat) (ok : Acc → Bool) : Nat :=
  ((wordFields p off).map fun f => if ok f.acc then (2 ^ f.width - 1) * 2 ^ f.lsb else 0).foldl (· + ·) 0

/-- The RW fields of a word take the written bits (R390). -/
def storeRw (m : Master) (p off v mask : Nat) (s : State) : State :=
  forEach ((wordFields p off).filter fun f => f.acc = .rw) (fun f u =>
    let b := fieldBank m p f
    setBank b p f (mergeMask (getBank u b p f) (v / 2 ^ f.lsb) (mask / 2 ^ f.lsb)) u) s

/-- The guarded fields of a word take a value (R393). -/
def storeGuarded (p off v : Nat) (s : State) : State :=
  forEach ((wordFields p off).filter fun f => f.acc = .g) (fun f u => setR p f (v / 2 ^ f.lsb) u) s

/-- The sticky fields of a word lose the bits written as 1 through the CLR alias (R7, R391). -/
def clearSticky (m : Master) (p off bits_ : Nat) (s : State) : State :=
  forEach ((wordFields p off).filter fun f => f.acc = .st) (fun f u =>
    let b := fieldBank m p f
    let clr := bits_ / 2 ^ f.lsb % 2 ^ f.width
    setBank b p f (getBank u b p f &&& (clr ^^^ (2 ^ f.width - 1))) u) s

end Sys2Proof.Machine
end

