-- ==== Sys2Proof/Machine/Dump.lean ====
section
/-!
DEFINITION. The dump (R449–R451): its image in DRAM and its summary in flash.
-/

namespace Sys2Proof.Machine

open Sys2Proof

/-- DRAM offset of the dump region. -/
def dumpBase : Nat := 0x7800000

/-- A word of a page image as the dump engine reads it, without side effects (R450): a gated block's page is 0 but for PAGE_ID, an unlisted page is 0. -/
def dumpWord (s : State) (m : Master) (p off : Nat) : Nat :=
  if !allPages.contains p then 0
  else if pageGated s p && off ≠ 0 then 0
  else if off = 0x34 then (indRead s p (indAddr s m p)).1
  else peekWord s m p off

/-- The images of pages 0x00–0xFF, `words` words of each. -/
def dumpPages (s : State) (m : Master) (words : Nat) : List Byte :=
  (List.range 256).flatMap fun p => (List.range words).flatMap fun w => leBytes 4 (dumpWord s m p (4 * w))

/-- The Cabinet directory: the descriptor words of every queue. -/
def dumpQueues (s : State) : List Byte := (List.range 32768).flatMap fun i => leBytes 4 (cabIndRead s i)

/-- The event log, oldest first, in its 2 KB. -/
def dumpLog (s : State) : List Byte := fit 2048 (s.event.log.flatMap fun e => leBytes 4 e.1 ++ leBytes 4 e.2)

/-- The journal pointers, each 8 bytes, and 16 reserved bytes. -/
def dumpPointers (s : State) : List Byte := fit 32 (leBytes 8 (journalHead s) ++ leBytes 8 (journalCkpt s))

/-- The dump header (Dump header table), of a dump of `size` bytes with a CRC-32C. -/
def dumpHeader (s : State) (d : Nat × Nat × Nat × Nat) (size crc : Nat) : List Byte :=
  let (trigger, tb2, cycle, head) := d
  let pg := Page.evt
  fit 64 (leBytes 4 0x31504D44 ++ leBytes 2 1 ++ leBytes 1 trigger ++ leBytes 1 (getR s pg Reg.evtFirstFaultPage) ++ leBytes 8 tb2 ++ leBytes 6 cycle
    ++ leBytes 1 (getR s pg Reg.evtFirstFaultCause) ++ leBytes 1 (nodeId s) ++ leBytes 6 head ++ leBytes 2 (getR s pg Reg.evtLostcntCount)
    ++ leBytes 4 size ++ leBytes 4 crc)

/-- How many bytes a dump writes, `free` deciding what is left open: with a firmware trigger as much context as Newel wrote; else the fixed part, or
the region to its end, which is 0 there (R450). -/
def dumpSize (trigger free : Nat) : Nat :=
  if trigger = 2 then 0x62000 + free % 0x79E001 else if free % 2 = 0 then 0x62000 else 0x800000

/-- The dump is complete (R449, R450): the region is written, HELD and VALID are set and DUMP_DONE is raised. What depends on the reader of a page
is as a free class would read it. With DRAM fenced meanwhile nothing is written (R485). -/
def dumpDone (s : State) : State :=
  match s.boot.dump with
  | none => s
  | some d =>
    let s0 := setFlag Page.evt Reg.evtDumpStatusBusy false { s with boot := { s.boot with dump := none } }
    if pageFenced s Page.dram then s0
    else
      let (who, s1) := freeValue s0
      let (n, s2) := freeValue s1
      let m : Master := { cls := Fin.ofNat 15 who, ifc := 6, node := 0 }
      let body := fit 0x61000 (dumpPages s m 256 ++ dumpQueues s ++ dumpLog s ++ dumpPointers s)
      let rest := if d.1 = 2 then s.dram else memClear s.dram (dumpBase + 0x62000) 0x79E000
      let dram := memSplice rest (dumpBase + 0x1000) body
      let size := dumpSize d.1 n
      let crc := crc32c (memReadN dram (dumpBase + 0x1000) (size - 0x1000))
      { s2 with dram := memSplice dram dumpBase (fit 0x1000 (dumpHeader s d size crc)), boot := { s2.boot with summary := true } }
      |> healDram dumpBase (if d.1 = 2 then 0x62000 else 0x800000)
      |> setFlag Page.evt Reg.evtDumpStatusHeld true |> setFlag Page.evt Reg.evtDumpStatusValid true |> raiseEv Page.evt Ev.evtDumpDone

/-- The 64 KB summary of the last dump is written to flash (R451), unless FLASH is fenced. -/
def dumpSummary (s : State) : State :=
  if !s.boot.summary then s
  else
    let s0 := { s with boot := { s.boot with summary := false } }
    if pageFenced s Page.flash || pageFenced s Page.dram then s0
    else
      let part (off n : Nat) : List Byte := memReadN s.dram (dumpBase + off) n
      let commons := (List.range 256).flatMap fun p => part (0x1000 + 0x400 * p) 64
      let head := leNat (part 0x18 6)
      let entries := (List.range 64).flatMap fun i => memReadN s.dram (journalBase + 32 * ((head + 65536 - 64 + i) % 65536)) 32
      let byte := Config.dumpSummary (part 0 64) commons (part 0x61000 2048) (part 0x61800 32) entries
      eraseFlash 0x194 1 { s0 with flash := memSplice s.flash 0x1940000 ((List.range 65536).map byte) }

/-- DUMP_DONE (R449). -/
def execDumpDone (s : State) : Answer := alive s (dumpDone s)

/-- DUMP_SUMMARY (R451). -/
def execDumpSummary (s : State) : Answer := alive s (dumpSummary s)

end Sys2Proof.Machine
end

