-- ==== Sys2Proof/Machine/Boot.lean ====
section
/-!
DEFINITION. Images in flash, their compatibility records and their verification (R468–R470), and the boot (R471–R475, R480, R484).
-/

namespace Sys2Proof.Machine

open Sys2Proof

/-! ### Image areas (R466, R468, R469). Areas are numbered as UPD.SLOTS shows them: Newel A, Newel B, Mitre A, Mitre B. -/

def areaEmpty : Nat := 0
def areaTrial : Nat := 1
def areaGood : Nat := 2
def areaRejected : Nat := 3

/-- Flash offset of an area. -/
def areaBase (i : Nat) : Nat := [0x0, 0x800000, 0x700000, 0xF00000].getD i 0

/-- Size of an area of a type: 0 Newel, 1 Mitre. -/
def areaSize (type : Nat) : Nat := if type = 0 then 0x700000 else 0x100000

/-- The state of an area in the boot record. -/
def areaState (s : State) (i : Nat) : Nat := s.boot.areas.getD i areaEmpty

/-- The state of an area changed; an area that is no longer TRIAL counts as not booted. -/
def setArea (i v : Nat) (s : State) : State :=
  { s with boot := { s.boot with
    areas := (List.range 4).map fun k => if k = i then v else areaState s k
    booted := if v = areaTrial then s.boot.booted else s.boot.booted.filter fun k => k ≠ i } }

/-- Whether an area runs a trial that is not confirmed. -/
def trialBooted (s : State) (i : Nat) : Bool := areaState s i = areaTrial && s.boot.booted.contains i

/-- Fields of block 0 of an image at a base. -/
def hdrMagic (m : Memory) (b : Nat) : Nat := memNat m b 4
def hdrFormat (m : Memory) (b : Nat) : Nat := memNat m (b + 4) 2
def hdrType (m : Memory) (b : Nat) : Nat := memNat m (b + 6) 1
def hdrSigner (m : Memory) (b : Nat) : Nat := memNat m (b + 7) 1
def hdrBlocks (m : Memory) (b : Nat) : Nat := max 1 (memNat m (b + 8) 4)
def hdrBodyBlocks (m : Memory) (b : Nat) : Nat := memNat m (b + 12) 4
def hdrBodySize (m : Memory) (b : Nat) : Nat := memNat m (b + 16) 4
def hdrDigest (m : Memory) (b : Nat) : List Byte := memReadN m (b + 0x80) 32

/-- A field of the compatibility record of an image at a base. -/
def compat (m : Memory) (b off n : Nat) : Nat := memNat m (b + 0x18 + off) n

/-- VERSION of an image. -/
def imageVersion (m : Memory) (b : Nat) : Nat := compat m b 0 4

/-- Whether the steppings of this part lie in an image's ranges (R470). -/
def stepsOk (s : State) (m : Memory) (b : Nat) : Bool :=
  let hub := getR s Page.hub Reg.hubChipIdStepping
  let pwr := getR s Page.hub Reg.hubChipIdPowerStepping
  decide (compat m b 4 1 ≤ hub ∧ hub ≤ compat m b 5 1 ∧ compat m b 6 1 ≤ pwr ∧ pwr ≤ compat m b 7 1)

/-- Whether an image may boot in the present life-cycle state (LC_MAP). -/
def lcMapOk (s : State) (m : Memory) (b : Nat) : Bool := bit (compat m b 0x1E 1) s.key.lc

/-- Whether an image's PARTNER range holds a version. -/
def partnerOk (m : Memory) (b version : Nat) : Bool := decide (compat m b 8 4 ≤ version ∧ version ≤ compat m b 12 4)

/-- Whether a Newel image reads a settings format. -/
def readsSettings (m : Memory) (b format : Nat) : Bool := decide (compat m b 0x18 2 ≤ format ∧ format ≤ compat m b 0x1A 2)

/-- Whether a Newel and a Mitre area form an accepted pair (R470). -/
def acceptedPair (s : State) (n mi : Nat) : Bool :=
  let f := s.flash
  let a := areaBase n
  let b := areaBase mi
  partnerOk f a (imageVersion f b) && partnerOk f b (imageVersion f a) && stepsOk s f a && stepsOk s f b && lcMapOk s f a && lcMapOk s f b
    && ((bestSettings s fun _ => true).isNone || (bestSettings s (readsSettings f a)).isSome)

/-! ### Verification (R418, R468) -/

/-- The header region with SIGNATURE set to 0. -/
def signedHeader (m : Memory) (b : Nat) : List Byte :=
  memReadN m b 0xA0 ++ zeros 96 ++ memReadN m (b + 0x100) (4096 * hdrBlocks m b - 0x100)

/-- Whether an image's signature is good: its signer's slot is a valid verification key that PLINTH may use. -/
def signatureOk (s : State) (m : Memory) (b : Nat) : Bool :=
  let k := hdrSigner m b
  let d := drawerOf s k
  let p256 := attrType d.attr = 3
  let digest := if p256 then Config.sha256 (signedHeader m b) else Config.sha384 (signedHeader m b)
  decide (k < 8) && d.st = slotValid && tagGood k d && attrPub d.attr && attrVerify d.attr && keyPermits s d classPlinth
    && Config.ecdsaVerify d.material digest (memReadN m (b + 0xA0) (if p256 then 64 else 96))

/-- A signer's slot whose tag fails at the check becomes BAD (R414). -/
def spoilSigner (m : Memory) (b : Nat) (s : State) : State :=
  let k := hdrSigner m b
  let d := drawerOf s k
  whenS (k < 8 && d.st = slotValid && !tagGood k d) (fun u => syncKey (spoilDrawer k u)) s

/-- Whether an image's body has its BODY_DIGEST. -/
def bodyOk (m : Memory) (b : Nat) : Bool := Config.sha256 (memReadN m (b + 4096 * hdrBlocks m b) (hdrBodySize m b)) = hdrDigest m b

/-- Full verification of an image of a type. -/
def verifyImage (s : State) (m : Memory) (b type : Nat) : Bool :=
  hdrMagic m b = 0x31474D49 && hdrFormat m b = 1 && hdrType m b = type + 1 && signatureOk s m b && bodyOk m b

/-- One area verified: REJECTED where it fails (R472). -/
def verifyArea (i : Nat) (s : State) : Bool × State :=
  let s1 := spoilSigner s.flash (areaBase i) s
  if verifyImage s s.flash (areaBase i) (i / 2) then (true, s1) else (false, setArea i areaRejected s1)

/-! ### The choice of a pair (R472, R473) -/

/-- Whether an area is a candidate: GOOD, or TRIAL and not yet booted. -/
def bootCandidate (s : State) (i : Nat) : Bool := areaState s i = areaGood || (areaState s i = areaTrial && !s.boot.booted.contains i)

/-- The slot whose GOOD areas BOOTSEL prefers: only in PROVISIONING and SERVICE. -/
def preferredSlot (s : State) (bootsel : Nat) : Option Nat :=
  if s.key.lc = 1 ∨ s.key.lc = 3 then (if bootsel = 1 then some 0 else if bootsel = 2 then some 1 else none) else none

/-- Whether area i is tried before area j of its type; equal areas in an order that is open. -/
def triedBefore (s : State) (bootsel : Nat) (tie : Bool) (i j : Nat) : Bool :=
  let ti := areaState s i = areaTrial
  let tj := areaState s j = areaTrial
  let vi := imageVersion s.flash (areaBase i)
  let vj := imageVersion s.flash (areaBase j)
  if ti ≠ tj then ti
  else
    match (if ti then none else preferredSlot s bootsel) with
    | some k => i % 2 = k
    | none => if vi = vj then tie else decide (vj < vi)

/-- The candidates of a type in the order in which they are tried. -/
def bootOrder (s : State) (bootsel : Nat) (tie : Bool) (type : Nat) : List Nat :=
  let xs := [2 * type, 2 * type + 1].filter (bootCandidate s)
  match xs with
  | [i, j] => if triedBefore s bootsel tie i j then [i, j] else [j, i]
  | _ => xs

/-- The highest VERSION among the candidates of a type, 0 with none (R474). -/
def highestVersion (s : State) (type : Nat) : Nat :=
  ((bootOrder s 0 true type).map fun i => imageVersion s.flash (areaBase i)).foldl max 0

/-- One pair tried: nothing more is tried once a pair is chosen; an area that failed before fails again. -/
def tryPair (p : Nat × Nat) (acc : Option (Nat × Nat) × State) : Option (Nat × Nat) × State :=
  let (chosen, s) := acc
  if chosen.isSome || !bootCandidate s p.1 || !bootCandidate s p.2 || !acceptedPair s p.1 p.2 then acc
  else
    let (okN, s1) := verifyArea p.1 s
    let (okM, s2) := verifyArea p.2 s1
    (if okN && okM then some p else none, s2)

/-- The pair that Plinth boots (R472): the first accepted one that passes full verification. -/
def choosePair (bootsel : Nat) (s : State) : Option (Nat × Nat) × State :=
  let (t, s1) := freeValue s
  let tie := t % 2 = 0
  let pairs := (bootOrder s1 bootsel tie 0).flatMap fun n => (bootOrder s1 bootsel tie 1).map fun m => (n, m)
  pairs.foldl (fun acc p => tryPair p acc) (none, s1)

/-! ### Plinth (R471–R475, R480) -/

/-- A booted, unconfirmed TRIAL area is REJECTED (R480). -/
def fallBack (s : State) : State :=
  forEach ((List.range 4).filter (trialBooted s)) (fun i u =>
    u |> setArea i areaRejected |> raiseEv Page.upd Ev.updFallback |> journal none 0x07 0x08 (leNat ((hdrDigest u.flash (areaBase i)).take 8)) 0) s

/-- Safe mode begins (R474): both stations forward transparently (R143). -/
def enterSafeMode (s : State) : State :=
  s |> setFlag Page.upd Reg.updStatusSafeMode true
    |> setR Page.upd Reg.updCompatNewel (highestVersion s 0) |> setR Page.upd Reg.updCompatMitre (highestVersion s 1)
    |> setLevel Page.upd Ev.updCompatFail true |> journal none 0x07 0x09 0 0
    |> (fun u => setActState (getR u Page.stair Reg.stairStatusActState) u) |> enterForwarder

/-- The settings copy that Plinth applies (R482): within the range of the chosen Newel where one is chosen. -/
def chooseSettings (s : State) (newel : Option Nat) : Option Nat :=
  match newel with
  | some i => bestSettings s (readsSettings s.flash (areaBase i))
  | none => bestSettings s fun _ => true

/-- Whether a settings copy has an entry for every class N field and every word of the curves. -/
def settingsWhole (c : SettingsCopy) : Bool :=
  (settingsPages.all fun p => (settingsFields p).all fun f => (storeFind (settingsKey p f.off) c.regs).isSome) &&
    (List.range curveWords).all fun i => (storeFind i c.curves).isSome

/-- A class N field taken from its entry; without one it stays at Rst. -/
def applySetting (c : SettingsCopy) (p : Nat) (f : Fld) (s : State) : State :=
  match storeFind (settingsKey p f.off) c.regs with
  | some v => setR p f (bits v (f.lsb + f.width - 1) f.lsb) s
  | none => s

/-- The class N fields and the active curves taken from the entries of the settings copy; a field without an entry stands at Rst and
NODE_RECORD is raised (R13, R481). -/
def applySettings (newel : Option Nat) (s : State) : State :=
  let bare := { s with regs := withoutRegs (fun _ f => decide (f.cls = Cls.N)) s.regs, brk := { s.brk with curves := [] } }
  let choice := chooseSettings s newel
  let c := match choice with
    | some i => settingsCopy s i
    | none => settingsNone
  let curves := (List.range curveWords).foldl (fun m i => storeSet 0 m i ((storeFind i c.curves).getD 0)) []
  { bare with brk := { bare.brk with curves := curves }, boot := { bare.boot with applied := choice.getD s.boot.applied } }
  |> forEach settingsPages (fun p u => forEach (settingsFields p) (fun f v => applySetting c p f v) u)
  |> raiseIf (!settingsWhole c) Page.upd Ev.updNodeRecord |> forEach (List.range 16) syncTile

/-- A chosen pair is set to run: what UPD shows of it, and the record that a TRIAL area has been booted. -/
def startPair (p : Nat × Nat) (s : State) : State :=
  let f := s.flash
  let mark (i : Nat) (u : State) : State :=
    whenS (areaState u i = areaTrial && !u.boot.booted.contains i) (fun v => { v with boot := { v.boot with booted := i :: v.boot.booted } }) u
  { s with boot := { s.boot with protoMap := some (compat f (areaBase p.1) 0x10 2) } } |> mark p.1 |> mark p.2
    |> setR Page.upd Reg.updRunNewelVersion (imageVersion f (areaBase p.1)) |> setR Page.upd Reg.updRunMitreVersion (imageVersion f (areaBase p.2))
    |> setR Page.upd Reg.updSlotsNewelSlot (p.1 % 2) |> setR Page.upd Reg.updSlotsMitreSlot (p.2 % 2)
    |> setR Page.upd Reg.updCfgFmtCfgWrite (compat f (areaBase p.1) 0x16 2) |> setR Page.upd Reg.updNrFmtNrWrite (compat f (areaBase p.1) 0x1C 2)

/-- The settings of a large reset, and the FORMAT applied. -/
def bootSettings (large : Bool) (newel : Option Nat) (s : State) : State :=
  let t := whenS large (applySettings newel) s
  whenS (settingsCopy t t.boot.applied).good (fun u => setR Page.upd Reg.updNrFmtFormat (settingsCopy u u.boot.applied).format u) t

/-- Plinth's part of a boot (R471): a fall-back, the pair, the settings; safe mode where no pair boots. Newel's part follows with BOOT_DONE. -/
def plinthBoot (kind : Nat) (s : State) : State :=
  let large := decide (2 ≤ kind)
  let bootsel := getR s Page.upd Reg.updResetBootsel
  let s0 := fallBack { s with boot := { s.boot with booting := none, confirmFrom := none } }
  if s0.key.lc = 0 then bootSettings large none s0
  else if s0.key.lc = 4 then s0 |> wipeDrawers |> syncKey |> bootSettings large none |> enterSafeMode
  else if bootsel = 3 then s0 |> bootSettings large none |> enterSafeMode
  else
    let (chosen, s1) := choosePair bootsel s0
    match chosen with
    | some p => s1 |> startPair p |> bootSettings large (some p.1) |> fun u => { u with boot := { u.boot with booting := some kind } }
    | none => s1 |> bootSettings large none |> enterSafeMode

/-! ### Newel (R471 steps 6 and 7, R480, R482, R484) -/

/-- The running Newel's area. -/
def runningNewel (s : State) : Nat := getR s Page.upd Reg.updSlotsNewelSlot

/-- Newel writes a copy in its own format over the other copy where it differs from the applied one's (R482). -/
def newelSettings (s : State) : State :=
  let format := getR s Page.upd Reg.updNrFmtNrWrite
  let c := settingsCopy s s.boot.applied
  let other := settingsCopy s (1 - s.boot.applied)
  if c.good && c.format ≠ format && !(other.good && other.format = format) then
    if pageFenced s Page.flash then saveFails true s else writeSettings (1 - s.boot.applied) format s
  else s

/-- Newel reads the configuration store (R484): what it finds, and the half it goes on with. -/
def readConfig (s : State) : Option CfgHalf × State :=
  let b := areaBase (runningNewel s)
  let lo := compat s.flash b 0x12 2
  let hi := compat s.flash b 0x14 2
  let unreadable (u : State) : Option CfgHalf × State := (none, raiseEv Page.upd Ev.updConfigUnreadable u)
  if pageFenced s Page.flash then unreadable s
  else match bestHalf s with
  | none => unreadable s
  | some i =>
    let h := cfgHalf s i
    let s1 := setR Page.upd Reg.updCfgFmtFormat h.format s
    let write := getR s Page.upd Reg.updCfgFmtCfgWrite
    if hi < h.format then (none, s1 |> raiseEv Page.upd Ev.updConfigNewer |> journal none 0x07 0x0B 0 0)
    else if h.format < lo then unreadable s1
    else (some h, whenS (h.format ≠ write) (migrateConfig h write) s1)

/-- The saved Staircase goes to the pending bank and is prepared (R108, R471 step 7). -/
def restoreStair (m : Memory) (s : State) : State :=
  if m.isEmpty then s
  else { s with stair := { s.stair with pend := m } } |> setPend pendPreparing |> prepareEnds

/-- The configuration store is read; after a large reset its contents are restored (R484). -/
def configRestored (kind : Nat) (s : State) : State :=
  let (half, s1) := readConfig s
  match half with
  | some h => if 2 ≤ kind then s1 |> restoreConfig h |> restoreStair h.stair else s1
  | none => s1

/-- Newel has started (R461, R471): it reads and after a large reset restores the store, the confirm window of a trial begins, BOOT_DONE is raised. -/
def bootDone (s : State) : State :=
  match s.boot.booting with
  | none => s
  | some kind =>
    newelSettings { s with boot := { s.boot with booting := none } } |> configRestored kind
    |> (fun u => whenS ((List.range 4).any (trialBooted u)) (fun v => { v with boot := { v.boot with confirmFrom := some v.time.tb2 } }
          |> setFlag Page.upd Reg.updStatusTrial true |> setLevel Page.upd Ev.updConfirmDue true) u)
    |> raiseEv Page.upd Ev.updBootDone

/-- BOOT_DONE (R461). -/
def execBootDone (s : State) : Answer := alive s (bootDone s)

end Sys2Proof.Machine
end

