-- ==== Sys2Proof/Machine/Update.lean ====
section
/-!
DEFINITION. The update (R476–R480).
-/

namespace Sys2Proof.Machine

open Sys2Proof

def updIdle : Nat := 0
def updHeader : Nat := 1
def updBody : Nat := 2
def updComplete : Nat := 3
def updCommitting : Nat := 4

/-- Error codes of UPD.ERR. -/
def updErrFormat : Nat := 0x01
def updErrType : Nat := 0x02
def updErrSize : Nat := 0x03
def updErrHardware : Nat := 0x04
def updErrPartner : Nat := 0x05
def updErrSignature : Nat := 0x06
def updErrOrder : Nat := 0x07
def updErrHash : Nat := 0x08
def updErrIncomplete : Nat := 0x09
def updErrTrialPending : Nat := 0x0A
def updErrFlash : Nat := 0x0B
def updErrState : Nat := 0x0C
def updErrLifecycle : Nat := 0x0D
def updErrDenied : Nat := 0x0E

/-- STATE of the update. -/
def updState (s : State) : Nat := getR s Page.upd Reg.updStatusState

/-- STATE changed. -/
def setUpdState (v : Nat) (s : State) : State := setR Page.upd Reg.updStatusState v s

/-- The type of the update: 0 Newel, 1 Mitre. -/
def updType (s : State) : Nat := getR s Page.upd Reg.updStatusType

/-- UPD.ERR. -/
def setUpdErr (code block : Nat) (s : State) : State := s |> setR Page.upd Reg.updErrCode code |> setR Page.upd Reg.updErrBlock block

/-- A refusal (R477): its code and block in ERR, UPD_REFUSED, its journal entry with the image offset of the block. -/
def updRefuse (who : Option Master) (code block : Nat) (s : State) : State :=
  s |> setUpdErr code block |> raiseEv Page.upd Ev.updUpdRefused |> journal who 0x07 0x03 (4096 * block) code

/-- Bytes 0–7 of the BODY_DIGEST of the image that is being delivered, 0 before its block 0. -/
def stagedDigest (s : State) : Nat := if s.boot.hdrNext = 0 then 0 else leNat ((hdrDigest s.dram updStaging).take 8)

/-- Whether some GOOD or TRIAL image of the other type accepts the staged image and is accepted by it. -/
def stagedPartner (s : State) : Bool :=
  let v := imageVersion s.dram updStaging
  let other := 2 * (1 - updType s)
  [other, other + 1].any fun i =>
    let b := areaBase i
    (areaState s i = areaGood || areaState s i = areaTrial) && partnerOk s.flash b v && partnerOk s.dram updStaging (imageVersion s.flash b)

/-- What is wrong with the staged block 0 (R477), in the order of the list. -/
def headerError (s : State) : Option Nat :=
  let m := s.dram
  let b := updStaging
  if hdrMagic m b ≠ 0x31474D49 ∨ hdrFormat m b ≠ 1 then some updErrFormat
  else if hdrType m b ≠ updType s + 1 then some updErrType
  else if areaSize (updType s) < 4096 * (hdrBlocks m b + hdrBodyBlocks m b) then some updErrSize
  else if !stepsOk s m b || !lcMapOk s m b then some updErrHardware
  else if !flag s Page.upd Reg.updStatusDefer && !stagedPartner s then some updErrPartner
  else none

/-- The last header block is there: the signature decides (R477). -/
def headerDone (who : Option Master) (block : Nat) (s : State) : State :=
  let s1 := spoilSigner s.dram updStaging s
  if signatureOk s1 s1.dram updStaging then
    s1 |> setUpdState updBody |> setR Page.upd Reg.updProgressBodyBlocks (hdrBodyBlocks s1.dram updStaging)
       |> raiseEv Page.upd Ev.updHdrOk |> journal who 0x07 0x02 (stagedDigest s1) 0
  else s1 |> discardUpdate |> updRefuse who updErrSignature block

/-- A header block (R477). -/
def headerBlock (who : Option Master) (k : Nat) (bs : List Byte) (s : State) : State :=
  if k ≠ s.boot.hdrNext then updRefuse who updErrOrder k s
  else
    let s1 := healDram (updStaging + 4096 * k) bs.length
      { s with dram := memSplice s.dram (updStaging + 4096 * k) bs, boot := { s.boot with hdrNext := k + 1 } }
    match (if k = 0 then headerError s1 else none) with
    | some code => s1 |> discardUpdate |> updRefuse who code 0
    | none => if hdrBlocks s1.dram updStaging ≤ k + 1 then headerDone who k s1 else s1

/-- A body block (R478). -/
def bodyBlock (who : Option Master) (k : Nat) (bs : List Byte) (s : State) : State :=
  let h := hdrBlocks s.dram updStaging
  let n := hdrBodyBlocks s.dram updStaging
  if k < h ∨ h + n ≤ k then updRefuse who updErrOrder k s
  else if Config.sha256 bs ≠ memReadN s.dram (updStaging + 0x200 + 32 * (k - h)) 32 then
    s |> setUpdErr updErrHash k |> raiseEv Page.upd Ev.updBlockBad
  else
    let got := if s.boot.got.contains k then s.boot.got else k :: s.boot.got
    { s with dram := memSplice s.dram (updStaging + 4096 * k) bs, boot := { s.boot with got := got } }
    |> healDram (updStaging + 4096 * k) bs.length |> setR Page.upd Reg.updProgressReceived got.length |> whenS (n ≤ got.length) (setUpdState updComplete)

/-- A block of the image is delivered (R476–R478). -/
def deliverBlock (who : Option Master) (k : Nat) (bs : List Byte) (s : State) : State :=
  if pageFenced s Page.dram then updRefuse who updErrDenied k s
  else if updState s = updHeader then headerBlock who k bs s
  else if updState s = updBody then bodyBlock who k bs s
  else updRefuse who updErrState k s

/-- A word written to IND_DATA at an image word index (R476). -/
def updWord (who : Option Master) (w v : Nat) (s : State) : State :=
  let k := w / 1024
  let i := w % 1024
  let put (ws : List Nat) (u : State) : State := { u with boot := { u.boot with wordBlock := k, words := ws } }
  if i = 0 then put [v] s
  else if s.boot.wordBlock = k ∧ s.boot.words.length = i then
    let ws := s.boot.words ++ [v]
    if i = 1023 then s |> put [] |> deliverBlock who k (ws.flatMap (leBytes 4)) else put ws s
  else s |> put [] |> updRefuse who updErrOrder k

/-- BLOCK_FROM_DRAM (R476): the block at DRAM_SRC, read as the class of the writer. -/
def blockFromDram (m : Master) (k : Nat) (s : State) : State :=
  let a := getR s Page.upd Reg.updDramSrc * 4096
  if dramAllowed s a 4096 m.cls.val .read then deliverBlock (some m) k (dramRead s a 4096) s else updRefuse (some m) updErrDenied k s

/-- BEGIN (R476). -/
def updBegin (m : Master) (type : Nat) (defer : Bool) (s : State) : State :=
  if s.key.lc = 4 then updRefuse (some m) updErrLifecycle 0 s
  else if updState s = updCommitting then updRefuse (some m) updErrState 0 s
  else
    s |> discardUpdate |> setUpdState updHeader |> setR Page.upd Reg.updStatusType type |> setFlag Page.upd Reg.updStatusDefer defer
      |> journal (some m) 0x07 0x01 0 0

/-- ABORT (R476). -/
def updAbort (m : Master) (s : State) : State :=
  if updState s = updCommitting then updRefuse (some m) updErrState 0 s
  else s |> discardUpdate |> journal (some m) 0x07 0x06 (stagedDigest s) 0

/-- The area that COMMIT writes: of the type, in the slot that is not running. -/
def commitArea (s : State) : Nat :=
  2 * updType s + (1 - getR s Page.upd (if updType s = 0 then Reg.updSlotsNewelSlot else Reg.updSlotsMitreSlot))

/-- A commit ends without success (R479). -/
def commitFails (who : Option Master) (s : State) : State :=
  let digest := stagedDigest s
  s |> setArea (commitArea s) areaEmpty |> discardUpdate |> setUpdErr updErrFlash 0 |> raiseEv Page.upd Ev.updCommitFail
    |> journal who 0x07 0x05 digest updErrFlash

/-- COMMIT (R479): the area is erased and programming begins. -/
def updCommit (m : Master) (s : State) : State :=
  if updState s = updCommitting then updRefuse (some m) updErrState 0 s
  else if updState s ≠ updComplete then updRefuse (some m) updErrIncomplete 0 s
  else if flag s Page.upd Reg.updStatusTrial then updRefuse (some m) updErrTrialPending 0 s
  else if pageFenced s Page.flash then commitFails (some m) s
  else
    { setArea (commitArea s) areaEmpty s with flash := memClear s.flash (areaBase (commitArea s)) (areaSize (updType s)) }
    |> eraseFlash (areaBase (commitArea s) / 65536) (areaSize (updType s) / 65536)
    |> setUpdState updCommitting |> setFlag Page.flash Reg.flashStatusBusy true |> journal (some m) 0x01 (2 ^ 12 * Page.upd + 0x300) 0x03 0

/-- The commit ends (R479): `ok` says that the flash took the image. The area is read back and its BODY_DIGEST checked. -/
def commitDone (ok : Bool) (s : State) : State :=
  if updState s ≠ updCommitting then s
  else
    let i := commitArea s
    let b := areaBase i
    let n := 4096 * (hdrBlocks s.dram updStaging + hdrBodyBlocks s.dram updStaging)
    let flash := memSplice s.flash b (memReadN s.dram updStaging n)
    let s1 := setFlag Page.flash Reg.flashStatusBusy false s
    if !ok || pageFenced s Page.flash || pageFenced s Page.dram || !bodyOk flash b then
      s1 |> raiseIf (!ok) Page.flash Ev.flashProgFail |> commitFails none
    else
      { s1 with flash := flash } |> setArea i areaTrial |> discardUpdate |> raiseEv Page.upd Ev.updCommitDone
      |> journal none 0x07 0x04 (stagedDigest s) 0

/-- CONFIRM (R480): the areas on trial become GOOD. -/
def updConfirm (m : Master) (s : State) : State :=
  let trial := (List.range 4).filter (trialBooted s)
  let digest := match trial with
    | i :: _ => leNat ((hdrDigest s.flash (areaBase i)).take 8)
    | [] => 0
  forEach trial (fun i u => setArea i areaGood u) { s with boot := { s.boot with confirmFrom := none } }
  |> setFlag Page.upd Reg.updStatusTrial false |> setLevel Page.upd Ev.updConfirmDue false |> journal (some m) 0x07 0x07 digest 0

/-- A guarded UPCMD (R476–R480); other codes are ignored. -/
def updCommand (m : Master) (cmd type block : Nat) (defer : Bool) (s : State) : State :=
  match cmd with
  | 1 => updBegin m type defer s
  | 2 => updAbort m s
  | 3 => updCommit m s
  | 4 => updConfirm m s
  | 5 => s |> journal (some m) 0x01 (2 ^ 12 * Page.upd + 0x300) (5 + 2 ^ 16 * block) 0 |> blockFromDram m block
  | _ => s

/-- COMMIT_DONE (R479): `ok` says that the flash took the image. -/
def execCommitDone (ok : Bool) (s : State) : Answer := alive s (commitDone ok s)

/-- The whole scrub pass of DRAM (R487): words corrected, and the offsets of the uncorrectable ones that were met, which stay so until they are
rewritten (R467). -/
def dramScrub (corrected : Nat) (bad : List Nat) (s : State) : State :=
  if !flag s Page.dram Reg.dramCfgScrubEn || pageFenced s Page.dram then s
  else
    s |> addCnt Page.dram Reg.dramCorrCnt corrected |> raiseIf (corrected ≠ 0) Page.dram Ev.dramEccCorr
      |> forEach bad (fun a u => noteDramWord (a / 8) { u with boot := { u.boot with dramBad := u.boot.dramBad.filter (· ≠ a / 8) ++ [a / 8] } })
      |> raiseEv Page.dram Ev.dramScrubDone

/-- DRAM_SCRUB (R487): the words corrected in the pass and the DRAM offsets of those that could not be. -/
def execDramScrub (corrected : Word) (bad : List (BitVec 27)) (s : State) : Answer :=
  alive s (dramScrub corrected.toNat (bad.map BitVec.toNat) s)

end Sys2Proof.Machine
end

