-- ==== Sys2Proof/Machine/Reset.lean ====
section
/-!
DEFINITION. Resets, retention and STANDBY (R11–R15, R389, R454–R465).
-/

namespace Sys2Proof.Machine

open Sys2Proof

/-! ### Retention (R11, R462) -/

/-- Whether a field of class V shows a condition of hardware that runs on through a WARM reset (R460), so that it goes on showing it. -/
def liveField (page : Nat) (f : Fld) : Bool :=
  f.acc = .ro && match kindOf page with
    | .lane => f.off = 0x10 || f.off = 0x40 || f.off = 0x44 || (decide (0x80 ≤ f.off) && (f.off % 0x40 = 0x04 || f.off % 0x40 = 0x0C))
    | .duplex => f.off = 0x10 || f.off = 0x44 || f.off = 0x58
    | .brk => f.off = 0x10 || f.off = 0x44 || f.off = 0x54 || (decide (0x90 ≤ f.off) && f.off % 0x20 = 0x10)
    | .clk | .pcie => f.off = 0x10 || f.off = 0x40
    | .time | .eng | .stn => f.off = 0x10 || f.off = 0x44
    | .tile => f.off = 0x10 || (decide (0x44 ≤ f.off) && decide (f.off ≤ 0x50))
    | .can => f.off = 0x10 || (f.off = 0x44 && !(f.lsb = 9 || f.lsb = 12 || f.lsb = 15))
    | .flash => f.off = 0x10 || (f.off = 0x40 && f.lsb = 1)
    | .key => f.off = 0x10 || (f.off = 0x40 && f.lsb = 4)
    | .gov | .upd => false
    | _ => f.off = 0x10

/-- The class V fields of a page at Rst, but for the conditions in EVT_RAW (R389). -/
def clearPage (page : Nat) (s : State) : State :=
  { s with
    regs := withoutRegs (fun p f => p = page && f.cls = .V && f.off ≠ 0x10) s.regs
    latch := s.latch.filter fun e => !(latchKey page 0 ≤ e.1 && e.1 < latchKey (page + 1) 0)
    access := { s.access with guards := s.access.guards.filter fun g => g.page ≠ page } }

/-! ### The record of resets (R445, R461) -/

/-- UPD.RESET: kind, count, and for a WARM reset the source. -/
def noteReset (kind : Nat) (s : State) : State := s |> setR Page.upd Reg.updResetKind kind |> incCnt Page.upd Reg.updResetCount

/-- The RESET journal entry: the kind, HEAD before the reset. -/
def journalReset (who : Option Master) (kind head : Nat) (s : State) : State := journal who 0x0D kind head 0 s

/-! ### Blocks that a reset empties -/

/-- The bridge's traffic and credits start anew; descriptors, the error log, the sequence number of posted writes and the allocations that
cells are reserved for (R229) stay. -/
def bridgeClear (s : State) : State :=
  let b := s.bridge
  { s with bridge := { bridgeReset with descs := b.descs, pwe := b.pwe, tickets := b.tickets, alloc := b.alloc, held := b.held, quietUntil := cycleNow s + loopCycles s + 2 } }
  |> syncNotices |> syncTags

/-- What stood in the Cabinet is lost with it (R238): requests of this hub end without completion here. -/
def forgetInCab (s : State) : State :=
  let b := s.bridge
  let lost (t : Nat) : Bool := b.out.any fun o => o.inCab && o.cls = 0 && o.tag = t
  { s with bridge := { b with
    out := b.out.filter fun o => !o.inCab
    ingress := b.ingress.filter fun i => !i.inCab
    reqs := b.reqs.map fun e => (e.1, { e.2 with cells := 0, waiter := if lost e.1 then .nobody else e.2.waiter }) } }

/-- The governor after a reset that clears its V fields: what it keeps of the ring's records stays. -/
def govClear (s : State) : State :=
  let g := s.gov
  syncForced { s with gov := { govReset with records := g.records, flightAt := g.flightAt, noDwell := g.noDwell, gate := g.gate, lastChange := g.lastChange } }

/-- A lane page starts anew: every lane loses its link and the enabled ones train (R52). -/
def lanesRestart (p : Side) (s : State) : State :=
  s |> fenceLanes p |> clearPage (Page.lane p)
    |> forEach (List.range 4) (fun n u => u |> setLaneState p n laneDisabled |> laneEnable p n) |> syncLaneLevels p

/-! ### UNIT (R389, R456) -/

/-- What a UNIT reset does to the block of a page beyond its fields (R238, R301, R389). -/
def unitEffects (page : Nat) (s : State) : State :=
  match kindOf page with
  | .gov => govClear s
  | .lane => lanesRestart (if page = 0x10 then .east else .west) s
  | .stn =>
    let st : Side := if page = 0x12 then .east else .west
    setStation st { stationOf s st with originSeen := false } s
  | .duplex => syncElig s
  | .bridge => bridgeClear s
  | .cab => s |> forgetInCab |> cabRebuild
  | .mirror => syncCab { s with cab := { s.cab with mirrorCount := 0, mirrorWait := [] } }
  | .lh => { s with bridge := { s.bridge with tickets := [] } }
  | .i2c => { s with boot := { s.boot with i2c := none } }
  | .tile => syncTile (page - 0x20) s
  | .can => s |> setCan (page - 0xB0) { canOf s (page - 0xB0) with attempt := none, cancels := 0 } |> dropWaiting (page - 0xB0)
  | _ => s

/-- Whether a WARM reset runs: until Newel has started (R460). -/
def warmRuns (s : State) : Bool := s.boot.booting = some 1

/-- UNIT_RESET of a page (R389): ignored where UNIT_RST is 0, and absorbed into a WARM reset that runs (R14). -/
def unitReset (m : Master) (page : Nat) (s : State) : State :=
  if !unitResetPage page || warmRuns s then s
  else
    let head := journalHead s
    s |> removeFence (some m) 2 page |> clearPage page |> unitEffects page |> noteReset 0 |> journalReset (some m) 0 head |> syncElig

/-- The PCIe port and the PCIE page are reset (R456); while a WARM reset runs the request is absorbed, and the link is down all the same (R14). -/
def pcieReset (s : State) : State :=
  if warmRuns s then pcieDown s
  else
  let t := s |> pcieDown |> clearPage Page.pcie |> noteReset 0
  syncElig { t with event := { t.event with msix := [], pba := [] } }

/-- PERST (R456): PERST_N is low. -/
def execPerst (s : State) : Answer := alive s (s |> pcieReset |> setLevel Page.pcie Ev.pciePerst true)

/-- PERST_RELEASE (R456). -/
def execPerstRelease (s : State) : Answer := alive s (setLevel Page.pcie Ev.pciePerst false s)

/-- PCIE_HOT_RESET (R456). -/
def execPcieHotReset (s : State) : Answer := alive s (pcieReset s)

/-! ### WARM (R460, R461) -/

/-- The lanes of ports whose fence a WARM reset removes start again (R52, R441). -/
def lanesResume (ps : List Side) (s : State) : State := forEach ps (fun p u => forEach (List.range 4) (fun n v => laneEnable p n v) u) s

/-- A WARM reset (R460): its source is 0 Newel, 1 RCMD, 2 the confirm window, 3 the life-cycle. -/
def warmReset (who : Option Master) (src : Nat) (s : State) : State :=
  let head := journalHead s
  let kept (page : Nat) (f : Fld) : Bool := (f.cls = .V && !liveField page f) || f.cls = .U
  let s1 := removeFences s
  let s2 := { s1 with
    regs := withoutRegs kept s1.regs, latch := []
    access := { s1.access with guards := [], denials := [] }
    event := { s1.event with levelFaults := [], sequence := none, errTest := false }
    key := { s1.key with running := none }
    cab := { s1.cab with mirrorWait := [], mirrorCount := 0 }
    boot := { s1.boot with i2c := none, dump := none } }
  s2 |> discardUpdate |> govClear |> (fun u => { u with gov := { u.gov with gate := none } })
     |> forgetInCab |> bridgeClear |> (fun u => { u with bridge := { u.bridge with tickets := [], held := [] } }) |> cabRebuild
     |> setFlag Page.evt Reg.evtStatusInfra false |> syncFences |> syncKey |> syncElig
     |> lanesResume ([Side.east, Side.west].filter fun p => pageFenced s (Page.lane p))
     |> setLevel Page.upd Ev.updStandby (flag s Page.upd Reg.updStatusStandby)
     |> setR Page.upd Reg.updResetWarmSrc src |> noteReset 1 |> journalReset who 1 head |> plinthBoot 1

/-- The WARM reset that follows a life-cycle transition out of BLANK or into RETIRED (Transitions table): `lc` is the state before. -/
def takeWarm (lc : Nat) (s : State) : State :=
  if s.key.lc ≠ lc ∧ (lc = 0 ∨ s.key.lc = 4) then warmReset none 3 s else s

/-- CMD_DONE (R417): the running command completes, and a WARM reset follows where a transition ends in one. -/
def execCmdDone (s : State) : Answer := alive s (takeWarm s.key.lc (keyDone s))

/-- KEY_SERVICE (R422). -/
def execKeyService (s : State) : Answer := alive s (takeWarm s.key.lc (keyService s))

/-- The confirm window has passed (R480). -/
def confirmDue (s : State) : Bool :=
  match s.boot.confirmFrom with
  | some t => decide (t + confirmWindow s * 1000000000 ≤ s.time.tb2)
  | none => false

/-- CONFIRM_WINDOW_EXPIRY (R480): at its time by TB2. -/
def execConfirmWindowExpiry (s : State) : Answer := alive s (if confirmDue s then warmReset none 2 s else s)

/-! ### RING, PIN, BOR, POR (R455–R459, R462) -/

/-- The hub as it stands while a larger reset is asserted (R459, R462): class H, flash, fuses and the host's memory are left. -/
def assertReset (kind : Nat) (s : State) : State :=
  let reload (n : Nat) (d : Drawer) : Drawer := if d.st = slotValid ∧ !tagGood n d then { d with material := zeros 64, st := slotBad } else d
  let b := s.boot
  { State.reset with
    pending := s.pending, sent := s.sent, freeCtr := s.freeCtr, flash := s.flash
    regs := selectRegs (fun _ f => f.cls = .H) s.regs
    image := { imageReset with host := s.image.host }
    brk := { brkReset with records := s.brk.records }
    key := { keyReset with
      lc := s.key.lc, svcLeft := s.key.svcLeft, stored := s.key.stored, slots := s.key.stored.map fun e => (e.1, reload e.1 e.2) }
    boot := { bootReset with
      holding := some kind, headBefore := journalHead s, bootsel := b.bootsel, hLost := b.hLost, areas := b.areas, booted := b.booted
      settings := b.settings, applied := b.applied, store := b.store, ckpt := b.ckpt, wear := b.wear, flashBad := b.flashBad } }
  |> rebuildChannels

/-- The journal after a larger reset (R448): the checkpointed entries are reloaded, HEAD leaps, RESTORE and RESET are written, GAP is raised. -/
def restoreJournal (kind : Nat) (s : State) : State :=
  let c := match s.boot.ckpt.getLast? with
    | some e => e.1 + 1
    | none => 0
  let dram := s.boot.ckpt.foldl (fun m e => memWriteN m (journalBase + 32 * (e.1 % 65536)) e.2) s.dram
  { s with dram := dram, boot := { s.boot with ckptFrom := c + 65536 } }
  |> setPair Page.jrnl Reg.jrnlHeadLoSeq Reg.jrnlHeadHi (c + 65536) |> setPair Page.jrnl Reg.jrnlCkptLoSeq Reg.jrnlCkptHi c
  |> journal none 0x0E 0 c 0 |> journalReset none kind s.boot.headBefore |> raiseEv Page.jrnl Ev.jrnlGap

/-- The root at boot (R361): it moves to XTA where XTA qualifies in time, else XTA_LOST is raised. -/
def bootRoot (xta : Bool) (s : State) : State :=
  if xta then setFlag Page.clk Reg.clkStatusRootSrc false s else setLevel Page.clk Ev.clkXtaLost true s

/-- A larger reset ends and the hub boots (R458, R461, R467, R471). Whether XTA qualifies in time is open. -/
def releaseReset (kind : Nat) (s : State) : State :=
  let cold := kind = 5 && s.boot.hLost
  let (x, s0) := freeValue s
  let s1 := { s0 with
    regs := if cold then withoutRegs (fun _ f => f.cls = .H) s0.regs else s0.regs
    boot := { s0.boot with holding := none, hLost := s0.boot.hLost && !cold } }
  s1 |> noteReset kind |> setR Page.upd Reg.updResetBootsel s1.boot.bootsel |> rebuildChannels
     |> setFlag Page.dram Reg.dramStatusInitDone true |> raiseEv Page.dram Ev.dramInitDone |> restoreJournal kind
     |> bootRoot (x % 2 = 0) |> plinthBoot kind |> whenS cold coldStart |> entryAutoOn
     |> forEach [Side.east, Side.west] (fun p u => u |> forEach (List.range 4) (fun n v => laneEnable p n v))
     |> setRoles roleForwarder |> syncCab |> syncWear |> syncKey |> syncDebug |> syncElig

/-- The levels of BOOTSEL1 and BOOTSEL0. -/
def setBootsel (v : Nat) (s : State) : State := { s with boot := { s.boot with bootsel := v } }

/-- VRST (R355, R458): every gate is pulled down and the hub enters HOLD. -/
def execVrst (s : State) : Answer := answer s (if s.boot.holding = some 4 then s else assertReset 4 (gatesDown s))

/-- VHOLD_FALL (R12): VHOLD is below 2.0 V, and the next POR puts the H fields at Rst. -/
def execVholdFall (s : State) : Answer := answer s { s with boot := { s.boot with hLost := true } }

/-- BOR (R458): VIN is back with the core rails up. -/
def execBor (bootsel : Fin 4) (s : State) : Answer :=
  answer s (if s.boot.holding = some 4 then releaseReset 4 (setBootsel bootsel s) else s)

/-- POR (R458): the core rails rise from zero. -/
def execPor (bootsel : Fin 4) (s : State) : Answer :=
  answer s (releaseReset 5 (setBootsel bootsel (if s.boot.holding = some 4 then s else assertReset 5 s)))

/-- PIN_RESET (R455): RESET_N has been low for 1 µs; absorbed in HOLD (R14). -/
def execPinReset (s : State) : Answer := answer s (if s.boot.holding.isSome then s else assertReset 3 s)

/-- RESET_RELEASE (R455): RESET_N has risen, and 10 µs have passed. -/
def execResetRelease (bootsel : Fin 4) (s : State) : Answer :=
  answer s (if s.boot.holding = some 3 then releaseReset 3 (setBootsel bootsel s) else s)

/-! ### STANDBY (R463–R465) -/

/-- STANDBY_ENTER (R463): refused while COMMITTING. The engines go to their safe levels and lose their FIFOs; a CAN frame in progress ends first. -/
def standbyEnter (m : Master) (s : State) : State :=
  if updState s = updCommitting then updRefuse (some m) updErrState 0 s
  else
    { s with boot := { s.boot with standbyRun := !flag s Page.upd Reg.updStatusStandby } }
    |> journal (some m) 0x01 (2 ^ 12 * Page.upd + 0x304) 3 0

/-- A CAN unit leaves the bus for STANDBY: its frame has ended, its mode and SYNC are kept (R15, R463). -/
def standbyCan (n : Nat) (s : State) : State :=
  s |> setCan n { canOf s n with attempt := none } |> setFlag (Page.can n) Reg.canStatusTxBusy false |> dropWaiting n

/-- An engine for STANDBY: its FIFOs are flushed; its registers keep what they hold (R15, R463). -/
def standbyEngine (e : Nat) (s : State) : State := s |> setTxf e [] |> setRxf e []

/-- The gates that STANDBY turns: CAN units, engines, tiles, the IO domain and the CAN group. -/
def standbyGates : List Nat :=
  (List.range 16).map (· + 0xB0) ++ (List.range 128).map (· + 0x30) ++ (List.range 16).map (· + 0x20) ++ [2, 3]

/-- Entry to STANDBY completes (R463). -/
def standbyDone (s : State) : State :=
  if !s.boot.standbyRun then s
  else
    { s with boot := { s.boot with standbyRun := false } }
    |> forEach (List.range 16) standbyCan |> setFlag Page.upd Reg.updStatusStandby true |> forEach (List.range 128) standbyEngine
    |> forEach standbyGates (fun g u => setGate g false u)
    |> flushConsumers (fun c => c = portCan || decide (portTile 0 ≤ c ∧ c ≤ portTile 15))
    |> forEach (List.range 16) syncTile |> setLevel Page.upd Ev.updStandby true

/-- STANDBY_EXIT (R465): the gates are ON again; engines with RUN then start anew and CAN units resynchronise. -/
def standbyExit (m : Master) (s : State) : State :=
  { s with boot := { s.boot with standbyRun := false } }
  |> whenS (flag s Page.upd Reg.updStatusStandby) (fun u => u |> forEach standbyGates.reverse (fun g v => setGate g true v)
       |> forEach (List.range 128) (fun e v => setEngFlag e Reg.engStatusRunning false v)
       |> forEach (List.range 16) (fun n v => setFlag (Page.can n) Reg.canStatusSync false v)
       |> setFlag Page.upd Reg.updStatusStandby false |> setLevel Page.upd Ev.updStandby false |> forEach (List.range 16) syncTile)
  |> journal (some m) 0x01 (2 ^ 12 * Page.upd + 0x304) 4 0

/-- STANDBY (R463): entry completes. -/
def execStandby (s : State) : Answer := alive s (standbyDone s)

/-! ### RCMD (R457, R460, R463) -/

/-- RCMD RING (R457): only from PLINTH, NEWEL and MASTER. -/
def ringReset (m : Master) (s : State) : State :=
  if m.cls.val = classPlinth ∨ m.cls.val = classNewel ∨ m.cls.val = classMaster then releaseReset 2 (assertReset 2 s)
  else journalRefused (some m) 0x0D 2 (journalHead s) s

/-- A guarded RCMD; other codes are ignored. -/
def resetCommand (m : Master) (cmd : Nat) (s : State) : State :=
  match cmd with
  | 1 => warmReset (some m) 1 s
  | 2 => ringReset m s
  | 3 => standbyEnter m s
  | 4 => standbyExit m s
  | _ => s

/-- A guarded CFGCMD (R481, R483, R484): 1 SAVE_CONFIG, 2 SAVE_NODE_RECORD, 3 CLEAR_CONFIG; others are ignored. `ok` says that the flash takes the write. -/
def configCommand (m : Master) (cmd : Nat) (ok : Bool) (s : State) : State :=
  match cmd with
  | 1 =>
    let saved := newelRuns s && ok && !pageFenced s Page.flash
    s |> whenS (!saved) (journal (some m) 0x01 (2 ^ 12 * Page.upd + 0x308) 1 0) |> saveConfig (some m) ok
  | 2 => saveNodeRecord (some m) ok s
  | 3 => s |> journal (some m) 0x01 (2 ^ 12 * Page.upd + 0x308) 3 0 |> clearConfig ok
  | _ => s

end Sys2Proof.Machine
end

