-- ==== Sys2Proof/Machine/Effects.lean ====
section
/-!
DEFINITION. What a write to a register does beyond storing (R7, R388–R395): the effect of every page's own registers, the indirect
pair, the alias images and the guarded registers.
-/

namespace Sys2Proof.Machine

open Sys2Proof

/-- The port of a LANE or STN page. -/
def pageSide (p : Nat) : Side := if p % 2 = 0 then .east else .west

/-- The word that a data port takes: bytes that were not written are free values. -/
def portWord (v mask : Nat) (s : State) : Nat × State :=
  if mask = 0xFFFFFFFF then (v, s)
  else
    let (f, t) := freeValue s
    (mergeMask (f % 2 ^ 32) v mask, t)

/-- The lanes of a port that a write has disabled go to DISABLED (R52). -/
def disableLanes (p : Side) (before s : State) : State :=
  forEach (List.range 4) (fun n u => whenS (laneEnabled before p n && !laneEnabled u p n) (laneDisable p n) u) s

/-- INJ_CTRL (R63): POS above 65 is stored as 65; SINGLE and BURST ask for their flips. -/
def injectWrite (p : Side) (n act : Nat) (s : State) : State :=
  let pg := Page.lane p
  let s1 := setR pg (Reg.laneLInjCtrlPos n) (min 65 (getR s pg (Reg.laneLInjCtrlPos n))) s
  let pos := getR s1 pg (Reg.laneLInjCtrlPos n)
  s1 |> whenS (bit act 16) (fun u => setLane p n { laneOf u p n with single := some pos } u)
     |> whenS (bit act 17) (fun u => setLane p n { laneOf u p n with burst := some (pos, getR u pg (Reg.laneLInjCtrlBurstM1 n) + 1) } u)

/-- A write to a LANE page. `act` holds the written ones. -/
def laneEffect (p : Side) (off act : Nat) (before s : State) : State :=
  if off = 0x40 then s |> whenS (bit act 8) (laneCntClear p) |> disableLanes p before |> syncRate p
  else if 0x80 ≤ off ∧ off < 0x180 ∧ off % 0x40 = 0 then disableLanes p before s
  else if 0x80 ≤ off ∧ off < 0x180 ∧ off % 0x40 = 0x14 then injectWrite p ((off - 0x80) / 0x40) act s
  else s

/-- A write to the DUPLEX page (R161, R164, R165, R176). -/
def duplexEffect (m : Master) (off v mask act : Nat) (s : State) : State :=
  let nonce (f : Fld) : State := setR Page.duplex f (mergeMask (getR s Page.duplex f) v mask) s
  if off = 0x40 then s |> syncElig |> takeRingKey
  else if off = 0x64 then syncElig s
  else if off = 0x68 then whenS (bit act 0) hostKick s
  else if 0x78 ≤ off ∧ off ≤ 0x88 then syncGates s
  else if off = 0xCC then nonce Reg.duplexJoinNonceLo
  else if off = 0xD0 then joinNonceHi (masterNodeOf m) (nonce Reg.duplexJoinNonceHi)
  else s

/-- One byte into the CRC-8 of the SMBus packet error code (R216): polynomial x⁸ + x² + x + 1, most significant bit first. -/
def crc8Byte (crc : Nat) (b : Byte) : Nat :=
  (List.range 8).foldl (fun c _ => if c ≥ 128 then (2 * c % 256) ^^^ 7 else 2 * c) (crc ^^^ b.toNat)

/-- The SMBus PEC over the bytes of a transaction, address bytes included, from initial value 0 (PRESUMED, log entry 195). -/
def smbusPec (bytes : List Byte) : Nat := bytes.foldl crc8Byte 0

/-- The address byte of an I²C transfer: the 7-bit address, then the direction, 0 a write and 1 a read. -/
def i2cAddress (addr7 : Nat) (read : Bool) : Byte := BitVec.ofNat 8 (2 * addr7 + read.toNat)

/-- The bytes an I²C write puts after its address: the data, and with PEC set the SMBus PEC (R216); none when WLEN is 0. -/
def i2cWritten (addr7 : Nat) (bytes : List Byte) (pec : Bool) : List Byte :=
  if pec && !bytes.isEmpty then bytes ++ [BitVec.ofNat 8 (smbusPec (i2cAddress addr7 false :: bytes))] else bytes

/-- The PEC byte a read of `data` must be followed by (R216): over all the bytes of the transaction before it (log entry 195). -/
def i2cReadPec (addr7 : Nat) (bytes data : List Byte) : Nat :=
  let written := if bytes.isEmpty then [] else i2cAddress addr7 false :: i2cWritten addr7 bytes true
  smbusPec (written ++ i2cAddress addr7 true :: data)

/-- One I²C transaction begins with GO (R216); a GO while BUSY is ignored. -/
def i2cGo (s : State) : State :=
  if flag s Page.i2c Reg.i2cStatusBusy then s
  else
    let g (f : Fld) := getR s Page.i2c f
    let wlen := min 32 (g Reg.i2cXferWlen)
    let rlen := min 32 (g Reg.i2cXferRlen)
    let bytes := ((List.range 8).flatMap fun i => leBytes 4 (g (Reg.i2cData i))).take wlen
    let pec := flag s Page.i2c Reg.i2cXferPec
    emit (.i2c (g Reg.i2cXferAddr7) (i2cWritten (g Reg.i2cXferAddr7) bytes pec) rlen (pec && decide (rlen ≠ 0)))
      { s with boot := { s.boot with i2c := some (g Reg.i2cXferAddr7, bytes, rlen, pec) } }
    |> setFlag Page.i2c Reg.i2cStatusBusy true

/-- A write to the CAB page (R244–R246). -/
def cabEffect (m : Master) (off v mask act word : Nat) (s : State) : State :=
  if off = 0x78 then whenS (bit act 0) cabCntClear s
  else if off = 0x84 then accCommand m.cls.val (bits act 3 0) (bits act 13 4) (bits act 17 16) s
  else if off = 0x88 then
    let (w, t) := portWord v mask s
    accPut m.cls.val w t
  else if 0xA0 ≤ off ∧ off < 0xE0 ∧ off % 0x10 = 0 then bulkCtrlWrite ((off - 0xA0) / 0x10) (bits word 15 4) (bit word 0) s
  else s

/-- A write to an ENG page (R248, R264, R271, R272, R275). -/
def engEffect (e off v mask act word : Nat) (s : State) : State :=
  if off = 0x48 then setEng e { engOf s e with divNew := true } s
  else if off = 0x6C then pinmapWrite e word s
  else if off = 0x74 then
    let (w, t) := portWord v mask s
    pagePush e w t
  else if off = 0x7C then s |> whenS (bit act 0) (setTxf e []) |> whenS (bit act 1) (setRxf e [])
  else if off = 0x94 then whenS (bit act 0) (engCntClear e) s
  else if off = 0xA0 then swapWrite e (bits word 1 0) (bit word 2) (bit act 8) (bit act 9) s
  else s

/-- A write to a CAN page (R282, R293–R299). -/
def canEffect (n off act word : Nat) (s : State) : State :=
  if off = 0x40 then canModeWrite n (bits word 2 0) s
  else if off = 0x60 then txbRequest n act s
  else if off = 0x68 then txbCancel n act s
  else if off = 0x70 then txbUnpark n act s
  else if off = 0x98 then whenS (bit act 0) (canCntClear n) s
  else if off = 0x9C then whenS (bit act 0) (canRecover n) s
  else s

/-- A write to the TIME page (R318–R320). -/
def timeEffect (m : Master) (off act : Nat) (s : State) : State :=
  if off = 0xB4 then s |> whenS (bit act 0) tb1Set |> whenS (bit act 1) todArm |> whenS (bit act 2) (stepTb3 (some m)) else s

/-- A write to the TRIG page (R321, R325). -/
def trigEffect (off act word : Nat) (s : State) : State :=
  if 0x80 ≤ off ∧ off < 0x100 then cmpCfgWrite ((off - 0x80) / 4) (bits word 1 0) (bits word 3 2) (bits word 4 4) (bit act 5) s
  else if 0x200 ≤ off ∧ off < 0x280 then whenS (bit act 20) (captureUnit ((off - 0x200) / 4)) s
  else s

/-- A write to KEY.REQ_BASE (R422): with SVC_EN from 0 to 1 the records may be refused anew. -/
def keyEffect (off : Nat) (before s : State) : State :=
  if off = 0x7C ∧ !flag before Page.key Reg.keyReqBaseSvcEn ∧ flag s Page.key Reg.keyReqBaseSvcEn then
    { s with key := { s.key with refused := [] } }
  else s

/-- What a write does on its page beyond storing. `act` holds the written ones, `word` the word as it stands after the write. -/
def ownEffect (m : Master) (p off v mask act word : Nat) (before s : State) : State :=
  match kindOf p with
  | .lane => laneEffect (pageSide p) off act before s
  | .stn => whenS (off = 0x40 && bit act 8) (stationCntClear (pageSide p)) s
  | .img =>
    if off = 0x70 then whenS (bit act 0) imgCntClear s
    else if off = 0x40 ∨ (0x54 ≤ off ∧ off ≤ 0x60) then syncElig s else s
  | .duplex => duplexEffect m off v mask act s
  | .bridge =>
    if off = 0x58 then whenS (bit act 0) pwePop s
    else if off = 0x78 then whenS (bit act 0) noticePop s
    else whenS (off = 0xA8 && bit act 0) bridgeCntClear s
  | .i2c => whenS (off = 0x44 && bit act 28) i2cGo s
  | .cab => cabEffect m off v mask act word s
  | .mirror => whenS (off = 0x54 && bit act 0) mirrorCntClear s
  | .eng => engEffect (p - 0x30) off v mask act word s
  | .tile =>
    if off = 0x40 then tileCfgWrite (p - 0x20) (bits word 1 0) (bits word 2 2) s
    else whenS (decide (0x60 ≤ off ∧ off < 0xE0)) (syncTile (p - 0x20)) s
  | .can => canEffect (p - 0xB0) off act word s
  | .time => timeEffect m off act s
  | .trig => trigEffect off act word s
  | .clk => if off = 0x48 then gateCommand m.cls.val (bits act 7 0) (bits act 9 8) s else s
  | .gov => whenS (off = 0x98 && bit act 0) govCntClear s
  | .acc => whenS (off = 0x44 && bit act 0) denyPop s
  | .key => keyEffect off before s
  | .debug => whenS (off = 0x40) syncDebug s
  | .dram => whenS (off = 0x54 && bit act 0) (clearAll p [Reg.dramCorrCnt, Reg.dramUncorrCnt]) s
  | .flash => whenS (off = 0x54 && bit act 0) (clearAll p [Reg.flashCorrCnt, Reg.flashUncorrCnt]) s
  | _ => s

/-- Bits of a written word that no register takes now: those its own effect stores or keeps, the modes of a CAN channel and its timing outside
CONFIG (R281–R283), TB1_RATE while the servo sets it (R319), enables of event sources that do not exist (R430). -/
def keptBits (s : State) (p off : Nat) : Nat :=
  let all_ := 0xFFFFFFFF
  if off = 0x18 then all_ ^^^ (2 ^ kindEvents (kindOf p) - 1)
  else match kindOf p with
  | .cab => if 0xA0 ≤ off ∧ off < 0xE0 ∧ off % 0x10 = 0 then all_ else if off = 0x88 then all_ else 0
  | .eng => if off = 0x6C ∨ off = 0xA0 then all_ else 0
  | .tile => if off = 0x40 then all_ else 0
  | .can =>
    if off = 0x40 then 7 + (if canMode s (p - 0xB0) = canConfig then 0 else 8)
    else if 0x4C ≤ off ∧ off ≤ 0x58 ∧ canMode s (p - 0xB0) ≠ canConfig then all_ else 0
  | .time => if off = 0x90 ∧ flag s Page.time Reg.timeTb1CfgSrc then all_ else 0
  | .trig => if 0x80 ≤ off ∧ off < 0x100 then all_ else 0
  | _ => 0

/-- A write to the common registers beyond storing (R388, R433, R434). -/
def commonEffect (p off act : Nat) (before s : State) : State :=
  if off = 0x08 then setSticky p (act &&& 0xFFFF) s
  else if off = 0x18 ∨ off = 0x1C then
    let g := getR before p Reg.comEvtGroup
    let g' := getR s p Reg.comEvtGroup
    raiseChanged (if g = g' then [g] else [g, g']) before s
  else s

/-- A write to a base offset below the guarded windows, IND_DATA apart: stored where the mask has ones, then its effect (R390). -/
def writeWord (m : Master) (p off v mask : Nat) (s : State) : State :=
  if mask = 0 then s
  else
    let act := v &&& mask
    let word := mergeMask (storedWord s m p off) v mask
    let t := storeRw m p off v (mask &&& (keptBits s p off ^^^ 0xFFFFFFFF)) s
    if off < 0x40 then commonEffect p off act s t else ownEffect m p off v mask act word s t

/-! ### The indirect pair (R394, R395) -/

/-- Whether an existing index of an indirect space may not be written. -/
def indReadOnly (p addr : Nat) : Bool :=
  match kindOf p, indSpace (kindOf p) addr with
  | .acc, _ | .key, _ | .evt, _ | .jrnl, _ | .img, _ => true
  | .eng, k => decide (2 ≤ k)
  | .bridge, 1 => true
  | .cab, 1 => true
  | .cab, _ => decide (2 ≤ addr % 8)
  | .can, 1 => decide (19 ≤ addr % 32)
  | .can, 2 => true
  | _, _ => false

/-- A word stored at an indirect index: none where the page refuses it. -/
def indStore (m : Master) (p addr v : Nat) (s : State) : State × Bool :=
  match kindOf p with
  | .stair => (loadWord (addr % 2 ^ 32) v s, true)
  | .upd => (updWord (some m) (indIndex .upd addr) v s, true)
  | .eng => match engIndWrite (p - 0x30) addr v s with
    | some t => (t, true)
    | none => (s, false)
  | .brk => match brkIndWrite addr v s with
    | some t => (t, true)
    | none => (s, false)
  | .bridge => match descWrite (addr % 2 ^ 14) v s with
    | some t => (t, true)
    | none => (raiseEv Page.bridge Ev.bridgeDescRefused s, false)
  | .cab =>
    let q := bits addr 14 3
    (cabIndWrite addr v s, !((systemQueue q && !(q = 0x22 && addr % 8 = 0)) || (!systemQueue q && (queueOf s q).en)))
  | .can => (canIndWrite (p - 0xB0) addr v s, true)
  | _ => (s, true)

/-- A write of IND_DATA (R394, R395): stored or refused, and IND_ADDR advances. A narrow write changes only its bytes of the item. -/
def writeIndData (m : Master) (p v mask : Nat) (s : State) : State :=
  let addr := indAddr s m p
  let t := match indFault s (kindOf p) addr with
    | some e => setIndErr m p e s
    | none =>
      if indReadOnly p addr then setIndErr m p indErrReadOnly s
      else
        let (u, ok) := indStore m p addr (mergeMask (if mask = 0xFFFFFFFF then 0 else indItem s p addr) v mask) s
        if ok then u else setIndErr m p indErrRefused u
  indStep m p t

/-! ### Aliases (R391, R432, R433) -/

/-- The event groups of some pages, each once. -/
def groupsOf (s : State) (ps : List Nat) : List Nat := (ps.map fun p => getR s p Reg.comEvtGroup).eraseDups

/-- Sticky bits of pages cleared: a group left asserted is raised again, and a level that still stands is set again (R431, R433). -/
def clearEvents (ps : List (Nat × Nat)) (s : State) : State :=
  let s1 := forEach ps (fun e u => setR e.1 Reg.comEvtSticky (getR u e.1 Reg.comEvtSticky &&& (e.2 ^^^ 0xFFFF)) u) s
  let s2 := forEach ((groupsOf s1 (ps.map (·.1))).filter fun g => groupAsserted s1 g) raiseGroup s1
  forEach ps (fun e u => setSticky e.1 (getR u e.1 Reg.comEvtRaw) u) s2

/-- The pages and bits that one word of SRC_STICKY covers, with the bits to clear. -/
def srcPages (w v : Nat) : List (Nat × Nat) :=
  let hits := (List.range 32).filterMap fun b => (sourceOf (32 * w + b)).map fun pk => (pk.1, if bit v b then 2 ^ pk.2 else 0)
  ((hits.map (·.1)).eraseDups).map fun p => (p, ((hits.filter fun h => h.1 = p).map (·.2)).foldl (· ||| ·) 0)

/-- Bits cleared through the CLR alias in the sticky fields of a word. -/
def clearSt (m : Master) (p off v : Nat) (s : State) : State :=
  if off = 0x14 then clearEvents [(p, v &&& 0xFFFF)] s
  else if p = Page.evt ∧ 0x100 ≤ off ∧ off < 0x180 then clearEvents (srcPages ((off - 0x100) / 4) v) s
  else
    let t := clearSticky m p off v s
    whenS (p = Page.evt && off = 0x60 && bit v 0) (setFlag p Reg.evtDumpStatusValid false) t

/-- The RW bits of a word that an alias may change. -/
def rwBits (p off : Nat) : Nat := accMaskOf p off fun a => a = .rw

/-- Whether a base offset is a data port, which has no alias action. -/
def dataPort (p off : Nat) : Bool := off = 0x34 || (p = Page.cab && off = 0x88)

/-- A write through an alias (R391): `k` is 1 SET, 2 CLR, 3 TGL, `off` the base offset below the guarded windows. -/
def aliasWrite (m : Master) (k p off v mask : Nat) (s : State) : State :=
  let b := v &&& mask
  let old := storedWord s m p off
  if off = 0x34 then setIndErr m p indErrRefused s
  else if dataPort p off then s
  else match k with
    | 1 => writeWord m p off 0xFFFFFFFF (b &&& rwBits p off) s
    | 2 => s |> writeWord m p off 0 (b &&& rwBits p off) |> clearSt m p off b
    | _ => writeWord m p off (old ^^^ 0xFFFFFFFF) (b &&& rwBits p off) s

/-! ### Guarded registers (R392, R393, R446) -/

/-- How a guarded write ends for the journal: by a GUARDED entry, by an entry of its command's own class, by a refusal whose page gives no
code. -/
inductive GuardEnd where
  | plain | own | refused
deriving DecidableEq, Repr

/-- A refusal, or an acceptance, of a command without a class of its own. -/
def endIf (refused : Bool) : GuardEnd := if refused then .refused else .plain

/-- A guarded write of STN.QCMD (R144, R145). -/
def stationCommand (st : Side) (cmd : Nat) (s : State) : State × GuardEnd :=
  match cmd with
  | 1 => (armOpen st s, endIf (armRefused s st))
  | 2 => (disarm st s, .plain)
  | 3 => (quarantineCmd st s, .plain)
  | _ => (s, .plain)

/-- A guarded write of CAB.QCMD (R228). -/
def cabCommand (q cmd : Nat) (s : State) : State × GuardEnd :=
  let t := whenS (systemQueue q) (forgetFlushed q) (queueCommand q cmd s)
  (t, endIf ((cmd = 1 && (systemQueue q || !(queueOf t q).en)) || (cmd = 2 && systemQueue q)))

/-- A guarded write of FCMD (R436): a FENCE that begins has its own entry. -/
def faultWrite (m : Master) (page cmd : Nat) (s : State) : State × GuardEnd :=
  let t := faultCommand m page cmd s
  (t, if cmd = 1 && (journalHead t ≠ journalHead s || t.event.held ≠ s.event.held) then .own else .plain)

/-- What a guarded write does on its page beyond storing, and how the journal records it. -/
def guardedEffect (m : Master) (p off v : Nat) (s : State) : State × GuardEnd :=
  let cmd := v % 256
  if off = 0x37C then (if cmd = 0x5A && unitResetPage p then (unitReset m p s, .own) else (s, .plain))
  else match kindOf p, off with
    | .lane, off => if off < 0x310 then (laneModeWrite (pageSide p) ((off - 0x300) / 4) (v % 4) s, .plain) else (s, .plain)
    | .stair, 0x300 => (stairCommand (some m) cmd s, .own)
    | .stn, 0x308 => stationCommand (pageSide p) cmd s
    | .duplex, 0x300 => if cmd = 1 then (let r := yieldCommand s; (r.1, endIf r.2)) else (s, .plain)
    | .duplex, 0x304 => (joinCommand cmd (bits v 15 8) s, .plain)
    | .bridge, 0x304 => (accRow (some m) v s, .own)
    | .cab, 0x300 => (auditCommand (some m) cmd s, if cmd = 1 then .own else .plain)
    | .cab, 0x304 => cabCommand (bits v 11 0) (bits v 15 12) s
    | .time, 0x300 =>
      if cmd = 1 then (match resync (some m) s with
        | some t => (t, .own)
        | none => (s, .refused))
      else if cmd = 2 then (exchangeNow s, .plain) else (s, .plain)
    | .brk, 0x300 => (breakerCommand (some m) (bits v 3 0) (bits v 11 8) s,
        if bits v 3 0 < 9 ∧ 1 ≤ bits v 11 8 ∧ bits v 11 8 ≤ 4 then .own else .plain)
    | .clk, 0x300 =>
      if cmd = 1 then (match xtaSelect s with
        | some t => (t, .plain)
        | none => (s, .refused))
      else (s, .plain)
    | .acc, 0x304 => (rowVal (some m) v s, .own)
    | .key, 0x300 => (keyCommand m cmd s, .own)
    | .evt, 0x300 => faultWrite m cmd (bits v 15 8) s
    | .jrnl, 0x300 => (whenS (cmd = 1) startCheckpoint s, .plain)
    | .upd, 0x300 => (updCommand m cmd (bits v 8 8) (bits v 31 16) (bit v 9) s, if 1 ≤ cmd ∧ cmd ≤ 5 then .own else .plain)
    | .upd, 0x304 => (resetCommand m cmd s, if 1 ≤ cmd ∧ cmd ≤ 4 then .own else .plain)
    | .upd, 0x308 => (configCommand m cmd (!s.boot.flashFail) s, if 1 ≤ cmd ∧ cmd ≤ 3 then .own else .plain)
    | _, _ => (s, .plain)

/-- A guarded write that succeeds (R393): stored, carried out and journaled. `off` is the register's offset in the page. -/
def guardedWrite (m : Master) (p off v : Nat) (s : State) : State :=
  let target := 2 ^ 12 * p + off
  let (t, e) := guardedEffect m p off v (storeGuarded p off v s)
  match e with
  | .plain => journal (some m) 0x01 target v 0 t
  | .own => t
  | .refused => journalRefused (some m) 0x01 target v t

/-! ### The guarded sequence (R392) -/

/-- The pending value of a class on a page set or dropped. -/
def setGuard (p cls : Nat) (g : Option GuardPend) (s : State) : State :=
  { s with access := { s.access with guards := (s.access.guards.filter fun x => !(x.page = p && x.cls = cls)) ++ g.toList } }

/-- Whether more than 2 µs have passed since the value. -/
def guardExpired (s : State) (g : GuardPend) : Bool := decide (g.at_ + 2000 < s.time.tb2)

/-- The 2 µs of a pending value have passed (R392): it is discarded with TIMEOUT. -/
def guardTimeoutDue (p cls : Nat) (s : State) : State :=
  match guardOf s p cls with
  | none => s
  | some g =>
    if guardExpired s g then
      s |> setGuard p cls none |> guardFail { cls := Fin.ofNat 15 cls, ifc := if g.node = 0 then 0 else 5, node := BitVec.ofNat 8 g.node } p g.off guardTimeout
    else s

/-- A write of the value window: the value becomes pending (R392). -/
def guardValue (m : Master) (p n v : Nat) (s : State) : State :=
  let g : GuardPend := { page := p, cls := m.cls.val, node := masterNodeOf m, off := n, value := v, at_ := s.time.tb2 }
  s |> (fun u => match guardOf u p m.cls.val with
        | some old => guardFail m p old.off guardSequence u
        | none => u)
    |> setGuard p m.cls.val (some g)

/-- A write of the complement window: the guarded write succeeds or fails (R392). The value of another node of the class leaves no pending value
for this master. -/
def guardComplement (m : Master) (p n v : Nat) (s : State) : State :=
  match guardOf s p m.cls.val with
  | none => guardFail m p n guardSequence s
  | some g =>
    if g.node ≠ masterNodeOf m then guardFail m p n guardSequence s
    else
      let s1 := setGuard p m.cls.val none s
      if g.off ≠ n ∨ g.value ^^^ v ≠ 0xFFFFFFFF then guardFail m p g.off guardMismatch s1
      else guardedWrite m p (0x300 + n) g.value s1

/-- Any other write of the master to a page with its value pending discards it (R392). -/
def guardInterrupt (m : Master) (p : Nat) (s : State) : State :=
  match guardOf s p m.cls.val with
  | some g => if g.node = masterNodeOf m then s |> setGuard p m.cls.val none |> guardFail m p g.off guardInterrupted else s
  | none => s

/-- A narrow write to a window (R392): ignored with WIDTH, which also reports a pending value. -/
def guardNarrow (m : Master) (p n : Nat) (s : State) : State :=
  match guardOf s p m.cls.val with
  | some g => if g.node = masterNodeOf m then s |> setGuard p m.cls.val none |> guardFail m p g.off guardWidth else guardFail m p n guardWidth s
  | none => guardFail m p n guardWidth s

/-- An access of up to one word that writes a page (R390–R392): `off` is the word's offset in the page, `mask` the written bits. A clear
through the CLR alias comes before the event of a guarded sequence that the same write ends: the event is not lost to it (R8). -/
def pageWrite (m : Master) (p off v mask : Nat) (s : State) : State :=
  let base := baseOffset off
  let s1 := guardTimeoutDue p m.cls.val s
  if 0x400 ≤ off then
    let s2 := guardInterrupt m p s1
    if 0x300 ≤ base then guardFail m p ((base - 0x300) % 0x80) guardAlias s2
    else if off / 0x400 = 2 then s |> aliasWrite m 2 p base v mask |> guardTimeoutDue p m.cls.val |> guardInterrupt m p
    else aliasWrite m (off / 0x400) p base v mask s2
  else if 0x300 ≤ base then
    if mask ≠ 0xFFFFFFFF then guardNarrow m p ((base - 0x300) % 0x80) s1
    else if base < 0x380 then guardValue m p (base - 0x300) v s1
    else guardComplement m p (base - 0x380) v s1
  else
    let s2 := guardInterrupt m p s1
    if base = 0x34 then writeIndData m p v mask s2 else writeWord m p base v mask s2

end Sys2Proof.Machine
end

