-- ==== Sys2Proof/Machine/Bus.lean ====
section
/-!
DEFINITION. Accesses of masters to the local map (R182, R390, R402, R403) and the commands of the opcode table that are such accesses.
-/

namespace Sys2Proof.Machine

open Sys2Proof

/-! ### Words and bytes (R390) -/

/-- The words that a written byte string covers: word offset, value, mask. A 64-bit access is two words at ascending offsets. -/
def wordPart (off : Nat) (bs : List Byte) : Nat × Nat × Nat :=
  let sh := 2 ^ (8 * (off % 4))
  (off / 4 * 4, leNat bs * sh, (2 ^ (8 * bs.length) - 1) * sh)

/-- The bytes of an access of n bytes that a word at its offset holds. -/
def wordBytes (off n word : Nat) : List Byte := leBytes n (word / 2 ^ (8 * (off % 4)))

/-! ### The MSI-X table and PBA (R387, R433) -/

/-- Entry v of the MSI-X table. -/
def msixEntry (s : State) (v : Nat) : MsixEntry := storeGet { addr := 0, data := 0, ctrl := 1 } s.event.msix v

/-- A word of pages 0xE0 and 0xE1. -/
def msixWord (s : State) (p off : Nat) : Nat :=
  if p = 0xE0 then
    let e := msixEntry s (off / 16)
    if 0x800 ≤ off then 0
    else match off % 16 / 4 with
      | 0 => e.addr % 2 ^ 32
      | 1 => e.addr / 2 ^ 32
      | 2 => e.data
      | _ => e.ctrl
  else if off < 16 then
    ((List.range 32).map fun b => 2 ^ b * storeGet 0 s.event.pba (8 * off + b)).foldl (· + ·) 0
  else 0

/-- A word written to the MSI-X table; a vector unmasked while its PBA bit stands is sent (R433). -/
def msixWrite (p off v mask : Nat) (s : State) : State :=
  if p ≠ 0xE0 ∨ 0x800 ≤ off then s
  else
    let n := off / 16
    let e := msixEntry s n
    let w := mergeMask (msixWord s p off) v mask
    let e' : MsixEntry := match off % 16 / 4 with
      | 0 => { e with addr := e.addr / 2 ^ 32 * 2 ^ 32 + w }
      | 1 => { e with addr := e.addr % 2 ^ 32 + 2 ^ 32 * w }
      | 2 => { e with data := w }
      | _ => { e with ctrl := w % 2 }
    let t := { s with event := { s.event with msix := storePut n e' s.event.msix } }
    if e'.ctrl = 0 ∧ storeGet 0 s.event.pba n = 1 then
      emit (.msix n) { t with event := { t.event with pba := storeDel n t.event.pba } }
    else t

/-! ### Regions (R182) -/

/-- One word of a page read by a master: through an alias, what the base offset returns (R391). -/
def readPage (m : Master) (p off : Nat) (s : State) : Nat × State :=
  if p = 0xE0 ∨ p = 0xE1 then (msixWord s p off, s) else readRegister m p (baseOffset off) s

/-- n bytes of a page read by a master. -/
def readPageBytes (m : Master) (p off n : Nat) (s : State) : List Byte × State :=
  let (w, s1) := readPage m p (off / 4 * 4) s
  (wordBytes off n w, s1)

/-- A read of flash meets an uncorrectable word (R488). -/
def noteFlashWord (w : Nat) (s : State) : State :=
  s |> incCnt Page.flash Reg.flashUncorrCnt |> setR Page.flash Reg.flashErrAddr (8 * w) |> raiseEv Page.flash Ev.flashEccUncorr

/-- The uncorrectable words among those that n bytes from an offset on touch. -/
def badWords (bad : List Nat) (off n : Nat) : List Nat := bad.filter fun w => decide (8 * w < off + n ∧ off < 8 * w + 8)

/-- A read of n bytes that has been decided: status, bytes. Flash that is fenced, and an uncorrectable word, give BUS_ERR (R467, R485, R488). -/
def readRegion (m : Master) (r : MapRegion) (n : Nat) (s : State) : Nat × List Byte × State :=
  match r with
  | .page p off => let x := readPageBytes m p off n s; (stOk, x.1, x.2)
  | .committed off => (stOk, memReadN s.image.committed off n, s)
  | .staging off => (stOk, memReadN s.image.staging off n, s)
  | .dram off =>
    match badWords s.boot.dramBad off n with
    | [] => (stOk, memReadN s.dram off n, s)
    | w :: _ => (stBusErr, [], noteDramWord w s)
  | .flash off =>
    if pageFenced s Page.flash then (stBusErr, [], s)
    else
      match badWords s.boot.flashBad off n with
      | [] => (stOk, flashRead s off n, s)
      | w :: _ => (stBusErr, [], noteFlashWord w s)
  | .partner _ _ | .nothing => (stDecode, [], s)

/-- A write that has been decided. -/
def writeRegion (m : Master) (r : MapRegion) (bs : List Byte) (s : State) : State :=
  match r with
  | .page p off =>
    let (o, v, mask) := wordPart off bs
    if p = 0xE0 ∨ p = 0xE1 then msixWrite p o v mask s else pageWrite m p o v mask s
  | .committed off => { s with image := { s.image with committed := memWriteN s.image.committed off bs } }
  | .dram off => dramWrite off bs s
  | .staging _ | .flash _ | .partner _ _ | .nothing => s

/-- The kind of a write for its decision: guarded where it touches the guarded windows of a page (R392, R397). -/
def writeKind (a n : Nat) : AccessKind :=
  match mapRegion a n with
  | .page p off => if kindOf p ≠ .none ∧ 0x300 < off + n ∧ off < 0x400 then .guarded else .write
  | _ => .write

/-- Whether an access of JTAG finds debug access not available (R429): it reaches nothing and is not decided. -/
def dapBlocked (s : State) (m : Master) : Bool := (m.cls.val = classDebug || m.ifc.val = 4) && !debugAvailable s

/-- How an access is decided: a write by the offsets it touches. -/
def accessKind (write : Bool) (a n : Nat) : AccessKind := if write then writeKind a n else .read

/-- One access that no partner serves, decided and carried out (R402, R403): status, bytes read, state. -/
def accessOnce (m : Master) (write : Bool) (a n : Nat) (bs : List Byte) (s : State) : Nat × List Byte × State :=
  let k := accessKind write a n
  let v := decide_ s m k a n
  let s1 := noteVerdict v m k a s
  match v with
  | .ok => if write then (stOk, [], writeRegion m (mapRegion a n) bs s1) else readRegion m (mapRegion a n) n s1
  | .absent | .gated => (stOk, zeros (if write then 0 else n), s1)
  | v => (v.status, [], s1)

/-- Whether an access is a 64-bit access to a register page. -/
def pagePair (a n : Nat) : Bool :=
  match mapRegion a n with
  | .page _ off => n = 8 && off % 4 = 0
  | _ => false

/-- An access that no partner serves. A 64-bit access to a register page is performed as two 32-bit accesses at ascending offsets (R390). -/
def accessHere (m : Master) (write : Bool) (a n : Nat) (bs : List Byte) (s : State) : Nat × List Byte × State :=
  if pagePair a n then
    let x := accessOnce m write a 4 (bs.take 4) s
    let y := accessOnce m write (a + 4) 4 (bs.drop 4) x.2.2
    if x.1 ≠ stOk then (x.1, [], y.2.2) else if y.1 ≠ stOk then (y.1, [], y.2.2) else (stOk, x.2.1 ++ y.2.1, y.2.2)
  else accessOnce m write a n bs s

/-- The partner transaction that an access runs: partner and offset, where it is decided `ok`. -/
def partnerTarget (s : State) (m : Master) (write : Bool) (a n : Nat) : Option (Nat × Nat) :=
  match mapRegion a n with
  | .partner p off => if decide_ s m (accessKind write a n) a n = .ok then some (p, off) else none
  | _ => none

/-- Whether an access waits for the bus-idle handshake of its target, whose gate is to turn OFF (R364). -/
def gateHolds (s : State) (m : Master) (write : Bool) (a n : Nat) : Bool :=
  match s.gov.gate with
  | some (t, false) =>
    (match mapRegion a n with
     | .page p _ => pageGate p = some t
     | .partner _ _ => pageGate Page.bridge = some t
     | _ => false) && decide (decide_ s m (accessKind write a n) a n = .ok)
  | _ => false

/-- An access is held (R364). -/
def holdAccess (x : HeldAccess) (s : State) : State := { s with bridge := { s.bridge with held := s.bridge.held ++ [x] } }

/-- An access of a master, decided and carried out where it executes (R402, R403), or held (R364). `port` is the Cabinet port that a partner
transaction comes from. -/
def access (w : Waiter) (port : Nat) (m : Master) (write : Bool) (a n : Nat) (bs : List Byte) (s : State) : State :=
  let len := if write then 0 else n
  if dapBlocked s m then s |> dapDenied |> endAccess w a len stDenied []
  else if gateHolds s m write a n then holdAccess { waiter := w, port := port, m := m, write := write, addr := a, len := n, data := bs } s
  else
    match partnerTarget s m write a n with
    | some (p, off) => partnerAccess port w p off n write bs s
    | none =>
      let x := accessHere m write a n bs s
      endAccess w a len x.1 x.2.1 x.2.2

/-- The held accesses go on in their order, once the gate has turned OFF or the request has been refused (R364). -/
def releaseHeld (s : State) : State :=
  forEach s.bridge.held (fun x u => access x.waiter x.port x.m x.write x.addr x.len x.data u) { s with bridge := { s.bridge with held := [] } }

/-- GATE_DONE (R364). -/
def execGateDone (s : State) : Answer := alive s (releaseHeld (gateDone s))

/-- GATE_BUSY (R364). -/
def execGateBusy (s : State) : Answer := alive s (releaseHeld (gateStillBusy s))

/-- The Cabinet port of an interface (R221). -/
def portOfInterface (m : Master) : Nat := match m.ifc.val with
  | 0 => portPcie
  | 1 => portLocal
  | 2 => portNewel
  | _ => portHub

/-- Who waits for a write on an interface: a processor or JTAG is told of its outcome, a posted write of the others is not (R403). -/
def writeWaiter (m : Master) : Waiter := if 2 ≤ m.ifc.val ∧ m.ifc.val ≤ 4 then .master m else .nobody

/-- A write of a master through its own interface. -/
def busWrite (m : Master) (a : Nat) (bs : List Byte) (s : State) : State := access (writeWaiter m) (portOfInterface m) m true a bs.length bs s

/-- A read of a master through its own interface. -/
def busRead (m : Master) (a n : Nat) (s : State) : State := access (.master m) (portOfInterface m) m false a n [] s

/-- A 32-bit write to a register. -/
def regWrite (m : Master) (p off v : Nat) (s : State) : State := busWrite m (p * 4096 + off) (leBytes 4 v) s

/-- A 32-bit write to a register that leaves its other fields as they stand. -/
def regSet (m : Master) (p off v : Nat) (s : State) : State := regWrite m p off (storedWord s m p off ||| v) s

/-- A 32-bit read of a register. -/
def regRead (m : Master) (p off : Nat) (s : State) : State := busRead m (p * 4096 + off) 4 s

/-- A guarded write: the value, then its complement (R392). -/
def regGuarded (m : Master) (p off v : Nat) (s : State) : State :=
  s |> regWrite m p off v |> regWrite m p (off + 0x80) (v ^^^ 0xFFFFFFFF)

/-! ### The commands -/

/-- SET_ALIAS_WRITE (R391): `reg` is the word of the page. -/
def execSetAliasWrite (m : Master) (page : Byte) (reg : Fin 256) (value : Word) (s : State) : Answer :=
  alive s (regWrite m page.toNat (0x400 + 4 * reg) value.toNat s)

/-- CLR_ALIAS_WRITE (R391). -/
def execClrAliasWrite (m : Master) (page : Byte) (reg : Fin 256) (value : Word) (s : State) : Answer :=
  alive s (regWrite m page.toNat (0x800 + 4 * reg) value.toNat s)

/-- TGL_ALIAS_WRITE (R391). -/
def execTglAliasWrite (m : Master) (page : Byte) (reg : Fin 256) (value : Word) (s : State) : Answer :=
  alive s (regWrite m page.toNat (0xC00 + 4 * reg) value.toNat s)

/-- UNIT_RESET (R389). -/
def execUnitReset (m : Master) (page : Byte) (s : State) : Answer := alive s (regGuarded m page.toNat 0x37C 0x5A s)

/-- EVT_FORCE (R388). -/
def execEvtForce (m : Master) (page : Byte) (bits_ : BitVec 16) (s : State) : Answer := alive s (regWrite m page.toNat 0x08 bits_.toNat s)

/-- GUARDED_VALUE_WRITE (R392): `reg` is the word of the value window. -/
def execGuardedValueWrite (m : Master) (page : Byte) (reg : Fin 32) (value : Word) (s : State) : Answer :=
  alive s (regWrite m page.toNat (0x300 + 4 * reg) value.toNat s)

/-- GUARD_TIMEOUT (R392): of the pending value of a class on a page. -/
def execGuardTimeout (cls : Fin 15) (page : Byte) (s : State) : Answer := alive s (guardTimeoutDue page.toNat cls s)

/-- IND_DATA_READ (R394). -/
def execIndDataRead (m : Master) (page : Byte) (s : State) : Answer := alive s (regRead m page.toNat 0x34 s)

/-- IND_DATA_WRITE (R394). -/
def execIndDataWrite (m : Master) (page : Byte) (value : Word) (s : State) : Answer := alive s (regWrite m page.toNat 0x34 value.toNat s)

/-- DENY_POP (R404). -/
def execDenyPop (m : Master) (s : State) : Answer := alive s (regWrite m Page.acc 0x44 1 s)

/-- ROW_SEL (R407). -/
def execRowSel (m : Master) (value : Word) (s : State) : Answer := alive s (regGuarded m Page.acc 0x300 value.toNat s)

/-- ROW_VAL (R407). -/
def execRowVal (m : Master) (value : Word) (s : State) : Answer := alive s (regGuarded m Page.acc 0x304 value.toNat s)

/-- UID_LO_READ (R64). -/
def execUidLoRead (m : Master) (s : State) : Answer := alive s (regRead m Page.hub 0x48 s)

/-! #### Lanes -/

/-- LANE_MODE (R61). -/
def execLaneMode (m : Master) (p : Side) (n : Fin 4) (mode : Fin 4) (s : State) : Answer :=
  alive s (regGuarded m (Page.lane p) (0x300 + 4 * n) mode s)

/-- INJECT_SINGLE (R63): the write of SINGLE, and the group transmitted next. -/
def execInjectSingle (m : Master) (p : Side) (n : Fin 4) (group : BitVec 66) (s : State) : Answer :=
  alive s (s |> regSet m (Page.lane p) (0x94 + 0x40 * n) (2 ^ 16) |> sendGroup p n group.toNat)

/-- INJECT_BURST (R63): the write of BURST, and the two groups transmitted next, over which the burst may run. -/
def execInjectBurst (m : Master) (p : Side) (n : Fin 4) (group : BitVec 66) (next : BitVec 66) (s : State) : Answer :=
  alive s (s |> regSet m (Page.lane p) (0x94 + 0x40 * n) (2 ^ 17) |> sendGroup p n group.toNat |> sendGroup p n next.toNat)

/-- LANE_CNT_CLR (R64). -/
def execLaneCntClr (m : Master) (p : Side) (s : State) : Answer := alive s (regSet m (Page.lane p) 0x40 (2 ^ 8) s)

/-- The offset of a lane counter's low word. -/
def LaneCounter.off : LaneCounter → Nat
  | .prbsErr => 0xA0
  | .prbsBits => 0xA8
  | .blkErr => 0xB0
  | .bipErr => 0xB8

/-- LANE_COUNTER_LO_READ (R64). -/
def execLaneCounterLoRead (m : Master) (p : Side) (n : Fin 4) (k : LaneCounter) (s : State) : Answer :=
  alive s (regRead m (Page.lane p) (LaneCounter.off k + 0x40 * n) s)

/-! #### Staircase, image, stations -/

/-- LOAD_BEGIN (R107). -/
def execLoadBegin (m : Master) (s : State) : Answer := alive s (regGuarded m Page.stair 0x300 1 s)

/-- STAIR_IND_DATA_WRITE (R107). -/
def execStairIndDataWrite (m : Master) (value : Word) (s : State) : Answer := alive s (regWrite m Page.stair 0x34 value.toNat s)

/-- STAIR_IND_DATA_READ (R107). -/
def execStairIndDataRead (m : Master) (s : State) : Answer := alive s (regRead m Page.stair 0x34 s)

/-- PREPARE (R108). -/
def execPrepare (m : Master) (s : State) : Answer := alive s (regGuarded m Page.stair 0x300 2 s)

/-- ABORT (R107). -/
def execStairAbort (m : Master) (s : State) : Answer := alive s (regGuarded m Page.stair 0x300 3 s)

/-- ACTIVATE (R109): with ACT_CYCLE, ACT_FLIGHT and ACT_HASH_CHK as they stand. -/
def execActivate (m : Master) (s : State) : Answer := alive s (regGuarded m Page.stair 0x300 4 s)

/-- CANCEL (R109). -/
def execCancel (m : Master) (s : State) : Answer := alive s (regGuarded m Page.stair 0x300 5 s)

/-- DEACTIVATE (R112). -/
def execDeactivate (m : Master) (s : State) : Answer := alive s (regGuarded m Page.stair 0x300 6 s)

/-- CYCLE_LO_READ (R64). -/
def execCycleLoRead (m : Master) (s : State) : Answer := alive s (regRead m Page.stair 0x54 s)

/-- IMG_CNT_CLR (R98). -/
def execImgCntClr (m : Master) (s : State) : Answer := alive s (regWrite m Page.img 0x70 1 s)

/-- QUARANTINE (R144). -/
def execQuarantine (m : Master) (st : Side) (s : State) : Answer := alive s (regGuarded m (Page.stn st) 0x308 3 s)

/-- ARM_OPEN (R145): with OPEN_CYCLE as it stands. -/
def execArmOpen (m : Master) (st : Side) (s : State) : Answer := alive s (regGuarded m (Page.stn st) 0x308 1 s)

/-- DISARM (R145). -/
def execDisarm (m : Master) (st : Side) (s : State) : Answer := alive s (regGuarded m (Page.stn st) 0x308 2 s)

/-- STN_CNT_CLR (R146). -/
def execStnCntClr (m : Master) (st : Side) (s : State) : Answer := alive s (regSet m (Page.stn st) 0x40 (2 ^ 8) s)

/-! #### Mastership and membership -/

/-- YIELD (R162). -/
def execYield (m : Master) (s : State) : Answer := alive s (regGuarded m Page.duplex 0x300 1 s)

/-- HOST_ALIVE_KICK (R161). -/
def execHostAliveKick (m : Master) (s : State) : Answer := alive s (regWrite m Page.duplex 0x68 1 s)

/-- JOIN_NONCE_HI (R176). -/
def execJoinNonceHi (m : Master) (value : Word) (s : State) : Answer := alive s (regWrite m Page.duplex 0xD0 value.toNat s)

/-- ADMIT (R177). -/
def execJoinAdmit (m : Master) (node : Byte) (s : State) : Answer := alive s (regGuarded m Page.duplex 0x304 (1 + 2 ^ 8 * node.toNat) s)

/-- REFUSE (R177). -/
def execRefuse (m : Master) (node : Byte) (s : State) : Answer := alive s (regGuarded m Page.duplex 0x304 (2 + 2 ^ 8 * node.toNat) s)

/-- EXPIRY_LO_READ (R64). -/
def execExpiryLoRead (m : Master) (s : State) : Answer := alive s (regRead m Page.duplex 0x50 s)

/-! #### Bridge, I²C -/

/-- PWE_POP (R203). -/
def execPwePop (m : Master) (s : State) : Answer := alive s (regWrite m Page.bridge 0x58 1 s)

/-- NOTICE_POP (R217). -/
def execNoticePop (m : Master) (s : State) : Answer := alive s (regWrite m Page.bridge 0x78 1 s)

/-- PWSEQ_LO_READ (R64). -/
def execPwseqLoRead (m : Master) (s : State) : Answer := alive s (regRead m Page.bridge 0x4C s)

/-- BRIDGE_CNT_CLR (R217). -/
def execBridgeCntClr (m : Master) (s : State) : Answer := alive s (regWrite m Page.bridge 0xA8 1 s)

/-- ACC_ROW (R204). -/
def execAccRow (m : Master) (value : Word) (s : State) : Answer := alive s (regGuarded m Page.bridge 0x304 value.toNat s)

/-- I2C_GO (R216). -/
def execI2cGo (m : Master) (s : State) : Answer := alive s (regSet m Page.i2c 0x44 (2 ^ 28) s)

/-- The bytes that an I²C read has put into DATA (R216). -/
def i2cStore (bs : List Byte) (s : State) : State :=
  forEach (List.range bs.length) (fun i u =>
    let f := Reg.i2cData (i / 4)
    let sh := 2 ^ (8 * (i % 4))
    setR Page.i2c f (mergeMask (getR u Page.i2c f) ((bs.getD i 0).toNat * sh) (0xFF * sh)) u) s

/-- The result code of an I²C transaction (R216): a read that ended OK with PEC set must have been followed by the right PEC byte,
else PEC_ERR. `data` holds the bytes read, the PEC byte after them. -/
def i2cResult (addr7 : Nat) (bytes : List Byte) (rlen : Nat) (pec : Bool) (result : Nat) (data : List Byte) : Nat :=
  let read := data.take rlen
  if result = 0 ∧ pec = true ∧ rlen ≠ 0 ∧ (data[rlen]?).map BitVec.toNat ≠ some (i2cReadPec addr7 bytes read) then 5 else result

/-- I2C_DONE (R216): the result on the wire, the number of bytes transferred, and the bytes that were read, with PEC set the PEC byte after
them. -/
def execI2cDone (result : Fin 6) (count : Fin 64) (data : List Byte) (s : State) : Answer :=
  alive s (match s.boot.i2c with
    | none => s
    | some (addr7, bytes, rlen, pec) =>
      let code := i2cResult addr7 bytes rlen pec result.val data
      { s with boot := { s.boot with i2c := none } }
      |> i2cStore (data.take rlen) |> setFlag Page.i2c Reg.i2cStatusBusy false |> setR Page.i2c Reg.i2cStatusResult code
      |> setR Page.i2c Reg.i2cStatusBytes count |> raiseEv Page.i2c Ev.i2cDone |> raiseIf (code ≠ 0) Page.i2c Ev.i2cError)

/-! #### PCIe -/

/-- The endpoint's identity as the words of a configuration header show it (R210): Vendor and Device ID at 0x00, Revision ID and class code at
0x08, the two subsystem IDs at 0x2C (the places of PCI Express: log entry 197). No command reads configuration space. -/
def pcieIdentity (s : State) (off : Nat) : Nat := match off with
  | 0x00 => (Config.pcieIds 0).toNat + 2 ^ 16 * 0x9048
  | 0x08 => getR s Page.hub Reg.hubChipIdStepping + 2 ^ 8 * 0x088000
  | 0x2C => (Config.pcieIds 1).toNat + 2 ^ 16 * (Config.pcieIds 2).toNat
  | _ => 0

/-- PCIE_LINK_UP (R218): width and speed codes, and bus mastering; not while PERST_N is low or the page is fenced. -/
def execPcieLinkUp (width : Fin 3) (speed : Fin 4) (bme : Bool) (s : State) : Answer :=
  alive s (if pcieUp s || levelOn s Page.pcie Ev.pciePerst || pageFenced s Page.pcie then s
    else
      s |> setR Page.pcie Reg.pcieLinkWidth width |> setR Page.pcie Reg.pcieLinkSpeed (speed + 1) |> setFlag Page.pcie Reg.pcieLinkUp true
        |> setFlag Page.pcie Reg.pcieLinkBme bme |> raiseEv Page.pcie Ev.pcieLinkUp |> syncElig)

/-- PCIE_LINK_DOWN (R218). -/
def execPcieLinkDown (s : State) : Answer := alive s (pcieDown s)

/-- MSIX_UNMASK (R433): the host clears the mask bit of a vector. -/
def execMsixUnmask (v : Fin 128) (s : State) : Answer :=
  alive s (busWrite { cls := 3, ifc := 0, node := 0 } (0xE0000 + 16 * v + 12) (leBytes 4 0) s)

/-! #### Cabinet, mirror -/

/-- A write of ACC_CMD. -/
def cabCommandWrite (m : Master) (v : Nat) (s : State) : State := regWrite m Page.cab 0x84 v s

/-- CAB_OPEN (R230): on ACC_Q of the master's class. -/
def execCabOpen (m : Master) (declare : Fin 1024) (s : State) : Answer := alive s (cabCommandWrite m (1 + 2 ^ 4 * declare) s)

/-- CAB_PUT (R231). -/
def execCabPut (m : Master) (word : Word) (s : State) : Answer := alive s (regWrite m Page.cab 0x88 word.toNat s)

/-- CAB_CLOSE (R232). -/
def execCabClose (m : Master) (trim : Fin 4) (s : State) : Answer := alive s (cabCommandWrite m (2 + 2 ^ 16 * trim) s)

/-- CAB_ABORT (R232). -/
def execCabAbort (m : Master) (s : State) : Answer := alive s (cabCommandWrite m 3 s)

/-- CAB_GET (R235); `link` is what ECC finds in the link entry that it follows (R222): 0 no error, 1 a single-bit one, 2 an uncorrectable one. -/
def execCabGet (m : Master) (link : Fin 3) (s : State) : Answer :=
  let t := regRead m Page.cab 0x88 { s with cab := { s.cab with linkErr := link } }
  alive s { t with cab := { t.cab with linkErr := 0 } }

/-- CAB_MARK (R235). -/
def execCabMark (m : Master) (s : State) : Answer := alive s (cabCommandWrite m 4 s)

/-- CAB_REWIND (R235). -/
def execCabRewind (m : Master) (s : State) : Answer := alive s (cabCommandWrite m 5 s)

/-- CAB_RELEASE (R236). -/
def execCabRelease (m : Master) (s : State) : Answer := alive s (cabCommandWrite m 6 s)

/-- QUEUE_ENABLE (R228). -/
def execQueueEnable (m : Master) (q : BitVec 12) (s : State) : Answer := alive s (regGuarded m Page.cab 0x304 (q.toNat + 2 ^ 12 * 1) s)

/-- QUEUE_DISABLE (R228). -/
def execQueueDisable (m : Master) (q : BitVec 12) (s : State) : Answer := alive s (regGuarded m Page.cab 0x304 (q.toNat + 2 ^ 12 * 2) s)

/-- QUEUE_FLUSH (R237). -/
def execQueueFlush (m : Master) (q : BitVec 12) (s : State) : Answer := alive s (regGuarded m Page.cab 0x304 (q.toNat + 2 ^ 12 * 3) s)

/-- CLEAR_BROKEN (R222). -/
def execClearBroken (m : Master) (q : BitVec 12) (s : State) : Answer := alive s (regGuarded m Page.cab 0x304 (q.toNat + 2 ^ 12 * 4) s)

/-- WALK_NOW (R239). -/
def execWalkNow (m : Master) (s : State) : Answer := alive s (regGuarded m Page.cab 0x300 2 s)

/-- RECLAIM (R240). -/
def execReclaim (m : Master) (s : State) : Answer := alive s (regGuarded m Page.cab 0x300 1 s)

/-- MIRROR_CNT_CLR (R247). -/
def execMirrorCntClr (m : Master) (s : State) : Answer := alive s (regWrite m Page.mirror 0x54 1 s)

/-- CAB_CNT_CLR (R245). -/
def execCabCntClr (m : Master) (s : State) : Answer := alive s (regWrite m Page.cab 0x78 1 s)

/-! #### Engines, CAN -/

/-- SWAP_REQ (R271). -/
def execSwapReq (m : Master) (e : Fin 128) (mode : Fin 4) (restart : Bool) (s : State) : Answer :=
  alive s (regWrite m (Page.eng e) 0xA0 (mode + 4 * b2n restart + 2 ^ 8) s)

/-- SWAP_CANCEL (R271). -/
def execSwapCancel (m : Master) (e : Fin 128) (s : State) : Answer := alive s (regSet m (Page.eng e) 0xA0 (2 ^ 9) s)

/-- TXF_DATA (R264). -/
def execTxfData (m : Master) (e : Fin 128) (value : Word) (s : State) : Answer := alive s (regWrite m (Page.eng e) 0x74 value.toNat s)

/-- RXF_DATA (R264). -/
def execRxfData (m : Master) (e : Fin 128) (s : State) : Answer := alive s (regRead m (Page.eng e) 0x78 s)

/-- TXF_FLUSH (R264). -/
def execTxfFlush (m : Master) (e : Fin 128) (s : State) : Answer := alive s (regWrite m (Page.eng e) 0x7C 1 s)

/-- RXF_FLUSH (R264). -/
def execRxfFlush (m : Master) (e : Fin 128) (s : State) : Answer := alive s (regWrite m (Page.eng e) 0x7C 2 s)

/-- ENG_CNT_CLR (R272). -/
def execEngCntClr (m : Master) (e : Fin 128) (s : State) : Answer := alive s (regWrite m (Page.eng e) 0x94 1 s)

/-- PINMAP_WRITE (R275). -/
def execPinmapWrite (m : Master) (e : Fin 128) (value : Word) (s : State) : Answer := alive s (regWrite m (Page.eng e) 0x6C value.toNat s)

/-- CAN_MODE_CHANGE (R282). -/
def execCanModeChange (m : Master) (n : Fin 16) (mode : Fin 8) (s : State) : Answer :=
  alive s (regWrite m (Page.can n) 0x40 (mergeMask (storedWord s m (Page.can n) 0x40) mode 7) s)

/-- TXB_REQ (R293). -/
def execTxbReq (m : Master) (n : Fin 16) (map : Word) (s : State) : Answer := alive s (regWrite m (Page.can n) 0x60 map.toNat s)

/-- TXB_CANCEL (R295). -/
def execTxbCancel (m : Master) (n : Fin 16) (map : Word) (s : State) : Answer := alive s (regWrite m (Page.can n) 0x68 map.toNat s)

/-- TXB_UNPARK (R299). -/
def execTxbUnpark (m : Master) (n : Fin 16) (map : Word) (s : State) : Answer := alive s (regWrite m (Page.can n) 0x70 map.toNat s)

/-- RECOVER (R298). -/
def execRecover (m : Master) (n : Fin 16) (s : State) : Answer := alive s (regWrite m (Page.can n) 0x9C 1 s)

/-- CAN_CNT_CLR (R302). -/
def execCanCntClr (m : Master) (n : Fin 16) (s : State) : Answer := alive s (regWrite m (Page.can n) 0x98 1 s)

/-! #### Time, triggers -/

/-- EXCHANGE_NOW (R311). -/
def execExchangeNow (m : Master) (s : State) : Answer := alive s (regGuarded m Page.time 0x300 2 s)

/-- RESYNC (R316). -/
def execResync (m : Master) (s : State) : Answer := alive s (regGuarded m Page.time 0x300 1 s)

/-- TB1_SET (R318). -/
def execTb1Set (m : Master) (s : State) : Answer := alive s (regWrite m Page.time 0xB4 1 s)

/-- TOD_ARM (R319). -/
def execTodArm (m : Master) (s : State) : Answer := alive s (regWrite m Page.time 0xB4 2 s)

/-- TB3_STEP (R320). -/
def execTb3Step (m : Master) (s : State) : Answer := alive s (regWrite m Page.time 0xB4 4 s)

/-- COMPARE_ARM (R321). -/
def execCompareArm (m : Master) (n : Fin 32) (s : State) : Answer := alive s (regSet m Page.trig (0x80 + 4 * n) (2 ^ 5) s)

/-- SW_TRIG (R325). -/
def execSwTrig (m : Master) (n : Fin 32) (s : State) : Answer := alive s (regSet m Page.trig (0x200 + 4 * n) (2 ^ 20) s)

/-- CAP_STAMP_READ (R326). -/
def execCapStampRead (m : Master) (n : Fin 32) (s : State) : Answer := alive s (regRead m Page.trig (0x280 + 4 * n) s)

/-- TB0_LO_READ (R328). -/
def execTb0LoRead (m : Master) (s : State) : Answer := alive s (regRead m Page.time 0x48 s)

/-- TB_LO_READ (R328): 0 TB1_NS, 1 TB2_LO, 2 TB3_LO. -/
def execTbLoRead (m : Master) (base : Fin 3) (s : State) : Answer :=
  alive s (regRead m Page.time (if base = 0 then 0x50 else if base = 1 then 0x5C else 0x64) s)

/-! #### Power, clocks, governor -/

/-- BREAKER_ON (R341). -/
def execBreakerOn (m : Master) (ch : Fin 16) (s : State) : Answer := alive s (regGuarded m Page.brk 0x300 (ch + 2 ^ 8 * 1) s)

/-- BREAKER_OFF (R341). -/
def execBreakerOff (m : Master) (ch : Fin 16) (s : State) : Answer := alive s (regGuarded m Page.brk 0x300 (ch + 2 ^ 8 * 2) s)

/-- BREAKER_CLEAR (R341). -/
def execBreakerClear (m : Master) (ch : Fin 16) (s : State) : Answer := alive s (regGuarded m Page.brk 0x300 (ch + 2 ^ 8 * 3) s)

/-- APPLY_CURVE (R335). -/
def execApplyCurve (m : Master) (ch : Fin 16) (s : State) : Answer := alive s (regGuarded m Page.brk 0x300 (ch + 2 ^ 8 * 4) s)

/-- XTA_SELECT (R361). -/
def execXtaSelect (m : Master) (s : State) : Answer := alive s (regGuarded m Page.clk 0x300 1 s)

/-- GATE_OFF (R364). -/
def execGateOff (m : Master) (target : Byte) (s : State) : Answer := alive s (regWrite m Page.clk 0x48 (target.toNat + 2 ^ 8 * 1) s)

/-- GATE_ON (R365). -/
def execGateOn (m : Master) (target : Byte) (s : State) : Answer := alive s (regWrite m Page.clk 0x48 (target.toNat + 2 ^ 8 * 2) s)

/-- GOV_CNT_CLR (R385). -/
def execGovCntClr (m : Master) (s : State) : Answer := alive s (regWrite m Page.gov 0x98 1 s)

/-! #### Keys: the operand registers of the KEY page as they stand (R416) -/

/-- A guarded write of KEY.CMD. -/
def keyWrite (m : Master) (code : Nat) (s : State) : Answer := alive s (regGuarded m Page.key 0x300 code s)

/-- LOAD (R416). -/
def execKeyLoad (m : Master) (s : State) : Answer := keyWrite m 0x01 s
/-- UNWRAP (R416). -/
def execUnwrap (m : Master) (s : State) : Answer := keyWrite m 0x02 s
/-- DERIVE (R416). -/
def execDerive (m : Master) (s : State) : Answer := keyWrite m 0x03 s
/-- ERASE (R416). -/
def execKeyErase (m : Master) (s : State) : Answer := keyWrite m 0x04 s
/-- LOCK (R416). -/
def execKeyLock (m : Master) (s : State) : Answer := keyWrite m 0x05 s
/-- READ_PUB (R418). -/
def execReadPub (m : Master) (s : State) : Answer := keyWrite m 0x06 s
/-- VERIFY (R416). -/
def execVerify (m : Master) (s : State) : Answer := keyWrite m 0x10 s
/-- CMAC (R416). -/
def execCmac (m : Master) (s : State) : Answer := keyWrite m 0x11 s
/-- GCM_ENC (R416). -/
def execGcmEnc (m : Master) (s : State) : Answer := keyWrite m 0x12 s
/-- GCM_DEC (R416). -/
def execGcmDec (m : Master) (s : State) : Answer := keyWrite m 0x13 s
/-- HASH (R416). -/
def execHash (m : Master) (s : State) : Answer := keyWrite m 0x14 s
/-- RANDOM (R416). -/
def execRandom (m : Master) (s : State) : Answer := keyWrite m 0x15 s
/-- LC_NONCE (R424). -/
def execLcNonce (m : Master) (s : State) : Answer := keyWrite m 0x20 s
/-- LC_TRANSITION (R425). -/
def execLcTransition (m : Master) (s : State) : Answer := keyWrite m 0x21 s
/-- SET_RING_KEY (R420). -/
def execSetRingKey (m : Master) (s : State) : Answer := keyWrite m 0x30 s

/-! #### Faults, journal -/

/-- FENCE_CMD (R436). -/
def execFenceCmd (m : Master) (page : Byte) (s : State) : Answer := alive s (regGuarded m Page.evt 0x300 (page.toNat + 2 ^ 8 * 1) s)

/-- ERR_TEST (R443). -/
def execErrTest (m : Master) (s : State) : Answer := alive s (regGuarded m Page.evt 0x300 (2 ^ 8 * 2) s)

/-- DUMP_NOW (R449). -/
def execDumpNow (m : Master) (s : State) : Answer := alive s (regGuarded m Page.evt 0x300 (2 ^ 8 * 3) s)

/-- CHECKPOINT (R447). -/
def execCheckpoint (m : Master) (s : State) : Answer := alive s (regGuarded m Page.jrnl 0x300 1 s)

/-- HEAD_LO_READ (R64). -/
def execHeadLoRead (m : Master) (s : State) : Answer := alive s (regRead m Page.jrnl 0x40 s)

/-- CKPT_LO_READ (R64). -/
def execCkptLoRead (m : Master) (s : State) : Answer := alive s (regRead m Page.jrnl 0x48 s)

/-! #### Resets, update, configuration -/

/-- WARM_RESET (R460): by RCMD, or asked for by Newel itself (`none`). -/
def execWarmReset (m : Option Master) (s : State) : Answer :=
  alive s (match m with
    | some x => regGuarded x Page.upd 0x304 1 s
    | none => warmReset none 0 s)

/-- RING_RESET (R457); `bootsel` is what the BOOTSEL pads show when it ends. -/
def execRingReset (m : Master) (bootsel : Fin 4) (s : State) : Answer := alive s (s |> setBootsel bootsel |> regGuarded m Page.upd 0x304 2)

/-- STANDBY_ENTER (R463). -/
def execStandbyEnter (m : Master) (s : State) : Answer := alive s (regGuarded m Page.upd 0x304 3 s)

/-- STANDBY_EXIT (R465). -/
def execStandbyExit (m : Master) (s : State) : Answer := alive s (regGuarded m Page.upd 0x304 4 s)

/-- BEGIN (R476). -/
def execBeginUpdate (m : Master) (type : Fin 2) (defer_ : Bool) (s : State) : Answer :=
  alive s (regGuarded m Page.upd 0x300 (1 + 2 ^ 8 * type + 2 ^ 9 * b2n defer_) s)

/-- UPD_IND_DATA_WRITE (R476). -/
def execUpdIndDataWrite (m : Master) (value : Word) (s : State) : Answer := alive s (regWrite m Page.upd 0x34 value.toNat s)

/-- BLOCK_FROM_DRAM (R476). -/
def execBlockFromDram (m : Master) (block : BitVec 16) (s : State) : Answer := alive s (regGuarded m Page.upd 0x300 (5 + 2 ^ 16 * block.toNat) s)

/-- UPD_ABORT (R476). -/
def execUpdAbort (m : Master) (s : State) : Answer := alive s (regGuarded m Page.upd 0x300 2 s)

/-- UPD_COMMIT (R479). -/
def execUpdCommit (m : Master) (s : State) : Answer := alive s (regGuarded m Page.upd 0x300 3 s)

/-- CONFIRM (R480). -/
def execConfirm (m : Master) (s : State) : Answer := alive s (regGuarded m Page.upd 0x300 4 s)

/-- A guarded CFGCMD; `ok` says that the flash takes the write. -/
def configWrite (m : Master) (cmd : Nat) (ok : Bool) (s : State) : State :=
  let t := regGuarded m Page.upd 0x308 cmd { s with boot := { s.boot with flashFail := !ok } }
  { t with boot := { t.boot with flashFail := false } }

/-- SAVE_CONFIG (R483). -/
def execSaveConfig (m : Master) (ok : Bool) (s : State) : Answer := alive s (configWrite m 1 ok s)

/-- SAVE_NODE_RECORD (R481). -/
def execSaveNodeRecord (m : Master) (ok : Bool) (s : State) : Answer := alive s (configWrite m 2 ok s)

/-- CLEAR_CONFIG (R484). -/
def execClearConfig (m : Master) (ok : Bool) (s : State) : Answer := alive s (configWrite m 3 ok s)

/-- DRAM_CNT_CLR (R487). -/
def execDramCntClr (m : Master) (s : State) : Answer := alive s (regWrite m Page.dram 0x54 1 s)

/-- FLASH_CNT_CLR (R488). -/
def execFlashCntClr (m : Master) (s : State) : Answer := alive s (regWrite m Page.flash 0x54 1 s)

end Sys2Proof.Machine
end

