-- ==== Sys2Proof/Machine/Remote.lean ====
section
/-!
DEFINITION. Execution of landing messages at their target (R190–R194, R199), deliveries of partner traffic (R208), the BAR2 windows (R211, R212)
and the local host port (R213, R214).
-/

namespace Sys2Proof.Machine

open Sys2Proof

/-- The host's master, through PCIe (R396). -/
def hostMaster : Master := { cls := 3, ifc := 0, node := 0 }

/-- The master of the local host port (R396). -/
def localMaster : Master := { cls := 4, ifc := 1, node := 0 }

/-- The master that a message of a node is executed as (R193). A candidate knows the lease holder, or the single
master, by the status records it reads (R174). -/
def remoteMaster (s : State) (src : Nat) : Master :=
  let g := groupOf s src
  let master := src ≠ 0 && (src = masterNode s || (isCandidate s && src = tokHolder s))
  { cls := if master then 7 else if g = 0 then 8 else Fin.ofNat 15 (9 + g), ifc := 5, node := BitVec.ofNat 8 src }

/-! ### The guarded pair as one operation (R184, R193, R214) -/

/-- Whether an address is a guarded value register of a page. -/
def guardedTarget (a : Nat) : Bool :=
  match mapRegion a 4 with
  | .page _ off => decide (0x300 ≤ off ∧ off < 0x380 ∧ off % 4 = 0)
  | _ => false

/-- A guarded write protocol performed as one write pair. -/
def guardedPair (w : Waiter) (m : Master) (a value complement : Nat) (s : State) : State :=
  let v := decide_ s m .guarded a 4
  if v = .decode then endAccess w a 0 stDecode [] s
  else if !guardedTarget a then endAccess w a 0 stUnsupported [] s
  else
    let s1 := noteVerdict v m .guarded a s
    if v = .ok then
      s1 |> pageWrite m (a / 4096) (a % 4096) value 0xFFFFFFFF |> pageWrite m (a / 4096) (a % 4096 + 0x80) complement 0xFFFFFFFF
        |> endAccess w a 0 stOk []
    else endAccess w a 0 v.status [] s1

/-! ### Sequence numbers (R190, R191) -/

/-- The key under which a source's sequence is kept: broadcasts apart from addressed messages. -/
def seqKey (h : Nat) : Nat := streamKey (hdSrc h) (hdStream h + (if hdDest h = 0xFF then 16 else 0))

/-- The key of a source's last posted write received: broadcasts apart. -/
def lastPwKey (h : Nat) : Nat := hdSrc h + (if hdDest h = 0xFF then 256 else 0)

/-- A received message is numbered here: its class is, and this hub is no candidate (log entry 40). -/
def numbered (s : State) (h : Nat) : Bool := creditClass (hdCls h) && !isCandidate s

/-- PWSEQ of a posted write received is kept as its source's last (R190, R191). -/
def notePw (m : InMsg) (s : State) : State :=
  if hdCls m.header ≠ lmPosted then s
  else { s with bridge := { s.bridge with lastPw := storePut (lastPwKey m.header) (bits m.addr 63 40) s.bridge.lastPw } }

/-- A gap in front of a message (R190): counted, raised, and reported to the source. -/
def noteGap (h : Nat) (s : State) : State :=
  s |> incCnt Page.bridge Reg.bridgeSeqGapCnt |> raiseEv Page.bridge Ev.bridgeSeqGap
    |> sendNotice portHub (hdSrc h) (hdStream h) noticeSeqGap [2 ^ 40 * stLost, storeGet 0 s.bridge.lastPw (lastPwKey h) % 2 ^ 24]

/-- A message's place in its sequence (R190): none where it is a duplicate, else the state with the message accepted. -/
def acceptSeq (m : InMsg) (s : State) : Option State :=
  let h := m.header
  if !numbered s h then some (notePw m s)
  else
    let d := (hdArg h + 256 - storeGet 0 s.bridge.seqRx (seqKey h)) % 256
    if 128 ≤ d then none
    else
      let s1 := s |> notePw m |> whenS (d ≠ 0) (noteGap h)
      some { s1 with bridge := { s1.bridge with seqRx := storePut (seqKey h) ((hdArg h + 1) % 256) s1.bridge.seqRx } }

/-- A duplicate is counted (R190). -/
def noteDuplicate (s : State) : State := incCnt Page.bridge Reg.bridgeDupCnt s

/-- A message of a source and class has been executed (R195). -/
def noteExecuted (h : Nat) (s : State) : State :=
  if !creditClass (hdCls h) || hdDest h = 0xFF then s
  else
    let k := classKey (hdSrc h) (hdCls h)
    { s with bridge := { s.bridge with executed := storePut k ((storeGet 0 s.bridge.executed k + 1) % 256) s.bridge.executed } }

/-! ### Execution in order (R199) -/

/-- Whether a waiter belongs to a message of another node that came in a stream. -/
def waiterStream (s : State) (stream : Nat) : Waiter → Bool
  | .remote _ _ st _ => st = stream
  | .posted src _ _ _ st => st = stream && src ≠ nodeId s
  | _ => false

/-- Whether the head message of a stream still waits, on a partner. -/
def streamBusy (s : State) (stream : Nat) : Bool :=
  let w (x : Waiter) : Bool := waiterStream s stream x
  (s.bridge.partTx.any fun t => w t.waiter) || (s.bridge.running.any fun e => w e.2.waiter) || (s.bridge.gathers.any fun e => w e.2.waiter) ||
    s.bridge.held.any fun x => w x.waiter

/-- The place of the head message of a stream's queue. -/
def streamHead (s : State) (stream : Nat) : Option Nat :=
  s.bridge.ingress.findIdx? fun m => queuedClass m.header && hdCls m.header ≠ lmResponse && hdStream m.header = stream

/-- The head message of a stream, if it is of a class and may be executed now. -/
def headOf (s : State) (stream cls : Nat) : Option (Nat × InMsg) :=
  if pageFenced s Page.bridge || streamBusy s stream then none
  else
    match streamHead s stream with
    | none => none
    | some i =>
      match s.bridge.ingress[i]? with
      | some m => if m.inCab && hdCls m.header = cls then some (i, m) else none
      | none => none

/-- A message at a place leaves its queue and is carried out, or is dropped as a duplicate. -/
def carryOut (i : Nat) (m : InMsg) (f : State → State) (s : State) : State :=
  match acceptSeq m s with
  | none => s |> noteDuplicate |> removeIn i
  | some t => t |> noteExecuted m.header |> removeIn i |> f

/-- The effect of a REQUEST (R193, R194). -/
def doRequest (m : InMsg) (s : State) : State :=
  let h := m.header
  let a := m.addr % 2 ^ 40
  let w : Waiter := .remote (hdSrc h) (hdTag h) (hdStream h) (hdMgmt h)
  let r := remoteMaster s (hdSrc h)
  if hdOp h = opRead then access w portHub r false a (bits m.addr 47 40 + 1) [] s
  else if hdOp h = opGuarded then
    (if m.data.length = 8 then guardedPair w r a (leNat (m.data.take 4)) (leNat (m.data.drop 4)) s else endAccess w a 0 stUnsupported [] s)
  else access w portHub r true a m.data.length m.data s

/-- The effect of a POSTED message (R193, R194). -/
def doPosted (m : InMsg) (s : State) : State :=
  let h := m.header
  let a := m.addr % 2 ^ 40
  let seq := bits m.addr 63 40
  let w : Waiter := .posted (hdSrc h) (hdMclass h) a seq (hdStream h)
  let r := remoteMaster s (hdSrc h)
  if hdOp h = opGuarded then
    (if m.data.length = 8 then guardedPair w r a (leNat (m.data.take 4)) (leNat (m.data.drop 4)) s else endAccess w a 0 stUnsupported [] s)
  else access w portHub r true a m.data.length m.data s

/-- REQUEST (R193): the head message of a stream. -/
def execRequest (stream : Fin 16) (s : State) : Answer :=
  alive s (match headOf s stream lmRequest with
    | some (i, m) => carryOut i m (doRequest m) s
    | none => s)

/-- POSTED (R193). -/
def execPosted (stream : Fin 16) (s : State) : Answer :=
  alive s (match headOf s stream lmPosted with
    | some (i, m) => carryOut i m (doPosted m) s
    | none => s)

/-- The first received message of those that no Cabinet queue holds (R191, R225). -/
def directHead (s : State) (p : Nat → Bool) : Option (Nat × InMsg) :=
  if pageFenced s Page.bridge then none
  else
    match s.bridge.ingress.findIdx? fun m => !queuedClass m.header && p m.header with
    | none => none
    | some i => (s.bridge.ingress[i]?).map fun m => (i, m)

/-- BROADCAST (R191). -/
def execBroadcast (s : State) : Answer :=
  alive s (match directHead s (fun h => hdCls h = lmPosted) with
    | some (i, m) => carryOut i m (doPosted m) s
    | none => s)

/-- CREDIT (R195). -/
def execCredit (s : State) : Answer :=
  alive s (match directHead s (fun h => hdCls h = lmCredit) with
    | some (i, m) => s |> removeIn i |> takeCredits (hdSrc m.header) m.data
    | none => s)

/-- A RESPONSE (R194): it ends its outstanding request, or is an orphan. -/
def takeResponse (s : State) : State :=
  if pageFenced s Page.bridge then s
  else
    match s.bridge.ingress.findIdx? fun m => hdCls m.header = lmResponse with
    | none => s
    | some i =>
      match s.bridge.ingress[i]? with
      | none => s
      | some m =>
        if !m.inCab then s
        else if (storeFind (hdTag m.header) s.bridge.reqs).isNone then
          s |> removeIn i |> incCnt Page.bridge Reg.bridgeOrphanCnt |> raiseEv Page.bridge Ev.bridgeRespOrphan
        else s |> removeIn i |> endRemote (hdTag m.header) (hdArg m.header % 16) m.data

/-- RESPONSE (R194). -/
def execResponse (s : State) : Answer := alive s (takeResponse s)

/-! ### Notices (R173, R190, R194, R202, R208) -/

/-- Block i of a message's data. -/
def dataBlock (m : InMsg) (i : Nat) : Nat := (blockList (blockCount m.data) m.data).getD i 0

/-- The effect of a NOTICE; none where the notice queue has no cell for an ATTENTION now. -/
def doNotice (m : InMsg) (s : State) : Option State :=
  let h := m.header
  let b0 := dataBlock m 0
  let b1 := dataBlock m 1
  if hdOp h = noticePwe ∨ hdOp h = noticeSeqGap then
    some (logPwe (hdSrc h * 2 ^ 40 + bits b0 39 0) (bits b0 47 44) (if hdOp h = noticeSeqGap then stLost else bits b0 43 40) (hdSrc h)
      (pwRebuild s (bits b1 23 0)) s)
  else if hdOp h = noticeAttention then enterNotice (portLand m.port) ([h % 2 ^ 32, h / 2 ^ 32] ++ bytesToWords m.data.length m.data) s
  else some (linkReport (hdSrc h) (!bit b0 0) (bits b0 15 8) (bit b0 16) s)

/-- A NOTICE at the head of a stream is handled, or waits for a cell of the notice queue. -/
def takeNotice (stream : Nat) (s : State) : State :=
  match headOf s stream lmNotice with
  | none => s
  | some (i, m) =>
    match acceptSeq m s with
    | none => s |> noteDuplicate |> removeIn i
    | some t => (doNotice m (t |> noteExecuted m.header |> removeIn i)).getD s

/-- NOTICE (R190). -/
def execNotice (stream : Fin 16) (s : State) : Answer := alive s (takeNotice stream s)

/-! ### Remote writes and their guarded pairs (R184) -/

/-- The pending remote guarded value of a master for a page of a node. -/
def remoteGuardOf (s : State) (m : Master) (node page : Nat) : Option RemoteGuard :=
  s.bridge.guards.find? fun g => g.m = m && g.node = node && g.page = page

/-- It is dropped. -/
def dropRemoteGuard (g : RemoteGuard) (s : State) : State := { s with bridge := { s.bridge with guards := s.bridge.guards.filter fun x => x ≠ g } }

/-- Whether its 2 µs are over. -/
def remoteGuardExpired (s : State) (g : RemoteGuard) : Bool := decide (g.at_ + 2000 < s.time.tb2)

/-- A remote guarded value is discarded, with GUARD_FAIL on this hub's EVT page. -/
def failRemoteGuard (g : RemoteGuard) (cause : Nat) (s : State) : State := s |> dropRemoteGuard g |> guardFail g.m g.page g.off cause

/-- The first remote guarded value whose 2 µs are over is discarded (R184). -/
def remoteGuardTimeout (s : State) : State :=
  match s.bridge.guards.find? fun g => remoteGuardExpired s g with
  | some g => failRemoteGuard g guardTimeout s
  | none => s

/-- REMOTE_GUARD_TIMEOUT (R184). -/
def execRemoteGuardTimeout (s : State) : Answer := alive s (remoteGuardTimeout s)

/-- A piece of a write to another node (R184, R202): a guarded value waits for its complement, the pair goes as one GUARDED_WRITE, any other write
is sent as it is. `send` sends an operation with its address and data, `held` ends a piece that is not sent. -/
def remoteWrite (m : Master) (node a : Nat) (bs : List Byte) (send : Nat → Nat → List Byte → State → State) (held : State → State) (s : State) : State :=
  let page := a / 4096
  let off := a % 4096
  let s0 := match remoteGuardOf s m node page with
    | some g => if remoteGuardExpired s g then failRemoteGuard g guardTimeout s else s
    | none => s
  if 0x100000 ≤ a then send opWrite a bs s0
  else if bs.length = 4 ∧ off % 4 = 0 ∧ 0x300 ≤ off ∧ off < 0x380 then
    let s1 := match remoteGuardOf s0 m node page with
      | some g => failRemoteGuard g guardSequence s0
      | none => s0
    let g : RemoteGuard := { m := m, node := node, page := page, off := off - 0x300, value := leNat bs, at_ := s1.time.tb2 }
    held { s1 with bridge := { s1.bridge with guards := s1.bridge.guards ++ [g] } }
  else if bs.length = 4 ∧ off % 4 = 0 ∧ 0x380 ≤ off ∧ off < 0x400 then
    match remoteGuardOf s0 m node page with
    | none => held (guardFail m page (off - 0x380) guardSequence s0)
    | some g =>
      if g.off = off - 0x380 ∧ g.value ^^^ leNat bs = 0xFFFFFFFF then
        s0 |> dropRemoteGuard g |> send opGuarded (page * 4096 + 0x300 + g.off) (leBytes 4 g.value ++ bs)
      else held (failRemoteGuard g guardMismatch s0)
  else
    let s1 := match remoteGuardOf s0 m node page with
      | some g => failRemoteGuard g guardInterrupted s0
      | none => s0
    send opWrite a bs s1

/-- Whether a node value of a fabric address names this hub (R181). -/
def ownNode (s : State) (node : Nat) : Bool := node = 0 || node = nodeId s

/-- A posted write of a master to a fabric address (R181, R202, R205): executed here, or sent in pieces. -/
def postedWrite (port : Nat) (m : Master) (stream node a : Nat) (bs : List Byte) (s : State) : State :=
  if ownNode s node then access (.posted (nodeId s) m.cls.val a 0 stream) port m true a bs.length bs s
  else
    forEach (cutPieces (cutGrain s) a bs.length bs.length) (fun p u =>
      remoteWrite m node p.1 ((bs.drop (p.1 - a)).take p.2) (fun op x d v => sendPosted port node m.cls.val stream op x d v) id u) s

/-! ### Accesses of the other masters to a fabric address (R181, R198) -/

/-- The stream of a master's accesses to other nodes (R198): Newel's is 9, a remote master's 10, the local host port's 8. The others reach
this hub alone: the host goes through the windows of BAR2, and no stream is assigned to Mitre and JTAG (log entry 196). -/
def fabricStream (m : Master) : Option Nat := match m.ifc.val with
  | 1 => some 8
  | 2 => some 9
  | 5 => some 10
  | _ => none

/-- A write of a master to a fabric address: here through its own interface, elsewhere posted in its stream (R181, R198, R202). Only posted
writes may name node 0xFF. -/
def fabricWrite (m : Master) (addr : Nat) (bs : List Byte) (s : State) : State :=
  let node := addr / 2 ^ 40
  let a := addr % 2 ^ 40
  if ownNode s node then busWrite m a bs s
  else
    match fabricStream m with
    | none => endAccess (writeWaiter m) addr 0 stDecode [] s
    | some stream => s |> postedWrite (portOfInterface m) m stream node a bs |> endAccess (writeWaiter m) addr 0 stOk []

/-- A read of a master at a fabric address: here through its own interface, elsewhere as requests in its stream, answered by their RESPONSEs or
their timeout (R198, R201). -/
def fabricRead (m : Master) (addr n : Nat) (s : State) : State :=
  let node := addr / 2 ^ 40
  if ownNode s node then busRead m (addr % 2 ^ 40) n s
  else
    match fabricStream m with
    | none => endAccess (.master m) addr n stDecode [] s
    | some stream =>
      if node = 0xFF then endAccess (.master m) addr n stDecode [] s
      else
        let (ps, s1) := splitAccess s (.master m) addr n []
        forEach ps (fun p u => sendRequest (portOfInterface m) node m.cls.val stream opRead (p.1 % 2 ^ 40) p.2.1 [] p.2.2.2 u) s1

/-- REGISTER_WRITE (R390). -/
def execRegisterWrite (m : Master) (addr : BitVec 48) (data : List Byte) (s : State) : Answer := alive s (fabricWrite m addr.toNat data s)

/-- REGISTER_READ (R403). -/
def execRegisterRead (m : Master) (addr : BitVec 48) (len : Fin 4097) (s : State) : Answer := alive s (fabricRead m addr.toNat len s)

/-! ### BAR2 (R211, R212) -/

/-- The translation of a BAR2 offset: window, node, local address. -/
def bar2Target (s : State) (o : Nat) : Nat × Nat × Nat :=
  let w := o / 2 ^ 29
  (w, getR s Page.pcie (Reg.pcieWinHiNode w),
    2 ^ 29 * getR s Page.pcie (Reg.pcieWinLoLocalBase w) + 2 ^ 32 * getR s Page.pcie (Reg.pcieWinHiLocalBase w) + o % 2 ^ 29)

/-- An access through BAR2 completes as Unsupported Request (R211). -/
def unsupported (tag : Nat) (s : State) : State :=
  s |> emit (.completion tag 1 []) |> incCnt Page.pcie Reg.pcieUrCnt |> raiseEv Page.pcie Ev.pcieUrSent |> aerReport

/-- PCIE_BAR2_READ (R211): a read of lenM1 + 1 bytes with a tag. -/
def bar2Read (o len tag : Nat) (s : State) : State :=
  let (w, node, a) := bar2Target s o
  if !pcieUp s then s
  else if !flag s Page.pcie (Reg.pcieWinLoEn w) ∨ node = 0xFF then unsupported tag s
  else if ownNode s node then access (.bar2 tag node) portPcie hostMaster false a len [] s
  else
    let (ps, s1) := splitAccess s (.bar2 tag node) (node * 2 ^ 40 + a) len []
    forEach ps (fun p u => sendRequest portPcie node 3 w opRead (p.1 % 2 ^ 40) p.2.1 [] p.2.2.2 u) s1

/-- PCIE_BAR2_READ (R211). -/
def execPcieBar2Read (offset : Word) (lenM1 : Fin 512) (tag : BitVec 10) (s : State) : Answer :=
  alive s (bar2Read offset.toNat (lenM1 + 1) tag.toNat s)

/-- A memory write through BAR2 (R211). A payload of more than 256 bytes is more than the endpoint takes (R210): the packet is discarded
(PRESUMED, log entry 194). A write through a read-only window is logged with a PWSEQ that is some value: it never left the hub. -/
def bar2Write (o : Nat) (bs : List Byte) (s : State) : State :=
  let (w, node, a) := bar2Target s o
  if !pcieUp s ∨ bs.isEmpty then s
  else if 256 < bs.length then aerReport s
  else if !flag s Page.pcie (Reg.pcieWinLoEn w) then s |> incCnt Page.pcie Reg.pcieUrCnt |> raiseEv Page.pcie Ev.pcieUrSent |> aerReport
  else if flag s Page.pcie (Reg.pcieWinLoRo w) then
    let (v, s1) := freeValue s
    logPwe (node * 2 ^ 40 + a) 3 stDenied (nodeId s) (v % 2 ^ 48) s1
  else postedWrite portPcie hostMaster w node a bs s

/-- PCIE_BAR2_WRITE (R211). -/
def execPcieBar2Write (offset : Word) (data : List Byte) (s : State) : Answer := alive s (bar2Write offset.toNat data s)

/-! ### The local host port (R213, R214) -/

/-- A frame's CRC as the host sends it is right. -/
def lhCrcOk (cmd : Nat) (body : List Byte) (crc : BitVec 16) : Bool := crc.toNat = crc16 (leBytes 1 cmd ++ body)

/-- What the hub drives, with its CRC. -/
def lhDrive (bs : List Byte) (s : State) : State := emit (.lh (bs ++ leBytes 2 (crc16 bs))) s

/-- A wrong CRC is counted and raised. -/
def lhCrcErr (s : State) : State := s |> incCnt Page.lh Reg.lhCrcErrCnt |> raiseEv Page.lh Ev.lhCrcErr

/-- A frame with its CRC checked: nothing on a fenced page, STATUS 0xFF for a wrong CRC where the frame is answered. -/
def lhFrame (cmd : Nat) (body : List Byte) (crc : BitVec 16) (answered : Bool) (f : State → State) (s : State) : State :=
  if pageFenced s Page.lh then s
  else if lhCrcOk cmd body crc then f s
  else s |> lhCrcErr |> whenS answered (lhDrive [0xFF])

/-- A free ticket slot, the hub's choice: slot and generation. -/
def freeTicket (s : State) : Option (Nat × Nat) × State :=
  let free := (List.range 64).filter fun n => !((storeFind n s.bridge.tickets).any fun t => t.held)
  if free.isEmpty then (none, s)
  else
    let (v, s1) := freeValue s
    let n := free.getD (v % free.length) 0
    (some (n, match storeFind n s.bridge.tickets with
      | some t => (t.gen + 1) % 1024
      | none => 0), s1)

/-- An access that takes a ticket and answers PENDING, or BUSY with nothing done; `f` begins it for its waiter. -/
def withTicket (f : Waiter → State → State) (s : State) : State :=
  match freeTicket s with
  | (none, _) => s |> incCnt Page.lh Reg.lhBusyCnt |> raiseEv Page.lh Ev.lhBusy |> lhDrive [0x02]
  | (some (n, gen), s1) =>
    { s1 with bridge := { s1.bridge with tickets := storePut n { gen := gen, held := true, result := none } s1.bridge.tickets } }
    |> syncTickets |> f (.ticket n) |> lhDrive ([0x01] ++ leBytes 2 (n + 64 * gen))

/-- STATUS of an access that completed within the turnaround. -/
def lhStatus (st : Nat) : Byte := if st = stOk then 0 else BitVec.ofNat 8 (0x80 + st)

/-- A READ or WRITE_NP to this hub (R214): decided, carried out and answered at once, unless it runs a partner transaction. -/
def lhHere (write : Bool) (a n : Nat) (bs : List Byte) (s : State) : State :=
  match partnerTarget s localMaster write a n with
  | some (p, off) =>
    (match partnerRefusal s p off n write with
     | none => withTicket (fun w u => access w portLocal localMaster write a n bs u) s
     | some st => lhDrive [lhStatus st] s)
  | none =>
    let x := accessHere localMaster write a n bs s
    lhDrive (lhStatus x.1 :: x.2.1) x.2.2

/-- ADDR and LEN_M1 of a frame. -/
def lhHead (addr : BitVec 48) (n : Nat) : List Byte := leBytes 6 addr.toNat ++ leBytes 1 (n - 1)

/-- The node and the local address of a frame's ADDR. -/
def lhNode (addr : BitVec 48) : Nat := addr.toNat / 2 ^ 40
def lhAddr (addr : BitVec 48) : Nat := addr.toNat % 2 ^ 40

/-- LH_WRITE (R214). -/
def execLhWrite (addr : BitVec 48) (data : List Byte) (crc : BitVec 16) (s : State) : Answer :=
  alive s (if data.isEmpty ∨ 256 < data.length then s
    else lhFrame 0x01 (lhHead addr data.length ++ data) crc false (postedWrite portLocal localMaster 8 (lhNode addr) (lhAddr addr) data) s)

/-- A READ of another node (R200): its requests. -/
def lhRemoteRead (addr : BitVec 48) (n : Nat) (w : Waiter) (s : State) : State :=
  let (ps, s1) := splitAccess s w addr.toNat n []
  forEach ps (fun p u => sendRequest portLocal (lhNode addr) 4 8 opRead (p.1 % 2 ^ 40) p.2.1 [] p.2.2.2 u) s1

/-- A WRITE_NP to another node: its requests, with guarded pairs joined (R184). -/
def lhRemoteWrite (addr : BitVec 48) (data : List Byte) (w : Waiter) (s : State) : State :=
  let (ps, s1) := splitAccess s w addr.toNat data.length data
  forEach ps (fun p u =>
    remoteWrite localMaster (lhNode addr) (p.1 % 2 ^ 40) p.2.2.1
      (fun op x d v => sendRequest portLocal (lhNode addr) 4 8 op x p.2.1 d p.2.2.2 v) (endAccess p.2.2.2 addr.toNat p.2.1 stOk []) u) s1

/-- LH_WRITE_NP (R214). -/
def execLhWriteNp (addr : BitVec 48) (data : List Byte) (crc : BitVec 16) (s : State) : Answer :=
  alive s (if data.isEmpty ∨ 256 < data.length then s
    else lhFrame 0x02 (lhHead addr data.length ++ data) crc true (fun u =>
      if ownNode u (lhNode addr) then lhHere true (lhAddr addr) data.length data u
      else if lhNode addr = 0xFF then lhDrive [lhStatus stDecode] u
      else withTicket (lhRemoteWrite addr data) u) s)

/-- LH_READ (R214). -/
def execLhRead (addr : BitVec 48) (lenM1 : Byte) (crc : BitVec 16) (s : State) : Answer :=
  let n := lenM1.toNat + 1
  alive s (lhFrame 0x03 (lhHead addr n) crc true (fun u =>
      if ownNode u (lhNode addr) then lhHere false (lhAddr addr) n [] u
      else if lhNode addr = 0xFF then lhDrive [lhStatus stDecode] u
      else withTicket (lhRemoteRead addr n) u) s)

/-- A FETCH of a ticket (R214). -/
def lhFetch (ticket : Nat) (s : State) : State :=
  let n := ticket % 64
  match storeFind n s.bridge.tickets with
  | none => lhDrive [0x03] s
  | some t =>
    if !t.held ∨ t.gen ≠ ticket / 64 then lhDrive [0x03] s
    else
      match t.result with
      | none => lhDrive [0x01] s
      | some (st, data) =>
        { s with bridge := { s.bridge with tickets := storePut n { t with held := false, result := none } s.bridge.tickets } }
        |> syncTickets |> lhDrive (lhStatus st :: data)

/-- FETCH (R214). -/
def execFetch (ticket : BitVec 16) (crc : BitVec 16) (s : State) : Answer :=
  alive s (lhFrame 0x04 (leBytes 2 ticket.toNat) crc true (lhFetch ticket.toNat) s)

/-- A GUARDED frame (R214): here as one write pair, which answers only a denial (R403); elsewhere as one GUARDED_WRITE, which ends a value that waits
for its complement there (R184). -/
def lhGuarded (addr : BitVec 48) (value complement : Nat) (s : State) : State :=
  let a := lhAddr addr
  if ownNode s (lhNode addr) then
    match decide_ s localMaster .guarded a 4 with
    | .denied _ => s |> guardedPair .nobody localMaster a value complement |> lhDrive [lhStatus stDenied]
    | _ => guardedPair .nobody localMaster a value complement s
  else
    let s1 := match remoteGuardOf s localMaster (lhNode addr) (a / 4096) with
      | some g => failRemoteGuard g guardInterrupted s
      | none => s
    sendPosted portLocal (lhNode addr) 4 8 opGuarded a (leBytes 4 value ++ leBytes 4 complement) s1

/-- LH_GUARDED (R214). -/
def execLhGuarded (addr : BitVec 48) (value complement : Word) (crc : BitVec 16) (s : State) : Answer :=
  alive s (lhFrame 0x05 (leBytes 6 addr.toNat ++ leBytes 4 value.toNat ++ leBytes 4 complement.toNat) crc false
    (lhGuarded addr value.toNat complement.toNat) s)

/-- DONE_MAP (R213). -/
def doneMap (s : State) : Nat :=
  ((List.range 64).map fun n => 2 ^ n * b2n ((storeFind n s.bridge.tickets).any fun t => t.held && t.result.isSome)).foldl (· + ·) 0

/-- LHSTAT (R213). -/
def execLhstat (crc : BitVec 16) (s : State) : Answer :=
  alive s (lhFrame 0x06 [] crc false (fun u => lhDrive (leBytes 8 (doneMap u)) u) s)

/-- FRAME_ERR (R213): the frame is discarded whole. -/
def execFrameErr (s : State) : Answer := alive s (whenS (!pageFenced s Page.lh) (raiseEv Page.lh Ev.lhFrameErr) s)

/-! ### Partner deliveries (R208) -/

/-- The bytes of the data words of a packet, by its LENGTH. -/
def packetData (p : Packet) : List Byte := (p.data.flatMap (leBytes 4)).take (p.word % 2 ^ 16)

/-- The reason and the bytes that a packet of IN_Q brings: an engine's attention word and its data, or a whole CAN record. -/
def deliveryOf (s : State) (p : Nat) (k : Packet) : Nat × List Byte :=
  if canPartner s p then (3, packetData k) else (bits (k.data.headD 0) 27 24, (packetData k).drop 4)

/-- Bytes laid into a ring of a size from a position on: the position and the bytes of each stretch up to the ring's end. -/
def ringParts (size at_ : Nat) : Nat → List Byte → List (Nat × List Byte)
  | 0, _ => []
  | _, [] => []
  | fuel + 1, bs => (at_, bs.take (size - at_)) :: ringParts size 0 fuel (bs.drop (size - at_))

/-- The bytes go to the ring at DELIVER as posted writes, wrapping at its end. The class and interface of a write that this hub executes itself are some
class and interface. -/
def deliverWrites (p : Nat) (bs : List Byte) (s : State) : State :=
  let size := descRing s p
  let at_ := storeGet 0 s.bridge.totals p % size
  let base := descDeliver s p
  let (v, s1) := freeValue s
  let m : Master := { cls := Fin.ofNat 15 v, ifc := Fin.ofNat 7 (v / 15), node := 0 }
  forEach (ringParts size at_ bs.length bs) (fun e u => postedWrite portHub m (descStream u p) (base / 2 ^ 40) ((base + e.1) % 2 ^ 40) e.2 u) s1

/-- The ATTENTION notice of a delivery: none where the local notice queue has no cell now. -/
def deliverNotice (p reason total : Nat) (s : State) : Option State :=
  let blk := p + 2 ^ 16 * reason + 2 ^ 32 * total
  let n := descNotify s p
  if ownNode s n then
    let h := msgHeader (nodeId s) 0 { outMsg s portHub lmNotice (nodeId s) (descStream s p) noticeAttention true (leBytes 8 blk) with tag := 0 }
    enterNotice portHub [h % 2 ^ 32, h / 2 ^ 32, blk % 2 ^ 32, blk / 2 ^ 32] s
  else some (sendNotice portHub n (descStream s p) noticeAttention [blk] s)

/-- The oldest packet of a partner's IN_Q is delivered (R208); it stays while its notice finds no cell. -/
def partnerDelivery (p : Nat) (s : State) : State :=
  let q := descInQ s p
  if !descEnabled s p || pageFenced s Page.bridge || pageFenced s Page.cab then s
  else
    match (queueOf s q).pkts with
    | [] => s
    | k :: _ =>
      if (queueOf s q).consumer ≠ partnerPort s p then (ownerErr s).2
      else if !wholePacket k then s
      else
        let (reason, bs) := deliveryOf s p k
        let total := (storeGet 0 s.bridge.totals p + bs.length) % 2 ^ 32
        let s1 := dropPacket q 0 s
        let s2 := whenS (!bs.isEmpty) (deliverWrites p bs) s1
        let s3 := { s2 with bridge := { s2.bridge with totals := storePut p total s2.bridge.totals } }
        (deliverNotice p reason total s3).getD s

/-- PARTNER_DELIVERY (R208). -/
def execPartnerDelivery (p : Fin 2048) (s : State) : Answer := alive s (partnerDelivery p s)

end Sys2Proof.Machine
end

