-- ==== Sys2Proof/Machine/Dispatch.lean ====
section
/-!
DEFINITION. The dispatch: one arm for each command, a direct call of its meaning.
-/

namespace Sys2Proof.Machine

open Sys2Proof

def exec (i : Instr) (s : State) : Host.Outcome State Fault Refusal :=
  match i with
  | .laneEnable p n => Sys2Proof.Machine.execLaneEnable p n s
  | .pllLock p n => Sys2Proof.Machine.execPllLock p n s
  | .pllUnlock p n => Sys2Proof.Machine.execPllUnlock p n s
  | .signalDetect p n => Sys2Proof.Machine.execSignalDetect p n s
  | .los p n => Sys2Proof.Machine.execLos p n s
  | .cdrLock p n ctle => Sys2Proof.Machine.execCdrLock p n ctle s
  | .blockReceived p n sync payload fill => Sys2Proof.Machine.execBlockReceived p n sync payload fill s
  | .blockLock p n => Sys2Proof.Machine.execBlockLock p n s
  | .blockLockLost p n => Sys2Proof.Machine.execBlockLockLost p n s
  | .hiBer p n => Sys2Proof.Machine.execHiBer p n s
  | .hiBerClear p n => Sys2Proof.Machine.execHiBerClear p n s
  | .markerStripeReceived p markers fill fillers => Sys2Proof.Machine.execMarkerStripeReceived p markers fill fillers s
  | .markerLockLost p n => Sys2Proof.Machine.execMarkerLockLost p n s
  | .laneMode m p n mode => Sys2Proof.Machine.execLaneMode m p n mode s
  | .prbsLock p n => Sys2Proof.Machine.execPrbsLock p n s
  | .prbsLockLost p n => Sys2Proof.Machine.execPrbsLockLost p n s
  | .injectSingle m p n group => Sys2Proof.Machine.execInjectSingle m p n group s
  | .injectBurst m p n group next => Sys2Proof.Machine.execInjectBurst m p n group next s
  | .laneCntClr m p => Sys2Proof.Machine.execLaneCntClr m p s
  | .laneCounterLoRead m p n k => Sys2Proof.Machine.execLaneCounterLoRead m p n k s
  | .cycleBoundary => Sys2Proof.Machine.execCycleBoundary s
  | .galleryStart st payload frac => Sys2Proof.Machine.execGalleryStart st payload frac s
  | .galleryEnd st payload => Sys2Proof.Machine.execGalleryEnd st payload s
  | .landingStart st payload => Sys2Proof.Machine.execLandingStart st payload s
  | .landingEnd st payload others responses => Sys2Proof.Machine.execLandingEnd st payload others responses s
  | .stagingWrite st tread block payload => Sys2Proof.Machine.execStagingWrite st tread block payload s
  | .treadTrailer st tread trailer => Sys2Proof.Machine.execTreadTrailer st tread trailer s
  | .commit st => Sys2Proof.Machine.execCommit st s
  | .pairDelivery index cycle => Sys2Proof.Machine.execPairDelivery index cycle s
  | .deadlineCheck flight index cycle => Sys2Proof.Machine.execDeadlineCheck flight index cycle s
  | .treadSnapshot tread => Sys2Proof.Machine.execTreadSnapshot tread s
  | .dmaTrigger index => Sys2Proof.Machine.execDmaTrigger index s
  | .dmaDataReturn cycle index off data => Sys2Proof.Machine.execDmaDataReturn cycle index off data s
  | .dmaDone cycle => Sys2Proof.Machine.execDmaDone cycle s
  | .dmaErr cycle index => Sys2Proof.Machine.execDmaErr cycle index s
  | .loadBegin m => Sys2Proof.Machine.execLoadBegin m s
  | .stairIndDataWrite m value => Sys2Proof.Machine.execStairIndDataWrite m value s
  | .stairIndDataRead m => Sys2Proof.Machine.execStairIndDataRead m s
  | .prepare m => Sys2Proof.Machine.execPrepare m s
  | .prepareDone => Sys2Proof.Machine.execPrepareDone s
  | .stairAbort m => Sys2Proof.Machine.execStairAbort m s
  | .activate m => Sys2Proof.Machine.execActivate m s
  | .cancel m => Sys2Proof.Machine.execCancel m s
  | .deactivate m => Sys2Proof.Machine.execDeactivate m s
  | .cycleLoRead m => Sys2Proof.Machine.execCycleLoRead m s
  | .imgCntClr m => Sys2Proof.Machine.execImgCntClr m s
  | .arrivalWindowClose st => Sys2Proof.Machine.execArrivalWindowClose st s
  | .slotTime st => Sys2Proof.Machine.execSlotTime st s
  | .quarantine m st => Sys2Proof.Machine.execQuarantine m st s
  | .armOpen m st => Sys2Proof.Machine.execArmOpen m st s
  | .disarm m st => Sys2Proof.Machine.execDisarm m st s
  | .stnCntClr m st => Sys2Proof.Machine.execStnCntClr m st s
  | .pairLinkFrame bytes => Sys2Proof.Machine.execPairLinkFrame bytes s
  | .yield m => Sys2Proof.Machine.execYield m s
  | .hostAliveKick m => Sys2Proof.Machine.execHostAliveKick m s
  | .headlessArm p => Sys2Proof.Machine.execHeadlessArm p s
  | .linkReportSend p => Sys2Proof.Machine.execLinkReportSend p s
  | .joinNonceHi m value => Sys2Proof.Machine.execJoinNonceHi m value s
  | .joinResponse => Sys2Proof.Machine.execJoinResponse s
  | .joinTimeout => Sys2Proof.Machine.execJoinTimeout s
  | .joinAdmit m node => Sys2Proof.Machine.execJoinAdmit m node s
  | .refuse m node => Sys2Proof.Machine.execRefuse m node s
  | .pcieBar2Read offset lenM1 tag => Sys2Proof.Machine.execPcieBar2Read offset lenM1 tag s
  | .pcieBar2Write offset data => Sys2Proof.Machine.execPcieBar2Write offset data s
  | .landingShareSend st share => Sys2Proof.Machine.execLandingShareSend st share s
  | .request stream => Sys2Proof.Machine.execRequest stream s
  | .posted stream => Sys2Proof.Machine.execPosted stream s
  | .broadcast => Sys2Proof.Machine.execBroadcast s
  | .response => Sys2Proof.Machine.execResponse s
  | .notice stream => Sys2Proof.Machine.execNotice stream s
  | .credit => Sys2Proof.Machine.execCredit s
  | .remoteGuardTimeout => Sys2Proof.Machine.execRemoteGuardTimeout s
  | .remoteTimeout tag => Sys2Proof.Machine.execRemoteTimeout tag s
  | .unreachable => Sys2Proof.Machine.execUnreachable s
  | .pwePop m => Sys2Proof.Machine.execPwePop m s
  | .noticePop m => Sys2Proof.Machine.execNoticePop m s
  | .pwseqLoRead m => Sys2Proof.Machine.execPwseqLoRead m s
  | .bridgeCntClr m => Sys2Proof.Machine.execBridgeCntClr m s
  | .accRow m value => Sys2Proof.Machine.execAccRow m value s
  | .partnerTransaction p => Sys2Proof.Machine.execPartnerTransaction p s
  | .mailboxStatus e => Sys2Proof.Machine.execMailboxStatus e s
  | .mailboxAttention e => Sys2Proof.Machine.execMailboxAttention e s
  | .partnerTimeout p => Sys2Proof.Machine.execPartnerTimeout p s
  | .partnerDelivery p => Sys2Proof.Machine.execPartnerDelivery p s
  | .lhWrite addr data crc => Sys2Proof.Machine.execLhWrite addr data crc s
  | .lhWriteNp addr data crc => Sys2Proof.Machine.execLhWriteNp addr data crc s
  | .lhRead addr lenM1 crc => Sys2Proof.Machine.execLhRead addr lenM1 crc s
  | .fetch ticket crc => Sys2Proof.Machine.execFetch ticket crc s
  | .lhGuarded addr value complement crc => Sys2Proof.Machine.execLhGuarded addr value complement crc s
  | .lhstat crc => Sys2Proof.Machine.execLhstat crc s
  | .frameErr => Sys2Proof.Machine.execFrameErr s
  | .i2cGo m => Sys2Proof.Machine.execI2cGo m s
  | .i2cDone result count data => Sys2Proof.Machine.execI2cDone result count data s
  | .perst => Sys2Proof.Machine.execPerst s
  | .pcieHotReset => Sys2Proof.Machine.execPcieHotReset s
  | .pcieLinkUp width speed bme => Sys2Proof.Machine.execPcieLinkUp width speed bme s
  | .pcieLinkDown => Sys2Proof.Machine.execPcieLinkDown s
  | .cabOpen m declare => Sys2Proof.Machine.execCabOpen m declare s
  | .cabPut m word => Sys2Proof.Machine.execCabPut m word s
  | .cabClose m trim => Sys2Proof.Machine.execCabClose m trim s
  | .cabAbort m => Sys2Proof.Machine.execCabAbort m s
  | .cabGet m link => Sys2Proof.Machine.execCabGet m link s
  | .cabMark m => Sys2Proof.Machine.execCabMark m s
  | .cabRewind m => Sys2Proof.Machine.execCabRewind m s
  | .cabRelease m => Sys2Proof.Machine.execCabRelease m s
  | .queueEnable m q => Sys2Proof.Machine.execQueueEnable m q s
  | .queueDisable m q => Sys2Proof.Machine.execQueueDisable m q s
  | .queueFlush m q => Sys2Proof.Machine.execQueueFlush m q s
  | .clearBroken m q => Sys2Proof.Machine.execClearBroken m q s
  | .auditWalk => Sys2Proof.Machine.execAuditWalk s
  | .walkDone => Sys2Proof.Machine.execWalkDone s
  | .walkNow m => Sys2Proof.Machine.execWalkNow m s
  | .reclaim m => Sys2Proof.Machine.execReclaim m s
  | .mirrorCopy late => Sys2Proof.Machine.execMirrorCopy late s
  | .mirrorCntClr m => Sys2Proof.Machine.execMirrorCntClr m s
  | .dramBulkCopy ch => Sys2Proof.Machine.execDramBulkCopy ch s
  | .cabCntClr m => Sys2Proof.Machine.execCabCntClr m s
  | .engineTick e pads => Sys2Proof.Machine.execEngineTick e pads s
  | .forceSwap e => Sys2Proof.Machine.execForceSwap e s
  | .swapReq m e mode restart => Sys2Proof.Machine.execSwapReq m e mode restart s
  | .swapCancel m e => Sys2Proof.Machine.execSwapCancel m e s
  | .engineStart e => Sys2Proof.Machine.execEngineStart e s
  | .engineStop e => Sys2Proof.Machine.execEngineStop e s
  | .txfData m e value => Sys2Proof.Machine.execTxfData m e value s
  | .rxfData m e => Sys2Proof.Machine.execRxfData m e s
  | .txfFlush m e => Sys2Proof.Machine.execTxfFlush m e s
  | .rxfFlush m e => Sys2Proof.Machine.execRxfFlush m e s
  | .engCntClr m e => Sys2Proof.Machine.execEngCntClr m e s
  | .pinmapWrite m e value => Sys2Proof.Machine.execPinmapWrite m e value s
  | .vioFault t mv => Sys2Proof.Machine.execVioFault t mv s
  | .vioFaultClear t mv => Sys2Proof.Machine.execVioFaultClear t mv s
  | .readback t p => Sys2Proof.Machine.execReadback t p s
  | .canModeChange m n mode => Sys2Proof.Machine.execCanModeChange m n mode s
  | .canSync n => Sys2Proof.Machine.execCanSync n s
  | .canFrameReceived n frame own stamp => Sys2Proof.Machine.execCanFrameReceived n frame own stamp s
  | .canStore n => Sys2Proof.Machine.execCanStore n s
  | .txbReq m n map => Sys2Proof.Machine.execTxbReq m n map s
  | .txbCancel m n map => Sys2Proof.Machine.execTxbCancel m n map s
  | .txbUnpark m n map => Sys2Proof.Machine.execTxbUnpark m n map s
  | .canAttemptStart n => Sys2Proof.Machine.execCanAttemptStart n s
  | .canAttemptEnd n outcome => Sys2Proof.Machine.execCanAttemptEnd n outcome s
  | .canTtRequest index => Sys2Proof.Machine.execCanTtRequest index s
  | .recover m n => Sys2Proof.Machine.execRecover m n s
  | .recoveryDone n => Sys2Proof.Machine.execRecoveryDone n s
  | .canCntClr m n => Sys2Proof.Machine.execCanCntClr m n s
  | .exchangeNow m => Sys2Proof.Machine.execExchangeNow m s
  | .resync m => Sys2Proof.Machine.execResync m s
  | .tb1Set m => Sys2Proof.Machine.execTb1Set m s
  | .todArm m => Sys2Proof.Machine.execTodArm m s
  | .ppsEdge rising => Sys2Proof.Machine.execPpsEdge rising s
  | .ppsLost => Sys2Proof.Machine.execPpsLost s
  | .tb3Step m => Sys2Proof.Machine.execTb3Step m s
  | .compareArm m n => Sys2Proof.Machine.execCompareArm m n s
  | .compareFire n => Sys2Proof.Machine.execCompareFire n s
  | .ppsOutEnd => Sys2Proof.Machine.execPpsOutEnd s
  | .capture src => Sys2Proof.Machine.execCapture src s
  | .swTrig m n => Sys2Proof.Machine.execSwTrig m n s
  | .capStampRead m n => Sys2Proof.Machine.execCapStampRead m n s
  | .tb0LoRead m => Sys2Proof.Machine.execTb0LoRead m s
  | .tbLoRead m base => Sys2Proof.Machine.execTbLoRead m base s
  | .fastTrip ch => Sys2Proof.Machine.execFastTrip ch s
  | .curveTrip ch k => Sys2Proof.Machine.execCurveTrip ch k s
  | .soaTrip ch => Sys2Proof.Machine.execSoaTrip ch s
  | .rampFast ch => Sys2Proof.Machine.execRampFast ch s
  | .rampDone ch => Sys2Proof.Machine.execRampDone ch s
  | .rampTimeout ch => Sys2Proof.Machine.execRampTimeout ch s
  | .breakerOn m ch => Sys2Proof.Machine.execBreakerOn m ch s
  | .breakerOff m ch => Sys2Proof.Machine.execBreakerOff m ch s
  | .breakerClear m ch => Sys2Proof.Machine.execBreakerClear m ch s
  | .applyCurve m ch => Sys2Proof.Machine.execApplyCurve m ch s
  | .offTimerExpiry ch => Sys2Proof.Machine.execOffTimerExpiry ch s
  | .autoClear ch => Sys2Proof.Machine.execAutoClear ch s
  | .admission meas => Sys2Proof.Machine.execAdmission meas s
  | .tripRecord ok => Sys2Proof.Machine.execTripRecord ok s
  | .bow meas => Sys2Proof.Machine.execBow meas s
  | .shed meas => Sys2Proof.Machine.execShed meas s
  | .restoration meas => Sys2Proof.Machine.execRestoration meas s
  | .vrst => Sys2Proof.Machine.execVrst s
  | .ov on => Sys2Proof.Machine.execOv on s
  | .vholdLow on => Sys2Proof.Machine.execVholdLow on s
  | .xtaLost => Sys2Proof.Machine.execXtaLost s
  | .xtaOk => Sys2Proof.Machine.execXtaOk s
  | .xtaSelect m => Sys2Proof.Machine.execXtaSelect m s
  | .foscTrim trim err => Sys2Proof.Machine.execFoscTrim trim err s
  | .xtbLost => Sys2Proof.Machine.execXtbLost s
  | .mainPllUnlock => Sys2Proof.Machine.execMainPllUnlock s
  | .gateOff m target => Sys2Proof.Machine.execGateOff m target s
  | .gateOn m target => Sys2Proof.Machine.execGateOn m target s
  | .gateDone => Sys2Proof.Machine.execGateDone s
  | .gateBusy => Sys2Proof.Machine.execGateBusy s
  | .governorDecision sense => Sys2Proof.Machine.execGovernorDecision sense s
  | .powerGood => Sys2Proof.Machine.execPowerGood s
  | .vrailFail => Sys2Proof.Machine.execVrailFail s
  | .govCntClr m => Sys2Proof.Machine.execGovCntClr m s
  | .registerWrite m addr data => Sys2Proof.Machine.execRegisterWrite m addr data s
  | .setAliasWrite m page reg value => Sys2Proof.Machine.execSetAliasWrite m page reg value s
  | .clrAliasWrite m page reg value => Sys2Proof.Machine.execClrAliasWrite m page reg value s
  | .tglAliasWrite m page reg value => Sys2Proof.Machine.execTglAliasWrite m page reg value s
  | .unitReset m page => Sys2Proof.Machine.execUnitReset m page s
  | .evtForce m page bits_ => Sys2Proof.Machine.execEvtForce m page bits_ s
  | .guardedValueWrite m page reg value => Sys2Proof.Machine.execGuardedValueWrite m page reg value s
  | .guardTimeout cls page => Sys2Proof.Machine.execGuardTimeout cls page s
  | .indDataRead m page => Sys2Proof.Machine.execIndDataRead m page s
  | .indDataWrite m page value => Sys2Proof.Machine.execIndDataWrite m page value s
  | .denyPop m => Sys2Proof.Machine.execDenyPop m s
  | .rowSel m value => Sys2Proof.Machine.execRowSel m value s
  | .rowVal m value => Sys2Proof.Machine.execRowVal m value s
  | .uidLoRead m => Sys2Proof.Machine.execUidLoRead m s
  | .keyLoad m => Sys2Proof.Machine.execKeyLoad m s
  | .unwrap m => Sys2Proof.Machine.execUnwrap m s
  | .derive m => Sys2Proof.Machine.execDerive m s
  | .keyErase m => Sys2Proof.Machine.execKeyErase m s
  | .keyLock m => Sys2Proof.Machine.execKeyLock m s
  | .readPub m => Sys2Proof.Machine.execReadPub m s
  | .verify m => Sys2Proof.Machine.execVerify m s
  | .cmac m => Sys2Proof.Machine.execCmac m s
  | .gcmEnc m => Sys2Proof.Machine.execGcmEnc m s
  | .gcmDec m => Sys2Proof.Machine.execGcmDec m s
  | .hash m => Sys2Proof.Machine.execHash m s
  | .random m => Sys2Proof.Machine.execRandom m s
  | .lcNonce m => Sys2Proof.Machine.execLcNonce m s
  | .lcTransition m => Sys2Proof.Machine.execLcTransition m s
  | .setRingKey m => Sys2Proof.Machine.execSetRingKey m s
  | .cmdDone => Sys2Proof.Machine.execCmdDone s
  | .scrub => Sys2Proof.Machine.execScrub s
  | .keyService => Sys2Proof.Machine.execKeyService s
  | .entropyFail => Sys2Proof.Machine.execEntropyFail s
  | .entropyOk => Sys2Proof.Machine.execEntropyOk s
  | .dapAttach => Sys2Proof.Machine.execDapAttach s
  | .dapDenied => Sys2Proof.Machine.execDapDenied s
  | .fault page cause => Sys2Proof.Machine.execFault page cause s
  | .fence gone => Sys2Proof.Machine.execFence gone s
  | .fenceCmd m page => Sys2Proof.Machine.execFenceCmd m page s
  | .errTest m => Sys2Proof.Machine.execErrTest m s
  | .errTestEnd => Sys2Proof.Machine.execErrTestEnd s
  | .dumpNow m => Sys2Proof.Machine.execDumpNow m s
  | .dumpDone => Sys2Proof.Machine.execDumpDone s
  | .dumpSummary => Sys2Proof.Machine.execDumpSummary s
  | .msixUnmask v => Sys2Proof.Machine.execMsixUnmask v s
  | .checkpoint m => Sys2Proof.Machine.execCheckpoint m s
  | .ckptDone ok => Sys2Proof.Machine.execCkptDone ok s
  | .headLoRead m => Sys2Proof.Machine.execHeadLoRead m s
  | .ckptLoRead m => Sys2Proof.Machine.execCkptLoRead m s
  | .expiryLoRead m => Sys2Proof.Machine.execExpiryLoRead m s
  | .warmReset m => Sys2Proof.Machine.execWarmReset m s
  | .ringReset m bootsel => Sys2Proof.Machine.execRingReset m bootsel s
  | .pinReset => Sys2Proof.Machine.execPinReset s
  | .bor bootsel => Sys2Proof.Machine.execBor bootsel s
  | .por bootsel => Sys2Proof.Machine.execPor bootsel s
  | .bootDone => Sys2Proof.Machine.execBootDone s
  | .standbyEnter m => Sys2Proof.Machine.execStandbyEnter m s
  | .standby => Sys2Proof.Machine.execStandby s
  | .standbyExit m => Sys2Proof.Machine.execStandbyExit m s
  | .beginUpdate m type defer_ => Sys2Proof.Machine.execBeginUpdate m type defer_ s
  | .updIndDataWrite m value => Sys2Proof.Machine.execUpdIndDataWrite m value s
  | .blockFromDram m block => Sys2Proof.Machine.execBlockFromDram m block s
  | .updAbort m => Sys2Proof.Machine.execUpdAbort m s
  | .updCommit m => Sys2Proof.Machine.execUpdCommit m s
  | .commitDone ok => Sys2Proof.Machine.execCommitDone ok s
  | .confirm m => Sys2Proof.Machine.execConfirm m s
  | .confirmWindowExpiry => Sys2Proof.Machine.execConfirmWindowExpiry s
  | .saveConfig m ok => Sys2Proof.Machine.execSaveConfig m ok s
  | .saveNodeRecord m ok => Sys2Proof.Machine.execSaveNodeRecord m ok s
  | .clearConfig m ok => Sys2Proof.Machine.execClearConfig m ok s
  | .dramScrub corrected bad => Sys2Proof.Machine.execDramScrub corrected bad s
  | .dramCntClr m => Sys2Proof.Machine.execDramCntClr m s
  | .flashCntClr m => Sys2Proof.Machine.execFlashCntClr m s
  | .parkEntryDone p n => Sys2Proof.Machine.execParkEntryDone p n s
  | .injectPeriodic p n group => Sys2Proof.Machine.execInjectPeriodic p n group s
  | .canRxError n code dataPhase severe => Sys2Proof.Machine.execCanRxError n code dataPhase severe s
  | .xtbReturn => Sys2Proof.Machine.execXtbReturn s
  | .mainPllLock => Sys2Proof.Machine.execMainPllLock s
  | .vholdFall => Sys2Proof.Machine.execVholdFall s
  | .resetRelease bootsel => Sys2Proof.Machine.execResetRelease bootsel s
  | .perstRelease => Sys2Proof.Machine.execPerstRelease s
  | .registerRead m addr len => Sys2Proof.Machine.execRegisterRead m addr len s
  | .dapDetach => Sys2Proof.Machine.execDapDetach s

end Sys2Proof.Machine
end

