-- ==== Sys2Proof/Machine/Pads.lean ====
section
/-!
DEFINITION. The pads of the module: the pad grid (R489–R491), and what the hub makes of each pad in a state (R276, R348, R443, R492, R493).
-/

namespace Sys2Proof.Machine

open Sys2Proof

/-- A pad by its name; `neg` marks the negative pad of a differential pair. -/
inductive Pad where
  | io (bank pin : Nat)
  | vio (bank : Nat)
  | laneTx (p : Side) (n : Nat) (neg : Bool)
  | laneRx (p : Side) (n : Nat) (neg : Bool)
  | pcieTx (n : Nat) (neg : Bool)
  | pcieRx (n : Nat) (neg : Bool)
  | pcieRefclk (neg : Bool)
  | perst
  | canTx (n : Nat)
  | canRx (n : Nat)
  | lhSck
  | lhCs
  | lhIo (n : Nat)
  | lhAttn
  | i2cScl
  | i2cSda
  | tck
  | tms
  | tdi
  | tdo
  | trst
  | errP
  | errN
  | resetN
  | ppsIn
  | ppsOut
  | pairTx (neg : Bool)
  | pairRx (neg : Bool)
  | bootsel (n : Nat)
  | xtaIn
  | xtaOut
  | xtbIn
  | xtbOut
  | gateB (b : Nat)
  | srcB (b : Nat)
  | snsB (b : Nat) (neg : Bool)
  | gateIn
  | srcIn
  | snsIn (neg : Bool)
  | vin
  | vaux
  | vhold
  | pgnd
deriving DecidableEq, Repr

/-! ### The grid (R489–R491) -/

/-- The letters of rows 1–19. -/
def rowLetters : List String := ["A", "B", "C", "D", "E", "F", "G", "H", "J", "K", "L", "M", "N", "P", "T", "U", "V", "W", "Y"]

/-- The letters of a row, 1–39 (R489). -/
def rowName (row : Nat) : String :=
  let l := rowLetters.getD ((row - 1) % 19) ""
  if row ≤ 19 then l else if row ≤ 38 then "A" ++ l else "BA"

/-- The place of a pad in the bank band: side, depth and position along the side (table of R490). -/
def bandPlace (row col : Nat) : Option (Nat × Nat × Nat) :=
  if row ≤ 5 ∧ col ≤ 32 then some (0, row - 1, col - 1)
  else if 35 ≤ col ∧ row ≤ 32 then some (1, 39 - col, row - 1)
  else if 35 ≤ row ∧ 8 ≤ col then some (2, 39 - row, 39 - col)
  else if col ≤ 5 ∧ 8 ≤ row then some (3, col - 1, 39 - row)
  else none

/-- The pad at a place of the bank band (R490). -/
def bandPad (side j u : Nat) : Pad :=
  let t := 4 * side + u / 8
  let i := u % 8
  match j with
  | 0 => .io t i
  | 1 => .io t (8 + i)
  | 2 => if i % 2 = 0 then .vio t else .pgnd
  | 3 => .io t (16 + i)
  | _ => .io t (24 + i)

/-- Lane pads of column 33 or 7 (table of R491): four transmit pairs from row 8, four receive pairs from row 18. -/
def lanePad (p : Side) (row : Nat) : Pad :=
  if 8 ≤ row ∧ row < 16 then .laneTx p ((row - 8) / 2) (row % 2 = 1)
  else if 18 ≤ row ∧ row < 26 then .laneRx p ((row - 18) / 2) (row % 2 = 1)
  else .pgnd

/-- The pads of row 13 (table of R491). -/
def row13 : Nat → Pad
  | 10 => .lhSck | 11 => .lhCs | 12 => .lhIo 0 | 13 => .lhIo 1 | 14 => .lhIo 2 | 15 => .lhIo 3 | 16 => .lhAttn
  | 18 => .i2cScl | 19 => .i2cSda
  | 21 => .tck | 22 => .tms | 23 => .tdi | 24 => .tdo | 25 => .trst
  | _ => .pgnd

/-- The pads of row 15 (table of R491). -/
def row15 : Nat → Pad
  | 10 => .errP | 11 => .errN | 12 => .resetN | 13 => .ppsIn | 14 => .ppsOut | 15 => .pairTx false | 16 => .pairTx true
  | 17 => .pairRx false | 18 => .pairRx true | 19 => .bootsel 0 | 20 => .bootsel 1
  | _ => .pgnd

/-- A run of pads in a row: from column `lo`, `n` pads, made by the offset. -/
def runPad (lo n col : Nat) (f : Nat → Pad) (other : Pad) : Pad := if lo ≤ col ∧ col < lo + n then f (col - lo) else other

/-- The pad at a position outside the bank band (table of R491); every other one is PGND. -/
def innerPad (row col : Nat) : Pad :=
  if col = 33 ∧ row < 27 then lanePad .east row
  else if col = 7 ∧ row < 27 then lanePad .west row
  else match row with
    | 7 => if col = 30 then .pcieRefclk false else if col = 31 then .pcieRefclk true else
           runPad 10 8 col (fun i => .pcieTx (i / 2) (i % 2 = 1)) (runPad 20 8 col (fun i => .pcieRx (i / 2) (i % 2 = 1)) .pgnd)
    | 9 => if col = 30 then .perst else .pgnd
    | 10 => runPad 10 16 col .canTx .pgnd
    | 11 => runPad 10 16 col .canRx .pgnd
    | 13 => row13 col
    | 15 => row15 col
    | 20 => if col = 15 then .xtaIn else if col = 16 then .xtaOut else if col = 23 then .xtbIn else if col = 24 then .xtbOut else .pgnd
    | 27 => runPad 16 16 col (fun i => if i % 2 = 0 then .gateB (i / 2) else .srcB (i / 2)) .pgnd
    | 28 => runPad 16 16 col (fun i => .snsB (i / 2) (i % 2 = 1)) .pgnd
    | 29 => if col = 10 then .gateIn else if col = 11 then .srcIn else if col = 12 then .snsIn false else if col = 13 then .snsIn true
            else .pgnd
    | 31 | 32 => runPad 10 8 col (fun _ => .vin) (runPad 20 4 col (fun _ => .vaux) .pgnd)
    | 33 => runPad 10 8 col (fun _ => .vin) (runPad 20 4 col (fun _ => .vaux) (runPad 25 2 col (fun _ => .vhold) .pgnd))
    | _ => .pgnd

/-- The pad at a row and a column of the grid, each 1–39 (R489–R491). -/
def padAt (row col : Nat) : Pad :=
  match bandPlace row col with
  | some (side, j, u) => bandPad side j u
  | none => innerPad row col

/-! ### What stands at a pad (R492, R493) -/

/-- What the hub makes of a pad. `signal` is an output whose levels follow its protocol or its clock. -/
inductive PadMode where
  | undriven
  | low
  | high
  | idle
  | signal
  | input
  | pulledUp
  | pulledDown
  | terminated
  | oscillator
  | supply
deriving DecidableEq, Repr

/-- A driven level. -/
def driven (b : Bool) : PadMode := if b then .high else .low

/-- VIN is below VRST: the hub is in HOLD (R458). -/
def belowVrst (s : State) : Bool := s.boot.holding = some 4

/-- IO_Btt_Ppp: undriven in reset, else as R276 gives it. -/
def ioMode (s : State) (t p : Nat) : PadMode :=
  if s.boot.holding.isSome then .undriven
  else
    let (oe, v) := padState s t p
    if oe then driven v else .undriven

/-- Whether CANn_TX is held recessive (R280, R493). -/
def canHeld (s : State) (n : Nat) : Bool :=
  canMode s n = canConfig || canMode s n = canMonitor || canMode s n = canLoopInt || canFlag s n Reg.canStatusGated
    || canFc s n = fcBusOff || pageFenced s (Page.can n) || inStandby s || pageGated s (Page.can n)

/-- CANn_TX (R493). -/
def canTxMode (s : State) (n : Nat) : PadMode :=
  if belowVrst s then .undriven else if s.boot.holding.isSome || canHeld s n then .high else .signal

/-- A lane's transmitter: electrical idle in reset and wherever the lane sends nothing; a lane of NEAR_LB with TX_IDLE is idle too (R61). -/
def laneTxMode (s : State) (p : Side) (n : Nat) : PadMode :=
  if s.boot.holding.isSome then .idle
  else if laneSends s p n then .signal
  else if laneStateOf s p n = laneTest && laneFlag s p (Reg.laneLLstatusPllLock n) && laneFlag s p (Reg.laneLLctrlTxEn n)
      && !(laneModeOf s p n = modeNearLb && laneFlag s p (Reg.laneLLctrlTxIdle n)) then .signal
  else .idle

/-- The ERR pair (R443): low, low in reset; static; or the square wave, whose phase the spec leaves to the clock. -/
def errMode (s : State) (neg : Bool) : PadMode :=
  match errPair s s.boot.holding.isSome with
  | some (a, b) => driven (if neg then b else a)
  | none => .signal

/-- PPS_OUT: low in reset, else active or inactive as POL states (R323). -/
def ppsOutMode (s : State) : PadMode :=
  if s.boot.holding.isSome then .low else driven (ppsOutActive s == flag s Page.time Reg.timePpsOutPol)

/-- A gate pad: up in RAMP and ON, else pulled to SRC (R348). -/
def gateMode (s : State) (ch : Nat) : PadMode := if s.boot.holding.isNone && chUp s ch then .high else .pulledDown

/-- What the hub makes of a pad (table of R492, R493). -/
def padMode (s : State) : Pad → PadMode
  | .io t p => ioMode s t p
  | .canTx n => canTxMode s n
  | .canRx _ | .lhCs | .tms | .tdi | .resetN => .pulledUp
  | .laneTx p n _ => laneTxMode s p n
  | .laneRx .. | .pcieRx .. | .pairRx _ => .terminated
  | .pcieTx .. => if s.boot.holding.isSome then .idle else .signal
  | .perst | .tck | .trst | .ppsIn | .bootsel _ => .pulledDown
  | .pcieRefclk _ | .lhSck => .input
  | .xtaIn | .xtaOut | .xtbIn | .xtbOut => .oscillator
  | .lhIo _ | .tdo => .undriven
  | .lhAttn => if s.boot.holding.isNone && lhAttn s then .low else .undriven
  | .i2cScl | .i2cSda => .undriven
  | .errP => errMode s false
  | .errN => errMode s true
  | .ppsOut => ppsOutMode s
  | .pairTx neg => if s.boot.holding.isSome then driven neg else .signal
  | .gateB b => gateMode s (b + 1)
  | .gateIn => gateMode s 0
  | .srcB _ | .snsB .. | .srcIn | .snsIn _ => .input
  | .vaux => if belowVrst s then .undriven else .supply
  | .vio _ | .vin | .vhold | .pgnd => .supply

end Sys2Proof.Machine
end

