-- ==== Sys2Proof/Safety.lean ====
section
/-!
DEFINITION. What a safe step is, the invariant of the machine, and the terms in which statements about commands are made: that a command
completes, what it may be asked in, what it leaves alone.
-/

namespace Sys2Proof

/-- A step is safe when it answers a next state. -/
def SafeStep (s : Machine.State) : Prop := ∃ t, Machine.step s = .next t

namespace Machine

/-- The invariant of the machine: every byte memory (DRAM, flash, the two image banks, the two Staircase banks and the Staircase of each
configuration store half) is in canonical form, the event log holds at most its 256 entries (R435), and a halted journal writer at most 256 (R485). -/
structure State.Wf (s : State) : Prop where
  dram : memoryWf s.dram = true
  flash : memoryWf s.flash = true
  committed : memoryWf s.image.committed = true
  staging : memoryWf s.image.staging = true
  active : memoryWf s.stair.active = true
  pend : memoryWf s.stair.pend = true
  store : ∀ h ∈ s.boot.store, memoryWf h.stair = true
  log : s.event.log.length ≤ 256
  held : s.event.held.length ≤ 256

/-- The hub carries out commands: no RING, PIN, BOR or POR reset is asserted (R458). -/
def Running (s : State) : Prop := s.boot.holding = none

/-- A command completes in a next state of which something holds. -/
def Completes (c : Instr) (s : State) (P : State → Prop) : Prop := ∃ t, exec c s = .next t ∧ P t

/-- A master's access to a word of a register page is permitted: the hub carries out commands, JTAG is not blocked, the decision of R402 is
OK, no guarded value of the master's class waits on the page (R392), and it does not wait for a gate that is to turn OFF (R364). -/
structure Granted (s : State) (m : Master) (k : AccessKind) (p off : Nat) : Prop where
  running : Running s
  debug : dapBlocked s m = false
  ok : decide_ s m k (p * 4096 + off) 4 = .ok
  idle : guardOf s p m.cls.val = none
  unheld : gateHolds s m (decide (k ≠ .read)) (p * 4096 + off) 4 = false

/-- The sticky bit of an event source of a page is 1 (R431). -/
def Raised (p i : Nat) (s : State) : Prop := bit (getR s p Reg.comEvtSticky) i = true

/-- A counter field of 16 or 32 bits has counted one more, or stands at its largest value (R64). -/
def Counted (p : Nat) (f : Fld) (s t : State) : Prop := getR t p f = min (getR s p f + 1) (2 ^ f.width - 1)

/-- Every byte of DRAM, flash, the two banks of the process image, the host's image and the two Staircase banks reads as before. -/
def SameMemory (s t : State) : Prop :=
  ∀ a, memRead t.dram a = memRead s.dram a ∧ memRead t.flash a = memRead s.flash a ∧
    memRead t.image.committed a = memRead s.image.committed a ∧ memRead t.image.staging a = memRead s.image.staging a ∧
    memRead t.image.host a = memRead s.image.host a ∧ memRead t.stair.active a = memRead s.stair.active a ∧
    memRead t.stair.pend a = memRead s.stair.pend a

/-- Every byte of memory but n bytes of DRAM from an address up reads as before. -/
def SameMemoryBut (a n : Nat) (s t : State) : Prop :=
  (∀ x, x < a ∨ a + n ≤ x → memRead t.dram x = memRead s.dram x) ∧
  ∀ x, memRead t.flash x = memRead s.flash x ∧ memRead t.image.committed x = memRead s.image.committed x ∧
    memRead t.image.staging x = memRead s.image.staging x ∧ memRead t.image.host x = memRead s.image.host x ∧
    memRead t.stair.active x = memRead s.stair.active x ∧ memRead t.stair.pend x = memRead s.stair.pend x

/-- Every byte of memory but n bytes of DRAM from an address up and the pending Staircase bank reads as before. -/
def SameMemoryButPend (a n : Nat) (s t : State) : Prop :=
  (∀ x, x < a ∨ a + n ≤ x → memRead t.dram x = memRead s.dram x) ∧
  ∀ x, memRead t.flash x = memRead s.flash x ∧ memRead t.image.committed x = memRead s.image.committed x ∧
    memRead t.image.staging x = memRead s.image.staging x ∧ memRead t.image.host x = memRead s.image.host x ∧
    memRead t.stair.active x = memRead s.stair.active x

/-- The DRAM address of the journal's next entry, of 32 bytes (R445). -/
def journalSlot (s : State) : Nat := journalBase + 32 * (journalHead s % 65536)

/-- Every register field of every page but those listed reads as before. -/
def SameRegisters (pages : List Nat) (s t : State) : Prop :=
  ∀ p, p ∉ pages → ∀ f ∈ pageFields p, getR t p f = getR s p f

/-- Every field of a page's registers but those listed reads as before. -/
def SameFields (p : Nat) (fs : List Fld) (s t : State) : Prop :=
  ∀ f ∈ pageFields p, f ∉ fs → getR t p f = getR s p f

end Machine

end Sys2Proof
end

