-- ==== Sys2Proof/Certificates/Slice0/Obligations.lean ====
section
/-!
DEFINITION. The statements for the provers: what each command of the block does, what it leaves alone, and what every step keeps.
-/

namespace Sys2Proof

open Machine

end Sys2Proof

open Sys2Proof Sys2Proof.Machine

/-- While no larger reset is asserted: CDR_LOCK and BLOCK_LOCK on a lane that is not DISABLED set the lane's lock bit; CDR_LOCK also takes the
coefficient where ADAPT is set and FREEZE is not, and keeps it otherwise; BLOCK_LOCK leaves the next marker's BIP unchecked; on a DISABLED lane both
change nothing. HI_BER_CLEAR clears the lane's HI_BER, and the page's HI_BER level stands just while some lane of the port has it. PRBS_LOCK sets
and PRBS_LOCK_LOST clears the checker's lock. Each changes register fields only of its LANE page (HI_BER_CLEAR also of EVT) and no memory. (R37,
R47, R48, R52, R62) -/
def Obligations.LaneLocksFollowTheReceiver : Prop :=
  ∀ (s : State) (p : Side) (n : Fin 4) (ctle : Fin 32), Running s →
    (laneStateOf s p n ≠ laneDisabled →
      Completes (.cdrLock p n ctle) s (fun t => laneFlag t p (Reg.laneLLstatusCdrLock n) = true ∧
        getR t (Page.lane p) (Reg.laneLRxeqCtle n) =
          (if laneFlag s p (Reg.laneLRxeqAdapt n) = true ∧ laneFlag s p (Reg.laneLRxeqFreeze n) = false then ctle.val
           else getR s (Page.lane p) (Reg.laneLRxeqCtle n)) ∧
        SameRegisters [Page.lane p] s t ∧ SameMemory s t) ∧
      Completes (.blockLock p n) s (fun t => laneFlag t p (Reg.laneLLstatusBlockLock n) = true ∧ (laneOf t p n).seen = false ∧
        SameRegisters [Page.lane p] s t ∧ SameMemory s t)) ∧
    (laneStateOf s p n = laneDisabled → exec (.cdrLock p n ctle) s = .next s ∧ exec (.blockLock p n) s = .next s) ∧
    Completes (.hiBerClear p n) s (fun t => laneFlag t p (Reg.laneLLstatusHiBer n) = false ∧
      (levelOn t (Page.lane p) Ev.laneHiBer = true ↔ ∃ k : Fin 4, laneFlag t p (Reg.laneLLstatusHiBer k) = true) ∧
      SameRegisters [Page.lane p, Page.evt] s t ∧ SameMemory s t) ∧
    Completes (.prbsLock p n) s (fun t => laneFlag t p (Reg.laneLLstatusPrbsLock n) = true ∧
      SameRegisters [Page.lane p] s t ∧ SameMemory s t) ∧
    Completes (.prbsLockLost p n) s (fun t => laneFlag t p (Reg.laneLLstatusPrbsLock n) = false ∧
      SameRegisters [Page.lane p] s t ∧ SameMemory s t)

/-- LANE_ENABLE on an enabled lane puts it in TRAINING, or in TEST where a test mode is set, with its CDR, block and marker locks cleared, its
coefficient at the default 0 and the port's rate taken; a lane within the received width has its link down after it, on another no memory and no
page but its own and EVT changes. On a lane that is not enabled it changes nothing. PLL_LOCK on a lane that is not DISABLED, nor DEEP without an
exit request, sets PLL_LOCK while XTB runs, and a DEEP lane is ACTIVE with the coefficient it had saved. PLL_UNLOCK on such a lane, in any state of
the Lane states table, clears PLL_LOCK, and PLL_UNLOCK stands. On any other lane, and PLL_LOCK while XTB is lost, they change nothing. SIGNAL_DETECT
ends the lane's loss of signal, and where the link is down begins to time the bring-up. (R52, R53, R54, R56, R61, R65, R362) -/
def Obligations.LanePllAndEnable : Prop :=
  ∀ (s : State) (p : Side) (n : Fin 4), Running s →
    (laneEnabled s p n = true →
      Completes (.laneEnable p n) s (fun t =>
        laneStateOf t p n = (if getR s (Page.lane p) (Reg.laneLLctrlMode n) ≠ 0 then laneTest else laneTraining) ∧
        laneFlag t p (Reg.laneLLstatusCdrLock n) = false ∧ laneFlag t p (Reg.laneLLstatusBlockLock n) = false ∧
        laneFlag t p (Reg.laneLLstatusMarkerLock n) = false ∧ getR t (Page.lane p) (Reg.laneLRxeqCtle n) = 0 ∧
        (portOf t p).rate = getR s (Page.lane p) Reg.lanePortCfgRate ∧ (inWidth s p n = true → linkUp t p = false) ∧
        (inWidth s p n = false → SameRegisters [Page.lane p, Page.evt] s t ∧ SameMemory s t))) ∧
    (laneEnabled s p n = false → exec (.laneEnable p n) s = .next s) ∧
    (laneStateOf s p n ≠ laneDisabled → (laneStateOf s p n = laneDeep → (laneOf s p n).exitReq = true) →
      (levelOn s Page.clk Ev.clkXtbLost = false →
        Completes (.pllLock p n) s (fun t => laneFlag t p (Reg.laneLLstatusPllLock n) = true ∧
          laneStateOf t p n = (if laneStateOf s p n = laneDeep then laneActive else laneStateOf s p n) ∧
          (laneStateOf s p n = laneDeep → getR t (Page.lane p) (Reg.laneLRxeqCtle n) = (laneOf s p n).savedEq % 32) ∧
          SameRegisters [Page.lane p, Page.evt] s t ∧ SameMemory s t)) ∧
      (laneStateOf s p n ≤ laneTest →
        Completes (.pllUnlock p n) s (fun t => laneFlag t p (Reg.laneLLstatusPllLock n) = false ∧
          levelOn t (Page.lane p) Ev.lanePllUnlock = true ∧ SameRegisters [Page.lane p, Page.evt] s t ∧ SameMemory s t))) ∧
    (laneStateOf s p n = laneDisabled ∨ (laneStateOf s p n = laneDeep ∧ (laneOf s p n).exitReq = false) →
      exec (.pllLock p n) s = .next s ∧ exec (.pllUnlock p n) s = .next s) ∧
    (levelOn s Page.clk Ev.clkXtbLost = true → exec (.pllLock p n) s = .next s) ∧
    Completes (.signalDetect p n) s (fun t => (laneOf t p n).noSignal = false ∧
      (linkUp s p = false → (portOf s p).lateDown = false → (portOf s p).bringupFrom = none →
        (portOf t p).bringupFrom = some s.time.tb2) ∧
      SameRegisters [Page.lane .east, Page.lane .west, Page.evt] s t ∧ SameMemory s t)

/-- BLOCK_LOCK_LOST, MARKER_LOCK_LOST and HI_BER clear the lane's lock bits, or set its HI_BER with the page's level; LOS marks the lane's signal
lost. On a lane within the received width each of the four leaves the link direction down; the lock losses raise their events there, and LOS clears
CDR_LOCK and its level stands. On a lane outside it LOS changes no register. (R47, R48, R49, R51, R65) -/
def Obligations.LaneLossTakesTheLinkDown : Prop :=
  ∀ (s : State) (p : Side) (n : Fin 4), Running s →
    Completes (.blockLockLost p n) s (fun t => laneFlag t p (Reg.laneLLstatusBlockLock n) = false ∧
      laneFlag t p (Reg.laneLLstatusMarkerLock n) = false ∧
      (inWidth s p n = true → linkUp t p = false ∧ Raised (Page.lane p) Ev.laneBlockLockLost t)) ∧
    Completes (.markerLockLost p n) s (fun t => laneFlag t p (Reg.laneLLstatusMarkerLock n) = false ∧
      (inWidth s p n = true → linkUp t p = false ∧ Raised (Page.lane p) Ev.laneMarkerLockLost t)) ∧
    Completes (.hiBer p n) s (fun t => laneFlag t p (Reg.laneLLstatusHiBer n) = true ∧ levelOn t (Page.lane p) Ev.laneHiBer = true ∧
      (inWidth s p n = true → linkUp t p = false)) ∧
    Completes (.los p n) s (fun t => (laneOf t p n).noSignal = true ∧
      (inWidth s p n = true → linkUp t p = false ∧ laneFlag t p (Reg.laneLLstatusCdrLock n) = false ∧
        levelOn t (Page.lane p) Ev.laneLos = true) ∧
      (inWidth s p n = false → SameRegisters [] s t ∧ SameMemory s t))

/-- PARK_ENTRY_DONE on a lane that is entering QUIET or DEEP ends the entry: the lane is in that state (ACTIVE again where an exit request came
during the entry of QUIET), its CDR, block and marker locks are 0, after DEEP its PLL is unlocked and its coefficient saved, and no memory changes;
on a lane that is entering neither it changes nothing. With no other flip pending on a lane: INJECT_PERIODIC sends the group with bit POS flipped
where it is the N-th since the last periodic flip, N being INJ_PERIOD and not 0, and unflipped otherwise. A permitted INJECT_SINGLE, with INJ_PERIOD
0, sends the group with bit POS (a POS above 65 acting as 65) flipped once, and INJECT_BURST sends its two groups with BURST_M1 + 1 consecutive bits
from POS flipped, running on into the second. No memory changes. (R57, R60, R63) -/
def Obligations.LaneParkAndInjection : Prop :=
  (∀ (s : State) (p : Side) (n : Fin 4), Running s → (laneOf s p n).parkTo = none → exec (.parkEntryDone p n) s = .next s) ∧
  (∀ (s : State) (p : Side) (n : Fin 4) (st : Nat), Running s → (laneOf s p n).parkTo = some st → (st = laneQuiet ∨ st = laneDeep) →
      Completes (.parkEntryDone p n) s (fun t =>
        laneStateOf t p n = (if (laneOf s p n).exitReq = true ∧ st = laneQuiet then laneActive else st) ∧ (laneOf t p n).parkTo = none ∧
        laneFlag t p (Reg.laneLLstatusCdrLock n) = false ∧ laneFlag t p (Reg.laneLLstatusBlockLock n) = false ∧
        laneFlag t p (Reg.laneLLstatusMarkerLock n) = false ∧
        (st = laneDeep → laneFlag t p (Reg.laneLLstatusPllLock n) = false ∧
          (laneOf t p n).savedEq = getR s (Page.lane p) (Reg.laneLRxeqCtle n)) ∧
        SameRegisters [Page.lane p, Page.evt] s t ∧ SameMemory s t)) ∧
  (∀ (s : State) (p : Side) (n : Fin 4) (g : BitVec 66) (pos period : Nat), Running s → (laneOf s p n).single = none →
    (laneOf s p n).burst = none → pos = getR s (Page.lane p) (Reg.laneLInjCtrlPos n) → pos ≤ 65 →
    period = getR s (Page.lane p) (Reg.laneLInjPeriodN n) →
    Completes (.injectPeriodic p n g) s (fun t =>
      t.sent = s.sent ++ [.line p n (if period ≠ 0 ∧ ((laneOf s p n).group + 1) % period = 0 then g.toNat ^^^ 2 ^ pos else g.toNat)] ∧
      SameRegisters [] s t ∧ SameMemory s t)) ∧
  (∀ (s : State) (m : Master) (p : Side) (n : Fin 4) (g h : BitVec 66), Granted s m .write (Page.lane p) (0x94 + 0x40 * n) →
    getR s (Page.lane p) (Reg.laneLInjPeriodN n) = 0 → (laneOf s p n).single = none → (laneOf s p n).burst = none →
    Completes (.injectSingle m p n g) s (fun t =>
      ∃ o, t.sent = s.sent ++ o ++ [.line p n (g.toNat ^^^ 2 ^ min 65 (getR s (Page.lane p) (Reg.laneLInjCtrlPos n)))] ∧
        SameRegisters [Page.lane p] s t ∧ SameMemory s t) ∧
    Completes (.injectBurst m p n g h) s (fun t =>
      ∃ o w w', t.sent = s.sent ++ o ++ [.line p n w, .line p n w'] ∧
        w + 2 ^ 66 * w' = (g.toNat + 2 ^ 66 * h.toNat) ^^^
          ((2 ^ (getR s (Page.lane p) (Reg.laneLInjCtrlBurstM1 n) + 1) - 1) * 2 ^ min 65 (getR s (Page.lane p) (Reg.laneLInjCtrlPos n))) ∧
        SameRegisters [Page.lane p] s t ∧ SameMemory s t))

/-- A permitted LANE_MODE shows the mode. A mode other than MISSION puts the lane in TEST with its locks and its checker's lock cleared, and takes
down a link that uses it; MISSION takes a lane out of TEST, into TRAINING where it is enabled and DISABLED else, and leaves any other lane in its
state. A permitted LANE_CNT_CLR clears the block, BIP, PRBS and lock-loss counters of every lane of the page and the port's LINKUP_CNT and FILL
counts, and FILL_MIN and FILL_MAX restart at FILL; it changes no other page but EVT and no memory. A permitted LANE_COUNTER_LO_READ answers bits
[31:0] of the counter and holds the HI half for the next read of HI. (R61, R64, R65) -/
def Obligations.LaneRegisterCommands : Prop :=
  ∀ (s : State) (m : Master) (p : Side) (n : Fin 4),
    (∀ mode : Fin 4, Granted s m .guarded (Page.lane p) (0x300 + 4 * n) →
      Completes (.laneMode m p n mode) s (fun t => getR t (Page.lane p) (Reg.laneLLctrlMode n) = mode ∧
        (mode ≠ 0 → laneStateOf t p n = laneTest ∧ laneFlag t p (Reg.laneLLstatusCdrLock n) = false ∧
          laneFlag t p (Reg.laneLLstatusBlockLock n) = false ∧ laneFlag t p (Reg.laneLLstatusMarkerLock n) = false ∧
          laneFlag t p (Reg.laneLLstatusPrbsLock n) = false ∧
          (inWidth s p n = true ∨ n.val < txLanes s p → linkUp t p = false)) ∧
        (mode = 0 → laneStateOf t p n =
          (if laneStateOf s p n = laneTest then (if laneEnabled s p n = true then laneTraining else laneDisabled)
           else laneStateOf s p n)))) ∧
    (Granted s m .write (Page.lane p) 0x40 →
      Completes (.laneCntClr m p) s (fun t =>
        (∀ k : Fin 4,
          getPair t (Page.lane p) (Reg.laneLBlkErrLo k) (Reg.laneLBlkErrHi k) = 0 ∧
          getPair t (Page.lane p) (Reg.laneLBipErrLo k) (Reg.laneLBipErrHi k) = 0 ∧
          getPair t (Page.lane p) (Reg.laneLPrbsErrLo k) (Reg.laneLPrbsErrHi k) = 0 ∧
          getPair t (Page.lane p) (Reg.laneLPrbsBitsLo k) (Reg.laneLPrbsBitsHi k) = 0 ∧
          getR t (Page.lane p) (Reg.laneLLocklossBlock k) = 0 ∧ getR t (Page.lane p) (Reg.laneLLocklossMarker k) = 0) ∧
        getR t (Page.lane p) Reg.lanePortBringupLinkupCnt = 0 ∧ getR t (Page.lane p) Reg.lanePortFillInsCount = 0 ∧
        getR t (Page.lane p) Reg.lanePortFillDelCount = 0 ∧
        getR t (Page.lane p) Reg.lanePortElasticFillMin = getR s (Page.lane p) Reg.lanePortElasticFill ∧
        getR t (Page.lane p) Reg.lanePortElasticFillMax = getR s (Page.lane p) Reg.lanePortElasticFill ∧
        SameRegisters [Page.lane p, Page.evt] s t ∧ SameMemory s t)) ∧
    (∀ k : LaneCounter, Granted s m .read (Page.lane p) (LaneCounter.off k + 0x40 * n) →
      Completes (.laneCounterLoRead m p n k) s (fun t =>
        t.sent = s.sent ++ [.answer m 0 (peekWord s m (Page.lane p) (LaneCounter.off k + 0x40 * n) % 2 ^ 32)] ∧
        storeFind (latchKey (Page.lane p) (LaneCounter.off k + 0x40 * n + 4)) t.latch =
          some (peekWord s m (Page.lane p) (LaneCounter.off k + 0x40 * n + 4)) ∧
        t.regs = s.regs ∧ SameMemory s t))

/-- BLOCK_RECEIVED on a DISABLED lane changes nothing. On a lane neither DISABLED nor in TEST it advances the lane's descrambler by the 64 payload
bits; a bad block (sync header 00 or 11, or a control block of an unknown type) counts one block error of the lane, saturating at 48 bits, and
raises BAD_BLOCK. A block of a lane that is outside the received width, or whose link is down, goes no further: no other page but EVT changes, and
no memory. On a lane within the received width of a link that is up it goes to the station that receives from the port, a bad one as an error mark,
before the port's elastic FILL is shown; a FILL of 0 or 16 takes the link down. On a lane in TEST, PRBS with PRBS_LOCK and a pattern in RX_PAT
counts its 66 bits and their errors, FAR_LB sends the received group again bit for bit with no flip pending, and in any other mode nothing changes.
A MARKER_STRIPE_RECEIVED whose markers on lanes with block lock all bear their own lane, the far port and a width of lanes with block lock leaves
the port with the width of the first of them, and exactly the lanes below it within the width; with one such marker the port shows the neighbour's
node. One with no marker on a lane with block lock changes nothing. A mismatched marker takes down a link that is up, with MARKER_MISMATCH. With the
link down and the page not fenced, the next marker in sequence on lane 0 alone, at a width of one lane and a lane 0 without HI_BER, brings the link
up: LINK_UP is counted and raised, and the port stays closed. (R32, R34, R37, R38, R42, R46, R50, R51, R53, R61, R62, R144) -/
def Obligations.LaneReception : Prop :=
  (∀ (s : State) (p : Side) (n : Fin 4) (payload : BitVec 64) (fill : Fin 17) (sync : BitVec 2) (plain : Nat), Running s →
    plain = (descramble (laneOf s p n).descr payload.toNat).1 →
    (laneStateOf s p n = laneDisabled → exec (.blockReceived p n sync payload fill) s = .next s) ∧
    (laneStateOf s p n ≠ laneDisabled → laneStateOf s p n ≠ laneTest → (linkUp s p && inWidth s p n) = false →
      Completes (.blockReceived p n sync payload fill) s (fun t =>
        (laneOf t p n).descr = (descramble (laneOf s p n).descr payload.toNat).2 ∧
        getPair t (Page.lane p) (Reg.laneLBlkErrLo n) (Reg.laneLBlkErrHi n) =
          (if badBlock sync.toNat plain = true then min (getPair s (Page.lane p) (Reg.laneLBlkErrLo n) (Reg.laneLBlkErrHi n) + 1) (2 ^ 48 - 1)
           else getPair s (Page.lane p) (Reg.laneLBlkErrLo n) (Reg.laneLBlkErrHi n)) ∧
        (badBlock sync.toNat plain = true → Raised (Page.lane p) Ev.laneBadBlock t) ∧
        SameRegisters [Page.lane p, Page.evt] s t ∧ SameMemory s t)) ∧
    (laneStateOf s p n ≠ laneDisabled → laneStateOf s p n ≠ laneTest → linkUp s p = true → inWidth s p n = true →
      ∃ u : State,
        (laneOf u p n).descr = (descramble (laneOf s p n).descr payload.toNat).2 ∧
        getPair u (Page.lane p) (Reg.laneLBlkErrLo n) (Reg.laneLBlkErrHi n) =
          (if badBlock sync.toNat plain = true then min (getPair s (Page.lane p) (Reg.laneLBlkErrLo n) (Reg.laneLBlkErrHi n) + 1) (2 ^ 48 - 1)
           else getPair s (Page.lane p) (Reg.laneLBlkErrLo n) (Reg.laneLBlkErrHi n)) ∧
        SameRegisters [Page.lane p, Page.evt] s u ∧ SameMemory s u ∧
        Completes (.blockReceived p n sync payload fill) s (fun t =>
          getR t (Page.lane p) Reg.lanePortElasticFill = fill.val ∧
          (if fill.val = 0 ∨ fill.val = 16 then linkUp t p = false
           else t = { setFill p fill (stationBlock (rxStation p) (if badBlock sync.toNat plain = true then none else some (sync.toNat, plain)) u)
                      with pending := s.pending }))) ∧
    (∀ taps, laneStateOf s p n = laneTest → getR s (Page.lane p) (Reg.laneLLctrlMode n) = modePrbs →
      prbsTaps (getR s (Page.lane p) (Reg.laneLPrbsCtrlRxPat n)) = some taps → laneFlag s p (Reg.laneLLstatusPrbsLock n) = true →
      Completes (.blockReceived p n sync payload fill) s (fun t =>
        getPair t (Page.lane p) (Reg.laneLPrbsBitsLo n) (Reg.laneLPrbsBitsHi n) =
          min (getPair s (Page.lane p) (Reg.laneLPrbsBitsLo n) (Reg.laneLPrbsBitsHi n) + 66) (2 ^ 48 - 1) ∧
        getPair t (Page.lane p) (Reg.laneLPrbsErrLo n) (Reg.laneLPrbsErrHi n) =
          min (getPair s (Page.lane p) (Reg.laneLPrbsErrLo n) (Reg.laneLPrbsErrHi n) +
            (prbsCheck taps (laneFlag s p (Reg.laneLPrbsCtrlRxInv n)) true (sync.toNat + 4 * payload.toNat) (laneOf s p n).prbsHist 0 66).1)
            (2 ^ 48 - 1) ∧
        SameRegisters [Page.lane p, Page.evt] s t ∧ SameMemory s t)) ∧
    (laneStateOf s p n = laneTest → getR s (Page.lane p) (Reg.laneLLctrlMode n) = modeFarLb → (laneOf s p n).single = none →
      (laneOf s p n).burst = none → getR s (Page.lane p) (Reg.laneLInjPeriodN n) = 0 →
      Completes (.blockReceived p n sync payload fill) s (fun t =>
        ∃ o, t.sent = s.sent ++ .line p n (sync.toNat + 4 * payload.toNat) :: o ∧
          SameRegisters [Page.lane p, Page.evt] s t ∧ SameMemory s t)) ∧
    (laneStateOf s p n = laneTest → getR s (Page.lane p) (Reg.laneLLctrlMode n) = modeMission ∨
        getR s (Page.lane p) (Reg.laneLLctrlMode n) = modeNearLb →
      exec (.blockReceived p n sync payload fill) s = .next s)) ∧
  (∀ (s : State) (p : Side) (ms : List MarkerRx) (fill : Fin 17) (fillers : Fin 256), Running s →
    (∀ k0 ks, stripeMarkers s p ms = k0 :: ks → (∀ k ∈ k0 :: ks, mismatched s p k = false) →
      Completes (.markerStripeReceived p ms fill fillers) s (fun t =>
        (portOf t p).rxWidth = some (markerWidth k0.payload.toNat) ∧
        (∀ n : Fin 4, inWidth t p n = true ↔ n.val < widthLanes (markerWidth k0.payload.toNat)) ∧
        (ks = [] → getR t (Page.lane p) Reg.lanePortStatusNeighbour = markerNode k0.payload.toNat))) ∧
    (stripeMarkers s p ms = [] → exec (.markerStripeReceived p ms fill fillers) s = .next s) ∧
    (∀ k, k ∈ stripeMarkers s p ms → mismatched s p k = true → linkUp s p = true →
      Completes (.markerStripeReceived p ms fill fillers) s (fun t =>
        linkUp t p = false ∧ Raised (Page.lane p) Ev.laneMarkerMismatch t)) ∧
    (∀ k0, stripeMarkers s p ms = [k0] → k0.lane = 0 → mismatched s p k0 = false → markerWidth k0.payload.toNat = 0 →
      markerInSeq (laneOf s p 0) k0.payload.toNat = true → laneFlag s p (Reg.laneLLstatusHiBer 0) = false → linkUp s p = false →
      pageFenced s (Page.lane p) = false → fill ≠ 0 → fill ≠ 16 →
      Completes (.markerStripeReceived p ms fill fillers) s (fun t =>
        linkUp t p = true ∧ Counted (Page.lane p) Reg.lanePortBringupLinkupCnt s t ∧ Raised (Page.lane p) Ev.laneLinkUp t ∧
        portOpen t p = false)))

/-- With the STAIR command permitted: LOAD_BEGIN from EMPTY, READY or FAILED empties the pending bank and enters LOADING; PREPARE in LOADING enters
PREPARING; ABORT in LOADING or PREPARING empties the bank; each of them in any other state, or while a DEACTIVATE is scheduled, is refused with code
STATE and CMD_REFUSED. A permitted word written to IND_DATA in LOADING at an aligned index above the last one is kept exactly where it belongs to
the header, the manifest, the slice directory, the global region or this node's slice, and the index advances; in another state, unaligned or out of
order it raises LOAD_ERR and the bank stays. A read answers the loaded word. The end of PREPARE is READY with PREP_OK where every check passes and
FAILED with PREP_FAIL and the code of the failing check otherwise. The active bank, the image and every page but STAIR, EVT and JRNL stay, and every
byte of memory but the pending bank and the journal's entry. (R107, R108, R109) -/
def Obligations.StaircaseLoading : Prop :=
  ∀ (s : State) (m : Master),
    (Granted s m .guarded Page.stair 0x300 →
      (s.stair.deact = false → (pendState s = pendEmpty ∨ pendState s = pendReady ∨ pendState s = pendFailed) →
        Completes (.loadBegin m) s (fun t => t.stair.pend = [] ∧ pendState t = pendLoading ∧ getR t Page.stair Reg.stairPendUsage = 0 ∧
          SameRegisters [Page.stair, Page.evt, Page.jrnl] s t ∧ SameMemoryButPend (journalSlot s) 32 s t)) ∧
      (s.stair.deact = false → pendState s = pendLoading →
        Completes (.prepare m) s (fun t => pendState t = pendPreparing ∧
          SameRegisters [Page.stair, Page.evt, Page.jrnl] s t ∧ SameMemoryBut (journalSlot s) 32 s t)) ∧
      (s.stair.deact = false → (pendState s = pendLoading ∨ pendState s = pendPreparing) →
        Completes (.stairAbort m) s (fun t => t.stair.pend = [] ∧ pendState t = pendEmpty ∧
          SameRegisters [Page.stair, Page.evt, Page.jrnl] s t ∧ SameMemoryButPend (journalSlot s) 32 s t)) ∧
      (∀ c, (c = .loadBegin m ∧ (s.stair.deact = true ∨ pendState s = pendLoading ∨ pendState s = pendPreparing ∨ pendState s = pendRetiring)) ∨
          (c = .prepare m ∧ (s.stair.deact = true ∨ pendState s ≠ pendLoading)) ∨
          (c = .stairAbort m ∧ (s.stair.deact = true ∨ (pendState s ≠ pendLoading ∧ pendState s ≠ pendPreparing))) →
        Completes c s (fun t => pendState t = pendState s ∧ getR t Page.stair Reg.stairErrCode = errState ∧ Raised Page.stair Ev.stairCmdRefused t ∧
          SameRegisters [Page.stair, Page.evt, Page.jrnl] s t ∧ SameMemoryBut (journalSlot s) 32 s t))) ∧
    (∀ (off value : Word), indAddr s m Page.stair = off.toNat →
      (Granted s m .write Page.stair 0x34 →
        (pendState s = pendLoading → off.toNat % 4 = 0 → (∀ h, s.stair.highOff = some h → h < off.toNat) →
          Completes (.stairIndDataWrite m value) s (fun t =>
            t.stair.pend = (if keptOffset s.stair.pend (nodeId s) off.toNat then memPutNat s.stair.pend off.toNat 4 value.toNat
              else s.stair.pend) ∧
            t.stair.highOff = some off.toNat ∧
            indAddr t m Page.stair = (off.toNat + 4 * getBank s m.cls Page.stair Reg.comIndCtrlStep) % 2 ^ 32 ∧
            SameRegisters [Page.stair] s t ∧ SameMemoryButPend 0 0 s t)) ∧
        ((pendState s ≠ pendLoading ∨ off.toNat % 4 ≠ 0 ∨ ∃ h, s.stair.highOff = some h ∧ off.toNat ≤ h) →
          Completes (.stairIndDataWrite m value) s (fun t =>
            Raised Page.stair Ev.stairLoadErr t ∧
            getR t Page.stair Reg.stairErrCode =
              (if pendState s ≠ pendLoading then errState else if off.toNat % 4 ≠ 0 then errAlign else errOrder) ∧
            SameRegisters [Page.stair, Page.evt] s t ∧ SameMemory s t))) ∧
      (Granted s m .read Page.stair 0x34 →
        Completes (.stairIndDataRead m) s (fun t => t.sent = s.sent ++ [.answer m 0 (loadedWord s off.toNat)] ∧
          SameRegisters [Page.stair] s t ∧ SameMemory s t))) ∧
    (Running s → pendState s = pendPreparing →
      Completes .prepareDone s (fun t =>
        (prepareCheck s.stair.pend (nodeId s) = none → pendState t = pendReady ∧ Raised Page.stair Ev.stairPrepOk t) ∧
        (∀ code off, prepareCheck s.stair.pend (nodeId s) = some (code, off) → pendState t = pendFailed ∧
          getR t Page.stair Reg.stairErrCode = code % 256 ∧ Raised Page.stair Ev.stairPrepFail t) ∧
        SameRegisters [Page.stair, Page.evt] s t ∧ SameMemory s t)) ∧
    (Running s → pendState s ≠ pendPreparing → exec .prepareDone s = .next s)

/-- With the STAIR command permitted: ACTIVATE that no check refuses schedules the activation at ACT_CYCLE with ACT_FLIGHT; CANCEL in READY or with
a DEACTIVATE scheduled removes what is scheduled; DEACTIVATE of an active Staircase, with nothing scheduled and the pending bank EMPTY, READY or
FAILED, is scheduled. Each of them is refused otherwise, with CMD_REFUSED and a code in ERR, which is that of the failing check for ACTIVATE and
STATE else, and leaves the schedule as it was. The active Staircase stays in force, and every page but STAIR, EVT and JRNL and every byte but the
journal's entry stay. (R109, R112) -/
def Obligations.StaircaseScheduling : Prop :=
  ∀ (s : State) (m : Master), Granted s m .guarded Page.stair 0x300 →
    let kept : State → Prop := fun t => SameRegisters [Page.stair, Page.evt, Page.jrnl] s t ∧ SameMemoryBut (journalSlot s) 32 s t
    let refused : Nat → State → Prop := fun code t => t.stair.sched = s.stair.sched ∧ t.stair.deact = s.stair.deact ∧
      getR t Page.stair Reg.stairErrCode = code % 256 ∧ Raised Page.stair Ev.stairCmdRefused t ∧ kept t
    (s.stair.deact = false → activateRefusal s = none →
      Completes (.activate m) s (fun t =>
        t.stair.sched = some (actCycle s, getR s Page.stair Reg.stairActCycleHiActFlight, actCycle s * imgPeriod s.stair.pend) ∧
        flag t Page.stair Reg.stairStatusActPending = true ∧ kept t)) ∧
    (∀ code, s.stair.deact = false → activateRefusal s = some code → Completes (.activate m) s (refused code)) ∧
    (s.stair.deact = true → Completes (.activate m) s (refused errState) ∧ Completes (.deactivate m) s (refused errState)) ∧
    ((s.stair.deact = true ∨ pendState s = pendReady) →
      Completes (.cancel m) s (fun t => t.stair.sched = none ∧ t.stair.deact = false ∧
        flag t Page.stair Reg.stairStatusActPending = false ∧ kept t)) ∧
    (s.stair.deact = false → pendState s ≠ pendReady → Completes (.cancel m) s (refused errState)) ∧
    (s.stair.deact = false → staircaseActive s = true → s.stair.sched = none →
      (pendState s = pendEmpty ∨ pendState s = pendReady ∨ pendState s = pendFailed) →
      Completes (.deactivate m) s (fun t => t.stair.deact = true ∧ flag t Page.stair Reg.stairStatusActPending = true ∧ kept t)) ∧
    (s.stair.deact = false → (staircaseActive s = false ∨ s.stair.sched ≠ none ∨ pendState s = pendLoading ∨ pendState s = pendPreparing ∨
        pendState s = pendRetiring) →
      Completes (.deactivate m) s (refused errState))

/-- A GALLERY START at a hub that does not act on a Staircase, but for one of a cycle that a retiring bank still executes, begins a transparent
reception of its cycle, and behind a riser the block goes on. At a forwarding station whose port is open and up, one of the pending cycle, within
its window and of the right direction, is accepted, and the next cycle is pending: it is forwarded behind a riser, or absorbed where the transmit
port is open for later cycles only. One of the wrong direction is rejected with GS_REJECT, and one of a cycle already sent is absorbed and counted
late. A GALLERY END ends the gallery in reception, and one that stands at its position in a layout goes on where it is relayed, followed by the
trailing riser and the idle stream. A LANDING START where a region begins opens it, failed where it disagrees. A LANDING END behind a region's last
block goes on where it is relayed, marked with the first share relayed damaged unless it is marked already; elsewhere it is a layout error. Without
a gallery in reception these three change nothing. (R72, R85, R111, R116, R118, R122, R136, R143, R145) -/
def Obligations.StationReception : Prop :=
  ∀ (s : State) (st : Side), Running s →
    (∀ (payload : BitVec 64) (frac : Fin 16) (c : Nat), c = nearestCycle (cycleNow s) (gsCycle24 payload.toNat) →
      (staircaseActs s = false → (s.stair.actCycle ≤ c ∨ pendState s ≠ pendRetiring ∨ s.stair.hadBank = false) →
        Completes (.galleryStart st payload frac) s (fun t =>
          (∃ g, (stationOf t st).rx = some g ∧ g.mode = .transparent ∧ g.pos = 1 ∧ g.cycle = c) ∧
          (pageFenced s (Page.stn st) = false → ∃ k, (stationOf t st).out = [.riser k, .block 2 payload.toNat] ∧ (stationOf t st).cursor = 2) ∧
          SameMemory s t)) ∧
      (staircaseActs s = true → gsWest payload.toNat = dirWest st → (stationOf s st).pendingCycle = c →
        (stationOf s st).rxFrom ≤ c → s.stair.actCycle ≤ c → forwardsRole (roleOf s st) = true → portOpenUp s (rxPort st) = true →
        sinceBoundary s c ≤ ((expectNs s st c + lateNs s st c : Nat) : Int) →
        Completes (.galleryStart st payload frac) s (fun t =>
          (∃ g, (stationOf t st).rx = some g ∧ g.mode = (if canSend s st = true ∧ c < (stationOf s st).txFrom then .absorb else .forward) ∧
            g.pos = 1 ∧ g.cycle = c ∧ g.flight = gsFlight payload.toNat) ∧
          (stationOf t st).pendingCycle = c + 1 ∧
          (sendsCycle s st c = true → (stationOf t st).sendCycle = c ∧ ∃ k, (stationOf t st).out = [.riser k, .block 2 payload.toNat]) ∧
          SameMemory s t)) ∧
      (staircaseActs s = true → s.stair.actCycle ≤ c → gsWest payload.toNat ≠ dirWest st →
        Completes (.galleryStart st payload frac) s (fun t =>
          (∃ g, (stationOf t st).rx = some g ∧ g.mode = .unread) ∧ Raised (Page.stn st) Ev.stnGsReject t ∧
          (stationOf t st).pendingCycle = (stationOf s st).pendingCycle ∧ SameMemory s t)) ∧
      (staircaseActs s = true → s.stair.actCycle ≤ c → gsWest payload.toNat = dirWest st → forwardsRole (roleOf s st) = true →
        c < (stationOf s st).pendingCycle →
        Completes (.galleryStart st payload frac) s (fun t =>
          (∃ g, (stationOf t st).rx = some g ∧ g.mode = .absorb ∧ g.cycle = c) ∧ Counted (Page.stn st) Reg.stnLateGalCnt s t ∧
          Raised (Page.stn st) Ev.stnLateGallery t ∧ (stationOf t st).pendingCycle = (stationOf s st).pendingCycle ∧ SameMemory s t))) ∧
    (∀ (payload : BitVec 64) (g : RxGallery), (stationOf s st).rx = some g →
      let ended : State → Prop := fun t => (stationOf t st).rx = some { g with ended := true } ∧
        SameRegisters [Page.stn st, Page.evt] s t ∧ SameMemory s t
      let sent : State → List OutItem → Prop := fun t xs => (stationOf t st).out.drop (stationOf s st).out.length = xs
      let bank := bankFor s g.cycle
      Completes (.galleryEnd st payload) s ended ∧
      (hasLayout s g = true → relaysOn s st g = true → .idleStream ∉ (stationOf s st).out →
        ((layoutPositions bank g.flight (dirWest st)).find? fun pe => pe.2 = .fin).map (·.1 + 1) = some g.pos →
        Completes (.galleryEnd st payload) s (fun t => ended t ∧ (g.mode = .forward →
          sent t [.block 2 payload.toNat, .riser (trailingFill bank g.flight (dirWest st)), .idleStream]))) ∧
      (∀ b first n, readBank s g = some b → regionStart b g.flight (dirWest st) g.pos = some (first, n) →
        Completes (.landingStart st payload) s (fun t =>
          (stationOf t st).rx = some { g with
            regionFailed := !(decide (bits payload.toNat 23 8 = first ∧ bits payload.toNat 31 24 = n ∧
              bits payload.toNat 55 32 = g.cycle % 2 ^ 24)), region := [] } ∧
          (hasLayout s g = true → relaysOn s st g = true → sent t [.block 2 payload.toNat]) ∧
          SameRegisters [Page.stn st, Page.evt] s t ∧ SameMemory s t)) ∧
      (readBank s g = none → exec (.landingStart st payload) s = .next s) ∧
      (hasLayout s g = true → regionStart bank g.flight (dirWest st) g.pos = none →
        Completes (.landingStart st payload) s (fun t => Raised (Page.stn st) Ev.stnLayoutErr t ∧ (stationOf t st).rx = some g ∧
          SameRegisters [Page.stn st, Page.evt] s t ∧ SameMemory s t)) ∧
      (∀ others responses : Fin 65537, hasLayout s g = true →
        (∀ first, relaysOn s st g = true → regionLast bank g.flight (dirWest st) g.pos = some first →
          Completes (.landingEnd st payload others responses) s (fun t =>
            sent t [.block 2 (match (stationOf s st).damaged with
              | some i => if bit payload.toNat 24 then payload.toNat else payload.toNat % 2 ^ 24 + 2 ^ 24 + 2 ^ 32 * (i % 2 ^ 16)
              | none => payload.toNat)] ∧ SameMemory s t)) ∧
        (regionLast bank g.flight (dirWest st) g.pos = none →
          Completes (.landingEnd st payload others responses) s (fun t => Raised (Page.stn st) Ev.stnLayoutErr t ∧
            SameRegisters [Page.stn st, Page.evt] s t ∧ SameMemory s t)))) ∧
    ((stationOf s st).rx = none → ∀ (payload : BitVec 64) (others responses : Fin 65537),
      exec (.galleryEnd st payload) s = .next s ∧ exec (.landingStart st payload) s = .next s ∧
      exec (.landingEnd st payload others responses) s = .next s)

/-- With a gallery read under its layout in reception: the first payload block of a copy of a tread begins the copy; where no copy owns the tread's
staging and none as new has committed it goes to the staging bank as the active READ actions place it, and else the staging bank stays. A further
block of the copy in reception goes to staging where the copy owns it. An undamaged, newer copy with the writer's trailer goes to the commit gate
and is the accepted tag of its tread; one of the tag accepted last is counted as a duplicate; a stomped trailer counts as an upstream error and a
tread damaged at this link as a local error. COMMIT of the copy at the head of a gate, with neither STAIR nor IMG fenced, writes exactly the bytes
of the active READ actions of its tread into the committed bank, in table order; with one fenced it drops the copy and changes no byte, and an empty
gate commits nothing. (R96, R99, R124, R126, R127, R133) -/
def Obligations.StationTreads : Prop :=
  ∀ (s : State) (st : Side), Running s →
    (∀ (tread : BitVec 16) (payload : BitVec 64) (g : RxGallery), (stationOf s st).rx = some g → hasLayout s g = true →
      let reads := (readsOf (flightActions (bankFor s g.cycle) (nodeId s) g.flight) tread.toNat).filter (·.activeIn g.cycle)
      let kept : State → Prop := fun t => t.image.committed = s.image.committed ∧ t.image.host = s.image.host ∧ t.dram = s.dram ∧
        t.flash = s.flash ∧ t.stair = s.stair ∧ SameRegisters [Page.stn st] s t
      (committedSince s tread.toNat g.cycle = false → tread.toNat ∉ s.image.stagingBy →
        Completes (.stagingWrite st tread 0 payload) s (fun t =>
          t.image.staging = placePieces reads (leBytes 8 payload.toNat) 0 8 s.image.staging ∧ tread.toNat ∈ t.image.stagingBy ∧
          (∃ c, (stationOf t st).copy = some c ∧ c.tread = tread.toNat ∧ c.payload = leBytes 8 payload.toNat ∧ c.staging = true) ∧ kept t)) ∧
      (committedSince s tread.toNat g.cycle = true ∨ (tread.toNat ∈ s.image.stagingBy ∧ (stationOf s st).copy = none) →
        Completes (.stagingWrite st tread 0 payload) s (fun t => t.image.staging = s.image.staging ∧
          (∃ c, (stationOf t st).copy = some c ∧ c.tread = tread.toNat ∧ c.payload = leBytes 8 payload.toNat ∧ c.staging = false) ∧ kept t)) ∧
      (∀ (k : Fin 256) (c : RxCopy) (pl : List Byte), k ≠ 0 → (stationOf s st).copy = some c → c.tread = tread.toNat →
        pl = c.payload ++ List.replicate (8 * k.val - c.payload.length) 0 ++ leBytes 8 payload.toNat →
        Completes (.stagingWrite st tread k payload) s (fun t =>
          t.image.staging = (if c.staging then placePieces reads pl (8 * k.val) (8 * k.val + 8) s.image.staging else s.image.staging) ∧
          (∃ c', (stationOf t st).copy = some c' ∧ c'.tread = tread.toNat ∧ c'.payload = pl ∧ c'.staging = c.staging) ∧ kept t))) ∧
    (∀ (tread : BitVec 16) (trailer : BitVec 64) (g : RxGallery) (payload : List Byte) (pre : List Nat),
      (stationOf s st).rx = some g → hasLayout s g = true → pageFenced s (Page.stn st) = false →
      receivedCopy s st tread.toNat (treadBytes (bankFor s g.cycle) g.flight tread.toNat) = (payload, pre) →
      (classifyTrailer (g.failed.contains tread.toNat) payload trailer.toNat = .good →
        trailerWriter trailer.toNat = treadWriter (bankFor s g.cycle) g.flight tread.toNat →
        tagOk (trailerThrough trailer.toNat) (trailerTag trailer.toNat) g.cycle = true → trailerVoid trailer.toNat = false →
        readsOf (flightActions (bankFor s g.cycle) (nodeId s) g.flight) tread.toNat ≠ [] →
        (tagNewer (tagDistance s g.cycle tread.toNat (trailerTag trailer.toNat)) = true → (stationOf s st).gate.length < 2 →
          Completes (.treadTrailer st tread trailer) s (fun t =>
            (stationOf t st).gate = (stationOf s st).gate ++ [{
              tread := tread.toNat, flight := g.flight, cycle := g.cycle, tag := trailerTag trailer.toNat, crc := trailerCrc trailer.toNat
              payload := payload, preloads := pre, prev := storeFind (tagKey s g.cycle tread.toNat) s.image.tags }] ∧
            storeFind (tagKey s g.cycle tread.toNat) t.image.tags = some (trailerTag trailer.toNat) ∧
            Counted (Page.stn st) Reg.stnGoodCnt s t ∧ SameRegisters [Page.stn st, Page.evt] s t ∧ SameMemory s t)) ∧
        (tagDistance s g.cycle tread.toNat (trailerTag trailer.toNat) = some 0 →
          Completes (.treadTrailer st tread trailer) s (fun t => (stationOf t st).gate = (stationOf s st).gate ∧
            Counted (Page.stn st) Reg.stnDupCnt s t))) ∧
      (classifyTrailer (g.failed.contains tread.toNat) payload trailer.toNat = .stomped →
        Completes (.treadTrailer st tread trailer) s (fun t =>
          (stationOf t st).gate = (stationOf s st).gate ∧ Counted (Page.stn st) Reg.stnUpstreamErrCnt s t ∧
          SameRegisters [Page.stn st, Page.evt] s t ∧ SameMemory s t)) ∧
      (classifyTrailer (g.failed.contains tread.toNat) payload trailer.toNat = .localErr →
        Completes (.treadTrailer st tread trailer) s (fun t =>
          (stationOf t st).gate = (stationOf s st).gate ∧ Counted (Page.stn st) Reg.stnLocalErrCnt s t ∧
          SameRegisters [Page.stn st, Page.evt] s t ∧ SameMemory s t))) ∧
    ((stationOf s st).gate = [] → exec (.commit st) s = .next s) ∧
    (∀ (cp : Copy) (rest : List Copy), (stationOf s st).gate = cp :: rest →
      (executes s cp.cycle = true → commitFenced s = false →
        Completes (.commit st) s (fun t =>
          t.image.committed = (flightActions (bankFor s cp.cycle) (nodeId s) cp.flight).foldl (fun b a =>
            if a.write = false ∧ a.tread = cp.tread ∧ a.activeIn cp.cycle = true then memWriteN b a.img ((cp.payload.drop a.off).take a.len)
            else b) s.image.committed ∧
          t.image.staging = s.image.staging ∧ t.image.host = s.image.host ∧ t.flash = s.flash ∧
          (∀ x, x < journalBase ∨ journalBase + 2 ^ 21 ≤ x → memRead t.dram x = memRead s.dram x))) ∧
      (commitFenced s = true →
        Completes (.commit st) s (fun t => (stationOf t st).gate = rest ∧ SameRegisters [Page.stn st] s t ∧ SameMemory s t)))

/-- TREAD_SNAPSHOT of a tread that this hub owns records a snapshot for the gallery that waits for it, in the tread's length, VOID where STAIR or
IMG is fenced or no write action of the tread is active in the cycle; a tread that is not due, or not owned, is not taken. A DEADLINE_CHECK of a
READ action that is active and has a deadline counts a miss where no copy and no VOID copy of its cycle has come, and marks the action's freshness
entry missed; with a VOID copy alone it ends with SOURCE_VOID; with a committed copy it counts nothing. One of an action that has no deadline, or is
inactive, changes nothing. PAIR_DELIVERY takes exactly the waiting deliveries of its action and cycle from the list, and a single one is delivered
to its endpoint. (R77, R78, R83, R98, R128) -/
def Obligations.TreadTiming : Prop :=
  ∀ (s : State), Running s →
    (∀ tread : BitVec 16,
      (∀ c f, dueGallery s tread.toNat = some (c, f) → executes s c = true → ownsTread (bankFor s c) (nodeId s) f tread.toNat = true →
        Completes (.treadSnapshot tread) s (fun t => ∃ sn, snapOf t tread.toNat c = some sn ∧
          sn.payload.length = treadBytes (bankFor s c) f tread.toNat ∧
          ((∀ a ∈ flightActions (bankFor s c) (nodeId s) f, a.write = true → a.tread = tread.toNat → a.activeIn c = false) → sn.void = true) ∧
          (commitFenced s = true → sn.void = true ∧ SameMemory s t) ∧
          t.image.staging = s.image.staging ∧ t.image.host = s.image.host ∧ t.dram = s.dram ∧ t.flash = s.flash)) ∧
      (dueGallery s tread.toNat = none → exec (.treadSnapshot tread) s = .next s) ∧
      (∀ c f, dueGallery s tread.toNat = some (c, f) → ownsTread (bankFor s c) (nodeId s) f tread.toNat = false →
        exec (.treadSnapshot tread) s = .next s)) ∧
    (∀ (flight : Fin 8) (index : Nat) (cycle : BitVec 48),
      (∀ a, (flightActions (bankFor s cycle.toNat) (nodeId s) flight)[index]? = some a → executes s cycle.toNat = true → a.write = false →
        a.deadline ≠ 0 → a.activeIn cycle.toNat = true → checksFlight s cycle.toNat flight = true → commitFenced s = false →
        s.image.pairWaits = [] → s.stair.actCycle ≤ cycle.toNat →
        let fresh : State → Nat → Nat := fun t k => storeGet freshNever t.image.fresh (freshKey flight index) / 2 ^ k % 2
        Completes (.deadlineCheck flight index cycle) s (fun t =>
          ((a.tread, cycle.toNat) ∉ s.image.commits → (a.tread, cycle.toNat) ∉ s.image.voids →
            Counted Page.img Reg.imgMissCnt s t ∧ Raised Page.img Ev.imgMissedDeadline t ∧ fresh t 20 = 1 ∧ fresh t 21 = 0) ∧
          ((a.tread, cycle.toNat) ∉ s.image.commits → (a.tread, cycle.toNat) ∈ s.image.voids →
            Counted Page.img Reg.imgVoidCnt s t ∧ Raised Page.img Ev.imgSourceVoid t ∧ fresh t 20 = 0 ∧ fresh t 21 = 1) ∧
          ((a.tread, cycle.toNat) ∈ s.image.commits → SameRegisters [] s t ∧ fresh t 20 = 0 ∧ fresh t 21 = 0) ∧
          SameRegisters [Page.img, Page.evt] s t ∧ SameMemory s t)) ∧
      ((∀ a, (flightActions (bankFor s cycle.toNat) (nodeId s) flight)[index]? = some a →
          a.write = true ∨ a.deadline = 0 ∨ a.activeIn cycle.toNat = false) →
        exec (.deadlineCheck flight index cycle) s = .next s)) ∧
    (∀ (index : Nat) (cycle : BitVec 48),
      let sel : PairWait → Bool := fun w => w.index = index && w.cycle = cycle.toNat
      let stay := { s with image := { s.image with pairWaits := s.image.pairWaits.filter (fun w => !sel w) } }
      (s.image.pairWaits.filter sel = [] → exec (.pairDelivery index cycle) s = .next s) ∧
      (∀ w a, s.image.pairWaits.filter sel = [w] → (flightActions (bankFor s w.cycle) (nodeId s) w.flight)[index]? = some a →
        Completes (.pairDelivery index cycle) s (fun t => t = { deliverAction w.cycle w.flight a w.data stay with pending := s.pending })) ∧
      Completes (.pairDelivery index cycle) s (fun t =>
        t.image.pairWaits = s.image.pairWaits.filter (fun w => !sel w) ∧
        t.image.committed = s.image.committed ∧ t.image.staging = s.image.staging ∧ t.flash = s.flash))

/-- The close of the arrival window at a forwarding station with its port open and up, and the slot time at one whose port is not, or at a station
in COMPLETER, complete the pending gallery: the station is in COMPLETER, COMPLETE_CNT counts it, COMPLETED is raised and the next cycle is pending.
Where the station sends galleries of that cycle it sends this one, with a GALLERY START that names the origin of R137. No byte of memory changes. At
any other station, and while the hub does not act on a Staircase, both change nothing. (R136, R137, R138) -/
def Obligations.StationCompletions : Prop :=
  ∀ (s : State) (st : Side), Running s →
    let c := (stationOf s st).pendingCycle
    let m := bankFor s c
    let done : State → Prop := fun t => roleOf t st = roleCompleter ∧ Counted (Page.stn st) Reg.stnCompleteCnt s t ∧
      Raised (Page.stn st) Ev.stnCompleted t ∧ (stationOf t st).pendingCycle = c + 1 ∧
      (sendsCycle s st c = true → (stationOf t st).sendCycle = c ∧
        .block 2 (galleryStartBlock s st m (flightFor s c) c (completionOrigin s st m)) ∈ (stationOf t st).out) ∧ SameMemory s t
    (staircaseActs s = true → forwardsRole (roleOf s st) = true → portOpenUp s (rxPort st) = true → Completes (.arrivalWindowClose st) s done) ∧
    (staircaseActs s = true → ((forwardsRole (roleOf s st) = true ∧ portOpenUp s (rxPort st) = false) ∨ roleOf s st = roleCompleter) →
      Completes (.slotTime st) s done) ∧
    (staircaseActs s = false ∨ forwardsRole (roleOf s st) = false ∨ portOpenUp s (rxPort st) = false →
      exec (.arrivalWindowClose st) s = .next s) ∧
    (staircaseActs s = false ∨ (roleOf s st ≠ roleCompleter ∧ (forwardsRole (roleOf s st) = false ∨ portOpenUp s (rxPort st) = true)) →
      exec (.slotTime st) s = .next s)

/-- A permitted QUARANTINE is noted for the next boundary; ARM_OPEN is accepted where OPEN_CYCLE is at least two cycles ahead, and refused otherwise
with OPEN_FAIL and nothing armed; DISARM disarms. Pages but the station's, EVT and JRNL stay, and every byte but the journal's entry. (R144, R145)
-/
def Obligations.StationRegisterCommands : Prop :=
  ∀ (s : State) (m : Master) (st : Side), Granted s m .guarded (Page.stn st) 0x308 →
    Completes (.quarantine m st) s (fun t => (stationOf t st).quarNext = true ∧
      SameRegisters [Page.stn st, Page.evt, Page.jrnl] s t ∧ SameMemoryBut (journalSlot s) 32 s t) ∧
    (cycleNow s + 2 ≤ openCycle s st →
      Completes (.armOpen m st) s (fun t => flag t (Page.stn st) Reg.stnStatusArmed = true ∧
        SameRegisters [Page.stn st, Page.evt, Page.jrnl] s t ∧ SameMemoryBut (journalSlot s) 32 s t)) ∧
    (openCycle s st < cycleNow s + 2 →
      Completes (.armOpen m st) s (fun t => flag t (Page.stn st) Reg.stnStatusArmed = flag s (Page.stn st) Reg.stnStatusArmed ∧
        Raised (Page.stn st) Ev.stnOpenFail t ∧
        SameRegisters [Page.stn st, Page.evt, Page.jrnl] s t ∧ SameMemoryBut (journalSlot s) 32 s t)) ∧
    Completes (.disarm m st) s (fun t => flag t (Page.stn st) Reg.stnStatusArmed = false ∧
      SameRegisters [Page.stn st, Page.evt, Page.jrnl] s t ∧ SameMemoryBut (journalSlot s) 32 s t)

/-- With DMA enabled and both host bases set: the trigger of a descriptor of the present cycle whose position has come starts it, once, and a
TO_HOST one copies its committed bytes to its place in the cycle's buffer. Data that return for a started FROM_HOST transfer go into the committed
bank, cut to the descriptor's length. When the transfers of a cycle are complete its record is written once, and DMA_CYCLE shows the cycle. With a
base unset the trigger moves nothing and raises HOST_BUF_UNSET, once for each activation. An error of a started transfer is counted. With DMA
disabled, for a transfer that has not started, or a record already written, these commands change nothing. Bytes elsewhere in the host's image, the
committed bank and DRAM stay. (R103, R104, R105, R106) -/
def Obligations.HostImageDma : Prop :=
  ∀ (s : State), Running s →
    (∀ (index : Nat) (d : DmaDesc),
      (dmaDescs s (cycleNow s) (dmaRun s (cycleNow s)).flight).find? (fun e => e.1 = index) = some (index, d) →
      (dmaEnabled s = true → index ∉ (dmaRun s (cycleNow s)).started →
        positionPassed s (cycleNow s) (dmaRun s (cycleNow s)).flight d.trigger = true →
        (hostUnset s = false → Completes (.dmaTrigger index) s (fun t => index ∈ (dmaRun t (cycleNow s)).started ∧
          t.image.host = (if d.fromHost then s.image.host
            else memWriteN s.image.host (hostBuffer s (cycleNow s) + d.hostOff) (memReadN s.image.committed d.img d.len)) ∧
          t.image.committed = s.image.committed ∧ t.image.staging = s.image.staging ∧ t.dram = s.dram ∧ t.flash = s.flash ∧
          SameRegisters [] s t)) ∧
        (hostUnset s = true → Completes (.dmaTrigger index) s (fun t =>
          (s.stair.hostBufRaised = false → Raised Page.img Ev.imgHostBufUnset t) ∧ t.image = s.image ∧
          SameRegisters [Page.img, Page.evt] s t ∧ SameMemory s t))) ∧
      (dmaEnabled s = false ∨ index ∈ (dmaRun s (cycleNow s)).started → exec (.dmaTrigger index) s = .next s)) ∧
    (∀ (cycle : BitVec 48) (index off : Nat) (data : List Byte) (d : DmaDesc),
      (dmaDescs s cycle.toNat (dmaRun s cycle.toNat).flight).find? (fun e => e.1 = index) = some (index, d) →
      (d.fromHost = true → index ∈ (dmaRun s cycle.toNat).started → dmaEnabled s = true → hostUnset s = false →
        Completes (.dmaDataReturn cycle index off data) s (fun t =>
          t.image.committed = memWriteN s.image.committed (d.img + off) (data.take (d.len - off)) ∧
          t.image.host = s.image.host ∧ t.image.staging = s.image.staging ∧ t.dram = s.dram ∧ t.flash = s.flash ∧ SameRegisters [] s t)) ∧
      (d.fromHost = false ∨ index ∉ (dmaRun s cycle.toNat).started ∨ dmaEnabled s = false ∨ hostUnset s = true →
        exec (.dmaDataReturn cycle index off data) s = .next s)) ∧
    (∀ (cycle : BitVec 48) (r : DmaRun), storeFind cycle.toNat s.image.dma = some r →
      (dmaEnabled s = true → hostUnset s = false → r.recorded = false → dmaComplete s cycle.toNat r = true →
        Completes (.dmaDone cycle) s (fun t =>
          t.image.host = memWriteN s.image.host (hostBuffer s cycle.toNat + getR s Page.img Reg.imgStampOff * 16)
            (dmaRecord cycle.toNat r.flags ((s.image.dmaRecords + 1) % 2 ^ 32)) ∧
          getR t Page.img Reg.imgDmaCycle = cycle.toNat % 2 ^ 32 ∧ Raised Page.img Ev.imgDmaDone t ∧
          storeFind cycle.toNat t.image.dma = some { r with recorded := true } ∧ t.image.committed = s.image.committed ∧
          t.image.staging = s.image.staging ∧ t.dram = s.dram ∧ t.flash = s.flash ∧ SameRegisters [Page.img, Page.evt] s t)) ∧
      (dmaEnabled s = false ∨ hostUnset s = true ∨ r.recorded = true ∨ dmaComplete s cycle.toNat r = false →
        exec (.dmaDone cycle) s = .next s)) ∧
    (∀ (cycle : BitVec 48) (index : Nat) (r : DmaRun), storeFind cycle.toNat s.image.dma = some r →
      (index ∈ r.started → Completes (.dmaErr cycle index) s (fun t =>
        Counted Page.img Reg.imgDmaErrCnt s t ∧ Raised Page.img Ev.imgDmaErr t ∧
        SameRegisters [Page.img, Page.evt] s t ∧ SameMemory s t)) ∧
      (index ∉ r.started → exec (.dmaErr cycle index) s = .next s))

/-- A pair link frame of 26 bytes from the partner, with its CRC, of the present cycle or the one before, brings PAIR_LINK_UP to 1. Under the same
HASH16 it shows the partner's view, and a token that replaces the stored one is stored; under another HASH16 it is counted in TOKEN_REJ with
TOKEN_REJECT. Any other frame is counted in CRC_ERR and changes nothing else of the registers. A permitted YIELD is refused with YIELD_FAIL while
the partner is not eligible, is noted by the holder, and changes nothing of the lease at any other hub. A KICK is the host's sign of life in the
present cycle. None writes memory but the journal's entry of the guarded YIELD. (R152, R153, R155, R161, R162) -/
def Obligations.PairLink : Prop :=
  ∀ (s : State),
    (∀ (bytes : List Byte), Running s →
      let sound : Nat → Nat → Prop := fun p c => (∃ bank, ownBank s = some bank ∧ pairIn bank (nodeId s) = true ∧ p = partnerIn bank (nodeId s)) ∧
        bytes.length = 26 ∧ leNat (bytes.drop 24) = crc16 (bytes.take 24) ∧ (bytes.getD 1 0).toNat = p ∧
        (c = cycleNow s ∨ c + 1 = cycleNow s) ∧ leNat ((bytes.drop 4).take 3) = c % 2 ^ 24
      let image := leNat ((bytes.drop 8).take 16)
      let v := parseView image
      (∀ p c, sound p c →
        Completes (.pairLinkFrame bytes) s (fun t => flag t Page.duplex Reg.duplexStatusPairLinkUp = true ∧
          t.duplex.frameFor = some c ∧ t.duplex.missed = 0 ∧
          (v.hash16 = ownHash16 s →
            (∀ i < 4, getR t Page.duplex (Reg.duplexPartnerView i) = image / 2 ^ (32 * i) % 2 ^ 32) ∧
            t.duplex.partnerAt = some (cycleNow s) ∧
            (tokTerm t, tokHolder t, t.duplex.tokYield, tokExpiry t) =
              (if tokenReplaces s v p then (v.term, v.holder, v.yield, v.expiry)
               else (tokTerm s, tokHolder s, s.duplex.tokYield, tokExpiry s))) ∧
          (v.hash16 ≠ ownHash16 s → Counted Page.duplex Reg.duplexTokenRej s t ∧ Raised Page.duplex Ev.duplexTokenReject t ∧
            tokTerm t = tokTerm s ∧ tokHolder t = tokHolder s ∧ tokExpiry t = tokExpiry s) ∧
          SameRegisters [Page.duplex, Page.evt] s t ∧ SameMemory s t)) ∧
      ((∀ p c, ¬ sound p c) →
        Completes (.pairLinkFrame bytes) s (fun t =>
          Counted Page.duplex Reg.duplexPairErrCrcErr s t ∧
          SameFields Page.duplex [Reg.duplexPairErrCrcErr] s t ∧ SameRegisters [Page.duplex] s t ∧ SameMemory s t))) ∧
    (∀ m : Master,
      (Granted s m .guarded Page.duplex 0x300 →
        (flag s Page.duplex Reg.duplexStatusPartnerEligible = true →
          Completes (.yield m) s (fun t => t.duplex.yieldCmd = (if pairRole s = pairHolder then true else s.duplex.yieldCmd) ∧
            pairRole t = pairRole s ∧ SameFields Page.duplex [Reg.duplexPcmd] s t ∧
            SameRegisters [Page.duplex, Page.jrnl, Page.evt] s t ∧ SameMemoryBut (journalSlot s) 32 s t)) ∧
        (flag s Page.duplex Reg.duplexStatusPartnerEligible = false →
          Completes (.yield m) s (fun t => t.duplex = s.duplex ∧ Raised Page.duplex Ev.duplexYieldFail t ∧
            SameRegisters [Page.duplex, Page.jrnl, Page.evt] s t ∧ SameMemoryBut (journalSlot s) 32 s t))) ∧
      (Granted s m .write Page.duplex 0x68 →
        Completes (.hostAliveKick m) s (fun t => t.duplex.kickAt = cycleNow s ∧ SameRegisters [Page.duplex, Page.evt] s t ∧ SameMemory s t)))

/-- In a headless ring HEADLESS_ARM of a port of a hub with an active Staircase that has been up for 10 ms in quarantine, and is not armed, arms it
for the next cycle that is a multiple of 1,024 and at least 16 ahead; elsewhere it changes nothing. LINK_REPORT_SEND of such a port of a hub that
acts on its Staircase and has a master reports it in this cycle where it has not done so for 4,096 cycles; the master itself raises LINK_REPORT and,
where the neighbour is the one of its ring order, arms its own station for the opening. Elsewhere it changes nothing. Memory changes at most in the
journal. (R169, R172, R173) -/
def Obligations.LinksOfMembers : Prop :=
  ∀ (s : State) (p : Side), Running s →
    let arms := headless s = true ∧ staircaseActive s = true ∧ quarantineRipe s p = true ∧
      flag s (Page.stn (rxStation p)) Reg.stnStatusArmed = false
    let reports := staircaseActs s = true ∧ quarantineRipe s p = true ∧ masterNode s ≠ 0 ∧
      ∀ c, (portOf s p).reported = some c → c + 4096 ≤ cycleNow s
    (arms →
      Completes (.headlessArm p) s (fun t => flag t (Page.stn (rxStation p)) Reg.stnStatusArmed = true ∧
        openCycle t (rxStation p) = (cycleNow s + 16 + 1023) / 1024 * 1024 % 2 ^ 48 ∧
        SameFields (Page.stn (rxStation p)) [Reg.stnStatusArmed, Reg.stnOpenCycleLo, Reg.stnOpenCycleHi] s t ∧
        SameRegisters [Page.stn (rxStation p)] s t ∧ SameMemory s t)) ∧
    (¬ arms → exec (.headlessArm p) s = .next s) ∧
    (reports →
      Completes (.linkReportSend p) s (fun t => (portOf t p).reported = some (cycleNow s) ∧
        SameMemoryBut journalBase (32 * 65536) s t ∧
        (masterNode s = nodeId s → Raised Page.duplex Ev.duplexLinkReport t ∧
          let nb := getR s (Page.lane p) Reg.lanePortStatusNeighbour
          (actsMaster s = true → nb ≠ 0 → ringNeighbour s.stair.active (nodeId s) (isEast p) = some nb →
            flag t (Page.stn (if isEast p then .west else .east)) Reg.stnStatusArmed = true ∧
            openCycle t (if isEast p then .west else .east) = (cycleNow s + loopCycles s + 8) % 2 ^ 48)))) ∧
    (¬ reports → exec (.linkReportSend p) s = .next s)

/-- At a candidate a permitted write of JOIN_NONCE_HI starts the response for the writer's node in the present cycle; at any other hub it stores the
register alone. JOIN_RESPONSE of a candidate that was written a nonce, with a usable ring key, makes ready the CMAC over the nonce, this node, the
holder and the pending manifest hash; without them it changes nothing. No memory changes. (R174, R176) -/
def Obligations.JoinCandidate : Prop :=
  ∀ (s : State),
    (∀ (m : Master) (value : Word), Granted s m .write Page.duplex 0xD0 →
      Completes (.joinNonceHi m value) s (fun t => getR t Page.duplex Reg.duplexJoinNonceHi = value.toNat ∧
        (isCandidate s = true → t.duplex.candFrom = masterNodeOf m ∧ t.duplex.candResp = none ∧ t.duplex.nonceCycle = cycleNow s) ∧
        (isCandidate s = false → t.duplex = s.duplex) ∧
        SameFields Page.duplex [Reg.duplexJoinNonceHi] s t ∧ SameRegisters [Page.duplex] s t ∧ SameMemory s t)) ∧
    (Running s →
      let able := isCandidate s = true ∧ s.duplex.candFrom ≠ 0 ∧ ringUsable s (ringSlot s) = true
      (able → Completes .joinResponse s (fun t =>
        t.duplex.candResp = some (joinMac s s.duplex.nonceCycle
          (getR s Page.duplex Reg.duplexJoinNonceLo + 2 ^ 32 * getR s Page.duplex Reg.duplexJoinNonceHi) (nodeId s) s.duplex.candFrom s.stair.pend) ∧
        SameRegisters [] s t ∧ SameMemory s t)) ∧
      (¬ able → exec .joinResponse s = .next s))

/-- JOIN_TIMEOUT of a candidate challenged at least 64 cycles and 10 ms ago refuses it with cause TIMEOUT; else it changes nothing. At a hub that
acts as ring master, a permitted ADMIT of the node that awaits it in a ring that is not headless lets it activate LOOP_CYCLES + 4 cycles ahead, and
a permitted REFUSE of it refuses it with cause 8. Of any other node or step, at any other hub, and ADMIT in a headless ring, leave the procedure as
it is. A refusal shows the node and cause, counts, ends the procedure and is journaled; it leaves every other page but EVT and every byte but those
of the journal. (R168, R176, R177, R179) -/
def Obligations.JoinHolder : Prop :=
  ∀ (s : State),
    (Running s →
      let late := joinStep s = joinChallenged ∧ s.duplex.nonceCycle + 64 ≤ cycleNow s ∧ s.duplex.nonceTime + 10000000 ≤ s.time.tb2
      (late → Completes .joinTimeout s (fun t => joinStep t = joinIdle ∧ getR t Page.duplex Reg.duplexJoinResultNode = joinNode s % 2 ^ 8 ∧
          getR t Page.duplex Reg.duplexJoinResultCause = 7 ∧ Raised Page.duplex Ev.duplexJoinRefused t ∧
          Counted Page.duplex Reg.duplexJoinRefuseCnt s t ∧
          SameRegisters [Page.duplex, Page.evt, Page.jrnl] s t ∧ SameMemoryBut (journalSlot s) 32 s t)) ∧
      (¬ late → exec .joinTimeout s = .next s)) ∧
    (∀ (m : Master) (node : Byte), Granted s m .guarded Page.duplex 0x304 →
      let waits := joinStep s = joinAwaiting ∧ joinNode s = node.toNat ∧ actsMaster s = true
      (waits → headless s = false → Completes (.joinAdmit m node) s (fun t => joinStep t = joinActivating ∧ joinNode t = node.toNat ∧
        t.duplex.joinHold = cycleNow s + loopCycles s + 4 ∧ t.stair = s.stair ∧ SameMemoryBut journalBase (32 * 65536) s t)) ∧
      (waits → Completes (.refuse m node) s (fun t => joinStep t = joinIdle ∧ getR t Page.duplex Reg.duplexJoinResultNode = node.toNat ∧
        getR t Page.duplex Reg.duplexJoinResultCause = 8 ∧ Raised Page.duplex Ev.duplexJoinRefused t ∧
        Counted Page.duplex Reg.duplexJoinRefuseCnt s t ∧
        SameRegisters [Page.duplex, Page.evt, Page.jrnl] s t ∧ SameMemoryBut journalBase (32 * 65536) s t)) ∧
      (∀ c, (c = .joinAdmit m node ∧ (¬ waits ∨ headless s = true)) ∨ (c = .refuse m node ∧ ¬ waits) →
        Completes c s (fun t => t.duplex = s.duplex ∧ SameFields Page.duplex [Reg.duplexJcmdCmd, Reg.duplexJcmdNode] s t ∧
          SameRegisters [Page.duplex, Page.evt, Page.jrnl] s t ∧ SameMemoryBut (journalSlot s) 32 s t)))

/-- LANDING_SHARE_SEND into an unused share of this hub in the gallery being sent places the one waiting message, when it is ready and its route is
that direction, whole: its blocks follow what the share holds and it no longer waits, but a broadcast that has still to go the other way. Into any
other share it changes nothing. UNREACHABLE discards the first message that has waited for REMOTE_TIMEOUT with no reachable direction, raises
UNREACHABLE, ends the tag of a request, and gives a posted write an entry in the posted-write error log or, where the log is full, a count of
OVERFLOW; without such a message it changes nothing. REMOTE_TIMEOUT ends a request whose limit has passed and counts it, and changes nothing else.
An expired remote guarded value is discarded with cause TIMEOUT; without one nothing changes. No memory changes. (R184, R187, R188, R191, R201,
R203) -/
def Obligations.LandingSends : Prop :=
  ∀ (s : State), Running s →
    (∀ (st : Side) (share : BitVec 16),
      let free : Nat → Nat → Prop := fun c f => sendingGallery s st = some (c, f) ∧ staircaseActs s = true ∧
        pageFenced s Page.bridge = false ∧ pageFenced s Page.cab = false ∧ pageFenced s (Page.stn st) = false ∧
        shareOwner (bankFor s c) f share.toNat = nodeId s ∧ s.bridge.quietUntil ≤ c ∧ shareAhead s st (bankFor s c) f share.toNat = true
      Completes (.landingShareSend st share) s (SameMemory s) ∧
      ((∀ c f, ¬ free c f) → exec (.landingShareSend st share) s = .next s) ∧
      (∀ c f m, free c f → s.bridge.out = [m] → messageReady s st c share.toNat (shareLen (bankFor s c) f share.toNat) m = true →
        (m.dest ≠ 0xFF → routeOf s m.dest = some st ∧ ∀ v, storeFind (streamKey m.dest m.stream) s.bridge.dirHold = some v → v.1 = b2n (dirWest st) ∧ v.2 ≤ c) →
        Completes (.landingShareSend st share) s (fun t =>
          (if m.dest = 0xFF ∧ m.copies = [] then ∃ a, t.bridge.out = [{ m with arg := a, copies := [st], placed := c }] else t.bridge.out = []) ∧
          (∃ body, storeFind (shareKey st share.toNat) t.bridge.shares = some (c, shareBlocks s st c share.toNat ++ body) ∧
            body.length = msgSize m) ∧ SameMemory s t))) ∧
    (∀ ripe : OutMsg → Bool, ripe = (fun m => m.dest ≠ 0xFF && decide (m.entered + remoteTimeout s ≤ s.time.tb2) && routeOf s m.dest = none) →
      (s.bridge.out.find? ripe = none → exec .unreachable s = .next s) ∧
      (∀ m, s.bridge.out.find? ripe = some m →
        Completes .unreachable s (fun t => Raised Page.bridge Ev.bridgeUnreachable t ∧ SameMemory s t ∧
          (m.cls ≠ lmRequest → t.bridge.out.length + 1 = s.bridge.out.length) ∧
          (m.cls = lmRequest → storeFind m.tag t.bridge.reqs = none) ∧
          (m.cls = lmPosted → s.bridge.pwe.length < 16 → t.bridge.pwe.length = s.bridge.pwe.length + 1) ∧
          (m.cls = lmPosted → 16 ≤ s.bridge.pwe.length → t.bridge.pwe = s.bridge.pwe ∧ Counted Page.bridge Reg.bridgePweStatusOverflow s t)))) ∧
    (∀ tag : Nat,
      (∀ r, storeFind tag s.bridge.reqs = some r → r.entered + remoteTimeout s ≤ s.time.tb2 →
        Completes (.remoteTimeout tag) s (fun t => storeFind tag t.bridge.reqs = none ∧ Counted Page.bridge Reg.bridgeTimeoutCnt s t ∧
          Raised Page.bridge Ev.bridgeRemoteTimeout t ∧ SameMemory s t)) ∧
      ((∀ r, storeFind tag s.bridge.reqs = some r → s.time.tb2 < r.entered + remoteTimeout s) → exec (.remoteTimeout tag) s = .next s)) ∧
    (s.bridge.guards.find? (fun x => remoteGuardExpired s x) = none → exec .remoteGuardTimeout s = .next s) ∧
    (∀ g : RemoteGuard, s.bridge.guards.find? (fun x => remoteGuardExpired s x) = some g →
      Completes .remoteGuardTimeout s (fun t => g ∉ t.bridge.guards ∧ getR t Page.hub Reg.hubGuardLastCause = guardTimeout ∧
        Counted Page.hub Reg.hubGuardFailCnt s t ∧ SameRegisters [Page.hub, Page.evt] s t ∧ SameMemory s t))

/-- At an unfenced bridge, of a message at the head of a stream whose sequence number is accepted: a permitted READ of DRAM without an uncorrectable
word answers its source under the same tag with the bytes; a permitted WRITE request of DRAM writes its bytes and answers OK; a READ, a WRITE or a
GUARDED_WRITE that is denied or decodes nowhere, and a GUARDED_WRITE without its 8 bytes, answers its status without data, and memory stays. A
permitted POSTED write of DRAM writes its bytes, one that is refused reports the failure to its source, and memory stays. A permitted broadcast
writes its bytes to the committed image, and a refused one leaves memory. A duplicate is counted and leaves memory. Every other byte of these
memories stays. (R190, R191, R193, R194, R199) -/
def Obligations.LandingExecution : Prop :=
  ∀ (s : State), Running s → ∀ (i : Nat) (m : InMsg),
    let src := hdSrc m.header
    let r := remoteMaster s src
    let loc := m.addr % 2 ^ 40
    let answered : State → Nat → List Byte → Prop := fun t code bs => ∃ o ∈ t.bridge.out, o.cls = lmResponse ∧ o.dest = src ∧
      o.tag = hdTag m.header ∧ o.arg = code ∧ o.data = bs
    let wrote : State → Memory → Prop := fun t d => t.dram = d ∧ t.flash = s.flash ∧ t.image = s.image ∧ t.stair = s.stair
    let refusal : Verdict → Prop := fun v => v = .decode ∨ v = .fenced ∨ ∃ c, v = .denied c
    (∀ u, acceptSeq m s = some u →
      (∀ stream : Fin 16, headOf s stream lmRequest = some (i, m) →
        (hdOp m.header = opRead → ∀ a n, loc = 0x100000000 + a → n = bits m.addr 47 40 + 1 → a + n ≤ 0x8000000 →
          decide_ s r .read loc n = .ok → badWords s.boot.dramBad a n = [] →
          Completes (.request stream) s (fun t => answered t stOk (memReadN s.dram a n) ∧ SameMemory s t)) ∧
        (hdOp m.header = opRead → pagePair loc (bits m.addr 47 40 + 1) = false → refusal (decide_ s r .read loc (bits m.addr 47 40 + 1)) →
          Completes (.request stream) s (fun t => answered t (decide_ s r .read loc (bits m.addr 47 40 + 1)).status [] ∧ SameMemory s t)) ∧
        (hdOp m.header = opWrite → ∀ a, loc = 0x100000000 + a → a + m.data.length ≤ 0x8000000 →
          decide_ s r .write loc m.data.length = .ok →
          Completes (.request stream) s (fun t => answered t stOk [] ∧ wrote t (memWriteN s.dram a m.data))) ∧
        (hdOp m.header = opWrite → pagePair loc m.data.length = false →
          refusal (decide_ s r (writeKind loc m.data.length) loc m.data.length) →
          Completes (.request stream) s (fun t => answered t (decide_ s r (writeKind loc m.data.length) loc m.data.length).status [] ∧ SameMemory s t)) ∧
        (hdOp m.header = opGuarded → m.data.length ≠ 8 →
          Completes (.request stream) s (fun t => answered t stUnsupported [] ∧ SameMemory s t)) ∧
        (hdOp m.header = opGuarded → m.data.length = 8 → guardedTarget loc = true → refusal (decide_ s r .guarded loc 4) →
          Completes (.request stream) s (fun t => answered t (decide_ s r .guarded loc 4).status [] ∧ SameMemory s t))) ∧
      (∀ stream : Fin 16, headOf s stream lmPosted = some (i, m) → hdOp m.header = opWrite →
        (∀ a, loc = 0x100000000 + a → a + m.data.length ≤ 0x8000000 → decide_ s r .write loc m.data.length = .ok →
          Completes (.posted stream) s (fun t => wrote t (memWriteN s.dram a m.data))) ∧
        (pagePair loc m.data.length = false → src ≠ nodeId s → refusal (decide_ s r (writeKind loc m.data.length) loc m.data.length) →
          Completes (.posted stream) s (fun t => (∃ o ∈ t.bridge.out, o.cls = lmNotice ∧ o.dest = src ∧ o.op = noticePwe) ∧ SameMemory s t))) ∧
      (directHead s (fun h => hdCls h = lmPosted) = some (i, m) → hdOp m.header = opWrite →
        (∀ a, loc = 0x1000000 + a → a + m.data.length ≤ 0x400000 → decide_ s r .write loc m.data.length = .ok →
          Completes .broadcast s (fun t => t.image.committed = memWriteN s.image.committed a m.data ∧ t.image.staging = s.image.staging ∧
            t.dram = s.dram ∧ t.flash = s.flash ∧ t.stair = s.stair)) ∧
        (pagePair loc m.data.length = false → refusal (decide_ s r (writeKind loc m.data.length) loc m.data.length) →
          Completes .broadcast s (SameMemory s)))) ∧
    (acceptSeq m s = none → ∀ c, (∃ stream : Fin 16, (c = .request stream ∧ headOf s stream lmRequest = some (i, m)) ∨
        (c = .posted stream ∧ headOf s stream lmPosted = some (i, m)) ∨ (c = .notice stream ∧ headOf s stream lmNotice = some (i, m))) ∨
        (c = .broadcast ∧ directHead s (fun h => hdCls h = lmPosted) = some (i, m)) →
      Completes c s (fun t => Counted Page.bridge Reg.bridgeDupCnt s t ∧ SameMemory s t))

/-- A RESPONSE in the Cabinet of an unfenced bridge frees its tag and gives a waiting master its status and data, and one without a request is
counted as an orphan; without a response there nothing changes. A posted-write-error or sequence-gap NOTICE at the head of a stream adds its entry
to the log, or counts OVERFLOW where the log is full. A CREDIT message keeps the EPOCH of its source; where that is another than before, the counts
towards it start anew with EPOCH_CHANGE; an entry of this hub sets the limits towards the source for requests, posted writes and notices, and the
entry of another node sets none. No memory changes. (R190, R194, R195, R196, R203) -/
def Obligations.LandingReplies : Prop :=
  ∀ (s : State), Running s → ∀ (i : Nat) (m : InMsg),
    (pageFenced s Page.bridge = false → s.bridge.ingress.findIdx? (fun x => hdCls x.header = lmResponse) = some i →
      s.bridge.ingress[i]? = some m → m.inCab = true →
      Completes .response s (fun t => storeFind (hdTag m.header) t.bridge.reqs = none ∧
        (storeFind (hdTag m.header) s.bridge.reqs = none → Counted Page.bridge Reg.bridgeOrphanCnt s t ∧ Raised Page.bridge Ev.bridgeRespOrphan t) ∧
        (∀ r w, storeFind (hdTag m.header) s.bridge.reqs = some r → r.waiter = .master w → hdArg m.header % 16 = stOk →
          ∃ c, .answer w c (leNat m.data) ∈ t.sent) ∧ SameMemory s t)) ∧
    ((pageFenced s Page.bridge = true ∨ s.bridge.ingress.findIdx? (fun x => hdCls x.header = lmResponse) = none) → exec .response s = .next s) ∧
    (∀ (stream : Fin 16) u, headOf s stream lmNotice = some (i, m) → acceptSeq m s = some u →
      (hdOp m.header = noticePwe ∨ hdOp m.header = noticeSeqGap) →
      (s.bridge.pwe.length < 16 → Completes (.notice stream) s (fun t => t.bridge.pwe.length = s.bridge.pwe.length + 1 ∧
        getR t Page.bridge Reg.bridgePweStatusCount = s.bridge.pwe.length + 1 ∧ Raised Page.bridge Ev.bridgePwe t ∧ SameMemory s t)) ∧
      (16 ≤ s.bridge.pwe.length → Completes (.notice stream) s (fun t => t.bridge.pwe = s.bridge.pwe ∧
        Counted Page.bridge Reg.bridgePweStatusOverflow s t ∧ flag t Page.bridge Reg.bridgePweStatusLostPwe = true ∧ SameMemory s t))) ∧
    (∀ e : BitVec 64, directHead s (fun h => hdCls h = lmCredit) = some (i, m) → m.data = leBytes 8 e.toNat → bits e.toNat 7 0 ≠ 0 →
      let src := hdSrc m.header
      Completes .credit s (fun t =>
        storeFind src t.bridge.epoch = some (bits e.toNat 47 32) ∧
        (bits e.toNat 7 0 = nodeId s → storeGet 0 t.bridge.limit (classKey src lmRequest) = bits e.toNat 15 8 ∧
          storeGet 0 t.bridge.limit (classKey src lmPosted) = bits e.toNat 23 16 ∧
          storeGet 0 t.bridge.limit (classKey src lmNotice) = bits e.toNat 31 24) ∧
        (∀ old, storeFind src s.bridge.epoch = some old →
          (old = bits e.toNat 47 32 → bits e.toNat 7 0 ≠ nodeId s → t.bridge.limit = s.bridge.limit) ∧
          (old ≠ bits e.toNat 47 32 → Raised Page.bridge Ev.bridgeEpochChange t ∧
            ∀ cls < 8, storeGet 0 t.bridge.sentCnt (classKey src cls) = 0)) ∧
        SameMemory s t))

/-- A permitted POP of the posted-write error log or of the notice queue removes its first entry, if there is one, and shows the new count. A
permitted guarded write of ACC_ROW replaces the row of the partner that ACC_SEL names and no other descriptor word; while that descriptor is enabled
it is ignored and DESC_REFUSED raised. Either way it is journaled. (R203, R204, R217) -/
def Obligations.BridgeRegisterCommands : Prop :=
  ∀ (s : State) (m : Master),
    (Granted s m .write Page.bridge 0x58 →
      Completes (.pwePop m) s (fun t => t.bridge.pwe = s.bridge.pwe.drop 1 ∧
        getR t Page.bridge Reg.bridgePweStatusCount = (s.bridge.pwe.drop 1).length % 2 ^ 5 ∧ SameRegisters [Page.bridge] s t ∧ SameMemory s t)) ∧
    (Granted s m .write Page.bridge 0x78 →
      Completes (.noticePop m) s (fun t => t.bridge.notices = s.bridge.notices.drop 1 ∧
        (s.bridge.notices ≠ [] → getR t Page.bridge Reg.bridgeNoticeStatus = (s.bridge.notices.drop 1).length % 2 ^ 12) ∧ SameMemory s t)) ∧
    (∀ value : Word, Granted s m .guarded Page.bridge 0x304 →
      let sel := getR s Page.bridge Reg.bridgeAccSel
      (descEnabled s sel = false →
        Completes (.accRow m value) s (fun t => descWord t sel 3 = value.toNat ∧ getR t Page.bridge Reg.bridgeAccRow = value.toNat ∧
          (∀ p w, (p ≠ sel ∨ w ≠ 3) → w < 8 → descWord t p w = descWord s p w) ∧
          SameRegisters [Page.bridge, Page.jrnl] s t ∧ SameMemoryBut (journalSlot s) 32 s t)) ∧
      (descEnabled s sel = true →
        Completes (.accRow m value) s (fun t => t.bridge.descs = s.bridge.descs ∧ Raised Page.bridge Ev.bridgeDescRefused t ∧
          SameRegisters [Page.bridge, Page.jrnl, Page.evt] s t ∧ SameMemoryBut (journalSlot s) 32 s t)))

/-- PARTNER_TRANSACTION gives the only waiting transaction of an idle partner, in its queue with the right consumer, to its unit: into the empty TX
FIFO of an engine the first words, the rest follow later; a fenced engine or channel, and an engine whose TX FIFO is bound, ends it. MAILBOX_STATUS
of a status word that answers a running write, or answers a read with an error or with all its data words behind it, ends it. MAILBOX_ATTENTION
takes an attention word and the data words that have come, and keeps what is still to come. A running transaction of a partner whose answer limit
has passed without a status word ends by PARTNER_TIMEOUT, and nothing changes else. PARTNER_DELIVERY of a whole packet that goes to another node,
with its notice, counts its bytes into the partner's total. Each command completes at every running hub; memory changes only by a delivery to this
hub itself. (R206, R207, R208) -/
def Obligations.PartnerTransactions : Prop :=
  ∀ (s : State), Running s →
    (∀ (p : Fin 2048), Completes (.partnerTransaction p) s (SameMemory s) ∧
      (pageFenced s Page.bridge = true → exec (.partnerTransaction p) s = .next s) ∧
      (∀ x : PartTx, pageFenced s Page.bridge = false → unitFree s p = true → s.bridge.partTx = [x] → x.partner = p.val → x.queued = true →
        (partnerPacket s x).isSome → (queueOf s (descOutQ s p)).consumer = partnerPort s p →
        (canPartner s p = false → engDead s (descEngine s p) = false → engFlag s (descEngine s p) Reg.engFifoStatusTxfBound = false →
          (engOf s (descEngine s p)).txf = [] →
          Completes (.partnerTransaction p) s (fun t => t.bridge.partTx = [] ∧
            (engOf t (descEngine s p)).txf = x.words.take fifoDepth ∧
            runningTx t (descEngine s p) = some { x with issued := s.time.tb2, words := x.words.drop fifoDepth } ∧ SameMemory s t)) ∧
        ((canPartner s p = false ∧ (engDead s (descEngine s p) = true ∨ engFlag s (descEngine s p) Reg.engFifoStatusTxfBound = true)) ∨
            (canPartner s p = true ∧ canDead s (descCan s p) = true) →
          Completes (.partnerTransaction p) s (fun t => t.bridge.partTx = [] ∧ runningTx t (partnerUnit s p) = none ∧ SameMemory s t)) ∧
        (canPartner s p = true → canDead s (descCan s p) = false →
          Completes (.partnerTransaction p) s (fun t => t.bridge.partTx = [] ∧ SameMemory s t)))) ∧
    (∀ (e : Fin 128), Completes (.mailboxStatus e) s (SameMemory s) ∧ Completes (.mailboxAttention e) s (SameMemory s) ∧
      (mailReads s e = false → exec (.mailboxStatus e) s = .next s ∧ exec (.mailboxAttention e) s = .next s) ∧
      (∀ (w : Nat) (ws : List Nat), mailReads s e = true → storeFind e.val s.bridge.mail = none → (engOf s e).rxf = w :: ws →
        (∀ x : PartTx, bits w 31 30 = 3 → runningTx s e = some x → statusMatches w x = true →
          let need := if x.write = false ∧ bits w 27 24 = 0 then (x.len + 3) / 4 else 0
          need ≤ ws.length →
          Completes (.mailboxStatus e) s (fun t => runningTx t e = none ∧ (engOf t e).rxf = ws.drop need ∧ SameMemory s t)) ∧
        (bits w 31 30 = 1 →
          Completes (.mailboxAttention e) s (fun t => (engOf t e).rxf = ws.drop ((bits w 15 0 + 3) / 4) ∧
            (ws.length < (bits w 15 0 + 3) / 4 → storeFind e.val t.bridge.mail = some (w, (bits w 15 0 + 3) / 4 - ws.length, ws)) ∧
            SameMemory s t)))) ∧
    (∀ (p : Fin 2048),
      let overdue : PartTx → Prop := fun x => runningTx s (partnerUnit s p) = some x ∧ x.partner = p.val ∧ x.issued + descTimeout s p ≤ s.time.tb2 ∧
        ∀ m, storeFind (partnerUnit s p) s.bridge.mail = some m → bits m.1 31 30 ≠ 3
      (∀ x, overdue x →
        Completes (.partnerTimeout p) s (fun t => runningTx t (partnerUnit s p) = none ∧ Raised Page.bridge Ev.bridgePartnerTimeout t ∧ SameMemory s t)) ∧
      ((∀ x, ¬ overdue x) → exec (.partnerTimeout p) s = .next s)) ∧
    (∀ (p : Fin 2048), (∃ t, exec (.partnerDelivery p) s = .next t) ∧
      ((descEnabled s p = false ∨ pageFenced s Page.bridge = true ∨ pageFenced s Page.cab = true ∨ (queueOf s (descInQ s p)).pkts = []) →
        exec (.partnerDelivery p) s = .next s) ∧
      (∀ k : Packet, descEnabled s p = true → pageFenced s Page.bridge = false → pageFenced s Page.cab = false →
        (queueOf s (descInQ s p)).pkts.head? = some k → (queueOf s (descInQ s p)).consumer = partnerPort s p → wholePacket k = true →
        ownNode s (descNotify s p) = false → ownNode s (descDeliver s p / 2 ^ 40) = false →
        Completes (.partnerDelivery p) s (fun t =>
          storeGet 0 t.bridge.totals p = (storeGet 0 s.bridge.totals p + (deliveryOf s p k).2.length) % 2 ^ 32 ∧ SameMemory s t)))

/-- With the LH page not fenced and the CRC right: permitted WRITE, WRITE_NP and READ frames for DRAM of this hub write exactly their bytes, and
WRITE_NP and READ drive STATUS 0, READ with the bytes; one that is refused drives its status; one for node 0xFF drives DECODE; one for another node
drives BUSY where every ticket is held, with a count, and PENDING with a ticket else. FETCH of a done ticket drives its result and frees it, of a
held one drives PENDING and of any other ticket 0x03; LHSTAT drives the map of the done tickets; a permitted GUARDED frame writes the guarded
register, and a denied one drives DENIED. A wrong CRC is counted and raised, and answered with 0xFF where the frame is answered; a framing error is
raised. Data of no byte or more than 256, and every frame on a fenced page, change nothing. (R213, R214) -/
def Obligations.LocalHostPort : Prop :=
  ∀ (s : State), Running s →
    let drive : State → List Byte → Prop := fun t bs => t.sent = s.sent ++ [.lh (bs ++ leBytes 2 (crc16 bs))]
    let full : Prop := ∀ n < 64, ∃ k, storeFind n s.bridge.tickets = some k ∧ k.held = true
    let crcFails : Instr → Bool → Prop := fun c answered => Completes c s (fun t => Counted Page.lh Reg.lhCrcErrCnt s t ∧
      Raised Page.lh Ev.lhCrcErr t ∧ (answered = true → .lh ([0xFF] ++ leBytes 2 (crc16 [0xFF])) ∈ t.sent) ∧
      SameRegisters [Page.lh, Page.evt] s t ∧ SameMemory s t)
    (pageFenced s Page.lh = true →
      (∀ addr data crc, exec (.lhWrite addr data crc) s = .next s ∧ exec (.lhWriteNp addr data crc) s = .next s) ∧
      (∀ addr lenM1 crc, exec (.lhRead addr lenM1 crc) s = .next s) ∧ (∀ ticket crc, exec (.fetch ticket crc) s = .next s) ∧
      (∀ addr v w crc, exec (.lhGuarded addr v w crc) s = .next s) ∧ (∀ crc, exec (.lhstat crc) s = .next s) ∧ exec .frameErr s = .next s) ∧
    (pageFenced s Page.lh = false →
      (∀ (addr : BitVec 48) (data : List Byte) (crc : BitVec 16),
        ((data = [] ∨ 256 < data.length) → exec (.lhWrite addr data crc) s = .next s ∧ exec (.lhWriteNp addr data crc) s = .next s) ∧
        (data ≠ [] → data.length ≤ 256 →
          (lhCrcOk 0x01 (lhHead addr data.length ++ data) crc = false → crcFails (.lhWrite addr data crc) false) ∧
          (lhCrcOk 0x02 (lhHead addr data.length ++ data) crc = false → crcFails (.lhWriteNp addr data crc) true) ∧
          (∀ a, ownNode s (lhNode addr) = true → lhAddr addr = 0x100000000 + a → a + data.length ≤ 0x8000000 →
            decide_ s localMaster .write (lhAddr addr) data.length = .ok →
            (lhCrcOk 0x01 (lhHead addr data.length ++ data) crc = true →
              Completes (.lhWrite addr data crc) s (fun t => t.dram = memWriteN s.dram a data ∧ t.sent = s.sent ∧ t.flash = s.flash ∧
                t.image = s.image ∧ t.stair = s.stair ∧ SameRegisters [] s t)) ∧
            (lhCrcOk 0x02 (lhHead addr data.length ++ data) crc = true →
              Completes (.lhWriteNp addr data crc) s (fun t => t.dram = memWriteN s.dram a data ∧ drive t [0] ∧ t.flash = s.flash ∧
                t.image = s.image ∧ t.stair = s.stair ∧ SameRegisters [] s t))) ∧
          (lhCrcOk 0x02 (lhHead addr data.length ++ data) crc = true → ownNode s (lhNode addr) = false →
            (lhNode addr = 0xFF → Completes (.lhWriteNp addr data crc) s (fun t => drive t [0x83] ∧ SameRegisters [] s t ∧ SameMemory s t)) ∧
            (lhNode addr ≠ 0xFF → full → Completes (.lhWriteNp addr data crc) s (fun t => Counted Page.lh Reg.lhBusyCnt s t ∧
              t.bridge = s.bridge ∧ SameMemory s t)) ∧
            (lhNode addr ≠ 0xFF → ¬ full → Completes (.lhWriteNp addr data crc) s (fun t =>
              (∃ ticket, .lh ([1] ++ leBytes 2 ticket ++ leBytes 2 (crc16 ([1] ++ leBytes 2 ticket))) ∈ t.sent) ∧ SameMemory s t))))) ∧
      (∀ (addr : BitVec 48) (lenM1 : Byte) (crc : BitVec 16),
        let n := lenM1.toNat + 1
        (lhCrcOk 0x03 (lhHead addr n) crc = false → crcFails (.lhRead addr lenM1 crc) true) ∧
        (lhCrcOk 0x03 (lhHead addr n) crc = true →
          (∀ a, ownNode s (lhNode addr) = true → lhAddr addr = 0x100000000 + a → a + n ≤ 0x8000000 →
            decide_ s localMaster .read (lhAddr addr) n = .ok → badWords s.boot.dramBad a n = [] →
            Completes (.lhRead addr lenM1 crc) s (fun t => drive t (0 :: memReadN s.dram a n) ∧ SameRegisters [] s t ∧ SameMemory s t)) ∧
          (ownNode s (lhNode addr) = true → mapRegion (lhAddr addr) n = .nothing →
            Completes (.lhRead addr lenM1 crc) s (fun t => drive t [0x83] ∧ SameRegisters [] s t ∧ SameMemory s t)) ∧
          (lhNode addr = 0xFF → nodeId s ≠ 0xFF → Completes (.lhRead addr lenM1 crc) s (fun t => drive t [0x83] ∧ SameRegisters [] s t ∧ SameMemory s t)) ∧
          (ownNode s (lhNode addr) = false → lhNode addr ≠ 0xFF → full →
            Completes (.lhRead addr lenM1 crc) s (fun t => Counted Page.lh Reg.lhBusyCnt s t ∧ t.bridge = s.bridge ∧ SameMemory s t)) ∧
          (ownNode s (lhNode addr) = false → lhNode addr ≠ 0xFF → ¬ full →
            Completes (.lhRead addr lenM1 crc) s (fun t =>
              (∃ ticket, .lh ([1] ++ leBytes 2 ticket ++ leBytes 2 (crc16 ([1] ++ leBytes 2 ticket))) ∈ t.sent) ∧ SameMemory s t)))) ∧
      (∀ (ticket crc : BitVec 16),
        (lhCrcOk 0x04 (leBytes 2 ticket.toNat) crc = false → crcFails (.fetch ticket crc) true) ∧
        (lhCrcOk 0x04 (leBytes 2 ticket.toNat) crc = true →
          let slot := storeFind (ticket.toNat % 64) s.bridge.tickets
          (∀ k, slot = some k → k.held = true → k.gen = ticket.toNat / 64 →
            (∀ st data, k.result = some (st, data) →
              Completes (.fetch ticket crc) s (fun t => drive t (lhStatus st :: data) ∧
                storeFind (ticket.toNat % 64) t.bridge.tickets = some { k with held := false, result := none } ∧
                SameRegisters [Page.lh] s t ∧ SameMemory s t)) ∧
            (k.result = none → Completes (.fetch ticket crc) s (fun t => drive t [1] ∧ SameRegisters [] s t ∧ SameMemory s t))) ∧
          ((∀ k, slot = some k → k.held = false ∨ k.gen ≠ ticket.toNat / 64) →
            Completes (.fetch ticket crc) s (fun t => drive t [3] ∧ SameRegisters [] s t ∧ SameMemory s t)))) ∧
      (∀ (addr : BitVec 48) (value complement : Word) (crc : BitVec 16),
        let body := leBytes 6 addr.toNat ++ leBytes 4 value.toNat ++ leBytes 4 complement.toNat
        (lhCrcOk 0x05 body crc = false → crcFails (.lhGuarded addr value complement crc) false) ∧
        (lhCrcOk 0x05 body crc = true → ownNode s (lhNode addr) = true →
          (Granted s localMaster .guarded Page.bridge 0x300 → lhAddr addr = 0x17300 → complement = ~~~ value →
            Completes (.lhGuarded addr value complement crc) s (fun t => getR t Page.bridge Reg.bridgeAccSel = value.toNat % 2 ^ 11 ∧
              SameRegisters [Page.bridge, Page.jrnl] s t ∧ SameMemoryBut (journalSlot s) 32 s t)) ∧
          (∀ cause, decide_ s localMaster .guarded (lhAddr addr) 4 = .denied cause →
            Completes (.lhGuarded addr value complement crc) s (fun t =>
              .lh ([0x81] ++ leBytes 2 (crc16 [0x81])) ∈ t.sent ∧ SameMemory s t))) ∧
        (lhCrcOk 0x05 body crc = true → ownNode s (lhNode addr) = false → Completes (.lhGuarded addr value complement crc) s (SameMemory s))) ∧
      (∀ crc : BitVec 16,
        (lhCrcOk 0x06 [] crc = false → crcFails (.lhstat crc) false) ∧
        (lhCrcOk 0x06 [] crc = true → Completes (.lhstat crc) s (fun t => drive t (leBytes 8 (doneMap s)) ∧ SameRegisters [] s t ∧ SameMemory s t))) ∧
      Completes .frameErr s (fun t => Raised Page.lh Ev.lhFrameErr t ∧ SameRegisters [Page.lh, Page.evt] s t ∧ SameMemory s t))

/-- PCIE_LINK_UP with the link down, PERST_N high and the page not fenced shows the width, speed and bus mastering, and changes nothing else;
PCIE_LINK_DOWN, a hot reset and PERST leave LINK.UP 0, PERST with its level standing until PERST_RELEASE. With the link up a BAR2 read through a
window that is not enabled, or of node 0xFF, completes as Unsupported Request and is counted; a write of up to 256 bytes through one that is not
enabled is dropped and counted; with the link down nothing changes. A permitted BAR2 read of local DRAM completes with its bytes, and a denied one
with every byte 0xFF and LAST_ERR. A permitted GO while the port is not BUSY starts the transaction and sets BUSY, and starts none while it is; its
end clears BUSY and shows the result, PEC_ERR for a wrong packet error code, and the number of bytes, with DONE raised, and without a transaction
nothing changes. Only the I2C page and EVT change, and no memory. (R211, R212, R216, R218, R456) -/
def Obligations.PcieAndI2cPorts : Prop :=
  (∀ (s : State), Running s →
      (∀ (width : Fin 3) (speed : Fin 4) (bme : Bool),
        let may := pcieUp s = false ∧ levelOn s Page.pcie Ev.pciePerst = false ∧ pageFenced s Page.pcie = false
        (may → Completes (.pcieLinkUp width speed bme) s (fun t => pcieUp t = true ∧ getR t Page.pcie Reg.pcieLinkWidth = width ∧
          getR t Page.pcie Reg.pcieLinkSpeed = speed + 1 ∧ flag t Page.pcie Reg.pcieLinkBme = bme ∧
          SameRegisters [Page.pcie, Page.duplex, Page.evt] s t ∧ SameMemory s t)) ∧
        (¬ may → exec (.pcieLinkUp width speed bme) s = .next s)) ∧
      Completes .pcieLinkDown s (fun t => pcieUp t = false ∧ (pcieUp s = true → Raised Page.pcie Ev.pcieLinkDown t) ∧
        SameRegisters [Page.pcie, Page.duplex, Page.evt] s t ∧ SameMemory s t) ∧
      Completes .pcieHotReset s (fun t => pcieUp t = false ∧ SameMemory s t) ∧
      Completes .perst s (fun t => pcieUp t = false ∧ levelOn t Page.pcie Ev.pciePerst = true ∧ SameMemory s t) ∧
      Completes .perstRelease s (fun t => levelOn t Page.pcie Ev.pciePerst = false ∧ SameRegisters [Page.pcie, Page.evt] s t ∧ SameMemory s t) ∧
      (∀ (offset : Word),
        let target := bar2Target s offset.toNat
        (pcieUp s = false → (∀ lenM1 tag, exec (.pcieBar2Read offset lenM1 tag) s = .next s) ∧ ∀ data, exec (.pcieBar2Write offset data) s = .next s) ∧
        (pcieUp s = true →
          ((flag s Page.pcie (Reg.pcieWinLoEn target.1) = false ∨ target.2.1 = 0xFF) → ∀ (lenM1 : Fin 512) (tag : BitVec 10),
            Completes (.pcieBar2Read offset lenM1 tag) s (fun t => (∃ o, t.sent = s.sent ++ [.completion tag.toNat 1 []] ++ o) ∧
              Counted Page.pcie Reg.pcieUrCnt s t ∧ SameRegisters [Page.pcie, Page.evt] s t ∧ SameMemory s t)) ∧
          (flag s Page.pcie (Reg.pcieWinLoEn target.1) = false → ∀ data : List Byte, data ≠ [] → data.length ≤ 256 →
            Completes (.pcieBar2Write offset data) s (fun t => Counted Page.pcie Reg.pcieUrCnt s t ∧
              SameRegisters [Page.pcie, Page.evt] s t ∧ SameMemory s t)) ∧
          (∀ (lenM1 : Fin 512) (tag : BitVec 10) (a : Nat), flag s Page.pcie (Reg.pcieWinLoEn target.1) = true → target.2.1 ≠ 0xFF →
            ownNode s target.2.1 = true → target.2.2 = 0x100000000 + a → a + (lenM1.val + 1) ≤ 0x8000000 →
            (decide_ s hostMaster .read (0x100000000 + a) (lenM1.val + 1) = .ok → badWords s.boot.dramBad a (lenM1.val + 1) = [] →
              Completes (.pcieBar2Read offset lenM1 tag) s (fun t =>
                t.sent = s.sent ++ [.completion tag.toNat 0 (memReadN s.dram a (lenM1.val + 1))] ∧ SameRegisters [] s t ∧ SameMemory s t)) ∧
            (∀ cause, decide_ s hostMaster .read (0x100000000 + a) (lenM1.val + 1) = .denied cause →
              Completes (.pcieBar2Read offset lenM1 tag) s (fun t =>
                .completion tag.toNat 0 (List.replicate (lenM1.val + 1) 0xFF) ∈ t.sent ∧ getR t Page.pcie Reg.pcieLastErr = stDenied ∧ SameMemory s t)))))) ∧
  (∀ (s : State),
      (∀ m : Master, Granted s m .write Page.i2c 0x44 →
        Completes (.i2cGo m) s (fun t => flag t Page.i2c Reg.i2cStatusBusy = true ∧
          (flag s Page.i2c Reg.i2cStatusBusy = true → t.boot.i2c = s.boot.i2c) ∧
          (flag s Page.i2c Reg.i2cStatusBusy = false → ∃ x, t.boot.i2c = some x ∧ x.1 = getR s Page.i2c Reg.i2cXferAddr7 ∧
            x.2.2.1 = min 32 (getR s Page.i2c Reg.i2cXferRlen)) ∧
          SameRegisters [Page.i2c] s t ∧ SameMemory s t)) ∧
      (∀ (result : Fin 6) (count : Fin 64) (data : List Byte), Running s →
        (s.boot.i2c = none → exec (.i2cDone result count data) s = .next s) ∧
        (∀ addr7 bytes rlen pec, s.boot.i2c = some (addr7, bytes, rlen, pec) →
          Completes (.i2cDone result count data) s (fun t => flag t Page.i2c Reg.i2cStatusBusy = false ∧
            getR t Page.i2c Reg.i2cStatusResult = i2cResult addr7 bytes rlen pec result data ∧ getR t Page.i2c Reg.i2cStatusBytes = count ∧
            t.boot.i2c = none ∧ Raised Page.i2c Ev.i2cDone t ∧ SameRegisters [Page.i2c, Page.evt] s t ∧ SameMemory s t))))

/-- With the access permitted, on the queue that ACC_Q of the master's class names: OPEN of an enabled queue with no packet of the class open opens
one where the class's credit or limit allows it, is refused with DISABLED or STATE where the queue is not enabled, or broken or has a packet of the
class open, and waits for credit where it does not suffice; PUT into an open packet appends the word, and takes a further cell where the last one is
full and the declaration or the shared pool allows it; beyond the declaration the packet is discarded with CREDIT_OVER. CLOSE of an open packet with
a LENGTH of 1 to 65,528 bytes puts it at the end of a queue that is not broken under its packet word; of any other LENGTH it ends the packet with
STATE, and of a discarded packet with DROPPED; ABORT discards it and frees its cells. Without an open packet PUT, CLOSE and ABORT end with STATE and
leave the queue. RESULT shows how each ended. No memory changes. (R222, R230, R231, R232) -/
def Obligations.CabinetProducing : Prop :=
  ∀ (s : State) (m : Master) (q : Nat), accQueue s m.cls = q →
    let port := portSoftware m.cls
    let v := queueOf s q
    let shows : State → Nat → Prop := fun t r => getBank t m.cls Page.cab Reg.cabAccStatusResult = r ∧ SameMemory s t
    let kept : State → Nat → Prop := fun t r => shows t r ∧ queueOf t q = v
    (∀ declare : Fin 1024, Granted s m .write Page.cab 0x84 →
      let d := max 1 (min 512 declare.val)
      let starts := v.en = true ∧ v.broken = false ∧ openPacket s port q = none
      (starts → freeCells s ≠ 0 →
        ((v.cls = classMgmt ∧ d ≤ mgmtFree s) ∨
          (v.cls = classMailbox ∧ (landingQueue q = true ∨ (mailboxGrant s v d).isSome)) ∨
          (v.cls = classBulk ∧ v.cells < threshold (sharedFree s) v.exponent)) →
        Completes (.cabOpen m declare) s (fun t => shows t cabOk ∧
          ∃ o, openPacket t port q = some o ∧ o.data = [] ∧ o.dead = false ∧ o.cells.length = 1)) ∧
      (starts → ((v.cls = classMgmt ∧ mgmtFree s < d) ∨ (v.cls = classMailbox ∧ landingQueue q = false ∧ mailboxGrant s v d = none)) →
        Completes (.cabOpen m declare) s (fun t => kept t cabWaitCredit)) ∧
      (starts → v.cls = classBulk → threshold (sharedFree s) v.exponent ≤ v.cells →
        Completes (.cabOpen m declare) s (fun t => shows t cabDropped ∧ (queueOf t q).opens = v.opens ∧ (queueOf t q).pkts = v.pkts ∧
          Raised Page.cab Ev.cabTailDrop t)) ∧
      (v.en = false → Completes (.cabOpen m declare) s (fun t => kept t cabDisabled)) ∧
      (v.en = true → (v.broken = true ∨ (openPacket s port q).isSome ∨ v.cls = classMirror) →
        Completes (.cabOpen m declare) s (fun t => kept t cabStateErr))) ∧
    (openPacket s port q = none →
      (∀ word : Word, Granted s m .write Page.cab 0x88 → Completes (.cabPut m word) s (fun t => kept t cabStateErr)) ∧
      (Granted s m .write Page.cab 0x84 → (∀ trim : Fin 4, Completes (.cabClose m trim) s (fun t => kept t cabStateErr)) ∧
        Completes (.cabAbort m) s (fun t => kept t cabStateErr))) ∧
    (∀ o : OpenPacket, openPacket s port q = some o →
      (∀ word : Word, Granted s m .write Page.cab 0x88 →
        let need := (8 + 4 * (o.data.length + 1) + 127) / 128
        let credited := v.cls = classMgmt ∨ v.cls = classMailbox
        (o.dead = true → Completes (.cabPut m word) s (fun t => kept t cabDropped)) ∧
        (o.dead = false → need ≤ o.cells.length →
          Completes (.cabPut m word) s (fun t => shows t cabOk ∧ openPacket t port q = some { o with data := o.data ++ [word.toNat] })) ∧
        (o.dead = false → o.cells.length < need → freeCells s ≠ 0 → ((credited ∧ need ≤ o.declare) ∨ (¬ credited ∧ sharedFree s ≠ 0)) →
          Completes (.cabPut m word) s (fun t => shows t cabOk ∧
            ∃ c, openPacket t port q = some { o with data := o.data ++ [word.toNat], cells := o.cells ++ [c] })) ∧
        (o.dead = false → o.cells.length < need → credited → o.declare < need →
          Completes (.cabPut m word) s (fun t => shows t cabDropped ∧ openPacket t port q = some { o with dead := true, cells := [], data := [] } ∧
            Counted Page.cab Reg.cabCredOverCnt s t ∧ Raised Page.cab Ev.cabCreditOver t))) ∧
      (Granted s m .write Page.cab 0x84 →
        (∀ trim : Fin 4,
          (o.dead = false → trim < 4 * o.data.length → 4 * o.data.length - trim ≤ 65528 →
            Completes (.cabClose m trim) s (fun t => shows t cabOk ∧ openPacket t port q = none ∧
              (queueOf t q).pkts = (if v.broken then v.pkts
                else v.pkts ++ [⟨packetWord (4 * o.data.length - trim) false port (tb2Lo s), o.data, o.cells⟩]))) ∧
          ((o.dead = true ∨ 4 * o.data.length ≤ trim ∨ 65528 < 4 * o.data.length - trim) →
            Completes (.cabClose m trim) s (fun t => shows t (if o.dead then cabDropped else cabStateErr) ∧ openPacket t port q = none ∧
              (queueOf t q).pkts = v.pkts))) ∧
        Completes (.cabAbort m) s (fun t => shows t cabOk ∧ openPacket t port q = none ∧ (queueOf t q).pkts = v.pkts ∧
          t.cab.used = s.cab.used.filter (fun c => !o.cells.contains c))))

/-- With the access permitted, on a queue whose consumer is the class's port: GET of a queue that is not broken answers the word at the read
position, which moves on; an uncorrectable link entry that it follows breaks the queue with LINK_ECC, a correctable one is counted; with no packet
there it answers 0 and ends EMPTY. MARK keeps the read position; REWIND returns to the mark, or to the start of the queue without one; RELEASE frees
the packets before the read position. Where the consumer is another port each of them ends with OWNER and OWNER_ERR and the queue stays. No memory
changes. (R222, R223, R235, R236) -/
def Obligations.CabinetConsuming : Prop :=
  ∀ (s : State) (m : Master) (q : Nat), accQueue s m.cls = q →
    let v := queueOf s q
    let shows : State → Nat → Prop := fun t r => getBank t m.cls Page.cab Reg.cabAccStatusResult = r ∧ SameMemory s t
    (v.consumer = portSoftware m.cls →
      (Granted s m .read Page.cab 0x88 →
        (∀ (p : Packet) (link : Fin 3), v.broken = false → v.pkts[v.rdPkt]? = some p →
          let next := if v.rdWord + 1 < (packetWords p).length then (v.rdPkt, v.rdWord + 1) else (v.rdPkt + 1, 0)
          Completes (.cabGet m link) s (fun t => shows t cabOk ∧
            .answer m 0 ((packetWords p).getD v.rdWord 0 % 2 ^ 32) ∈ t.sent ∧ ((queueOf t q).rdPkt, (queueOf t q).rdWord) = next ∧
            ((link.val ≠ 2 ∨ followedCell v p = none) → (queueOf t q).pkts = v.pkts ∧ (queueOf t q).broken = false) ∧
            (link.val = 2 → (followedCell v p).isSome → (queueOf t q).broken = true ∧ Raised Page.cab Ev.cabLinkEcc t) ∧
            (link.val = 1 → (followedCell v p).isSome → Counted Page.cab Reg.cabLinkCorrCnt s t))) ∧
        (∀ link : Fin 3, v.pkts[v.rdPkt]? = none →
          Completes (.cabGet m link) s (fun t => shows t cabEmpty ∧ .answer m 0 0 ∈ t.sent ∧ queueOf t q = v))) ∧
      (Granted s m .write Page.cab 0x84 →
        Completes (.cabMark m) s (fun t => shows t cabOk ∧ (queueOf t q).mark = some (v.rdPkt, v.rdWord) ∧ (queueOf t q).pkts = v.pkts) ∧
        Completes (.cabRewind m) s (fun t => shows t cabOk ∧ ((queueOf t q).rdPkt, (queueOf t q).rdWord) = v.mark.getD (0, 0) ∧
          (queueOf t q).pkts = v.pkts) ∧
        Completes (.cabRelease m) s (fun t => shows t cabOk ∧ (queueOf t q).pkts = v.pkts.drop v.rdPkt ∧ (queueOf t q).rdPkt = 0 ∧
          (queueOf t q).mark = none))) ∧
    (v.consumer ≠ portSoftware m.cls →
      (Granted s m .read Page.cab 0x88 → ∀ link : Fin 3,
        Completes (.cabGet m link) s (fun t => shows t cabOwner ∧ queueOf t q = v ∧ Raised Page.cab Ev.cabOwnerErr t)) ∧
      (Granted s m .write Page.cab 0x84 → ∀ c, (c = .cabMark m ∨ c = .cabRewind m ∨ c = .cabRelease m) →
        Completes c s (fun t => shows t cabOwner ∧ queueOf t q = v ∧ Raised Page.cab Ev.cabOwnerErr t)))

/-- With QCMD permitted: ENABLE of a queue that is not a system queue, and whose MIN fits into the shared pool if it is a MAILBOX queue, enables it,
and is refused with ENABLE_REFUSED where the MIN does not fit; ENABLE and DISABLE of a system queue are refused with ENABLE_REFUSED and leave it as
it was; DISABLE of a queue that is not a system queue empties and disables it; FLUSH empties it; CLEAR_BROKEN of a broken queue empties it and
returns it to service, and leaves one that is not broken. Memory changes only in the journal's entry. (R222, R224, R225, R228, R237) -/
def Obligations.QueueCommands : Prop :=
  ∀ (s : State) (m : Master) (q : BitVec 12), Granted s m .guarded Page.cab 0x304 →
    let v := queueOf s q.toNat
    let journaled : State → Prop := SameMemoryBut (journalSlot s) 32 s
    let refused : Instr → Prop := fun c => Completes c s (fun t => queueOf t q.toNat = v ∧ Raised Page.cab Ev.cabEnableRefused t ∧ journaled t)
    (systemQueue q.toNat = false →
      ((v.en = true ∨ v.cls ≠ classMailbox ∨ v.min ≤ sharedFree s) →
        Completes (.queueEnable m q) s (fun t => queueOf t q.toNat = { v with en := true } ∧ journaled t)) ∧
      (v.en = false → v.cls = classMailbox → sharedFree s < v.min → refused (.queueEnable m q)) ∧
      Completes (.queueDisable m q) s (fun t => (queueOf t q.toNat).en = false ∧ (queueOf t q.toNat).pkts = [] ∧
        (queueOf t q.toNat).opens = [] ∧ journaled t)) ∧
    (systemQueue q.toNat = true → refused (.queueEnable m q) ∧ refused (.queueDisable m q)) ∧
    Completes (.queueFlush m q) s (fun t => (queueOf t q.toNat).pkts = [] ∧ (queueOf t q.toNat).opens = [] ∧
      (queueOf t q.toNat).en = v.en ∧ journaled t) ∧
    (v.broken = true → Completes (.clearBroken m q) s (fun t => (queueOf t q.toNat).broken = false ∧ (queueOf t q.toNat).pkts = [] ∧ journaled t)) ∧
    (v.broken = false → Completes (.clearBroken m q) s (fun t => queueOf t q.toNat = v ∧ journaled t))

/-- AUDIT_WALK with AUDIT_EN set, and nothing without it, and a permitted WALK_NOW start a walk, or one more after the running one. At the end of a
walk the used cells that no queue reaches, and that the walk before did not reach either, are the leaked ones, and LEAK_COUNT shows how many;
without a walk it is nothing. A permitted RECLAIM returns them to the free list, clears LEAK_COUNT, raises RECLAIMED and is journaled; with none
leaked it is only journaled. Memory changes only in the journal's entry. (R239, R240) -/
def Obligations.CabinetAuditor : Prop :=
  ∀ (s : State),
    (Running s →
      (flag s Page.cab Reg.cabCfgAuditEn = true → Completes .auditWalk s (fun t => t.cab.walking = true ∧
        t.cab.walkDue = (s.cab.walkDue || s.cab.walking) ∧ SameRegisters [] s t ∧ SameMemory s t)) ∧
      (flag s Page.cab Reg.cabCfgAuditEn = false → exec .auditWalk s = .next s)) ∧
    (∀ m : Master, Granted s m .guarded Page.cab 0x300 →
      Completes (.walkNow m) s (fun t => t.cab.walking = true ∧ t.cab.walkDue = (s.cab.walkDue || s.cab.walking) ∧
        SameRegisters [Page.cab, Page.jrnl] s t ∧ SameMemoryBut (journalSlot s) 32 s t) ∧
      Completes (.reclaim m) s (fun t => t.cab.leaked = [] ∧ t.cab.used = s.cab.used.filter (fun c => !s.cab.leaked.contains c) ∧
        (s.cab.leaked ≠ [] → getR t Page.cab Reg.cabLeakCount = 0 ∧ Raised Page.cab Ev.cabReclaimed t) ∧ (s.cab.leaked = [] → t.cab = s.cab) ∧
        SameRegisters [Page.cab, Page.evt, Page.jrnl] s t ∧ SameMemoryBut (journalSlot s) 32 s t)) ∧
    (Running s →
      (s.cab.walking = true → Completes .walkDone s (fun t =>
        t.cab.leaked = s.cab.used.filter (fun c => !(reachedCells s).contains c && s.cab.unmarked.contains c) ∧
        t.cab.unmarked = s.cab.used.filter (fun c => !(reachedCells s).contains c) ∧ t.cab.walking = s.cab.walkDue ∧
        getR t Page.cab Reg.cabLeakCount = t.cab.leaked.length % 2 ^ 18 ∧ (t.cab.leaked ≠ [] → Raised Page.cab Ev.cabLeakFound t) ∧
        getR t Page.cab Reg.cabAuditWalks = (getR s Page.cab Reg.cabAuditWalks + 1) % 2 ^ 32 ∧
        SameRegisters [Page.cab, Page.evt] s t ∧ SameMemory s t)) ∧
      (s.cab.walking = false → exec .walkDone s = .next s))

/-- A waiting mirror copy that is late, or that queue 0x022 does not take, is dropped and counted; one in time enters queue 0x022 where the queue
takes it and is counted as sampled; with none waiting nothing changes. A DRAM-BULK channel that is enabled and not stopped copies the whole packet
at the head of its queue into its ring in DRAM, from CHn_WR on and around the ring's end, advances CHn_WR and releases the packet, where the ring
has room and the write is permitted; it waits where the ring has none, and stops with BULK_STOP where the write is refused. It writes nothing else.
(R242, R243, R244) -/
def Obligations.MirrorAndBulk : Prop :=
  ∀ (s : State), Running s →
    (s.cab.mirrorWait = [] → ∀ late, exec (.mirrorCopy late) s = .next s) ∧
    (∀ (trunc : Bool) (bytes : Nat) (words : List Nat) (rest : List (Bool × Nat × List Nat)), s.cab.mirrorWait = (trunc, bytes, words) :: rest →
      let v := queueOf s 0x22
      let dropped : State → Prop := fun t => t.cab.mirrorWait = rest ∧ Counted Page.mirror Reg.mirrorDropCnt s t ∧
        Raised Page.mirror Ev.mirrorMirrorDrop t ∧ SameRegisters [Page.mirror, Page.cab, Page.evt] s t ∧ SameMemory s t
      Completes (.mirrorCopy true) s dropped ∧
      ((v.en = false ∨ v.broken = true ∨ (v.cls = classMirror ∧ threshold (sharedFree s) v.exponent ≤ v.cells)) →
        Completes (.mirrorCopy false) s dropped) ∧
      (0 < bytes → bytes ≤ 4 * words.length → v.en = true → v.broken = false → v.cls = classMirror → openPacket s portMirror 0x22 = none →
        v.cells < threshold (sharedFree s) v.exponent →
        ((words.length ≤ 30 ∧ freeCells s ≠ 0) ∨ (words.length ≤ 62 ∧ 2 ≤ freeCells s ∧ 2 ≤ sharedFree s)) →
        Completes (.mirrorCopy false) s (fun t => t.cab.mirrorWait = rest ∧ (queueOf t 0x22).pkts.length = v.pkts.length + 1 ∧
          Counted Page.mirror Reg.mirrorSampledCnt s t ∧ SameMemory s t))) ∧
    (∀ (ch : Fin 4),
      let q := getR s Page.cab (Reg.cabChCtrlQueue ch)
      let able := flag s Page.cab (Reg.cabChCtrlEn ch) = true ∧ flag s Page.cab (Reg.cabChCtrlStopped ch) = false ∧ pageFenced s Page.cab = false
      ((¬ able ∨ (queueOf s q).pkts = []) → exec (.dramBulkCopy ch) s = .next s) ∧
      (∀ p : Packet, able → (queueOf s q).pkts.head? = some p →
        let size := 2 ^ getR s Page.cab (Reg.cabChBaseLog2 ch)
        let base := getR s Page.cab (Reg.cabChBaseBase ch) * 4096
        let wr := getR s Page.cab (Reg.cabChWr ch) % size
        let bs := bulkBytes p
        let first := min bs.length (size - wr)
        let used := (wr + size - getR s Page.cab (Reg.cabChRd ch) % size) % size
        let verdict : Nat → Nat → Verdict := fun a n => decide_ s dmaMaster .write (0x100000000 + a) n
        ((queueOf s q).consumer ≠ portDramBulk → Completes (.dramBulkCopy ch) s (fun t => Raised Page.cab Ev.cabOwnerErr t ∧
          queueOf t q = queueOf s q ∧ SameMemory s t)) ∧
        ((queueOf s q).consumer = portDramBulk → (wholePacket p = false ∨ size ≤ used + bs.length) → exec (.dramBulkCopy ch) s = .next s) ∧
        ((queueOf s q).consumer = portDramBulk → wholePacket p = true → used + bs.length < size →
          (verdict (base + wr) first = .ok → (first < bs.length → verdict base (bs.length - first) = .ok) →
            Completes (.dramBulkCopy ch) s (fun t =>
              t.dram = (if first < bs.length then memWriteN (memWriteN s.dram (base + wr) (bs.take first)) base (bs.drop first)
                else memWriteN s.dram (base + wr) bs) ∧
              getR t Page.cab (Reg.cabChWr ch) = (wr + bs.length) % size % 2 ^ 26 ∧
              (queueOf t q).pkts = (queueOf s q).pkts.drop 1 ∧ t.flash = s.flash ∧ t.image = s.image ∧ t.stair = s.stair)) ∧
          ((verdict (base + wr) first ≠ .ok ∨ (first < bs.length ∧ verdict base (bs.length - first) ≠ .ok)) →
            Completes (.dramBulkCopy ch) s (fun t => flag t Page.cab (Reg.cabChCtrlStopped ch) = true ∧ Raised Page.cab Ev.cabBulkStop t ∧
              queueOf t q = queueOf s q ∧ SameMemory s t)))))

/-- A due start makes the engine RUNNING in state 0 and in its safe state, with SR, BITS, LAST_POP and STALE cleared and the divider at 0. A due
stop ends RUNNING, clears LINK_OUT and completes a pending swap. Where neither is due the command changes nothing. A tick of a running engine
outside STANDBY without a FORCE swap: with a delay left it only counts the delay down; otherwise it takes the retained entry or the LUT entry of its
state and conditions, and an entry whose action completes gives the next state, IN_SAFE, the delay and, without HOLD, the levels of the driven pins,
and takes a SAFE swap (or a CYCLE swap without an active Staircase) that is pending where the entry is marked safe; one that stalls is retained with
STALLED and STALL_CNT. The tick of any other engine leaves it. Only the engine's and its tile's registers and EVT change, and no memory. (R248,
R251, R253, R254, R256, R265, R266, R268) -/
def Obligations.EngineStartStopTick : Prop :=
  ∀ (s : State) (e : Fin 128), Running s →
    let frame : State → Prop := fun t => SameRegisters [Page.eng e, Page.tile (tileOf e), Page.evt] s t ∧ SameMemory s t
    (startDue s e = true →
      Completes (.engineStart e) s (fun t => engRunning t e = true ∧ engR t e Reg.engStatusState = 0 ∧ engFlag t e Reg.engStatusInSafe = true ∧
        engR t e Reg.engSr = 0 ∧ engR t e Reg.engCntBits = 0 ∧ engR t e Reg.engLastPop = 0 ∧ engFlag t e Reg.engFifoStatusStale = false ∧
        (engOf t e).divCount = 0 ∧ (engOf t e).divD = engDiv s e ∧ (engOf t e).delay = 0 ∧ frame t)) ∧
    (startDue s e = false → exec (.engineStart e) s = .next s) ∧
    (stopDue s e = true →
      Completes (.engineStop e) s (fun t => engRunning t e = false ∧ engR t e Reg.engFifoStatusLinkOut = 0 ∧ (engOf t e).links = 0 ∧
        (engOf t e).swap = none ∧ engBank t e = (if (engOf s e).swap.isSome then 1 - engBank s e else engBank s e) ∧ frame t)) ∧
    (stopDue s e = false → exec (.engineStop e) s = .next s) ∧
    (∀ pads : BitVec 32,
      (engTicks s e = false → Completes (.engineTick e pads) s (fun t =>
        { engOf t e with links := 0 } = { engOf s e with links := 0 } ∧ SameRegisters [Page.tile (tileOf e)] s t ∧ SameMemory s t)) ∧
      (engTicks s e = true → (∀ r, (engOf s e).swap ≠ some (2, r)) →
        let u := s |> setPads (tileOf e) pads.toNat |> dividerAtTick e |> timerTick e |> sampleFilters e
        ((engOf s e).delay ≠ 0 →
          Completes (.engineTick e pads) s (fun t => (engOf t e).delay = (engOf s e).delay - 1 ∧ (engOf t e).swap = (engOf s e).swap ∧
            engR t e Reg.engStatusState = engR s e Reg.engStatusState ∧ engR t e Reg.engStatusPinVal = engR s e Reg.engStatusPinVal ∧
            engR t e Reg.engStatusPinOe = engR s e Reg.engStatusPinOe ∧ frame t)) ∧
        ((engOf s e).delay = 0 →
          let st := engR s e Reg.engStatusState
          let bank := engBank s e
          ∀ w v, ((engOf s e).retained = some w ∧ v = u) ∨ ((engOf s e).retained = none ∧
              w = lutEntry s e bank (16 * st + conditionIndex u e (selWord s e bank st)) ∧ v = (selectEntry e u).2) →
          let due : Bool → Prop := fun r => entrySafe w = true ∧
            ((engOf s e).swap = some (0, r) ∨ ((engOf s e).swap = some (1, r) ∧ staircaseActive s = false))
          (engAction e (entryAction w) v ≠ none →
            Completes (.engineTick e pads) s (fun t => engFlag t e Reg.engStatusInSafe = entrySafe w ∧
              (engOf t e).delay = entryDelay w ∧ engFlag t e Reg.engStatusStalled = false ∧ (engOf t e).retained = none ∧
              ((∀ r, ¬ due r) → engR t e Reg.engStatusState = entryNext w ∧ engBank t e = bank ∧ (engOf t e).swap = (engOf s e).swap) ∧
              (∀ r, due r → engR t e Reg.engStatusState = (if r then 0 else entryNext w) ∧ engBank t e = 1 - bank ∧ (engOf t e).swap = none ∧
                Raised (Page.eng e) Ev.engSwapDone t) ∧
              (entryHold w = false → entryOut v e w = none → ∀ i < 4, bit (entryOe w) i = true →
                bit (engR t e Reg.engStatusPinOe) i = true ∧ bit (engR t e Reg.engStatusPinVal) i = bit (entryVal w) i) ∧ frame t)) ∧
          (engAction e (entryAction w) v = none →
            Completes (.engineTick e pads) s (fun t => engR t e Reg.engStatusState = st ∧ engFlag t e Reg.engStatusStalled = true ∧
              (engOf t e).retained = some w ∧ (engOf t e).swap = (engOf s e).swap ∧ Counted (Page.eng e) Reg.engStallCnt s t ∧ frame t)))))

/-- With the write permitted: SWAP_REQ of a running engine leaves the request pending (mode 3 as SAFE) with its bank unchanged, and leaves a FORCE
swap that is pending as it is (the model's choice, log entry 198); of an engine at rest it exchanges the banks at once, in state 0, with SWAP_DONE.
SWAP_CANCEL withdraws a pending SAFE or CYCLE swap and no FORCE swap. With a FORCE swap pending, FORCE_SWAP and any tick of a running engine outside
STANDBY exchange the banks in state 0 and in its safe state, with SR, BITS and the FIFO flags cleared and FORCED_SWAP raised; without one FORCE_SWAP
changes nothing, and in STANDBY or at rest the engine keeps its swap. Only the engine's registers, its tile's and EVT change, and no memory. (R268,
R270, R271) -/
def Obligations.EngineSwaps : Prop :=
  ∀ (s : State) (m : Master) (e : Fin 128),
    let frame : State → Prop := fun t => SameRegisters [Page.eng e, Page.tile (tileOf e), Page.evt] s t ∧ SameMemory s t
    (Granted s m .write (Page.eng e) 0xA0 →
      (∀ (mode : Fin 4) (restart : Bool),
        (engRunning s e = true → (∀ r, (engOf s e).swap ≠ some (2, r)) →
          Completes (.swapReq m e mode restart) s (fun t => (engOf t e).swap = some (if mode = 3 then 0 else mode.val, restart) ∧
            engFlag t e Reg.engStatusSwapPend = true ∧ engBank t e = engBank s e ∧ engR t e Reg.engSwapMode = mode ∧ frame t)) ∧
        (∀ r, engRunning s e = true → (engOf s e).swap = some (2, r) →
          Completes (.swapReq m e mode restart) s (fun t => (engOf t e).swap = some (2, r) ∧ engBank t e = engBank s e ∧ frame t)) ∧
        (engRunning s e = false →
          Completes (.swapReq m e mode restart) s (fun t => (engOf t e).swap = none ∧ engFlag t e Reg.engStatusSwapPend = false ∧
            engBank t e = 1 - engBank s e ∧ engR t e Reg.engStatusState = 0 ∧ Raised (Page.eng e) Ev.engSwapDone t ∧ frame t))) ∧
      ((∀ r, (engOf s e).swap ≠ some (2, r)) →
        Completes (.swapCancel m e) s (fun t => (engOf t e).swap = none ∧ engFlag t e Reg.engStatusSwapPend = false ∧
          engBank t e = engBank s e ∧ frame t)) ∧
      (∀ r, (engOf s e).swap = some (2, r) →
        Completes (.swapCancel m e) s (fun t => (engOf t e).swap = some (2, r) ∧ engBank t e = engBank s e ∧ frame t))) ∧
    (Running s →
      ((∀ r, (engOf s e).swap ≠ some (2, r)) → exec (.forceSwap e) s = .next s) ∧
      (∀ r (c : Instr), (engOf s e).swap = some (2, r) → (c = .forceSwap e ∨ ∃ pads, c = .engineTick e pads) →
        (engTicks s e = false → Completes c s (fun t => (engOf t e).swap = some (2, r) ∧ engBank t e = engBank s e ∧ frame t)) ∧
        (engTicks s e = true →
          Completes c s (fun t => engBank t e = 1 - engBank s e ∧ engR t e Reg.engStatusState = 0 ∧
            (engOf t e).swap = none ∧ engFlag t e Reg.engStatusSwapPend = false ∧ engFlag t e Reg.engStatusInSafe = true ∧
            (engOf t e).delay = 0 ∧ (engOf t e).retained = none ∧
            engR t e Reg.engSr = 0 ∧ engR t e Reg.engCntBits = 0 ∧ engR t e Reg.engCntValue = 0 ∧ engFlag t e Reg.engFifoStatusStale = false ∧
            Raised (Page.eng e) Ev.engForcedSwap t ∧ frame t))))

/-- With the access permitted and the FIFO not bound: a word written to TXF_DATA goes to the end of a TX FIFO with room; a read of RXF_DATA answers
the oldest word of the RX FIFO and removes it, and answers 0 with HOST_FIFO_CNT and FIFO_ERR where it is empty. A write to a bound TX FIFO is
discarded with BIND_REFUSE_CNT, one to a full FIFO with HOST_FIFO_CNT; a read of a bound RX FIFO answers 0 with BIND_REFUSE_CNT and leaves it. The
flushes empty their FIFO and leave the other. Only the engine's registers and EVT change, and no memory. (R263, R264) -/
def Obligations.EngineFifos : Prop :=
  ∀ (s : State) (m : Master) (e : Fin 128),
    let frame : State → Prop := fun t => SameRegisters [Page.eng e, Page.evt] s t ∧ SameMemory s t
    (∀ value : Word, Granted s m .write (Page.eng e) 0x74 →
      (engFlag s e Reg.engFifoStatusTxfBound = false → (engOf s e).txf.length < 16 →
        Completes (.txfData m e value) s (fun t => (engOf t e).txf = (engOf s e).txf ++ [value.toNat] ∧
          engR t e Reg.engFifoStatusTxLevel = (engOf s e).txf.length + 1 ∧ frame t)) ∧
      (engFlag s e Reg.engFifoStatusTxfBound = false → 16 ≤ (engOf s e).txf.length →
        Completes (.txfData m e value) s (fun t => (engOf t e).txf = (engOf s e).txf ∧ Counted (Page.eng e) Reg.engHostFifoCnt s t ∧
          Raised (Page.eng e) Ev.engFifoErr t ∧ frame t)) ∧
      (engFlag s e Reg.engFifoStatusTxfBound = true →
        Completes (.txfData m e value) s (fun t => (engOf t e).txf = (engOf s e).txf ∧ Counted (Page.eng e) Reg.engBindRefuseCnt s t ∧
          Raised (Page.eng e) Ev.engFifoErr t ∧ frame t))) ∧
    (Granted s m .read (Page.eng e) 0x78 →
      (engFlag s e Reg.engFifoStatusRxfBound = false → ∀ w ws, (engOf s e).rxf = w :: ws →
        Completes (.rxfData m e) s (fun t => t.sent = s.sent ++ [.answer m 0 (w % 2 ^ 32)] ∧ (engOf t e).rxf = ws ∧
          (engOf t e).txf = (engOf s e).txf ∧ frame t)) ∧
      (engFlag s e Reg.engFifoStatusRxfBound = false → (engOf s e).rxf = [] →
        Completes (.rxfData m e) s (fun t => t.sent.getLast? = some (.answer m 0 0) ∧ (engOf t e).rxf = [] ∧
          Counted (Page.eng e) Reg.engHostFifoCnt s t ∧ Raised (Page.eng e) Ev.engFifoErr t ∧ frame t)) ∧
      (engFlag s e Reg.engFifoStatusRxfBound = true →
        Completes (.rxfData m e) s (fun t => t.sent.getLast? = some (.answer m 0 0) ∧ (engOf t e).rxf = (engOf s e).rxf ∧
          Counted (Page.eng e) Reg.engBindRefuseCnt s t ∧ Raised (Page.eng e) Ev.engFifoErr t ∧ frame t))) ∧
    (Granted s m .write (Page.eng e) 0x7C →
      Completes (.txfFlush m e) s (fun t => (engOf t e).txf = [] ∧ (engOf t e).rxf = (engOf s e).rxf ∧
        engR t e Reg.engFifoStatusTxLevel = 0 ∧ frame t) ∧
      Completes (.rxfFlush m e) s (fun t => (engOf t e).rxf = [] ∧ (engOf t e).txf = (engOf s e).txf ∧
        engR t e Reg.engFifoStatusRxLevel = 0 ∧ frame t))

/-- A permitted write to PINMAP whose requests name different pads that are free, or are held by the same logical pin, is stored as written and
gives each of them; a pad that another engine of the tile holds stays with it, the mapping is stored with DRIVE 0, CONFLICT names the request and
PIN_CONFLICT stands. VIO_FAULT of a monitored bank leaves every pad of the tile undriven, with VIO_OK 0 and the measured voltage shown, and
VIO_FAULT_CLEAR ends it; of a bank that is not monitored they change nothing. READBACK of a driven pad with RB_EN is recorded and counted, and of
any other changes nothing. Pages but the engine's, the tile's and EVT stay, and no memory changes. (R273, R275, R276, R277) -/
def Obligations.PinTiles : Prop :=
  ∀ (s : State),
    (∀ (m : Master) (e : Fin 128) (value : Word), Granted s m .write (Page.eng e) 0x6C →
      let n : Fin 4 → Nat := fun j => bits value.toNat (8 * j.val + 6) (8 * j.val)
      let holds : State → Fin 4 → Option (Nat × Nat) := fun t j => padOwner t (tileOf e) (mapPad (n j))
      let frame : State → Prop := fun t => SameRegisters [Page.eng e, Page.tile (tileOf e), Page.evt] s t ∧ SameMemory s t
      ((∀ j, mapClaims (n j) = true → holds s j = none ∨ holds s j = some (e.val % 8, j.val)) →
        (∀ j k, j ≠ k → mapClaims (n j) = true → mapClaims (n k) = true → mapPad (n j) ≠ mapPad (n k)) →
        Completes (.pinmapWrite m e value) s (fun t =>
          (∀ j : Fin 4, pinMap t e j = n j ∧ (mapClaims (n j) = true → holds t j = some (e.val % 8, j.val))) ∧ frame t)) ∧
      (∀ (i : Fin 4) o, mapClaims (n i) = true → holds s i = some o → o.1 ≠ e.val % 8 → (∀ j, j ≠ i → mapClaims (n j) = false) →
        Completes (.pinmapWrite m e value) s (fun t => pinMap t e i = n i - 0x40 ∧ holds t i = some o ∧
          getR t (Page.tile (tileOf e)) Reg.tileConflictPad = mapPad (n i) ∧ getR t (Page.tile (tileOf e)) Reg.tileConflictEngine = e.val % 8 ∧
          getR t (Page.tile (tileOf e)) Reg.tileConflictPin = i ∧ Raised (Page.tile (tileOf e)) Ev.tilePinConflict t ∧ frame t))) ∧
    (∀ (n : Fin 16), Running s →
      let pg := Page.tile n
      let monitored := flag s pg Reg.tileCfgBankEn = true ∧ getR s pg Reg.tileCfgVioSel ≠ 3
      let frame : State → Prop := fun t => SameRegisters [pg, Page.evt] s t ∧ SameMemory s t
      (∀ mv : Fin 4096,
        (monitored →
          Completes (.vioFault n mv) s (fun t => levelOn t pg Ev.tileVioFault = true ∧ flag t pg Reg.tileStatusVioOk = false ∧
            getR t pg Reg.tileStatusVioMv = mv ∧ getR t pg Reg.tilePinOe = 0 ∧ getR t pg Reg.tilePinIn = 0 ∧ frame t) ∧
          Completes (.vioFaultClear n mv) s (fun t => levelOn t pg Ev.tileVioFault = false ∧ flag t pg Reg.tileStatusVioOk = true ∧
            getR t pg Reg.tileStatusVioMv = mv ∧ frame t)) ∧
        (¬ monitored → exec (.vioFault n mv) s = .next s ∧ exec (.vioFaultClear n mv) s = .next s)) ∧
      (∀ p : Fin 32,
        let shown := flag s pg (Reg.tilePincfgRbEn p) = true ∧ bit (getR s pg Reg.tilePinOe) p = true
        (shown → Completes (.readback n p) s (fun t => getR t pg Reg.tileReadbackPad = p ∧ Counted pg Reg.tileReadbackCount s t ∧
          Raised pg Ev.tileReadback t ∧ frame t)) ∧
        (¬ shown → exec (.readback n p) s = .next s)))

/-- With the write permitted, where a reserved mode value acts as CONFIG: the mode in force written again changes nothing but CFG.MODE and ends a
change that waits; a mode change out of CONFIG whose check passes puts the mode in force without SYNC, one whose check fails leaves CONFIG with
CFG_ERR; a change to CONFIG takes effect at once without an attempt on the bus and waits for its end otherwise, and keeps the pending requests; a
change between other modes takes effect at once, and MONITOR ends what is pending and in no attempt with GATED. TXB_REQ makes each named buffer
pending where the channel sends, and ends a new request with BUS_OFF in bus-off and with GATED where requests are discarded. TXB_CANCEL ends a
pending buffer that is in no attempt with CANCELLED and waits for the attempt of one that is. TXB_UNPARK unparks with CLASH_CNT 0. RECOVER starts
recovery in bus-off and does nothing otherwise. Only the channel's registers, DUPLEX's count of gated requests and EVT change, and no memory. (R165,
R281, R282, R293, R295, R298, R299) -/
def Obligations.CanRequests : Prop :=
  ∀ (s : State) (m : Master) (n : Fin 16),
    let pg := Page.can n
    let frame : State → Prop := fun t => SameRegisters [pg, Page.evt] s t ∧ SameMemory s t
    (Granted s m .write pg 0x40 → ∀ mode : Fin 8,
      let next : Nat := if 5 ≤ mode.val then canConfig else mode
      let now := canMode s n
      (next = now → Completes (.canModeChange m n mode) s (fun t => canMode t n = now ∧ canR t n Reg.canCfgMode = mode ∧
        (canOf t n).leaving = false ∧ canR t n Reg.canTxbPend = canR s n Reg.canTxbPend ∧ frame t)) ∧
      (now = canConfig → next ≠ canConfig →
        (canConfigOk s n = true → Completes (.canModeChange m n mode) s (fun t => canMode t n = next ∧
          canFlag t n Reg.canStatusSync = false ∧ canFlag t n Reg.canStatusCfgErr = false ∧ frame t)) ∧
        (canConfigOk s n = false → Completes (.canModeChange m n mode) s (fun t => canMode t n = canConfig ∧
          canFlag t n Reg.canStatusCfgErr = true ∧ frame t))) ∧
      (now ≠ canConfig → next = canConfig →
        ((canOf s n).attempt = none → Completes (.canModeChange m n mode) s (fun t => canMode t n = canConfig ∧
          canFlag t n Reg.canStatusSync = false ∧ canR t n Reg.canTxbPend = canR s n Reg.canTxbPend ∧ frame t)) ∧
        ((canOf s n).attempt ≠ none → Completes (.canModeChange m n mode) s (fun t => canMode t n = now ∧
          (canOf t n).leaving = true ∧ canR t n Reg.canTxbPend = canR s n Reg.canTxbPend ∧ frame t))) ∧
      (now ≠ canConfig → next ≠ canConfig → next ≠ now →
        Completes (.canModeChange m n mode) s (fun t => canMode t n = next ∧
          (∀ b < 32, bufPending s n b = true → (bufPending t n b = true ↔ (next ≠ canMonitor ∨ inAttempt s n b = true)) ∧
            (next = canMonitor → inAttempt s n b = false → bufResult t n b = txGated)) ∧ frame t))) ∧
    (∀ map : Word, Granted s m .write pg 0x60 →
      (canFc s n ≠ fcBusOff → txDiscards s n = false →
        Completes (.txbReq m n map) s (fun t => canR t n Reg.canTxbPend = canR s n Reg.canTxbPend ||| map.toNat ∧ frame t)) ∧
      ((canFc s n = fcBusOff ∨ txDiscards s n = true) →
        Completes (.txbReq m n map) s (fun t => canR t n Reg.canTxbPend = canR s n Reg.canTxbPend ∧
          (∀ b < 32, bit map.toNat b = true → bufPending s n b = false →
            bufResult t n b = (if canFc s n = fcBusOff then txBusOff else txGated) ∧ Raised pg Ev.canTxFail t) ∧
          SameRegisters [pg, Page.duplex, Page.evt] s t ∧ SameMemory s t))) ∧
    (∀ map : Word, Granted s m .write pg 0x68 →
      Completes (.txbCancel m n map) s (fun t => (∀ b < 32, bit map.toNat b = true → bufPending s n b = true →
        (inAttempt s n b = false → bufPending t n b = false ∧ bufResult t n b = txCancelled ∧ Raised pg Ev.canTxFail t) ∧
        (inAttempt s n b = true → bufPending t n b = true ∧ bit (canOf t n).cancels b = true)) ∧
        (∀ b < 32, bit map.toNat b = false → bufPending t n b = bufPending s n b) ∧ frame t)) ∧
    (∀ map : Word, Granted s m .write pg 0x70 →
      Completes (.txbUnpark m n map) s (fun t => (∀ b < 32, bit map.toNat b = true → bufParked s n b = true →
        bufParked t n b = false ∧ bufClashes t n b = 0) ∧ (∀ b < 32, bit map.toNat b = false → bufParked t n b = bufParked s n b) ∧
        canR t n Reg.canTxbPend = canR s n Reg.canTxbPend ∧ frame t)) ∧
    (Granted s m .write pg 0x9C →
      (canFc s n = fcBusOff → Completes (.recover m n) s (fun t => canFlag t n Reg.canStatusRecovering = true ∧ frame t)) ∧
      (canFc s n ≠ fcBusOff → Completes (.recover m n) s (fun t => SameRegisters [] s t ∧ SameMemory s t)))

/-- CAN_SYNC outside CONFIG and STANDBY sets SYNC, and else changes nothing. A frame that the channel receives is counted and stamped: a remote
frame that is rejected, one that no element matches without NOMATCH_STORE, and one whose first matching element says DISCARD go no further; STORE,
STORE_PRIO and a stored frame without a match make it wait, behind the others, as a record for its queue, or be counted lost where 8 wait; MAP
writes it to its slot; the element's count of matches rises. CAN_STORE takes the oldest waiting frame away unless its queue answers WAIT_CREDIT. An
attempt takes the winning buffer with its content, or ends a badly formed one with FORMAT. At its end the transmitter delay that it measured is
shown in TDCV. A frame sent ends its request with OK, its stamp and TX_CNT; lost arbitration ends nothing but a request whose cancel waited; an
error counts, adds 8 to TEC unless it is exempt and leaves the request pending while neither RETRY nor the clash limit is reached; RETRY reached
ends it with FAILED, the clash limit records it and ends it with CLASHED or parks it; TEC of 256 puts the channel bus-off and ends every request. A
CAN_TT entry of this cycle requests its buffer, or counts a miss where it is pending. An error in reception adds 1 or 8 to REC outside MONITOR and
gating. The end of recovery leaves the counters 0 and the channel error-active. Only the channel's registers and EVT change (the end of a request of
the bridge's own buffer goes on to the bridge, a gating that waited counts in DUPLEX), and no memory. (R282, R285, R287, R290, R291, R293, R294,
R295, R296, R297, R298, R299) -/
def Obligations.CanTraffic : Prop :=
  ∀ (s : State) (n : Fin 16), Running s →
    let pg := Page.can n
    let frame : State → Prop := fun t => SameRegisters [pg, Page.evt] s t ∧ SameMemory s t
    let own : Nat → State → Prop := fun b t => b ≠ mailboxBuf s n → (canOf s n).mailbox = none → bufPending s n (mailboxBuf s n) = false →
      (canOf s n).gateWait = false → frame t
    (canMode s n ≠ canConfig → inStandby s = false → Completes (.canSync n) s (fun t => canFlag t n Reg.canStatusSync = true ∧ frame t)) ∧
    ((canMode s n = canConfig ∨ inStandby s = true) → exec (.canSync n) s = .next s) ∧
    (∀ (f : CanFrame) (self : Bool) (stamp : Word),
      let c : Instr := .canFrameReceived n f self stamp
      let rejected := imgRtr f.id.toNat && !f.fdf && canFlag s n Reg.canCfgRejectRtr
      let counted : State → Prop := fun t => Counted pg Reg.canRxCnt s t ∧ canR t n Reg.canStampLast = stamp.toNat ∧ frame t
      let waits : State → Nat → Bool → Nat → Prop := fun t q prio i =>
        ((canOf s n).waiting.length < 8 → ∃ w, (canOf t n).waiting = (canOf s n).waiting ++ [w] ∧ w.queue = q ∧ w.prio = prio ∧
          w.bytes = imgBytes f.id.toNat (rxWord1 f i n) ∧
          w.words = [stamp.toNat, f.id.toNat, rxWord1 f i n + 2 ^ 17 * b2n prio] ++ bytesToWords w.bytes f.data) ∧
        (8 ≤ (canOf s n).waiting.length → (canOf t n).waiting = (canOf s n).waiting ∧ Counted pg Reg.canRxLostCnt s t ∧ Raised pg Ev.canRxLost t)
      (mayReceive s n self = false → exec c s = .next s) ∧
      (mayReceive s n self = true →
        ((rejected = true ∨ (firstMatch s n f.id.toNat = none ∧ canFlag s n Reg.canCfgNomatchStore = false)) →
          Completes c s (fun t => counted t ∧ t.filters = s.filters ∧ (canOf t n).waiting = (canOf s n).waiting ∧ (canOf t n).slots = (canOf s n).slots)) ∧
        (rejected = false → firstMatch s n f.id.toNat = none → canFlag s n Reg.canCfgNomatchStore = true →
          Completes c s (fun t => counted t ∧ t.filters = s.filters ∧ waits t (canR s n Reg.canDefq) false 0x100)) ∧
        (∀ i, rejected = false → firstMatch s n f.id.toNat = some i →
          let e := canR s n Reg.canFltBase + i
          let act := bits (filterWord s e 1) 31 30
          let slot := bits (filterWord s e 2) 20 16
          Completes c s (fun t => counted t ∧ filterWord t e 3 = satInc 32 (filterWord s e 3) ∧
            (act = 0 → (canOf t n).waiting = (canOf s n).waiting ∧ (canOf t n).slots = (canOf s n).slots) ∧
            (act = 1 → waits t (bits (filterWord s e 2) 11 0) false i) ∧ (act = 2 → waits t (bits (filterWord s e 2) 11 0) true i) ∧
            (act = 3 → (canOf t n).waiting = (canOf s n).waiting ∧ storeGet 0 (canOf t n).slots (32 * slot) = f.id.toNat ∧
              storeGet 0 (canOf t n).slots (32 * slot + 1) = rxWord1 f i n ∧ storeGet 0 (canOf t n).slots (32 * slot + 18) = 1 ∧
              storeGet 0 (canOf t n).slots (32 * slot + 19) = stamp.toNat))))) ∧
    ((canOf s n).waiting = [] → exec (.canStore n) s = .next s) ∧
    (∀ (w : CanWait) (rest : List CanWait), (canOf s n).waiting = w :: rest →
      let r := (cabProduce portCan w.queue w.words (4 * w.words.length - (12 + w.bytes)) false s).1
      (r ≠ cabWaitCredit → Completes (.canStore n) s (fun t => (canOf t n).waiting = rest ∧
        (r = cabOk → w.prio = true → Raised pg Ev.canRxPrio t) ∧
        (r ≠ cabOk → Counted pg Reg.canRxLostCnt s t ∧ Raised pg Ev.canRxLost t) ∧ SameMemory s t)) ∧
      (r = cabWaitCredit → exec (.canStore n) s = .next s)) ∧
    ((mayTransmit s n = false ∨ (canOf s n).attempt ≠ none ∨ winningBuf s n = none) → (canOf s n).mailbox = none →
      exec (.canAttemptStart n) s = .next s) ∧
    (∀ b, mayTransmit s n = true → (canOf s n).attempt = none → winningBuf s n = some b →
      (badFormat s n b = false → Completes (.canAttemptStart n) s (fun t =>
        (canOf t n).attempt = some (b, (List.range 18).map fun w => bufWord s n b w) ∧ canFlag t n Reg.canStatusTxBusy = true ∧ own b t)) ∧
      (badFormat s n b = true → Completes (.canAttemptStart n) s (fun t => (canOf t n).attempt = none ∧ bufPending t n b = false ∧
        bufResult t n b = txFormat ∧ Raised pg Ev.canTxFail t ∧ own b t))) ∧
    ((canOf s n).attempt = none → (canOf s n).mailbox = none → ∀ o, exec (.canAttemptEnd n o) s = .next s) ∧
    (∀ b img, (canOf s n).attempt = some (b, img) → b < 32 → bufPending s n b = true →
      let tec := canR s n Reg.canEcntTec
      let undisturbed := bit (canOf s n).cancels b = false ∧ (canOf s n).gateWait = false ∧ canMode s n ≠ canMonitor
      let ended : State → Nat → Prop := fun t r => bufPending t n b = false ∧ bufResult t n b = r ∧
        Raised pg (if r = txOk then Ev.canTxDone else Ev.canTxFail) t
      let closed : Option Nat → State → Prop := fun delay t => (canOf t n).attempt = none ∧ SameMemory s t ∧ own b t ∧
        canR t n Reg.canTdcTdcv = (match delay with
          | some d => if delayMeasured s n img = true ∧ canR s n Reg.canTdcTdcf ≤ min 127 ((d + 124) / 125) then min 127 ((d + 124) / 125)
            else canR s n Reg.canTdcTdcv
          | none => canR s n Reg.canTdcTdcv)
      (∀ (stamp : Word) (delay : Option Nat), Completes (.canAttemptEnd n (.sent stamp delay)) s (fun t => closed delay t ∧ ended t txOk ∧
        bufWord t n b 20 = stamp.toNat ∧ Counted pg Reg.canTxCnt s t ∧ canR t n Reg.canEcntTec = tec - 1)) ∧
      Completes (.canAttemptEnd n .lost) s (fun t => closed none t ∧ canR t n Reg.canEcntTec = tec ∧
        (undisturbed → canR t n Reg.canTxbPend = canR s n Reg.canTxbPend) ∧ (bit (canOf s n).cancels b = true → ended t txCancelled)) ∧
      (∀ (code : Fin 8) (ph clash exempt : Bool) (delay : Option Nat),
        let c : Instr := .canAttemptEnd n (.error code ph clash exempt delay)
        let noted : State → Prop := fun t => closed delay t ∧ Counted pg Reg.canErrCnt s t ∧
          canR t n (if ph then Reg.canStatusLecData else Reg.canStatusLecNom) = code
        let reached := clash = true ∧ clashLimit s n ≤ bufClashes s n b + 1
        let given := bits (bufWord s n b 18) 3 0 ≠ 0 ∧ bufErrors s n b = bits (bufWord s n b 18) 3 0
        (undisturbed → (exempt = true ∨ tec < 248) → tec < 256 → canFc s n ≠ fcBusOff → ¬ reached → ¬ given →
          Completes c s (fun t => noted t ∧ bufPending t n b = true ∧ canR t n Reg.canEcntTec = (if exempt then tec else tec + 8) ∧
            bufErrors t n b = min 15 (bufErrors s n b + 1) ∧ bufClashes t n b = min 15 (bufClashes s n b + b2n clash))) ∧
        (¬ reached → given → Completes c s (fun t => noted t ∧ ended t txFailed)) ∧
        (reached → (canFlag s n Reg.canCfgClashPark = false ∨ b = mailboxBuf s n) →
          Completes c s (fun t => noted t ∧ ended t txClashed ∧ canR t n Reg.canClashInfoBuffer = b ∧ Counted pg Reg.canClashInfoCount s t ∧
            Raised pg Ev.canClash t)) ∧
        (reached → canFlag s n Reg.canCfgClashPark = true → b ≠ mailboxBuf s n → undisturbed → (exempt = true ∨ tec < 248) → tec < 256 →
          canFc s n ≠ fcBusOff →
          Completes c s (fun t => noted t ∧ bufPending t n b = true ∧ bufParked t n b = true ∧ bufResult t n b = txParked ∧
            Raised pg Ev.canClash t)) ∧
        (exempt = false → 248 ≤ tec → canFc s n ≠ fcBusOff → ¬ reached → ¬ given →
          Completes c s (fun t => noted t ∧ canFc t n = fcBusOff ∧ ended t txBusOff ∧ Counted pg Reg.canBusoffCnt s t)))) ∧
    (∀ (index : Nat),
      let entry := (flightCanTt s.stair.active (nodeId s) (curFlight s))[index]?
      ((staircaseActs s = false ∨ entry = none ∨ ∃ tt, entry = some tt ∧ cycleNow s % 2 ^ tt.div ≠ tt.phase) → exec (.canTtRequest index) s = .next s) ∧
      (∀ tt : CanTt, staircaseActs s = true → entry = some tt → cycleNow s % 2 ^ tt.div = tt.phase → tt.channel = n → tt.buffer < 32 →
        (bufPending s n tt.buffer = true → Completes (.canTtRequest index) s (fun t => Counted pg Reg.canTtMissCnt s t ∧
          Raised pg Ev.canTtMiss t ∧ canR t n Reg.canTxbPend = canR s n Reg.canTxbPend ∧ frame t)) ∧
        (bufPending s n tt.buffer = false → canFc s n ≠ fcBusOff → txDiscards s n = false →
          Completes (.canTtRequest index) s (fun t => bufPending t n tt.buffer = true ∧ frame t)) ∧
        (bufPending s n tt.buffer = false → (canFc s n = fcBusOff ∨ txDiscards s n = true) →
          Completes (.canTtRequest index) s (fun t => bufPending t n tt.buffer = false ∧
            bufResult t n tt.buffer = (if canFc s n = fcBusOff then txBusOff else txGated) ∧
            SameRegisters [pg, Page.duplex, Page.evt] s t ∧ SameMemory s t)))) ∧
    (∀ (code : Fin 8) (ph severe : Bool),
      (mayReceive s n false = false → exec (.canRxError n code ph severe) s = .next s) ∧
      (mayReceive s n false = true → Completes (.canRxError n code ph severe) s (fun t => Counted pg Reg.canErrCnt s t ∧
        canR t n (if ph then Reg.canStatusLecData else Reg.canStatusLecNom) = code ∧
        canR t n Reg.canEcntRec = (if canMode s n ≠ canMonitor ∧ canFlag s n Reg.canStatusGated = false
          then min 255 (canR s n Reg.canEcntRec + (if severe then 8 else 1)) else canR s n Reg.canEcntRec) ∧ frame t))) ∧
    (let recovers := canFc s n = fcBusOff ∧ canFlag s n Reg.canStatusRecovering = true
     (recovers → Completes (.recoveryDone n) s (fun t => canR t n Reg.canEcntTec = 0 ∧ canR t n Reg.canEcntRec = 0 ∧ canFc t n = fcActive ∧
        canFlag t n Reg.canStatusRecovering = false ∧ levelOn t pg Ev.canBusOff = false ∧ frame t)) ∧
     (¬ recovers → exec (.recoveryDone n) s = .next s))

/-- A permitted EXCHANGE_NOW begins an exchange on each port on which none runs. RESYNC with a valid source and a valid measurement, not at the time
master, steps TB0 by minus the last offset with TB0_STEP; it is refused, and leaves TB0, at the time master and without a valid path. TB3_STEP adds
the signed TB3_ADJ to TB3 with TB3_STEP. TB1_SET sets TB1 to TOD_SEC and TB1_SET_NS with TB1_STEP. TOD_ARM arms TB1. No other base changes, and of
memory only the journal's entry. (R311, R316, R318, R319, R320) -/
def Obligations.TimeCommands : Prop :=
  ∀ (s : State) (m : Master),
    (Granted s m .guarded Page.time 0x300 →
      Completes (.exchangeNow m) s (fun t => (∀ p < 2, exchangeOf t p = (if (exchangeOf s p).running then exchangeOf s p
          else { exchangeOf s p with
            running := true, sum := 0, count := 0, began := cycleNow s })) ∧
        t.time.tb0 = s.time.tb0 ∧ SameRegisters [Page.time, Page.evt, Page.jrnl] s t ∧ SameMemoryBut (journalSlot s) 32 s t) ∧
      (∀ r, tb0State s ≠ tbMaster → flag s Page.time Reg.timeStatusPathValid = true →
        portQualifies s (cycleNow s) (getR s Page.time Reg.timeStatusPathPort) = true →
        storeFind (getR s Page.time Reg.timeStatusPathPort) s.time.reports = some r →
        measuredOffset s (getR s Page.time Reg.timeStatusPathPort) r ≠ none →
        Completes (.resync m) s (fun t =>
          t.time.tb0 * 2 ^ 32 + t.time.tb0Frac = unsgn 96 ((s.time.tb0 * 2 ^ 32 + s.time.tb0Frac : Nat) - rateOf s Reg.timeOffset * 2 ^ 28) ∧
          t.time.tb1Sec = s.time.tb1Sec ∧ t.time.tb1Ns = s.time.tb1Ns ∧ t.time.tb2 = s.time.tb2 ∧ t.time.tb3 = s.time.tb3 ∧
          Raised Page.time Ev.timeTb0Step t ∧ SameMemoryBut (journalSlot s) 32 s t)) ∧
      (tb0State s = tbMaster ∨ flag s Page.time Reg.timeStatusPathValid = false ∨
          portQualifies s (cycleNow s) (getR s Page.time Reg.timeStatusPathPort) = false →
        Completes (.resync m) s (fun t => t.time.tb0 = s.time.tb0 ∧ t.time.tb0Frac = s.time.tb0Frac ∧
          SameRegisters [Page.time, Page.evt, Page.jrnl] s t ∧ SameMemoryBut (journalSlot s) 32 s t))) ∧
    (Granted s m .write Page.time 0xB4 →
      Completes (.tb3Step m) s (fun t => t.time.tb3 = unsgn 64 ((s.time.tb3 : Int) + rateOf s Reg.timeTb3Adj) ∧
        t.time.tb0 = s.time.tb0 ∧ t.time.tb1Sec = s.time.tb1Sec ∧ t.time.tb1Ns = s.time.tb1Ns ∧ t.time.tb2 = s.time.tb2 ∧
        Raised Page.time Ev.timeTb3Step t ∧ SameMemoryBut (journalSlot s) 32 s t) ∧
      Completes (.tb1Set m) s (fun t => t.time.tb1Sec = todSec s ∧ t.time.tb1Ns = min 999999999 (getR s Page.time Reg.timeTb1SetNs) ∧
        t.time.tb0 = s.time.tb0 ∧ t.time.tb2 = s.time.tb2 ∧ t.time.tb3 = s.time.tb3 ∧ Raised Page.time Ev.timeTb1Step t ∧ SameMemory s t) ∧
      Completes (.todArm m) s (fun t => tb1State t = ppsArmed ∧ t.time.tb1Sec = s.time.tb1Sec ∧ t.time.tb1Ns = s.time.tb1Ns ∧
        SameRegisters [Page.time, Page.evt] s t ∧ SameMemory s t))

/-- With SRC 1, an active edge while ARMED sets TB1 to TOD_SEC and 0 ns in TRACKING with TB1_STEP; a later edge of which the error lies within
PPS_WIN is accepted, adds 1 to TOD_SEC and shows the error; one outside it raises PPS_REJECT and leaves TB1 and TOD_SEC. The other edge, and every
edge with SRC 0 or in FREE, leaves TIME alone. PPS_LOST in TRACKING or LOCKED with SRC 1 enters HOLDOVER, and has no effect elsewhere.
CYCLE_BOUNDARY lets each base count the base ticks up to the boundary at its own rate, and steps none; TB0 has then reached the boundary. (R67,
R303, R319) -/
def Obligations.PlantTimeAndBoundary : Prop :=
  ∀ (s : State), Running s →
    (∀ rising : Bool, flag s Page.time Reg.timeTb1CfgSrc = true → rising ≠ flag s Page.time Reg.timeTb1CfgPpsFall →
      (tb1State s = ppsArmed →
        Completes (.ppsEdge rising) s (fun t => t.time.tb1Sec = todSec s ∧ t.time.tb1Ns = 0 ∧ tb1State t = ppsTracking ∧
          Raised Page.time Ev.timeTb1Step t ∧ t.time.tb0 = s.time.tb0 ∧ t.time.tb2 = s.time.tb2 ∧ t.time.tb3 = s.time.tb3 ∧ SameMemory s t)) ∧
      ((tb1State s = ppsTracking ∨ tb1State s = ppsLocked ∨ tb1State s = ppsHoldover) → s.time.ppsFollow = true →
        let e : Int := if 500000000 ≤ s.time.tb1Ns then (s.time.tb1Ns : Int) - 1000000000 else s.time.tb1Ns
        let win : Int := (max 1 (getR s Page.time Reg.timeTb1CfgPpsWin) * 1000 : Nat)
        (-win ≤ e → e ≤ win →
          Completes (.ppsEdge rising) s (fun t => todSec t = (todSec s + 1) % 2 ^ 48 ∧ rateOf t Reg.timePpsErr = e ∧
            levelOn t Page.time Ev.timePpsLost = false ∧ t.time.tb1Sec = s.time.tb1Sec ∧ t.time.tb1Ns = s.time.tb1Ns ∧
            SameRegisters [Page.time, Page.trig, Page.evt] s t ∧ SameMemory s t)) ∧
        (e < -win ∨ win < e →
          Completes (.ppsEdge rising) s (fun t => todSec t = todSec s ∧ tb1State t = tb1State s ∧ Raised Page.time Ev.timePpsReject t ∧
            t.time.tb1Sec = s.time.tb1Sec ∧ t.time.tb1Ns = s.time.tb1Ns ∧
            SameRegisters [Page.time, Page.trig, Page.evt] s t ∧ SameMemory s t)))) ∧
    (∀ rising : Bool, flag s Page.time Reg.timeTb1CfgSrc = false ∨ rising = flag s Page.time Reg.timeTb1CfgPpsFall ∨ tb1State s = ppsFree →
      Completes (.ppsEdge rising) s (fun t => t.time.tb1Sec = s.time.tb1Sec ∧ t.time.tb1Ns = s.time.tb1Ns ∧
        SameRegisters [Page.trig, Page.evt] s t ∧ SameMemory s t)) ∧
    (flag s Page.time Reg.timeTb1CfgSrc = false ∨ (tb1State s ≠ ppsTracking ∧ tb1State s ≠ ppsLocked) → exec .ppsLost s = .next s) ∧
    (flag s Page.time Reg.timeTb1CfgSrc = true → tb1State s = ppsTracking ∨ tb1State s = ppsLocked →
      Completes .ppsLost s (fun t => tb1State t = ppsHoldover ∧ levelOn t Page.time Ev.timePpsLost = true ∧
        SameRegisters [Page.time, Page.evt] s t ∧ SameMemory s t)) ∧
    (let u := countTicks (ticksToBoundary s) s
     Completes .cycleBoundary s (fun t => t.time.tb0 = u.time.tb0 ∧ t.time.tb1Sec = u.time.tb1Sec ∧ t.time.tb1Ns = u.time.tb1Ns ∧
       t.time.tb2 = u.time.tb2 ∧ t.time.tb3 = u.time.tb3 ∧
       (0 < period s → 0 < tickStep (tb0Rate s) → s.time.tb0Frac < 2 ^ 32 → (s.time.tb0 / period s + 1) * period s ≤ u.time.tb0 ∨
         2 ^ 64 ≤ (s.time.tb0 / period s + 1) * period s + tickStep (tb0Rate s))))

/-- A permitted ARM arms a unit whose MODE is not OFF, noting a target already passed as late, and disarms one whose MODE is OFF. A due unit that
fires sets its bit in FIRED_MAP, counts in FIRE_CNT, sets LATE where it was late, sets the trigger latch of every engine that names it and starts
the PPS_OUT pulse where SEL names it and EN is 1; ONESHOT then disarms, PERIODIC adds PERIOD to TARGET; a unit that is not due does nothing. The
PPS_OUT pulse ends at its end. Every unit that watches a source that occurs, and one that SW_TRIG names, stamps its base, sets FULL and its bit of
CAP_MAP, and OVERRUN where it was full; none captures while the page is fenced. A read of its stamp answers it and clears FULL and OVERRUN. No
memory changes. (R321, R322, R323, R325, R326) -/
def Obligations.TriggersAndCaptures : Prop :=
  ∀ (s : State) (n : Fin 32),
    let pg := Page.trig
    let taken : State → Nat → Prop := fun t k => getR t pg (Reg.trigCapStamp k) = baseValue s (getR s pg (Reg.trigCapCfgBase k)) ∧
      flag t pg (Reg.trigCapCfgFull k) = true ∧ bit (getR t pg Reg.trigCapMap) k = true ∧
      (flag s pg (Reg.trigCapCfgFull k) = true → flag t pg (Reg.trigCapCfgOverrun k) = true)
    (∀ m : Master, Granted s m .write pg (0x80 + 4 * n) →
      (cmpMode s n ≠ 0 → Completes (.compareArm m n) s (fun t => cmpArmed t n = true ∧
        (cmpMode s n ≠ 3 → (n.val ∈ t.time.armedLate ↔ 0 ≤ timeDiff (baseValue s (getR s pg (Reg.trigCmpCfgBase n))) (cmpTarget s n))) ∧
        (cmpMode s n = 3 → storeGet 0 t.time.cmpFrom n =
          (if staircaseActive s = true ∧ cycleOffset s n < s.time.tb0 % period s then cycleNow s + 1 else cycleNow s)) ∧
        cmpTarget t n = cmpTarget s n ∧ SameRegisters [pg] s t ∧ SameMemory s t)) ∧
      (cmpMode s n = 0 → Completes (.compareArm m n) s (fun t => cmpArmed t n = false ∧ SameRegisters [pg] s t ∧ SameMemory s t))) ∧
    (Running s → cmpDue s n = true →
      Completes (.compareFire n) s (fun t => bit (getR t pg Reg.trigFiredMap) n = true ∧
        getR t pg (Reg.trigCmpCfgFireCnt n) = (getR s pg (Reg.trigCmpCfgFireCnt n) + 1) % 2 ^ (Reg.trigCmpCfgFireCnt n).width ∧
        flag t pg (Reg.trigCmpCfgLate n) = s.time.armedLate.contains n.val ∧
        (∀ e : Fin 128, engR s e Reg.engCselTrigSel = n → engFlag t e Reg.engFifoStatusTrigLatch = true) ∧
        (getR s Page.time Reg.timePpsOutSel = n → flag s Page.time Reg.timePpsOutEn = true →
          t.time.pulse = some (s.time.tb2 + 1000 * max 1 (getR s Page.time Reg.timePpsOutWidthUs))) ∧
        (cmpMode s n = 1 → cmpArmed t n = false) ∧
        (cmpMode s n = 2 → cmpArmed t n = true ∧ cmpTarget t n = (cmpTarget s n + cmpPeriod s n) % 2 ^ 32) ∧ SameMemory s t)) ∧
    (Running s → cmpDue s n = false → exec (.compareFire n) s = .next s) ∧
    (Running s → Completes .ppsOutEnd s (fun t => t.time.pulse = none ∧ SameRegisters [] s t ∧ SameMemory s t)) ∧
    (∀ src : CaptureSource, Running s → pageFenced s pg = true → exec (.capture src) s = .next s) ∧
    (∀ src : CaptureSource, Running s → pageFenced s pg = false →
      Completes (.capture src) s (fun t => (captures s n src = true → taken t n) ∧
        (captures s n src = false → getR t pg (Reg.trigCapStamp n) = getR s pg (Reg.trigCapStamp n)) ∧
        SameRegisters [pg, Page.evt] s t ∧ SameMemory s t)) ∧
    (∀ m : Master, Granted s m .write pg (0x200 + 4 * n) →
      Completes (.swTrig m n) s (fun t => taken t n ∧ SameRegisters [pg, Page.evt] s t ∧ SameMemory s t)) ∧
    (∀ m : Master, Granted s m .read pg (0x280 + 4 * n) →
      Completes (.capStampRead m n) s (fun t => t.sent = s.sent ++ [.answer m 0 (getR s pg (Reg.trigCapStamp n))] ∧
        flag t pg (Reg.trigCapCfgFull n) = false ∧ flag t pg (Reg.trigCapCfgOverrun n) = false ∧
        SameRegisters [pg] s t ∧ SameMemory s t))

/-- A fast, SOA, ramp or enabled curve trip of a channel in a state in which its cause acts counts one more attempt, keeps the cause and the record,
takes the gate down and enters WAIT with the off time max(OFF_MIN, 100 d), or LOCKOUT with no request and no timer where the attempts exceed
RETRIES. RAMP_DONE turns the channel ON. At the end of the off time a channel is OFF without a request; with one ENTRY ramps and a branch is queued.
60 s without a trip clear the attempts. A waiting trip record is written, or its failure reported, as it is while FLASH is fenced. In another state
each of these events has no effect. Another channel than ENTRY changes no other channel's state. Only BRK and EVT registers change and no memory.
(R334, R336, R337, R338, R339, R340, R342, R343, R350) -/
def Obligations.BreakerTrips : Prop :=
  ∀ (s : State) (ch : Fin 9), Running s →
    let pg := Page.brk
    let frame : State → Prop := fun t => (ch ≠ 0 → ∀ c ∈ channels, c ≠ ch → chState t c = chState s c) ∧
      SameRegisters [pg, Page.evt] s t ∧ SameMemory s t
    let n := min 15 (getR s pg (Reg.brkChStatusAttempts ch) + 1)
    let locks : Prop := retriesOf s ch ≠ 15 ∧ retriesOf s ch < n
    let tripped : Nat → State → Prop := fun cause t =>
      (locks → chState t ch = chLockout ∧ chReq t ch = false ∧ flag t pg (Reg.brkChStatusLock ch) = true ∧ getR t pg (Reg.brkChTimerRemain ch) = 0) ∧
      (¬ locks → chState t ch = chWait ∧ getR t pg (Reg.brkChTimerRemain ch) = max (offMinMs s ch) (rampTime s ch)) ∧
      getR t pg (Reg.brkChStatusAttempts ch) = n ∧ getR t pg (Reg.brkChStatusCause ch) = cause ∧
      flag t pg (Reg.brkChStatusRecord ch) = true ∧ flag t pg (Reg.brkChStatusGate ch) = false ∧
      getR t pg (Reg.brkChTimerLastD ch) = rampTime s ch ∧ Counted pg (Reg.brkChCountTripCnt ch) s t ∧ Raised pg Ev.brkTrip t ∧ frame t
    (chUp s ch = true → Completes (.fastTrip ch) s (tripped causeFast) ∧ Completes (.soaTrip ch) s (tripped causeSoa)) ∧
    (chUp s ch = false → exec (.fastTrip ch) s = .next s ∧ exec (.soaTrip ch) s = .next s) ∧
    (∀ k : Fin 8, chState s ch ≠ chOn ∨ pointEnabled s ch k = false → exec (.curveTrip ch k) s = .next s) ∧
    (∀ k : Fin 8, chState s ch = chOn → pointEnabled s ch k = true →
      Completes (.curveTrip ch k) s (fun t => tripped causeCurve t ∧ getR t pg (Reg.brkChStatusCurveK ch) = k)) ∧
    (chState s ch = chRamp → Completes (.rampFast ch) s (tripped causeRampFast) ∧ Completes (.rampTimeout ch) s (tripped causeRampTimeout) ∧
      Completes (.rampDone ch) s (fun t => chState t ch = chOn ∧ flag t pg (Reg.brkChStatusGate ch) = true ∧ Raised pg Ev.brkRampDone t ∧ frame t)) ∧
    (chState s ch ≠ chRamp → exec (.rampFast ch) s = .next s ∧ exec (.rampTimeout ch) s = .next s ∧ exec (.rampDone ch) s = .next s) ∧
    (chState s ch ≠ chWait → exec (.offTimerExpiry ch) s = .next s) ∧ (chState s ch ≠ chOn → exec (.autoClear ch) s = .next s) ∧
    (s.brk.toWrite = [] → ∀ ok, exec (.tripRecord ok) s = .next s) ∧
    (chState s ch = chWait → Completes (.offTimerExpiry ch) s (fun t => getR t pg (Reg.brkChTimerRemain ch) = 0 ∧
      chState t ch = (if chReq s ch = false then chOff else if ch = 0 then chRamp else chQueued) ∧
      (chReq s ch = true → ch ≠ 0 → ch.val ∈ t.brk.queue) ∧ frame t)) ∧
    (chState s ch = chOn → Completes (.autoClear ch) s (fun t => getR t pg (Reg.brkChStatusAttempts ch) = 0 ∧
      flag t pg (Reg.brkChStatusRecord ch) = false ∧ chState t ch = chOn ∧ frame t)) ∧
    (∀ (c : Nat) (r : TripRecord) (rest : List (Nat × TripRecord)), s.brk.toWrite = (c, r) :: rest →
      (pageFenced s Page.flash = false →
        Completes (.tripRecord true) s (fun t => t.brk.toWrite = rest ∧ storeFind c t.brk.records = some r ∧ SameRegisters [] s t ∧ SameMemory s t)) ∧
      (∀ ok, ok = false ∨ pageFenced s Page.flash = true → Completes (.tripRecord ok) s (fun t => t.brk.toWrite = rest ∧ t.brk.records = s.brk.records ∧ Raised pg Ev.brkRecordFail t ∧ frame t)))

/-- With CHCMD permitted, on channels 0 to 8: ON of a calibrated channel that is not in LOCKOUT, outside safe mode or for ENTRY, requests it, and
from OFF ENTRY ramps and a branch is queued; ON of one that is not calibrated or is locked out is refused with CMD_REFUSED and changes neither state
nor request. OFF withdraws the request and, outside WAIT and LOCKOUT, turns the channel OFF with its gate down. CLEAR clears the attempts, record,
lock and request, and LOCKOUT becomes OFF. APPLY_CURVE takes the whole staging curve over where it obeys the rules and leaves the active curve
otherwise. Channels 9 to 15 are ignored. Only BRK, EVT and JRNL registers change and of memory the journal's entry. (R333, R335, R340, R341, R446)
-/
def Obligations.BreakerCommands : Prop :=
  ∀ (s : State) (m : Master) (ch : Fin 16), Granted s m .guarded Page.brk 0x300 →
    let pg := Page.brk
    let frame : State → Prop := fun t => SameRegisters [pg, Page.evt, Page.jrnl] s t ∧ SameMemoryBut (journalSlot s) 32 s t
    let accepted : Prop := getR s pg (Reg.brkChCalShuntUohm ch) ≠ 0 ∧ chState s ch ≠ chLockout ∧ (romDefaults s = true → ch = 0)
    (ch < 9 →
      (accepted → Completes (.breakerOn m ch) s (fun t => chReq t ch = true ∧
        chState t ch = (if chState s ch = chOff then (if ch = 0 then chRamp else chQueued) else chState s ch) ∧ frame t)) ∧
      (¬ accepted → Completes (.breakerOn m ch) s (fun t => chReq t ch = chReq s ch ∧ chState t ch = chState s ch ∧
        Raised pg Ev.brkCmdRefused t ∧ frame t)) ∧
      Completes (.breakerOff m ch) s (fun t => chReq t ch = false ∧ getR t pg (Reg.brkChStatusCause ch) = causeOffCmd ∧
        chState t ch = (if chState s ch = chWait ∨ chState s ch = chLockout then chState s ch else chOff) ∧
        (chState s ch ≠ chWait → chState s ch ≠ chLockout → flag t pg (Reg.brkChStatusGate ch) = false) ∧ frame t) ∧
      Completes (.breakerClear m ch) s (fun t => getR t pg (Reg.brkChStatusAttempts ch) = 0 ∧ flag t pg (Reg.brkChStatusRecord ch) = false ∧
        flag t pg (Reg.brkChStatusLock ch) = false ∧ chReq t ch = false ∧
        chState t ch = (if chState s ch = chLockout then chOff else chState s ch) ∧ frame t) ∧
      (curveOk s ch = true → Completes (.applyCurve m ch) s (fun t =>
        (∀ i < 16, storeGet 0 t.brk.curves (16 * ch + i) = storeGet 0 s.brk.staging (16 * ch + i)) ∧ frame t)) ∧
      (curveOk s ch = false → Completes (.applyCurve m ch) s (fun t => t.brk.curves = s.brk.curves ∧ Raised pg Ev.brkCurveRefused t ∧ frame t))) ∧
    (9 ≤ ch → ∀ c ∈ [Instr.breakerOn m ch, .breakerOff m ch, .breakerClear m ch, .applyCurve m ch],
      Completes c s (fun t => t.brk = s.brk ∧ (∀ x ∈ channels, chState t x = chState s x ∧ chReq t x = chReq s x) ∧ frame t))

/-- ADMISSION shows the measurements and lets the first queued branch ramp that passes the checks of the power die and of the governor; where none
passes, or during a boot, no channel changes state. BOW sheds every branch in RAMP, sets BOW and BOW_SEEN and asks for REQ 2. SHED, with BOW
standing and the card above its budget, sheds the branch that the priorities choose. RESTORATION clears BOW and queues the shed branches in reverse
order; without BOW it only shows the measurements. OV and VHOLD_LOW set and clear their levels. VRST takes every gate down, lengthens each off timer
by 3 %, and holds the hub; VHOLD_FALL marks the H fields lost for the next POR. Flash stays through VRST, and the others change no memory. (R330,
R346, R349, R352, R353, R354, R355, R12) -/
def Obligations.SupplyAndStaging : Prop :=
  ∀ (s : State), 
    let pg := Page.brk
    let same : State → Prop := fun t => ∀ c ∈ channels, chState t c = chState s c
    (Running s → ∀ meas : PowerMeas,
      let s1 := takePower meas s
      let shown : State → Prop := fun t => getR t pg Reg.brkSupplyVin = meas.vin.toNat ∧ getR t pg Reg.brkPInCard = meas.card.toNat ∧ SameMemory s t
      let passes : Nat → Prop := fun ch => admissible s1 ch = true ∧ admissionAllowed s1 (getR s pg (Reg.brkChCalExpect ch)) = true
      (∀ behind ch rest, s.boot.booting = none → s.brk.queue = behind ++ ch :: rest → ch ∈ branches → (∀ x ∈ behind, ¬ passes x) → passes ch →
        Completes (.admission meas) s (fun t => chState t ch = chRamp ∧ flag t pg (Reg.brkChStatusGate ch) = true ∧
          (∀ c ∈ channels, c ≠ ch → chState t c = chState s c) ∧ SameRegisters [pg, Page.gov, Page.evt] s t ∧ shown t)) ∧
      (s.boot.booting ≠ none ∨ (∀ ch ∈ s.brk.queue, ¬ passes ch) →
        Completes (.admission meas) s (fun t => same t ∧ SameRegisters [pg, Page.gov, Page.evt] s t ∧ shown t)) ∧
      Completes (.bow meas) s (fun t => flag t pg Reg.brkSupplyStatusBow = true ∧ flag t pg Reg.brkSupplyStatusBowSeen = true ∧
        levelOn t pg Ev.brkBow = true ∧ getR t Page.gov Reg.govStatusReq = 2 ∧
        (∀ c ∈ branches, chState t c = (if chState s c = chRamp then chShed else chState s c)) ∧
        SameRegisters [pg, Page.gov, Page.jrnl, Page.evt] s t ∧ shown t) ∧
      (∀ ch, bowStands s = true → getR s pg Reg.brkBowBudget < meas.card.toNat → shedChoice s = some ch →
        Completes (.shed meas) s (fun t => chState t ch = chShed ∧ getR t pg (Reg.brkChStatusCause ch) = causeShedBow ∧
          Counted pg (Reg.brkChCountShedCnt ch) s t ∧ t.brk.shed.getLast? = some ch ∧ (∀ c ∈ channels, c ≠ ch → chState t c = chState s c) ∧
          SameRegisters [pg, Page.evt] s t ∧ shown t)) ∧
      (bowStands s = false ∨ meas.card.toNat ≤ getR s pg Reg.brkBowBudget ∨ shedChoice s = none → Completes (.shed meas) s (fun t => same t ∧ SameRegisters [pg] s t ∧ shown t)) ∧
      (bowStands s = true → Completes (.restoration meas) s (fun t => flag t pg Reg.brkSupplyStatusBow = false ∧
        levelOn t pg Ev.brkBow = false ∧ ((∀ c ∈ s.brk.shed, c ∈ branches) → t.brk.restore = s.brk.shed.reverse) ∧ (∀ c ∈ branches, c ∈ s.brk.shed → chState t c = chQueued) ∧
        SameRegisters [pg, Page.gov, Page.evt] s t ∧ SameMemory s t)) ∧
      (bowStands s = false → Completes (.restoration meas) s (fun t => same t ∧ t.brk = s.brk ∧ SameRegisters [pg] s t ∧ shown t))) ∧
    (Running s → ∀ on : Bool,
      Completes (.ov on) s (fun t => flag t pg Reg.brkSupplyStatusOv = on ∧ levelOn t pg Ev.brkOv = on ∧
        SameRegisters [pg, Page.evt] s t ∧ SameMemory s t) ∧
      Completes (.vholdLow on) s (fun t => levelOn t pg Ev.brkVholdLow = on ∧ flag t pg Reg.brkSupplyStatusVholdOk = !on ∧
        SameRegisters [pg, Page.evt] s t ∧ SameMemory s t)) ∧
    (s.boot.holding ≠ some 4 → Completes .vrst s (fun t => t.boot.holding = some 4 ∧ (∀ a, memRead t.flash a = memRead s.flash a) ∧
      ∀ c ∈ channels, flag t pg (Reg.brkChStatusGate c) = false ∧
        (chUp s c = true → getR t pg (Reg.brkChStatusCause c) = causeVrst) ∧
        getR t pg (Reg.brkChTimerRemain c) = min 65535 (getR s pg (Reg.brkChTimerRemain c) + (3 * getR s pg (Reg.brkChTimerRemain c) + 99) / 100))) ∧
    (s.boot.holding = some 4 → exec .vrst s = .next s) ∧
    Completes .vholdFall s (fun t => t.boot.hLost = true ∧ t.boot.holding = s.boot.holding ∧ SameRegisters [] s t ∧ SameMemory s t)

/-- The loss of XTA moves the root to the fast oscillator with the XTA_LOST level, and its return shows XTA_OK and leaves the root where it is, with
XTA_RETURN where it was away. A permitted XTA_SELECT moves the root back and ends the level while XTA is OK, and is refused otherwise. FOSC_TRIM
takes the code and the error where there is a reference, shows which one it is, and does nothing where there is none. The loss of XTB unlocks every
lane PLL, takes both links down and stands as XTB_LOST until its return. The main PLL's unlock and lock set and clear PLL_UNLOCK. (R358, R359, R360,
R361, R362, R384) -/
def Obligations.ClockSources : Prop :=
  ∀ (s : State),
    let pg := Page.clk
    let frame : State → Prop := fun t => SameRegisters [pg, Page.evt] s t ∧ SameMemory s t
    (Running s →
      Completes .xtaLost s (fun t => flag t pg Reg.clkStatusXtaOk = false ∧ getR t pg Reg.clkStatusRootSrc = 1 ∧
        levelOn t pg Ev.clkXtaLost = true ∧ frame t) ∧
      Completes .xtaOk s (fun t => flag t pg Reg.clkStatusXtaOk = true ∧ getR t pg Reg.clkStatusRootSrc = getR s pg Reg.clkStatusRootSrc ∧
        (flag s pg Reg.clkStatusXtaOk = false → getR s pg Reg.clkStatusRootSrc = 1 → Raised pg Ev.clkXtaReturn t) ∧ frame t) ∧
      (∀ (trim : BitVec 10) (err : BitVec 16),
        let lost : Prop := levelOn s pg Ev.clkXtaLost = true ∧ flag s pg Reg.clkStatusXtaOk = false
        (¬ lost ∨ staircaseActive s = true →
          Completes (.foscTrim trim err) s (fun t => getR t pg Reg.clkFoscTrim = trim.toNat ∧ getR t pg Reg.clkFoscErr = err.toNat ∧
            flag t pg Reg.clkStatusTrimValid = true ∧ (flag t pg Reg.clkStatusTrimRef = true ↔ lost) ∧ SameRegisters [pg] s t ∧ SameMemory s t)) ∧
        (lost → staircaseActive s = false → exec (.foscTrim trim err) s = .next s)) ∧
      Completes .xtbLost s (fun t => flag t pg Reg.clkStatusXtbOk = false ∧ levelOn t pg Ev.clkXtbLost = true ∧
        (∀ p, linkUp t p = false ∧ ∀ n < 4, laneFlag t p (Reg.laneLLstatusPllLock n) = false) ∧ SameMemory s t) ∧
      Completes .xtbReturn s (fun t => flag t pg Reg.clkStatusXtbOk = true ∧ levelOn t pg Ev.clkXtbLost = false ∧ frame t) ∧
      Completes .mainPllUnlock s (fun t => flag t pg Reg.clkStatusPllLock = false ∧ levelOn t pg Ev.clkPllUnlock = true ∧ frame t) ∧
      Completes .mainPllLock s (fun t => flag t pg Reg.clkStatusPllLock = true ∧ levelOn t pg Ev.clkPllUnlock = false ∧ frame t)) ∧
    (∀ m : Master, Granted s m .guarded pg 0x300 →
      (flag s pg Reg.clkStatusXtaOk = true → Completes (.xtaSelect m) s (fun t => getR t pg Reg.clkStatusRootSrc = 0 ∧
        levelOn t pg Ev.clkXtaLost = false ∧ SameRegisters [pg, Page.evt, Page.jrnl] s t ∧ SameMemoryBut (journalSlot s) 32 s t)) ∧
      (flag s pg Reg.clkStatusXtaOk = false → Completes (.xtaSelect m) s (fun t =>
        getR t pg Reg.clkStatusRootSrc = getR s pg Reg.clkStatusRootSrc ∧ levelOn t pg Ev.clkXtaLost = levelOn s pg Ev.clkXtaLost ∧
        SameRegisters [pg, Page.evt, Page.jrnl] s t ∧ SameMemoryBut (journalSlot s) 32 s t)))

/-- With the write to GATE_CMD permitted and no change running: a request that no check refuses is pending with BUSY and turns no gate yet; a
refused one shows its code in RESULT with GATE_REFUSED and is not pending. While a change runs another is ignored with PENDING. GATE_DONE turns the
pending target and no other gate, ends BUSY and shows OK with GATE_DONE; GATE_BUSY of a pending OFF drops it with RESULT BUSY and turns no gate;
neither has an effect without such a change. While an OFF is pending an access to its target is held and does nothing yet; with the end of the
change it is carried out as it is decided then: a read of a gated page answers 0 and counts in GATED_ACC_CNT. Only CLK and EVT registers change and
no memory. (R364, R365, R366) -/
def Obligations.GatingTree : Prop :=
  ∀ (s : State),
    let pg := Page.clk
    let frame : State → Prop := fun t => SameRegisters [pg, Page.evt] s t ∧ SameMemory s t
    let gates : State → Prop := fun t => ∀ c < 256, gateOn t c = gateOn s c
    (∀ (m : Master) (target : Byte) (on : Bool), Granted s m .write pg 0x48 →
      let c : Instr := if on then .gateOn m target else .gateOff m target
      (flag s pg Reg.clkGateStatusBusy = false → gateRefusal s m.cls target.toNat on = none →
        Completes c s (fun t => flag t pg Reg.clkGateStatusBusy = true ∧ t.gov.gate = some (target.toNat, on) ∧
          getR t pg Reg.clkGateStatusTarget = target.toNat ∧ gates t ∧ frame t)) ∧
      (∀ code, flag s pg Reg.clkGateStatusBusy = false → gateRefusal s m.cls target.toNat on = some code →
        Completes c s (fun t => flag t pg Reg.clkGateStatusBusy = false ∧ getR t pg Reg.clkGateStatusResult = code ∧
          t.gov.gate = s.gov.gate ∧ Raised pg Ev.clkGateRefused t ∧ gates t ∧ frame t)) ∧
      (flag s pg Reg.clkGateStatusBusy = true →
        Completes c s (fun t => getR t pg Reg.clkGateStatusResult = gatePendingErr ∧ t.gov.gate = s.gov.gate ∧
          Raised pg Ev.clkGateRefused t ∧ gates t ∧ frame t))) ∧
    (Running s → s.gov.gate = none → s.bridge.held = [] → exec .gateDone s = .next s) ∧
    (Running s → (∀ target, s.gov.gate ≠ some (target, false)) → s.bridge.held = [] → exec .gateBusy s = .next s) ∧
    (∀ target on, Running s → s.bridge.held = [] → s.gov.gate = some (target, on) → gateBit target ≠ none →
      Completes .gateDone s (fun t => gateOn t target = on ∧ (∀ c < 256, c ≠ target → gateOn t c = gateOn s c) ∧ t.gov.gate = none ∧
        flag t pg Reg.clkGateStatusBusy = false ∧ getR t pg Reg.clkGateStatusResult = gateOk ∧ Raised pg Ev.clkGateDone t ∧ frame t)) ∧
    (∀ target, Running s → s.bridge.held = [] → s.gov.gate = some (target, false) →
      Completes .gateBusy s (fun t => t.gov.gate = none ∧ flag t pg Reg.clkGateStatusBusy = false ∧
        getR t pg Reg.clkGateStatusResult = gateBusyErr ∧ Raised pg Ev.clkGateRefused t ∧ gates t ∧ frame t)) ∧
    (∀ (m : Master) (addr : BitVec 48), Running s → dapBlocked s m = false → ownNode s (addr.toNat / 2 ^ 40) = true →
      let a := addr.toNat % 2 ^ 40
      (∀ data : List Byte, gateHolds s m true a data.length = true →
        Completes (.registerWrite m addr data) s (fun t => t.bridge.held = s.bridge.held ++ [⟨writeWaiter m, portOfInterface m, m, true, a, data.length, data⟩] ∧
          t.sent = s.sent ∧ SameRegisters [] s t ∧ SameMemory s t)) ∧
      (∀ len : Fin 4097, gateHolds s m false a len = true →
        Completes (.registerRead m addr len) s (fun t => t.bridge.held = s.bridge.held ++ [⟨.master m, portOfInterface m, m, false, a, len, []⟩] ∧
          t.sent = s.sent ∧ SameRegisters [] s t ∧ SameMemory s t))) ∧
    (∀ (m : Master) (p off : Nat), Running s → dapBlocked s m = false → pageGate p = some p → s.gov.gate = some (p, false) → 4 ≤ off → off < 0x400 →
      decide_ s m .read (p * 4096 + off) 4 = .ok → s.bridge.held = [⟨.master m, portOfInterface m, m, false, p * 4096 + off, 4, []⟩] →
      Completes .gateDone s (fun t => t.sent.getLast? = some (.answer m 0 0) ∧ t.bridge.held = [] ∧ gateOn t p = false ∧
        Counted pg Reg.clkGatedAccCnt s t ∧ Raised pg Ev.clkGatedAccess t ∧ Raised pg Ev.clkGateDone t ∧ frame t))

/-- A GOVERNOR_DECISION shows the measured powers and the load; where both limits are set and the page is not fenced, HEADROOM is the least of the
three headrooms (−128 while it is fenced), and OVERTEMP stands where the hottest sensor has reached the limit, less 5 °C of hysteresis while it
stood. With BOW or OVERTEMP standing, OP3 is what stands asked for; else with FIX_EN it is FIX_OP, not above the ceiling. POWER_GOOD ends a running
change at its target, counts it with OP_CHANGE, and begins the waiting one. VRAIL_FAIL abandons a raise at the present point, and no raise is asked
for within 1 s; without such a change neither has an effect. Only GOV, BRK and EVT registers change and no memory. (R368, R369, R370, R371, R372,
R373, R374) -/
def Obligations.Governor : Prop :=
  ∀ (s : State), Running s →
    let pg := Page.gov
    let frame : State → Prop := fun t => SameRegisters [pg, Page.brk, Page.evt] s t ∧ SameMemory s t
    (∀ sense : Sense,
      let u := takeSense sense s
      let limit : Int := if levelOn s pg Ev.govOvertemp then (tLimit s : Int) - 5 else (tLimit s : Int)
      Completes (.governorDecision sense) s (fun t =>
        getR t Page.brk Reg.brkPInModule = sense.pMod.toNat ∧ getR t Page.brk Reg.brkPInCard = sense.pCard.toNat ∧
        getR t pg Reg.govCoreLoad = sense.load ∧ levelOn t pg Ev.govOvertemp = decide (4 * limit ≤ tMax u) ∧
        (limitZero s = false → pageFenced s pg = false → getR t pg Reg.govStatusHeadroom =
          unsgn 8 (min (headP s 0 (sense.pMod.toNat : Int)) (min (headC s 0 sense.pCard.toNat) (headT u)))) ∧
        (pageFenced s pg = true → getR t pg Reg.govStatusHeadroom = 0x80) ∧
        (let forced : Prop := bowStands s = true ∨ 4 * limit ≤ tMax u
         (flag t pg Reg.govStatusForced = true ↔ forced) ∧ (levelOn t pg Ev.govForcedOp3 = true ↔ forced) ∧
         ((seqBusy s = false → s.gov.waiting = none) → pageFenced s pg = false →
           (forced → pointAsked t = 3) ∧
           (¬ forced → s.boot.booting = none → flag s pg Reg.govCfgFixEn = true → s.gov.noRaise ≤ s.time.tb2 →
             pointAsked t = max (getR s pg Reg.govCfgFixOp) (opCeiling s)))) ∧ frame t)) ∧
    (seqBusy s = false → exec .powerGood s = .next s) ∧ (seqBusy s = false ∨ s.gov.raising = false → exec .vrailFail s = .next s) ∧
    (seqBusy s = true → Completes .powerGood s (fun t => getR t pg Reg.govOpCnt = min (getR s pg Reg.govOpCnt + 1) (2 ^ 32 - 1) ∧
      Raised pg Ev.govOpChange t ∧ t.gov.lastChange = s.time.tb2 ∧
      (s.gov.waiting = none → seqBusy t = false ∧ opNow t = getR s pg Reg.govStatusOpTarget) ∧
      (∀ w < 4, s.gov.waiting = some w → w ≠ getR s pg Reg.govStatusOpTarget → seqBusy t = true ∧ getR t pg Reg.govStatusOpTarget = w ∧
        t.gov.waiting = none) ∧ frame t)) ∧
    (seqBusy s = true → s.gov.raising = true → Completes .vrailFail s (fun t => t.gov.noRaise = s.time.tb2 + 1000000000 ∧
      Raised pg Ev.govVrailFail t ∧
      (s.gov.waiting = none → seqBusy t = false ∧ opNow t = opNow s ∧ getR t pg Reg.govStatusOpTarget = opNow s) ∧
      (∀ w < 4, s.gov.waiting = some w → w ≠ opNow s → seqBusy t = true ∧ getR t pg Reg.govStatusOpTarget = w ∧ t.gov.waiting = none) ∧ frame t))

/-- At an address of this node, a write that is decided OK and lies in DRAM changes exactly its bytes, and a read there answers the bytes, or fails
with BUS_ERR and ECC_UNCORR where it meets an uncorrectable word; a denied access changes nothing but the denial log, DENY_CNT and ACCESS, and a
read fails with DENIED; one that decodes to nothing changes no register and no memory, and a read fails with DECODE. A failed read answers every
data bit as 1, with its status on every interface but PCIe, which shows none. A master without a stream gets DECODE for another node (the model's
choice, log entry 196). A permitted write to EVT_GROUP of a page stores it, and a permitted read of PAGE_ID answers the page's instance and type.
EVT_FORCE sets the written bits of the sources that exist. DENY_POP takes the oldest entry off the denial log. (R181, R182, R388, R390, R402, R403,
R404, R467) -/
def Obligations.BusAccesses : Prop :=
  ∀ (s : State) (m : Master),
    let failed : Nat → Nat → Sent := fun st len => .answer m (if m.ifc.val = 0 then 0 else st) (2 ^ (8 * len) - 1)
    (∀ addr : BitVec 48, Running s → dapBlocked s m = false → ownNode s (addr.toNat / 2 ^ 40) = true →
      let a := addr.toNat % 2 ^ 40
      (∀ (data : List Byte) (off : Nat), mapRegion a data.length = .dram off → decide_ s m .write a data.length = .ok →
        Completes (.registerWrite m addr data) s (fun t => t.dram = memWriteN s.dram off data ∧ t.flash = s.flash ∧ t.image = s.image ∧
          t.stair = s.stair ∧ SameRegisters [] s t)) ∧
      (∀ (len : Fin 4097) (off : Nat), mapRegion a len = .dram off → decide_ s m .read a len = .ok →
        (badWords s.boot.dramBad off len = [] →
          Completes (.registerRead m addr len) s (fun t => t.sent = s.sent ++ [.answer m stOk (leNat (memReadN s.dram off len))] ∧
            SameRegisters [] s t ∧ SameMemory s t)) ∧
        (∀ w rest, badWords s.boot.dramBad off len = w :: rest →
          Completes (.registerRead m addr len) s (fun t => t.sent.getLast? = some (failed stBusErr len) ∧ Counted Page.dram Reg.dramUncorrCnt s t ∧
            getR t Page.dram Reg.dramErrAddr = w % 2 ^ Reg.dramErrAddr.width ∧ Raised Page.dram Ev.dramEccUncorr t ∧
            SameRegisters [Page.dram, Page.evt] s t ∧ SameMemory s t))) ∧
      (∀ (data : List Byte) (c : Option Nat), decide_ s m (writeKind a data.length) a data.length = .denied c → pagePair a data.length = false →
        Completes (.registerWrite m addr data) s (fun t => Counted Page.acc Reg.accDenyCnt s t ∧ Raised Page.acc Ev.accAccess t ∧
          t.pending = s.pending ∧ t.key = s.key ∧ t.stair = s.stair ∧ SameRegisters [Page.acc, Page.evt] s t ∧ SameMemory s t)) ∧
      (∀ (len : Fin 4097) (c : Option Nat), decide_ s m .read a len = .denied c → pagePair a len = false →
        Completes (.registerRead m addr len) s (fun t => t.sent.getLast? = some (failed stDenied len) ∧ Counted Page.acc Reg.accDenyCnt s t ∧
          Raised Page.acc Ev.accAccess t ∧ SameRegisters [Page.acc, Page.evt] s t ∧ SameMemory s t)) ∧
      (∀ len : Fin 4097, mapRegion a len = .nothing →
        Completes (.registerRead m addr len) s (fun t => t.sent = s.sent ++ [failed stDecode len] ∧ SameRegisters [] s t ∧ SameMemory s t)) ∧
      (∀ data : List Byte, mapRegion a data.length = .nothing →
        Completes (.registerWrite m addr data) s (fun t => SameRegisters [] s t ∧ SameMemory s t))) ∧
    (∀ addr : BitVec 48, Running s → ownNode s (addr.toNat / 2 ^ 40) = false → fabricStream m = none →
      (∀ len : Fin 4097, Completes (.registerRead m addr len) s (fun t => t.sent = s.sent ++ [failed stDecode len] ∧
        SameRegisters [] s t ∧ SameMemory s t)) ∧
      (∀ data : List Byte, Completes (.registerWrite m addr data) s (fun t => SameRegisters [] s t ∧ SameMemory s t))) ∧
    (∀ p : Byte, kindOf p.toNat ≠ .none →
      (∀ value : Word, Granted s m .write p.toNat 0x1C →
        Completes (.registerWrite m (BitVec.ofNat 48 (p.toNat * 4096 + 0x1C)) (leBytes 4 value.toNat)) s (fun t =>
          getR t p.toNat Reg.comEvtGroup = value.toNat % 128 ∧ SameFields p.toNat [Reg.comEvtGroup] s t ∧ SameRegisters [p.toNat] s t ∧
          SameMemory s t)) ∧
      (Granted s m .read p.toNat 0 →
        Completes (.registerRead m (BitVec.ofNat 48 (p.toNat * 4096)) 4) s (fun t =>
          t.sent = s.sent ++ [.answer m 0 (2 ^ 8 + 2 ^ 16 * pageInstance p.toNat + 2 ^ 24 * pageType p.toNat)] ∧
          SameRegisters [] s t ∧ SameMemory s t)) ∧
      (∀ b : BitVec 16, Granted s m .write p.toNat 0x08 →
        Completes (.evtForce m p b) s (fun t => (∀ i < 16, bit (getR t p.toNat Reg.comEvtSticky) i =
            (bit (getR s p.toNat Reg.comEvtSticky) i || (decide (i < kindEvents (kindOf p.toNat)) && bit b.toNat i))) ∧
          SameRegisters [p.toNat, Page.evt] s t ∧ SameMemory s t))) ∧
    (Granted s m .write Page.acc 0x44 → Completes (.denyPop m) s (fun t => t.access.denials = s.access.denials.drop 1 ∧
      getR t Page.acc Reg.accDenyStatusCount = (s.access.denials.drop 1).length % 16 ∧ SameRegisters [Page.acc] s t ∧ SameMemory s t))

/-- A permitted write of EVT_ENABLE through SET, CLR or TGL sets, clears or inverts exactly the written bits of the sources that exist. A write of
EVT_STICKY through CLR clears exactly the written bits of the sources that do not stand; one that stands reads 1. The write of a value window leaves
it pending for the master's class, with nothing else changed; 2 µs later it is discarded with GUARD_FAIL, cause TIMEOUT, and before that, and
without one, nothing happens. A UNIT_RESET of a page that is not fenced, while no WARM reset runs, counts as reset kind 0; on TRIG every class V
field but EVT_RAW takes its Rst value and every class K field stays. While a WARM reset runs it is absorbed, and a page without UNIT_RST ignores it.
(R389, R391, R392, R393) -/
def Obligations.AliasesAndGuards : Prop :=
  ∀ (s : State) (m : Master) (page : Byte), kindOf page.toNat ≠ .none →
    let p := page.toNat
    (∀ value : Word, Granted s m .write p 0x18 →
      let old := getR s p Reg.comEvtEnable
      let b := value.toNat &&& (2 ^ kindEvents (kindOf p) - 1)
      let becomes (v : Nat) : State → Prop := fun t => getR t p Reg.comEvtEnable = v ∧ SameFields p [Reg.comEvtEnable] s t ∧
        SameRegisters [p] s t ∧ SameMemory s t
      Completes (.setAliasWrite m page 6 value) s (becomes (old ||| b)) ∧
      Completes (.clrAliasWrite m page 6 value) s (becomes (old &&& (b ^^^ 0xFFFF))) ∧
      Completes (.tglAliasWrite m page 6 value) s (becomes (old ^^^ b))) ∧
    (∀ value : Word, Granted s m .write p 0x14 →
      Completes (.clrAliasWrite m page 5 value) s (fun t => (∀ i < 16, levelOn s p i = false →
          bit (getR t p Reg.comEvtSticky) i = (bit (getR s p Reg.comEvtSticky) i && !bit value.toNat i)) ∧
        (∀ i < kindEvents (kindOf p), levelOn s p i = true → bit (getR t p Reg.comEvtSticky) i = true) ∧
        SameRegisters [p, Page.evt] s t ∧ SameMemory s t)) ∧
    (∀ (reg : Fin 32) (value : Word), Granted s m .guarded p (0x300 + 4 * reg) →
      Completes (.guardedValueWrite m page reg value) s (fun t =>
        guardOf t p m.cls = some ⟨p, m.cls, masterNodeOf m, 4 * reg, value.toNat, s.time.tb2⟩ ∧ SameRegisters [] s t ∧ SameMemory s t)) ∧
    (∀ (cls : Fin 15) (g : GuardPend), Running s → guardOf s p cls = some g →
      (g.at_ + 2000 < s.time.tb2 →
        Completes (.guardTimeout cls page) s (fun t => guardOf t p cls = none ∧ Counted Page.hub Reg.hubGuardFailCnt s t ∧
          getR t Page.hub Reg.hubGuardLastCause = guardTimeout ∧ getR t Page.hub Reg.hubGuardLastPage = p ∧ Raised Page.evt Ev.evtGuardFail t ∧
          SameRegisters [Page.hub, Page.evt] s t ∧ SameMemory s t)) ∧
      (s.time.tb2 ≤ g.at_ + 2000 →
        exec (.guardTimeout cls page) s = .next s)) ∧
    (∀ cls : Fin 15, Running s → guardOf s p cls = none → exec (.guardTimeout cls page) s = .next s) ∧
    (Granted s m .guarded p 0x37C → s.boot.booting = some 1 ∨ unitResetPage p = false →
      Completes (.unitReset m page) s (fun t => getR t Page.upd Reg.updResetCount = getR s Page.upd Reg.updResetCount ∧
        SameRegisters [p, Page.jrnl, Page.evt] s t ∧ SameMemoryBut (journalSlot s) 32 s t)) ∧
    (Granted s m .guarded p 0x37C → unitResetPage p = true → pageFenced s p = false → s.boot.booting ≠ some 1 →
      Completes (.unitReset m page) s (fun t => getR t Page.upd Reg.updResetKind = 0 ∧ Counted Page.upd Reg.updResetCount s t ∧
        (p = Page.trig → (∀ f ∈ pageFields p, (f.cls = .V → f.off ≠ 0x10 → getR t p f = f.rst) ∧ (f.cls = .K → getR t p f = getR s p f)) ∧
          SameRegisters [p, Page.upd, Page.duplex, Page.jrnl, Page.evt] s t ∧ SameMemoryBut (journalSlot s) 32 s t)))

/-- A permitted read of IND_DATA at an item that exists answers it, and at one that does not answers 0 and sets ERR with the code, as a write there
does; a write to a read-only space changes nothing but ERR with READ_ONLY; a write to a BRK staging word stores its THR or TIME. IND_ADDR advances
by STEP within its index field after each. ROW_SEL selects an item; ROW_VAL replaces the selected row, region word or group word, each cut to its
bits, or word of the secure map, of which KEY's bit stays 1, and one that may not be written keeps its value with ROW_REFUSED. Of memory only the
journal's entry changes. (R394, R395, R405, R406, R407) -/
def Obligations.IndirectAndTables : Prop :=
  ∀ (s : State) (m : Master),
    (∀ page : Byte, kindOf page.toNat ≠ .none →
      let p := page.toNat
      let a := indAddr s m p
      let advanced : State → Prop := fun t =>
        indAddr t m p = indAdvance (kindOf p) (getBank s m.cls p Reg.comIndCtrlStep) a % 2 ^ 32
      (Granted s m .read p 0x34 →
        (indFault s (kindOf p) a = none → Completes (.indDataRead m page) s (fun t =>
          t.sent = s.sent ++ [.answer m 0 (indItem s p a % 2 ^ 32)] ∧ advanced t ∧ SameRegisters [p] s t ∧ SameMemory s t)) ∧
        (∀ e, indFault s (kindOf p) a = some e → Completes (.indDataRead m page) s (fun t => t.sent = s.sent ++ [.answer m 0 0] ∧
          getBank t m.cls p Reg.comIndCtrlErr = 1 ∧ getBank t m.cls p Reg.comIndCtrlErrCode = e ∧ advanced t ∧ SameRegisters [p] s t ∧ SameMemory s t))) ∧
      (∀ (value : Word) (e : Nat), Granted s m .write p 0x34 → indFault s (kindOf p) a = some e →
        Completes (.indDataWrite m page value) s (fun t => getBank t m.cls p Reg.comIndCtrlErr = 1 ∧
          getBank t m.cls p Reg.comIndCtrlErrCode = e ∧ advanced t ∧ SameRegisters [p] s t ∧ SameMemory s t)) ∧
      (∀ value : Word, Granted s m .write p 0x34 → indFault s (kindOf p) a = none →
        (indReadOnly p a = true → Completes (.indDataWrite m page value) s (fun t => getBank t m.cls p Reg.comIndCtrlErr = 1 ∧
          getBank t m.cls p Reg.comIndCtrlErrCode = indErrReadOnly ∧ advanced t ∧ t.access = s.access ∧ t.key = s.key ∧ SameRegisters [p] s t ∧ SameMemory s t)) ∧
        (p = Page.brk → a < 144 → Completes (.indDataWrite m page value) s (fun t =>
          storeGet 0 t.brk.staging a = (if a % 2 = 0 then value.toNat % 2 ^ 12 else value.toNat % 2 ^ 24) ∧ t.brk.curves = s.brk.curves ∧
          advanced t ∧ SameRegisters [p] s t ∧ SameMemory s t)))) ∧
    (∀ value : Word, Granted s m .guarded Page.acc 0x300 → Completes (.rowSel m value) s (fun t =>
      getR t Page.acc Reg.accRowSelIndex = value.toNat % 2 ^ 14 ∧ getR t Page.acc Reg.accRowSelSpace = value.toNat / 2 ^ 16 % 4 ∧
      t.access = s.access ∧ SameRegisters [Page.acc, Page.jrnl, Page.evt] s t ∧ SameMemoryBut (journalSlot s) 32 s t)) ∧
    (∀ value : Word, Granted s m .guarded Page.acc 0x304 →
      let space := getR s Page.acc Reg.accRowSelSpace
      let index := getR s Page.acc Reg.accRowSelIndex
      (rowValRefused s space index = false → space < 3 → Completes (.rowVal m value) s (fun t =>
        accItem t space index = some (accMask space index value.toNat) ∧ Raised Page.acc Ev.accRowChanged t ∧
        (∀ x y, (x, y) ≠ (space, index) → x < 3 → accItem t x y = accItem s x y) ∧
        SameRegisters [Page.acc, Page.jrnl, Page.evt] s t ∧ SameMemoryBut (journalSlot s) 32 s t)) ∧
      (rowValRefused s space index = false → space = 3 → Completes (.rowVal m value) s (fun t =>
        (index < 8 → getR t Page.acc (Reg.accSecure index) = (if index = 0 then value.toNat ||| 0x80 else value.toNat)) ∧
        (index = 8 → getR t Page.acc Reg.accDramDefault = value.toNat) ∧ (index = 0 → value.toNat / 2 ^ 7 % 2 = 0 → Raised Page.acc Ev.accRowRefused t) ∧
        Raised Page.acc Ev.accRowChanged t ∧ t.access = s.access ∧
        SameRegisters [Page.acc, Page.jrnl, Page.evt] s t ∧ SameMemoryBut (journalSlot s) 32 s t)) ∧
      (rowValRefused s space index = true → Completes (.rowVal m value) s (fun t => t.access = s.access ∧ Raised Page.acc Ev.accRowRefused t ∧
        SameRegisters [Page.acc, Page.jrnl, Page.evt] s t ∧ SameMemoryBut (journalSlot s) 32 s t)))

/-- A permitted read of the low word of a register pair answers it and latches the high word at the same time; a read of the high word answers what
is latched. A read of TB0_LO latches every word of the bases, one of TB1_NS, TB2_LO or TB3_LO the other words of its base. A permitted CNT_CTRL.CLR
zeroes the counters of its page and leaves its other fields. No memory changes. (R64, R98, R146, R217, R245, R272, R302, R328, R385, R488) -/
def Obligations.LatchedReadsAndCounterClears : Prop :=
  ∀ (s : State) (m : Master),
    (∀ x ∈ [(Instr.cycleLoRead m, Page.stair, 0x54), (.pwseqLoRead m, Page.bridge, 0x4C), (.headLoRead m, Page.jrnl, 0x40),
        (.ckptLoRead m, Page.jrnl, 0x48), (.expiryLoRead m, Page.duplex, 0x50), (.uidLoRead m, Page.hub, 0x48)],
      Granted s m .read x.2.1 x.2.2 → Completes x.1 s (fun t =>
        t.sent = s.sent ++ [.answer m 0 (peekWord s m x.2.1 x.2.2 % 2 ^ 32)] ∧
        storeFind (latchKey x.2.1 (x.2.2 + 4)) t.latch = some (peekWord s m x.2.1 (x.2.2 + 4)) ∧ SameRegisters [] s t ∧ SameMemory s t) ∧
      (∀ v, Granted s m .read x.2.1 (x.2.2 + 4) → storeFind (latchKey x.2.1 (x.2.2 + 4)) s.latch = some v →
        Completes (.registerRead m (BitVec.ofNat 48 (x.2.1 * 4096 + x.2.2 + 4)) 4) s (fun t =>
          t.sent = s.sent ++ [.answer m 0 (v % 2 ^ 32)] ∧ SameRegisters [] s t ∧ SameMemory s t))) ∧
    (peekWord s m Page.stair 0x54 = cycleNow s % 2 ^ 32 ∧ peekWord s m Page.stair 0x58 = cycleNow s / 2 ^ 32 ∧
      peekWord s m Page.hub 0x48 = uid % 2 ^ 32 ∧ peekWord s m Page.hub 0x4C = uid / 2 ^ 32 ∧
      peekWord s m Page.jrnl 0x40 = journalHead s % 2 ^ 32 ∧ peekWord s m Page.jrnl 0x44 = journalHead s / 2 ^ 32) ∧
    (Granted s m .read Page.time 0x48 → storeFind (latchKey Page.time 0x48) s.latch = none →
      Completes (.tb0LoRead m) s (fun t => t.sent = s.sent ++ [.answer m 0 (s.time.tb0 % 2 ^ 32)] ∧
        (∀ o ∈ [0x4C, 0x50, 0x54, 0x58, 0x5C, 0x60, 0x64, 0x68], storeFind (latchKey Page.time o) t.latch = timeLive s o) ∧
        SameRegisters [] s t ∧ SameMemory s t)) ∧
    (∀ base : Fin 3, let off := if base = 0 then 0x50 else if base = 1 then 0x5C else 0x64
      Granted s m .read Page.time off → storeFind (latchKey Page.time off) s.latch = none →
        Completes (.tbLoRead m base) s (fun t => t.sent = s.sent ++ [.answer m 0 ((timeLive s off).getD 0 % 2 ^ 32)] ∧
          (∀ o ∈ timeLatches off, storeFind (latchKey Page.time o) t.latch = timeLive s o) ∧ SameRegisters [] s t ∧ SameMemory s t)) ∧
    (∀ (st : Side) (e : Fin 128) (n : Fin 16),
      ∀ x ∈ [(Instr.imgCntClr m, Page.img, 0x70, [Reg.imgMissCnt, Reg.imgVoidCnt, Reg.imgDmaErrCnt]),
        (.stnCntClr m st, Page.stn st, 0x40, [Reg.stnArrMin, Reg.stnArrMax, Reg.stnGoodCnt, Reg.stnLocalErrCnt, Reg.stnUpstreamErrCnt,
          Reg.stnTrailerErrCnt, Reg.stnDupCnt, Reg.stnLateCnt, Reg.stnDupMismatchCnt, Reg.stnUndoCnt, Reg.stnCompleteCnt, Reg.stnLateGalCnt,
          Reg.stnLayoutCnt, Reg.stnCarryCnt]),
        (.bridgeCntClr m, Page.bridge, 0xA8, [Reg.bridgeTimeoutCnt, Reg.bridgeCredViolCnt, Reg.bridgeAuthFailCnt, Reg.bridgeSeqGapCnt,
          Reg.bridgeDupCnt, Reg.bridgeDamagedDropCnt, Reg.bridgeFormatCnt, Reg.bridgeOrphanCnt, Reg.bridgeMbxFmtCnt]),
        (.mirrorCntClr m, Page.mirror, 0x54, [Reg.mirrorSeenCnt, Reg.mirrorSampledCnt, Reg.mirrorDropCnt]),
        (.cabCntClr m, Page.cab, 0x78, [Reg.cabIngressDropCnt, Reg.cabTailDropCnt, Reg.cabCredOverCnt, Reg.cabLinkCorrCnt]),
        (.engCntClr m e, Page.eng e, 0x94, [Reg.engStaleCnt, Reg.engStallCnt, Reg.engBindRefuseCnt, Reg.engHostFifoCnt]),
        (.canCntClr m n, Page.can n, 0x98, [Reg.canRxCnt, Reg.canTxCnt, Reg.canRxLostCnt, Reg.canTtMissCnt, Reg.canErrCnt]),
        (.govCntClr m, Page.gov, 0x98, [Reg.govOpCnt, Reg.govAdmitDenyCnt]),
        (.dramCntClr m, Page.dram, 0x54, [Reg.dramCorrCnt, Reg.dramUncorrCnt]),
        (.flashCntClr m, Page.flash, 0x54, [Reg.flashCorrCnt, Reg.flashUncorrCnt])],
      Granted s m .write x.2.1 x.2.2.1 → Completes x.1 s (fun t => (∀ f ∈ x.2.2.2, getR t x.2.1 f = f.rst) ∧
        SameFields x.2.1 x.2.2.2 s t ∧ SameRegisters [x.2.1] s t ∧ SameMemory s t))

/-- With the guarded write of KEY.CMD permitted, each of the fifteen drawer commands: while BUSY is 0 and every check passes, the command runs with
the operands of the registers and BUSY is set, with no slot, lock or memory changed; while BUSY is 1 it is ignored, counted in REFUSE_CNT, and
raises CMD_REFUSED; where a check fails, it ends at once with the code of that check in RESULT and CMD_FAIL, with no slot other than its key
changed. A scrub step checks the next slot and makes it BAD if its tag is wrong, and pauses while CRYPTO is gated or a command runs. The key service
answers a submitted record, one that its rows do not protect with KEY_REQ_REFUSED; it does nothing while SVC_EN is 0 or DRAM is fenced, or without
Newel outside BLANK. The entropy tests set and clear ENTROPY_OK and ENTROPY_FAIL. A debug session begins while debug access is available, and is
refused and counted while it is not. (R413, R414, R415, R416, R417, R419, R422, R429) -/
def Obligations.DrawerCommands : Prop :=
  ∀ (s : State),
    (∀ (m : Master) (x : Instr × Nat), x ∈ [(.keyLoad m, 0x01), (.unwrap m, 0x02), (.derive m, 0x03), (.keyErase m, 0x04), (.keyLock m, 0x05),
        (.readPub m, 0x06), (.verify m, 0x10), (.cmac m, 0x11), (.gcmEnc m, 0x12), (.gcmDec m, 0x13), (.hash m, 0x14), (.random m, 0x15),
        (.lcNonce m, 0x20), (.lcTransition m, 0x21), (.setRingKey m, 0x30)] →
      Granted s m .guarded Page.key 0x300 →
      let c := keyCmdOf s m x.2
      let frame : State → Prop := fun t => SameRegisters [Page.key, Page.jrnl, Page.evt] s t ∧ SameMemoryBut (journalSlot s) 32 s t
      (flag s Page.key Reg.keyStatusBusy = false → keyCheck s c = keyOk →
        Completes x.1 s (fun t => flag t Page.key Reg.keyStatusBusy = true ∧ t.key = { s.key with running := some c } ∧
          SameFields Page.key [Reg.keyStatusBusy, Reg.keyCmd] s t ∧ SameRegisters [Page.key] s t ∧ SameMemory s t)) ∧
      (flag s Page.key Reg.keyStatusBusy = true →
        Completes x.1 s (fun t => t.key = s.key ∧ Counted Page.key Reg.keyRefuseCnt s t ∧ Raised Page.evt Ev.evtCmdRefused t ∧
          SameFields Page.key [Reg.keyRefuseCnt, Reg.keyCmd] s t ∧ frame t)) ∧
      (flag s Page.key Reg.keyStatusBusy = false → keyCheck s c ≠ keyOk →
        Completes x.1 s (fun t => getR t Page.key Reg.keyResultCode = keyCheck s c ∧ getR t Page.key Reg.keyResultCommand = x.2 ∧
          getR t Page.key Reg.keyResultSlot = getR s Page.key Reg.keyOpSlotSlot ∧ flag t Page.key Reg.keyStatusBusy = false ∧
          (∀ n, keySource c ≠ some n → drawerOf t n = drawerOf s n) ∧ t.key.lc = s.key.lc ∧ Raised Page.key Ev.keyCmdFail t ∧ frame t))) ∧
    (Running s →
      (gateOn s 6 = false ∨ s.key.running ≠ none → exec .scrub s = .next s) ∧
      (gateOn s 6 = true → s.key.running = none →
        let n := s.key.scrub % 64
        let bad := (drawerOf s n).st = slotValid ∧ tagGood n (drawerOf s n) = false
        Completes .scrub s (fun t => t.key.scrub = (n + 1) % 64 ∧
          (bad → drawerOf t n = { drawerOf s n with material := zeros 64, st := slotBad } ∧ levelOn t Page.key Ev.keyDrawerBad = true) ∧
          (¬bad → drawerOf t n = drawerOf s n) ∧ (∀ k, k ≠ n → drawerOf t k = drawerOf s k) ∧
          getR t Page.key Reg.keyScrubCnt = (if n = 63 then (getR s Page.key Reg.keyScrubCnt + 1) % 2 ^ 32 else getR s Page.key Reg.keyScrubCnt) ∧
          SameRegisters [Page.key, Page.evt] s t ∧ SameMemory s t)) ∧
      (∀ c : Nat, 3 ≤ c → c < 15 → flag s Page.key Reg.keyReqBaseSvcEn = true → (s.event.newel = none ∨ s.key.lc = 0) → pageFenced s Page.dram = false →
        s.key.running = none → memNat s.dram (recordAt s c) 1 = 1 →
        (∀ d, 3 ≤ d → d < 15 → d ≠ c → memNat s.dram (recordAt s d) 1 ≠ 1) →
        (recordAt s 0 + 8192 ≤ journalBase ∨ journalBase + 0x200000 ≤ recordAt s 0) →
        let a := recordAt s c
        let answered (result length : Nat) (t : State) : Prop := memNat t.dram a 1 = 2 ∧ memNat t.dram (a + 12) 4 = result ∧
          memNat t.dram (a + 8) 4 = length ∧ Raised Page.key Ev.keyReqDone t ∧ SameRegisters [Page.key, Page.jrnl, Page.evt] s t
        (recordRows s c = false → Completes .keyService s (fun t => c ∈ t.key.refused ∧ (c ∉ s.key.refused → Raised Page.key Ev.keyReqRefused t) ∧
          SameRegisters [Page.key, Page.evt] s t ∧ SameMemory s t)) ∧
        (recordRows s c = true → keyCheck s (recordCmd s c) ≠ keyOk → Completes .keyService s (answered (keyCheck s (recordCmd s c)) 0)) ∧
        (recordRows s c = true → keyCheck s (recordCmd s c) = keyOk → 496 < (recordCmd s c).len → Completes .keyService s (answered keyFormat 0)) ∧
        (recordRows s c = true → keyCheck s (recordCmd s c) = keyOk → (recordCmd s c).len ≤ 496 → (recordCmd s c).code = 0x14 → (recordCmd s c).slot = 0 →
          Completes .keyService s (fun t => answered keyOk 32 t ∧
            memReadN t.dram (a + 16) 32 = fit 32 (Config.sha256 (memReadN s.dram (a + 16) (recordCmd s c).len))))) ∧
      (flag s Page.key Reg.keyReqBaseSvcEn = false ∨ (s.event.newel ≠ none ∧ s.key.lc ≠ 0) ∨ pageFenced s Page.dram = true →
        exec .keyService s = .next s) ∧
      Completes .entropyFail s (fun t => flag t Page.key Reg.keyStatusEntropyOk = false ∧ levelOn t Page.key Ev.keyEntropyFail = true ∧
        SameRegisters [Page.key, Page.evt] s t ∧ SameMemory s t) ∧
      Completes .entropyOk s (fun t => flag t Page.key Reg.keyStatusEntropyOk = true ∧ levelOn t Page.key Ev.keyEntropyFail = false ∧
        SameRegisters [Page.key] s t ∧ SameMemory s t) ∧
      (debugAvailable s = true → exec .dapDenied s = .next s) ∧
      (debugAvailable s = true → Completes .dapAttach s (fun t => flag t Page.debug Reg.debugDbgStatusActive = true ∧
        Raised Page.debug Ev.debugDapAttach t ∧ SameRegisters [Page.debug, Page.evt] s t ∧ SameMemory s t)) ∧
      (debugAvailable s = false → ∀ c ∈ [Instr.dapAttach, Instr.dapDenied],
        Completes c s (fun t => Counted Page.debug Reg.debugDbgStatusRefused s t ∧ Raised Page.debug Ev.debugDapDenied t ∧
          flag t Page.debug Reg.debugDbgStatusActive = flag s Page.debug Reg.debugDbgStatusActive ∧
          SameRegisters [Page.debug, Page.evt] s t ∧ SameMemory s t)) ∧
      Completes .dapDetach s (fun t => flag t Page.debug Reg.debugDbgStatusActive = false ∧
        SameFields Page.debug [Reg.debugDbgStatusActive] s t ∧ SameRegisters [Page.debug] s t ∧ SameMemory s t))

/-- CMD_DONE of a running command clears BUSY and shows the result, the command and the slot. Where a check of its list fails meanwhile, the result
is its code and no slot but the key's changes. Otherwise LOAD, UNWRAP and DERIVE write their slot VALID with its tag, ERASE empties it, LOCK sets
LOCK with a new tag; READ_PUB, CMAC, GCM_ENC, GCM_DEC, HASH and RANDOM write exactly their output at DST; VERIFY answers OK or SIG_FAIL; LC_NONCE
draws a nonce; LC_TRANSITION consumes it and ends with AUTH or EXHAUSTED, or changes the life-cycle state; SET_RING_KEY records the switch or ends
with LATE. A wrong length ends with FORMAT, a wrong tag with TAG_FAIL, a failed health test with ENTROPY. Without a running command nothing happens.
Of memory only the output and the journal's entry change. (R410, R411, R413, R416, R417, R419, R420, R424, R425, R426, R427) -/
def Obligations.DrawerResults : Prop :=
  ∀ (s : State), Running s → (s.key.running = none → exec .cmdDone s = .next s) ∧ ∀ c : KeyCmd, s.key.running = some c → c.record = none →
    let d := drawerOf s ((keySource c).getD 0)
    let src (o n : Nat) : List Byte := memReadN s.dram (c.src + o) n
    let written (bs : List Byte) : Drawer := ⟨materialFor c.attr bs, c.attr, drawerTag c.slot c.attr (materialFor c.attr bs), slotValid⟩
    let ends (P : State → Prop) : Prop := Completes .cmdDone s P
    let ended (r : Nat) (t : State) : Prop := t.key.running = none ∧ flag t Page.key Reg.keyStatusBusy = false ∧
      getR t Page.key Reg.keyResultCode = r ∧ getR t Page.key Reg.keyResultCommand = c.code % 256 ∧
      getR t Page.key Reg.keyResultSlot = c.slot % 64 ∧ Raised Page.key (if r = keyOk then Ev.keyCmdDone else Ev.keyCmdFail) t
    let small (t : State) : Prop := t.key.lc = s.key.lc ∧ SameRegisters [Page.key, Page.jrnl, Page.evt] s t
    let slots (t : State) : Prop := ∀ n, drawerOf t n = drawerOf s n
    let fails (r : Nat) (t : State) : Prop := ended r t ∧ small t ∧ slots t ∧ SameMemoryBut (journalSlot s) 32 s t
    let stores (e : Drawer) (t : State) : Prop := ended keyOk t ∧ small t ∧ drawerOf t c.slot = e ∧
      (∀ n, n ≠ c.slot → drawerOf t n = drawerOf s n) ∧ SameMemoryBut (journalSlot s) 32 s t
    let puts (out : List Byte) (t : State) : Prop := ended keyOk t ∧ small t ∧ slots t ∧
      (∀ x, x < journalSlot s ∨ journalSlot s + 32 ≤ x →
        memRead t.dram x = if c.dst ≤ x ∧ x < c.dst + out.length then out.getD (x - c.dst) 0 else memRead s.dram x) ∧
      t.flash = s.flash ∧ t.image = s.image ∧ t.stair = s.stair
    (keyCheck s c ≠ keyOk → ends (fun t => ended (keyCheck s c) t ∧ small t ∧ (∀ n, keySource c ≠ some n → drawerOf t n = drawerOf s n) ∧
      SameMemoryBut (journalSlot s) 32 s t)) ∧
    (keyCheck s c = keyOk →
      (c.code = 0x01 → ends (stores (written (src 0 64)))) ∧
      (c.code = 0x02 →
        let opened := Config.gcmDec (aesKey d) (src 0 12) (leBytes 1 c.slot ++ leBytes 4 c.attr) (src 12 64) (src 76 16)
        (∀ bs, opened = some bs → ends (stores (written (fit 64 bs)))) ∧ (opened = none → ends (fails keyTagFail))) ∧
      (c.code = 0x03 →
        (1 ≤ c.len ∧ c.len ≤ 64 → ends (stores (written (Config.kdf (aesKey d) (src 0 c.len) (if attrType c.attr = 1 then 16 else 32))))) ∧
        (c.len = 0 ∨ 64 < c.len → ends (fails keyFormat))) ∧
      (c.code = 0x04 → ends (stores drawerEmpty)) ∧
      (c.code = 0x05 →
        let old := drawerOf s c.slot
        let a := old.attr ||| 2 ^ 12
        ends (stores ⟨old.material, a, drawerTag c.slot a old.material, old.st⟩)) ∧
      (c.code = 0x06 → ends (puts d.material)) ∧
      (c.code = 0x10 →
        let n := if attrType d.attr = 3 then 32 else 48
        (c.len ≠ 3 * n → ends (fails keyFormat)) ∧
        (c.len = 3 * n →
          ends (fails (if Config.ecdsaVerify d.material (src 0 n) (src n (2 * n)) = true then keyOk else keySigFail)))) ∧
      (c.code = 0x11 → ends (puts (fit 16 (Config.aesCmac (aesKey d) (src 0 c.len))))) ∧
      (c.code = 0x12 →
        let n := leNat (src 12 2)
        (c.len < 14 + n → ends (fails keyFormat)) ∧
        (14 + n ≤ c.len →
          ends (puts (fit (c.len - 14 - n + 16) (Config.gcmEnc (aesKey d) (src 0 12) (src 14 n) (src (14 + n) (c.len - 14 - n))))))) ∧
      (c.code = 0x13 →
        let n := leNat (src 12 2)
        let m := c.len - 30 - n
        (c.len < 30 + n → ends (fails keyFormat)) ∧
        (30 + n ≤ c.len →
          let opened := Config.gcmDec (aesKey d) (src 0 12) (src 14 n) (src (14 + n) m) (src (14 + n + m) 16)
          (∀ bs, opened = some bs → ends (puts (fit m bs))) ∧ (opened = none → ends (fails keyTagFail)))) ∧
      (c.code = 0x14 → ends (puts (if c.slot = 0 then fit 32 (Config.sha256 (src 0 c.len)) else fit 48 (Config.sha384 (src 0 c.len))))) ∧
      (c.code = 0x15 →
        (c.len = 0 ∨ 4096 < c.len → ends (fails keyFormat)) ∧
        (1 ≤ c.len ∧ c.len ≤ 4096 →
          (levelOn s Page.key Ev.keyEntropyFail = true → ends (fails keyEntropy)) ∧
          (levelOn s Page.key Ev.keyEntropyFail = false → ends (fun t => ∃ out : List Byte, out.length = c.len ∧ puts out t)))) ∧
      (c.code = 0x20 →
        (levelOn s Page.key Ev.keyEntropyFail = true → ends (fails keyEntropy)) ∧
        (levelOn s Page.key Ev.keyEntropyFail = false →
          ends (fun t => fails keyOk t ∧ flag t Page.key Reg.keyStatusNonceValid = true))) ∧
      (c.code = 0x21 →
        let r := transitionResult s c
        let upto := (memRead s.dram (c.src + 5)).toNat
        (r ≠ keyOk → ends (fun t => fails r t ∧ flag t Page.key Reg.keyStatusNonceValid = false ∧
          (r = keyAuth → Raised Page.key Ev.keyLcFail t))) ∧
        (r = keyOk → s.key.lc ≠ 0 → upto ≠ 4 →
          ends (fun t => ended keyOk t ∧ t.key.lc = upto ∧ t.key.svcLeft = (if upto = 3 then s.key.svcLeft - 1 else s.key.svcLeft) ∧
            flag t Page.key Reg.keyStatusNonceValid = false ∧ Raised Page.key Ev.keyLcChange t ∧ slots t ∧
            SameRegisters [Page.key, Page.debug, Page.jrnl, Page.evt] s t ∧ SameMemoryBut (journalSlot s) 32 s t)) ∧
        (r = keyOk → s.key.lc = 0 ∨ upto = 4 →
          ends (fun t => t.key.lc = upto ∧ getR t Page.upd Reg.updResetKind = 1 ∧ getR t Page.upd Reg.updResetWarmSrc = 3 ∧
            (upto = 4 → ∀ n, drawerOf t n = drawerEmpty)))) ∧
      (c.code = 0x30 →
        (c.ringAt < cycleNow s + loopCycles s + 2 → ends (fails keyLate)) ∧
        (cycleNow s + loopCycles s + 2 ≤ c.ringAt →
          ends (fun t => fails keyOk t ∧ t.key.switchAt = c.ringAt ∧ flag t Page.key Reg.keyRingSwitchPend = true ∧
            getR t Page.key Reg.keyRingRingNext = (c.slot - 8) % 8))))

/-- With no fence sequence running: a fault in a fenceable page that is not fenced sets FENCED and CAUSE and starts the sequence, with FENCED_ANY,
SEQ_BUSY and ERR_STATIC; an engine stops with RUN 0 and empty FIFOs, a tile takes its engines with it, a CAN channel leaves the bus, a lane page
loses its link and disables its lanes, a station sends the idle stream, the bridge is emptied, the drawer command ends, every channel of BRK is
down, TRIG is disarmed, the PCIe link is down, the update in progress is discarded, an I²C transaction ends; pages without outputs change nothing
else but DUPLEX. A fault of Newel raises NEWEL_DOWN and starts a dump unless one is held or runs. One in a page that is not fenceable sets INFRA and
writes the records; one with no such cause or page does nothing. FENCE_CMD fences with cause COMMAND, counts only where the page is fenced already,
and ignores a page that is not fenceable. A fault during a sequence is only counted and recorded as lost. FENCE ends the sequence with the records,
fences a level fault that is still presented, and does nothing without a sequence. The ERR test makes the pair static until it ends. (R436, R437,
R439, R442, R443, R444) -/
def Obligations.FaultsAndFences : Prop :=
  ∀ (s : State),
    let counted : State → Prop := fun t => Counted Page.evt Reg.evtFaultCnt s t
    let fenced (page cause : Nat) : State → Prop := fun t => pageFenced t page = true ∧ getR t page Reg.comFenceCause = cause ∧
      t.event.sequence = some (page, cause, s.time.tb2) ∧ flag t Page.evt Reg.evtStatusFencedAny = true ∧
      flag t Page.evt Reg.evtStatusSeqBusy = true ∧ errStatic t = true ∧ flag t Page.evt Reg.evtStatusErrStatic = true ∧
      levelOn t Page.evt Ev.evtFenced = true
    let quiet (page : Nat) : Prop := kindOf page ∈ [.gov, .stair, .img, .duplex, .cab, .dram, .flash, .debug]
    let quietFrame (page : Nat) : State → Prop := fun t => page ≠ Page.duplex → SameFields page [Reg.comFenceFenced, Reg.comFenceCause] s t
    let records (page cause at_ : Nat) : State → Prop := fun t => getR t Page.evt Reg.evtLastFault = (page + 2 ^ 8 * cause + 2 ^ 16) % 2 ^ 17 ∧
      getR t Page.evt Reg.evtLastTime = at_ % 2 ^ 32 ∧ flag t Page.evt Reg.evtFirstFaultValid = true ∧
      (flag s Page.evt Reg.evtFirstFaultValid = false → getR t Page.evt Reg.evtFirstFaultPage = page % 256 ∧
        getR t Page.evt Reg.evtFirstFaultCause = cause % 256 ∧ getR t Page.evt Reg.evtFirstTime = at_ % 2 ^ 32) ∧
      (flag s Page.evt Reg.evtFirstFaultValid = true → getR t Page.evt Reg.evtFirstFaultPage = getR s Page.evt Reg.evtFirstFaultPage ∧
        getR t Page.evt Reg.evtFirstFaultCause = getR s Page.evt Reg.evtFirstFaultCause ∧
        getR t Page.evt Reg.evtFirstTime = getR s Page.evt Reg.evtFirstTime)
    (Running s → s.event.sequence = none → ∀ page cause : Byte, 1 ≤ cause.toNat → cause.toNat ≤ 8 →
      (fenceablePage page.toNat = true → pageFenced s page.toNat = false →
        Completes (.fault page cause) s (fun t => fenced page.toNat cause.toNat t ∧ counted t ∧
          (quiet page.toNat → (quietFrame page.toNat t) ∧ SameRegisters [page.toNat, Page.duplex, Page.jrnl, Page.evt] s t ∧
            SameMemoryBut (journalSlot s) 32 s t) ∧
          (∀ e : Fin 128, page.toNat = Page.eng e → engFlag t e Reg.engCtrlRun = false ∧ engRunning t e = false ∧ (engOf t e).txf = [] ∧
            (engOf t e).rxf = []) ∧
          (∀ k : Fin 16, page.toNat = Page.tile k → ∀ i < 8, pageFenced t (Page.eng (8 * k + i)) = true) ∧
          (∀ n : Fin 16, page.toNat = Page.can n → (canOf t n).attempt = none ∧ (canOf t n).waiting = [] ∧
            flag t (Page.can n) Reg.canStatusSync = false) ∧
          (∀ p : Side, page.toNat = Page.lane p → linkUp t p = false ∧ ∀ i < 4, laneStateOf t p i = laneDisabled) ∧
          (∀ st : Side, page.toNat = Page.stn st → (stationOf t st).rx = none ∧ (stationOf t st).copy = none ∧ (stationOf t st).out = [.idleStream]) ∧
          (page.toNat = Page.bridge → t.bridge.out = [] ∧ t.bridge.ingress = [] ∧ t.bridge.partTx = [] ∧ t.bridge.notices = []) ∧
          (page.toNat = Page.key → t.key.running = none) ∧ (page.toNat = Page.brk → ∀ ch ∈ channels, chUp t ch = false) ∧
          (page.toNat = Page.trig → t.time.pulse = none ∧ ∀ n < 32, cmpArmed t n = false) ∧ (page.toNat = Page.pcie → pcieUp t = false) ∧
          (page.toNat = Page.upd → updState t = updIdle) ∧ (page.toNat = Page.i2c → flag t Page.i2c Reg.i2cStatusBusy = false))) ∧
      (page = 0xFF → s.event.newel = none →
        Completes (.fault page cause) s (fun t => t.event.newel = some cause.toNat ∧
          t.event.sequence = some (0xFF, cause.toNat, s.time.tb2) ∧ counted t ∧ levelOn t Page.evt Ev.evtNewelDown = true ∧
          (flag s Page.evt Reg.evtDumpStatusHeld = false → flag s Page.evt Reg.evtDumpStatusBusy = false → pageFenced s Page.dram = false →
            flag t Page.evt Reg.evtDumpStatusBusy = true ∧ getR t Page.evt Reg.evtDumpStatusTrigger = 1) ∧
          SameRegisters [Page.jrnl, Page.evt] s t ∧ SameMemoryBut (journalSlot s) 32 s t)) ∧
      (kindOf page.toNat ≠ .none → fenceablePage page.toNat = false → pageFenced s page.toNat = false →
        Completes (.fault page cause) s (fun t => infraStands t = true ∧ levelOn t Page.evt Ev.evtInfra = true ∧
          flag t Page.evt Reg.evtStatusErrStatic = true ∧ records page.toNat cause.toNat s.time.tb2 t ∧ counted t ∧
          t.event.sequence = none ∧ SameRegisters [Page.evt] s t ∧ SameMemory s t))) ∧
    (∀ page cause : Byte, cause.toNat = 0 ∨ 8 < cause.toNat ∨ faultPage page.toNat = false → exec (.fault page cause) s = .next s) ∧
    (Running s → ∀ q, s.event.sequence = some q → ∀ page cause : Byte, 1 ≤ cause.toNat → cause.toNat ≤ 8 → faultPage page.toNat = true →
      blockFenced s page.toNat = false →
      Completes (.fault page cause) s (fun t => t.event.sequence = some q ∧ counted t ∧ Counted Page.evt Reg.evtLostcntCount s t ∧
        flag t Page.evt Reg.evtLostcntLost = true ∧ Raised Page.evt Ev.evtLostFault t ∧ t.event.newel = s.event.newel ∧
        ((page.toNat, cause.toNat) ∈ t.event.levelFaults ↔ causeLevel cause.toNat = true ∨ (page.toNat, cause.toNat) ∈ s.event.levelFaults) ∧
        SameRegisters [Page.evt] s t ∧ SameMemory s t)) ∧
    (Running s → ∀ page cause at_ : Nat, s.event.sequence = some (page, cause, at_) →
      (∀ gone : List (Byte × Byte), (∀ f ∈ s.event.levelFaults, f ∈ gone.map fun g => (g.1.toNat, g.2.toNat)) →
        Completes (.fence gone) s (fun t => t.event.sequence = none ∧ flag t Page.evt Reg.evtStatusSeqBusy = false ∧ records page cause at_ t ∧
          Raised Page.evt Ev.evtFence t ∧ SameRegisters [Page.evt] s t ∧ SameMemory s t)) ∧
      (∀ (p : Byte) (c : Byte), s.event.levelFaults = [(p.toNat, c.toNat)] → fenceablePage p.toNat = true → pageFenced s p.toNat = false →
        Completes (.fence []) s (fun t => fenced p.toNat c.toNat t ∧ t.event.levelFaults = [] ∧ Raised Page.evt Ev.evtFence t) ∧
        Completes (.fence [(p, c)]) s (fun t => t.event.sequence = none ∧ pageFenced t p.toNat = false ∧ t.event.levelFaults = [] ∧
          records page cause at_ t ∧ SameRegisters [Page.evt] s t ∧ SameMemory s t))) ∧
    (∀ gone, s.event.sequence = none → exec (.fence gone) s = .next s) ∧
    (∀ m : Master, Granted s m .guarded Page.evt 0x300 →
      (∀ page : Byte, fenceablePage page.toNat = false ∨ pageFenced s page.toNat = true →
        Completes (.fenceCmd m page) s (fun t => t.event.sequence = s.event.sequence ∧ t.event.newel = s.event.newel ∧
          (fenceablePage page.toNat = true → counted t) ∧ SameRegisters [Page.jrnl, Page.evt] s t ∧ SameMemoryBut (journalSlot s) 32 s t)) ∧
      (∀ (page : Byte) (q : Nat × Nat × Nat), s.event.sequence = some q → fenceablePage page.toNat = true → pageFenced s page.toNat = false →
        Completes (.fenceCmd m page) s (fun t => t.event.sequence = some q ∧ counted t ∧ flag t Page.evt Reg.evtLostcntLost = true ∧
          SameRegisters [Page.jrnl, Page.evt] s t ∧ SameMemoryBut (journalSlot s) 32 s t)) ∧
      (∀ page : Byte, s.event.sequence = none → fenceablePage page.toNat = true → pageFenced s page.toNat = false →
        Completes (.fenceCmd m page) s (fun t => fenced page.toNat causeCommand t ∧ counted t ∧
          (quiet page.toNat → (quietFrame page.toNat t) ∧ SameRegisters [page.toNat, Page.duplex, Page.jrnl, Page.evt] s t ∧
            SameMemoryBut (journalSlot s) 32 s t))) ∧
      Completes (.errTest m) s (fun t => t.event.errTest = true ∧ errStatic t = true ∧ flag t Page.evt Reg.evtStatusErrStatic = true ∧
        SameRegisters [Page.jrnl, Page.evt] s t ∧ SameMemoryBut (journalSlot s) 32 s t)) ∧
    (Running s → Completes .errTestEnd s (fun t => t.event.errTest = false ∧
      errStatic t = (decide (0 < fencedCount s) || infraStands s) ∧ flag t Page.evt Reg.evtStatusErrStatic = errStatic t ∧
      SameRegisters [Page.evt] s t ∧ SameMemory s t))

/-- A permitted DUMP_NOW starts a dump with the trigger of its class while none is held or runs, and is otherwise counted in SKIP_CNT with
DUMP_SKIPPED. DUMP_DONE writes the region and nothing else of memory: its magic number, trigger, event log and journal pointers, with HELD, VALID
and DUMP_DONE; DUMP_SUMMARY writes only the summary area of flash. With DRAM or FLASH fenced neither writes anything. A permitted CHECKPOINT starts
one up to HEAD unless one runs; CKPT_DONE of one that succeeds keeps its entries, at most 8,192, moves CKPT there and starts the next where 4,096
entries have come meanwhile, and of one that fails counts CKPT_FAIL_CNT and keeps what stood. MSIX_UNMASK clears the mask of a vector and sends it
where its PBA bit stands. (R433, R435, R445, R447, R449, R450, R451) -/
def Obligations.DumpsAndCheckpoints : Prop :=
  ∀ (s : State),
    (∀ m : Master, Granted s m .guarded Page.evt 0x300 → pageFenced s Page.dram = false →
      let frame : State → Prop := fun t => SameRegisters [Page.jrnl, Page.evt] s t ∧ SameMemoryBut (journalSlot s) 32 s t
      (flag s Page.evt Reg.evtDumpStatusHeld = false → flag s Page.evt Reg.evtDumpStatusBusy = false →
        Completes (.dumpNow m) s (fun t => flag t Page.evt Reg.evtDumpStatusBusy = true ∧
          getR t Page.evt Reg.evtDumpStatusTrigger = (if m.cls.val = classNewel then 2 else 3) ∧
          t.boot.dump = some (if m.cls.val = classNewel then 2 else 3, s.time.tb2, cycleNow s, journalHead s) ∧ frame t)) ∧
      ((flag s Page.evt Reg.evtDumpStatusHeld = true ∨ flag s Page.evt Reg.evtDumpStatusBusy = true) →
        Completes (.dumpNow m) s (fun t => t.boot.dump = s.boot.dump ∧ Counted Page.evt Reg.evtDumpStatusSkipCnt s t ∧
          Raised Page.evt Ev.evtDumpSkipped t ∧ frame t))) ∧
    (∀ m : Master, Granted s m .guarded Page.evt 0x300 → pageFenced s Page.dram = true → flag s Page.evt Reg.evtDumpStatusHeld = false →
      flag s Page.evt Reg.evtDumpStatusBusy = false →
      Completes (.dumpNow m) s (fun t => t.boot.dump = s.boot.dump ∧ SameRegisters [Page.jrnl, Page.evt] s t ∧ SameMemory s t)) ∧
    (Running s → (s.boot.dump = none → exec .dumpDone s = .next s) ∧ (s.boot.summary = false → exec .dumpSummary s = .next s) ∧
      (∀ d, s.boot.dump = some d → pageFenced s Page.dram = true →
        Completes .dumpDone s (fun t => t.boot.dump = none ∧ flag t Page.evt Reg.evtDumpStatusBusy = false ∧
          SameFields Page.evt [Reg.evtDumpStatusBusy] s t ∧ SameRegisters [Page.evt] s t ∧ SameMemory s t)) ∧
      (s.boot.summary = true → pageFenced s Page.flash = true ∨ pageFenced s Page.dram = true →
        Completes .dumpSummary s (fun t => t.boot.summary = false ∧ SameRegisters [] s t ∧ SameMemory s t))) ∧
    (Running s → pageFenced s Page.dram = false →
      (∀ d, s.boot.dump = some d →
        Completes .dumpDone s (fun t => t.boot.dump = none ∧ flag t Page.evt Reg.evtDumpStatusBusy = false ∧
          flag t Page.evt Reg.evtDumpStatusHeld = true ∧ flag t Page.evt Reg.evtDumpStatusValid = true ∧ Raised Page.evt Ev.evtDumpDone t ∧
          memReadN t.dram dumpBase 4 = [0x44, 0x4D, 0x50, 0x31] ∧ memNat t.dram (dumpBase + 6) 1 = d.1 % 256 ∧
          memReadN t.dram (dumpBase + 0x61000) 2048 = dumpLog s ∧ memReadN t.dram (dumpBase + 0x61800) 32 = dumpPointers s ∧
          (d.1 ≠ 2 → ∀ x, dumpBase + 0x62000 ≤ x → x < dumpBase + 0x800000 → memRead t.dram x = 0) ∧
          SameRegisters [Page.evt] s t ∧ SameMemoryBut dumpBase 0x800000 s t)) ∧
      (s.boot.summary = true → pageFenced s Page.flash = false →
        Completes .dumpSummary s (fun t => t.boot.summary = false ∧ t.dram = s.dram ∧ t.image = s.image ∧ t.stair = s.stair ∧
          (∀ x, x < 0x1940000 ∨ 0x1950000 ≤ x → memRead t.flash x = memRead s.flash x) ∧ SameRegisters [Page.flash, Page.evt] s t))) ∧
    (∀ m : Master, Granted s m .guarded Page.jrnl 0x300 →
      Completes (.checkpoint m) s (fun t => flag t Page.jrnl Reg.jrnlStatusCkptBusy = true ∧
        t.boot.ckptTo = (if flag s Page.jrnl Reg.jrnlStatusCkptBusy then s.boot.ckptTo else journalHead s) ∧ t.boot.ckpt = s.boot.ckpt ∧
        SameRegisters [Page.jrnl] s t ∧ SameMemoryBut (journalSlot s) 32 s t)) ∧
    (∀ ok, Running s → flag s Page.jrnl Reg.jrnlStatusCkptBusy = false → exec (.ckptDone ok) s = .next s) ∧
    (Running s → flag s Page.jrnl Reg.jrnlStatusCkptBusy = true →
      let frame : State → Prop := fun t => journalHead t = journalHead s ∧ SameRegisters [Page.jrnl, Page.flash, Page.evt] s t ∧ SameMemory s t
      (pageFenced s Page.flash = false → pageFenced s Page.dram = false →
        Completes (.ckptDone true) s (fun t => t.boot.ckptFrom = s.boot.ckptTo ∧ journalCkpt t = s.boot.ckptTo % 2 ^ 48 ∧
          getR t Page.jrnl Reg.jrnlStatusHalf = (1 - getR s Page.jrnl Reg.jrnlStatusHalf) % 2 ∧ t.boot.ckpt.length ≤ 8192 ∧
          (∀ i, s.boot.ckptFrom ≤ i → i < s.boot.ckptTo → s.boot.ckptTo ≤ i + 8192 →
            (i, memReadN s.dram (journalBase + 32 * (i % 65536)) 32) ∈ t.boot.ckpt) ∧ Raised Page.jrnl Ev.jrnlCkptDone t ∧
          (flag t Page.jrnl Reg.jrnlStatusCkptBusy = true ↔ s.boot.ckptTo + 4096 ≤ journalHead s) ∧
          (s.boot.ckptTo + 4096 ≤ journalHead s → t.boot.ckptTo = journalHead s) ∧ frame t)) ∧
      (∀ ok, ok = false ∨ pageFenced s Page.flash = true ∨ pageFenced s Page.dram = true →
        Completes (.ckptDone ok) s (fun t => flag t Page.jrnl Reg.jrnlStatusCkptBusy = false ∧ t.boot.ckptFrom = s.boot.ckptFrom ∧
          journalCkpt t = journalCkpt s ∧ t.boot.ckpt = s.boot.ckpt ∧ SameRegisters [Page.jrnl, Page.evt] s t ∧
          Counted Page.jrnl Reg.jrnlCkptFailCnt s t ∧ Raised Page.jrnl Ev.jrnlCkptFail t ∧ frame t))) ∧
    (∀ v : Fin 128, Running s → decide_ s hostMaster .write (0xE0000 + 16 * v.val + 12) 4 = .ok →
      Completes (.msixUnmask v) s (fun t => msixEntry t v = { msixEntry s v with ctrl := 0 } ∧
        (storeGet 0 s.event.pba v = 1 → t.sent = s.sent ++ [.msix v] ∧ storeGet 0 t.event.pba v = 0) ∧
        (storeGet 0 s.event.pba v ≠ 1 → t.sent = s.sent ∧ t.event.pba = s.event.pba) ∧ SameRegisters [] s t ∧ SameMemory s t))

/-- A WARM reset, asked for by Newel, by RCMD or by the end of the confirm window, records its kind and source, leaves class K fields of the
unfenced pages that no boot writes, clears what TRIG holds of class V, and changes nothing of flash, Staircase and process image. A RING reset by
PLINTH, NEWEL or MASTER records its kind, clears DRAM but for the journal, the banks and what TRIG holds of classes V, K and U, keeps flash, and
raises GAP; from any other class it is refused and journaled. A PIN reset holds the hub with every channel gate down and the H fields kept;
RESET_RELEASE, BOR and POR end a reset with its kind, BOOTSEL and count. While a larger reset is asserted no other command does anything. BOOT_DONE
is raised when Newel has started. STANDBY_ENTER, refused while COMMITTING, leads to STANDBY, in which the engines' FIFOs are flushed, every other
engine register keeps what it holds and the IO gates are OFF, and STANDBY_EXIT turns them ON. A confirm window that is not due, an entry or a boot
that is not under way and a release that does not fit change nothing. (R448, R454, R455, R457, R458, R459, R460, R461, R462, R463, R465, R480) -/
def Obligations.Resets : Prop :=
  ∀ (s : State),
    let warm (src : Nat) : State → Prop := fun t => getR t Page.upd Reg.updResetKind = 1 ∧ getR t Page.upd Reg.updResetWarmSrc = src ∧
      getR t Page.upd Reg.updResetCount = min (getR s Page.upd Reg.updResetCount + 1) 65535 ∧ t.key.lc = s.key.lc ∧
      (∀ p, kindOf p ∈ [.trig, .img, .tile, .eng, .lane, .acc, .debug, .i2c, .lh] → pageFenced s p = false →
        ∀ f ∈ pageFields p, f.cls = .K → getR t p f = getR s p f) ∧
      (∀ p, kindOf p ∈ [.time, .can] → ∀ f ∈ pageFields p, f.cls = .K → f.acc = .rw → getR t p f = getR s p f) ∧
      (∀ f ∈ pageFields Page.trig, f.cls = .V → f.off ≠ 0x10 → getR t Page.trig f = f.rst) ∧
      (∀ a, memRead t.flash a = memRead s.flash a ∧ memRead t.image.committed a = memRead s.image.committed a ∧
        memRead t.image.staging a = memRead s.image.staging a ∧ memRead t.stair.active a = memRead s.stair.active a)
    let booted (kind bootsel : Nat) : State → Prop := fun t => t.boot.holding = none ∧ getR t Page.upd Reg.updResetKind = kind ∧
      getR t Page.upd Reg.updResetBootsel = bootsel ∧ t.key.lc = s.key.lc ∧ Raised Page.jrnl Ev.jrnlGap t ∧
      (∀ a, memRead t.flash a = memRead s.flash a)
    let small : State → Prop := fun t => SameRegisters [Page.upd, Page.jrnl] s t ∧ SameMemoryBut (journalSlot s) 32 s t
    (Running s →
      Completes (.warmReset none) s (warm 0) ∧
      (s.boot.confirmFrom = none → exec .confirmWindowExpiry s = .next s) ∧
      (∀ c, s.boot.confirmFrom = some c →
        (c + confirmWindow s * 1000000000 ≤ s.time.tb2 → Completes .confirmWindowExpiry s (warm 2)) ∧
        (s.time.tb2 < c + confirmWindow s * 1000000000 → exec .confirmWindowExpiry s = .next s))) ∧
    (∀ m : Master, Granted s m .guarded Page.upd 0x304 →
      Completes (.warmReset (some m)) s (warm 1) ∧
      (∀ bootsel : Fin 4,
        (m.cls.val = classPlinth ∨ m.cls.val = classNewel ∨ m.cls.val = classMaster →
          Completes (.ringReset m bootsel) s (fun t => booted 2 bootsel t ∧ (∀ a, memRead t.image.host a = memRead s.image.host a) ∧
            (∀ a, memRead t.image.committed a = 0 ∧ memRead t.image.staging a = 0 ∧ memRead t.stair.active a = 0 ∧ memRead t.stair.pend a = 0) ∧
            (∀ a, a < journalBase → memRead t.dram a = 0) ∧
            (∀ f ∈ pageFields Page.trig, f.cls = .V ∨ f.cls = .K ∨ f.cls = .U → getR t Page.trig f = f.rst))) ∧
        (m.cls.val ≠ classPlinth → m.cls.val ≠ classNewel → m.cls.val ≠ classMaster →
          Completes (.ringReset m bootsel) s (fun t => t.boot.holding = none ∧ small t))) ∧
      (updState s ≠ updCommitting →
        Completes (.standbyEnter m) s (fun t => t.boot.standbyRun = !flag s Page.upd Reg.updStatusStandby ∧ small t)) ∧
      (updState s = updCommitting →
        Completes (.standbyEnter m) s (fun t => t.boot.standbyRun = s.boot.standbyRun ∧ getR t Page.upd Reg.updErrCode = updErrState ∧
          Raised Page.upd Ev.updUpdRefused t ∧ SameRegisters [Page.upd, Page.jrnl, Page.evt] s t ∧ SameMemoryBut (journalSlot s) 32 s t)) ∧
      Completes (.standbyExit m) s (fun t => flag t Page.upd Reg.updStatusStandby = false ∧ t.boot.standbyRun = false ∧
        (flag s Page.upd Reg.updStatusStandby = false → SameRegisters [Page.upd, Page.jrnl] s t) ∧
        (flag s Page.upd Reg.updStatusStandby = true → (∀ g ∈ standbyGates, gateOn t g = true) ∧ (∀ e < 128, engRunning t e = false) ∧
          ∀ p, kindOf p ∉ [.tile, .eng, .can, .clk, .upd, .evt, .jrnl] → ∀ f ∈ pageFields p, getR t p f = getR s p f) ∧
        SameMemoryBut (journalSlot s) 32 s t)) ∧
    (Running s → s.boot.standbyRun = false → exec .standby s = .next s) ∧
    (Running s → s.boot.standbyRun = true →
      Completes .standby s (fun t => t.boot.standbyRun = false ∧ flag t Page.upd Reg.updStatusStandby = true ∧
        levelOn t Page.upd Ev.updStandby = true ∧ (∀ g ∈ standbyGates, gateOn t g = false) ∧
        (∀ e < 128, (engOf t e).txf = [] ∧ (engOf t e).rxf = [] ∧ (engOf t e).prog = (engOf s e).prog ∧
          SameFields (Page.eng e) [Reg.engFifoStatusTxLevel, Reg.engFifoStatusRxLevel] s t) ∧
        (∀ n < 16, (canOf t n).attempt = none ∧ canMode t n = canMode s n) ∧
        (∀ p, kindOf p ∉ [.tile, .eng, .can, .clk, .cab, .mirror, .upd, .evt] → ∀ f ∈ pageFields p, getR t p f = getR s p f) ∧ SameMemory s t)) ∧
    (Running s → s.boot.booting = none → exec .bootDone s = .next s) ∧
    (Running s → ∀ kind, s.boot.booting = some kind →
      Completes .bootDone s (fun t => t.boot.booting = none ∧ Raised Page.upd Ev.updBootDone t ∧
        (kind < 2 → SameRegisters [Page.upd, Page.flash, Page.jrnl, Page.evt] s t ∧ SameMemoryBut (journalSlot s) 32 s t))) ∧
    (Running s → Completes .pinReset s (fun t => t.boot.holding = some 3 ∧ (∀ ch ∈ channels, chUp t ch = false) ∧
      (∀ p, ∀ f ∈ pageFields p, f.cls = .H → getR t p f = getR s p f) ∧ (∀ a, memRead t.flash a = memRead s.flash a ∧ memRead t.dram a = 0))) ∧
    (∀ b : Fin 4,
      (s.boot.holding ≠ some 3 → exec (.resetRelease b) s = .next s) ∧ (s.boot.holding ≠ some 4 → exec (.bor b) s = .next s) ∧
      (s.boot.holding = some 3 → Completes (.resetRelease b) s (fun t => booted 3 b t ∧
        getR t Page.upd Reg.updResetCount = min (getR s Page.upd Reg.updResetCount + 1) 65535)) ∧
      (s.boot.holding = some 4 → Completes (.bor b) s (fun t => booted 4 b t ∧
        getR t Page.upd Reg.updResetCount = min (getR s Page.upd Reg.updResetCount + 1) 65535)) ∧
      Completes (.por b) s (fun t => booted 5 b t ∧
        getR t Page.upd Reg.updResetCount = (if s.boot.hLost then 1 else min (getR s Page.upd Reg.updResetCount + 1) 65535) ∧
        (s.boot.hLost = true → flag t Page.brk Reg.brkSupplyStatusColdStart = true ∧ flag t Page.brk Reg.brkSupplyStatusBowSeen = false))) ∧
    (s.boot.holding ≠ none → ∀ c : Instr, c ≠ .vrst → c ≠ .vholdFall → (∀ b, c ≠ .resetRelease b ∧ c ≠ .bor b ∧ c ≠ .por b) →
      exec c s = .next s)

/-- With the guarded write permitted: BEGIN takes the update to HEADER with its type, and is refused in RETIRED and while COMMITTING; UPD_ABORT
takes it to IDLE, but not while COMMITTING; a header block out of order is refused; a body block whose hash is that of the image goes to the staging
area and counts, one with another hash raises BLOCK_BAD, and a source that the class may not read is refused; UPD_COMMIT of a complete image erases
the area of the slot that is not running, is refused while a trial runs, another commit runs or the image is not complete, and fails where FLASH is
fenced, and COMMIT_DONE leaves it TRIAL with the image, or EMPTY with COMMIT_FAIL; CONFIRM makes the areas on trial GOOD. A word of IND_DATA joins
its block, and one out of order is refused. SAVE_CONFIG, SAVE_NODE_RECORD and CLEAR_CONFIG write the older half, a settings copy, and no half; where
the flash fails or is fenced nothing is written and NR_WRITE_FAIL is raised, and while Newel does not run SAVE_CONFIG writes nothing. DRAM_SCRUB
counts what it corrects and what it cannot. (R476, R477, R478, R479, R480, R481, R483, R484, R485, R487, R488) -/
def Obligations.UpdatesAndSettings : Prop :=
  ∀ (s : State),
    let upd (v : Nat) (t : State) : Prop := updState t = v
    let small : State → Prop := fun t => SameRegisters [Page.upd, Page.jrnl, Page.evt] s t ∧ SameMemoryBut (journalSlot s) 32 s t
    let stored : State → Prop := fun t => SameRegisters [Page.upd, Page.flash, Page.jrnl, Page.evt] s t ∧ SameMemoryBut (journalSlot s) 32 s t
    let ring : State → Prop := fun t => SameRegisters [Page.upd, Page.jrnl, Page.evt] s t ∧ SameMemoryBut journalBase 0x200000 s t
    let refused (code : Nat) (t : State) : Prop := getR t Page.upd Reg.updErrCode = code ∧ Raised Page.upd Ev.updUpdRefused t ∧ updState t = updState s
    (∀ m : Master, Granted s m .guarded Page.upd 0x300 →
      (∀ (type : Fin 2) (defer : Bool),
        (s.key.lc ≠ 4 → updState s ≠ updCommitting → Completes (.beginUpdate m type defer) s (fun t => upd updHeader t ∧ updType t = type ∧
          flag t Page.upd Reg.updStatusDefer = defer ∧ getR t Page.upd Reg.updProgressReceived = 0 ∧ t.boot.hdrNext = 0 ∧ small t)) ∧
        (s.key.lc ≠ 4 → updState s = updCommitting → Completes (.beginUpdate m type defer) s (fun t => refused updErrState t ∧ small t)) ∧
        (s.key.lc = 4 → Completes (.beginUpdate m type defer) s (fun t => refused updErrLifecycle t ∧ small t))) ∧
      (updState s ≠ updCommitting → Completes (.updAbort m) s (fun t => upd updIdle t ∧ t.boot.got = [] ∧ small t)) ∧
      (updState s = updCommitting → Completes (.updAbort m) s (fun t => refused updErrState t ∧ small t)) ∧
      (∀ k : BitVec 16,
        let a := getR s Page.upd Reg.updDramSrc * 4096
        let bs := memReadN s.dram a 4096
        let h := hdrBlocks s.dram updStaging
        let n := hdrBodyBlocks s.dram updStaging
        (dramAllowed s a 4096 m.cls.val .read = false → Completes (.blockFromDram m k) s (fun t => refused updErrDenied t ∧ ring t)) ∧
        (dramAllowed s a 4096 m.cls.val .read = true → (a + 4096 ≤ journalBase ∨ journalBase + 0x200000 ≤ a) →
          (updState s ≠ updHeader → updState s ≠ updBody → Completes (.blockFromDram m k) s (fun t => refused updErrState t ∧ ring t)) ∧
          (updState s = updHeader → k.toNat ≠ s.boot.hdrNext → Completes (.blockFromDram m k) s (fun t => refused updErrOrder t ∧ ring t)) ∧
          (updState s = updBody → k.toNat < h ∨ h + n ≤ k.toNat → Completes (.blockFromDram m k) s (fun t => refused updErrOrder t ∧ ring t)) ∧
          (updState s = updBody → h ≤ k.toNat → k.toNat < h + n →
            (Config.sha256 bs ≠ memReadN s.dram (updStaging + 0x200 + 32 * (k.toNat - h)) 32 →
              Completes (.blockFromDram m k) s (fun t => upd updBody t ∧ getR t Page.upd Reg.updErrCode = updErrHash ∧
                getR t Page.upd Reg.updErrBlock = k.toNat ∧ t.boot.got = s.boot.got ∧ Raised Page.upd Ev.updBlockBad t ∧ small t)) ∧
            (Config.sha256 bs = memReadN s.dram (updStaging + 0x200 + 32 * (k.toNat - h)) 32 →
              Completes (.blockFromDram m k) s (fun t => memReadN t.dram (updStaging + 4096 * k.toNat) 4096 = bs ∧ k.toNat ∈ t.boot.got ∧
                getR t Page.upd Reg.updProgressReceived = t.boot.got.length % 2 ^ 16 ∧
                upd (if n ≤ t.boot.got.length then updComplete else updBody) t ∧
                (∀ x, (x < journalSlot s ∨ journalSlot s + 32 ≤ x) → (x < updStaging + 4096 * k.toNat ∨ updStaging + 4096 * (k.toNat + 1) ≤ x) →
                  memRead t.dram x = memRead s.dram x) ∧ t.flash = s.flash ∧ SameRegisters [Page.upd, Page.jrnl] s t))))) ∧
      (updState s ≠ updCommitting → updState s ≠ updComplete →
        Completes (.updCommit m) s (fun t => refused updErrIncomplete t ∧ small t)) ∧
      (updState s = updCommitting → Completes (.updCommit m) s (fun t => refused updErrState t ∧ small t)) ∧
      (updState s = updComplete → flag s Page.upd Reg.updStatusTrial = true →
        Completes (.updCommit m) s (fun t => refused updErrTrialPending t ∧ small t)) ∧
      (updState s = updComplete → flag s Page.upd Reg.updStatusTrial = false → pageFenced s Page.flash = true →
        Completes (.updCommit m) s (fun t => upd updIdle t ∧ areaState t (commitArea s) = areaEmpty ∧ getR t Page.upd Reg.updErrCode = updErrFlash ∧
          Raised Page.upd Ev.updCommitFail t ∧ small t)) ∧
      (updState s = updComplete → flag s Page.upd Reg.updStatusTrial = false → pageFenced s Page.flash = false →
        Completes (.updCommit m) s (fun t => upd updCommitting t ∧ flag t Page.flash Reg.flashStatusBusy = true ∧
          commitArea t = commitArea s ∧ areaState t (commitArea s) = areaEmpty ∧
          (∀ x, memRead t.flash x = if areaBase (commitArea s) ≤ x ∧ x < areaBase (commitArea s) + areaSize (updType s) then 0 else memRead s.flash x) ∧
          (∀ x, x < journalSlot s ∨ journalSlot s + 32 ≤ x → memRead t.dram x = memRead s.dram x) ∧
          SameRegisters [Page.upd, Page.flash, Page.jrnl, Page.evt] s t)) ∧
      Completes (.confirm m) s (fun t => t.boot.confirmFrom = none ∧ flag t Page.upd Reg.updStatusTrial = false ∧
        (∀ i < 4, areaState t i = if trialBooted s i = true then areaGood else areaState s i) ∧ small t)) ∧
    (Running s → ∀ ok : Bool, updState s ≠ updCommitting → exec (.commitDone ok) s = .next s) ∧
    (Running s → updState s = updCommitting →
      let i := commitArea s
      let b := areaBase i
      let n := 4096 * (hdrBlocks s.dram updStaging + hdrBodyBlocks s.dram updStaging)
      let image := memReadN s.dram updStaging n
      (pageFenced s Page.flash = false → pageFenced s Page.dram = false → bodyOk (memSplice s.flash b image) b = true →
        Completes (.commitDone true) s (fun t => upd updIdle t ∧ areaState t i = areaTrial ∧ flag t Page.flash Reg.flashStatusBusy = false ∧
          memReadN t.flash b n = image ∧ (∀ x, x < b ∨ b + n ≤ x → memRead t.flash x = memRead s.flash x) ∧
          (∀ x, x < journalSlot s ∨ journalSlot s + 32 ≤ x → memRead t.dram x = memRead s.dram x) ∧
          Raised Page.upd Ev.updCommitDone t ∧ SameRegisters [Page.upd, Page.flash, Page.jrnl, Page.evt] s t)) ∧
      (∀ ok : Bool, (ok = false ∨ pageFenced s Page.flash = true ∨ pageFenced s Page.dram = true ∨ bodyOk (memSplice s.flash b image) b = false) →
        Completes (.commitDone ok) s (fun t => upd updIdle t ∧ areaState t i = areaEmpty ∧ getR t Page.upd Reg.updErrCode = updErrFlash ∧
          Raised Page.upd Ev.updCommitFail t ∧ (ok = false → Raised Page.flash Ev.flashProgFail t) ∧ stored t))) ∧
    (∀ (m : Master) (value : Word), Granted s m .write Page.upd 0x34 →
      let w := indIndex .upd (indAddr s m Page.upd)
      (w % 1024 = 0 → Completes (.updIndDataWrite m value) s (fun t => t.boot.wordBlock = w / 1024 ∧ t.boot.words = [value.toNat] ∧
        SameRegisters [Page.upd] s t ∧ SameMemory s t)) ∧
      (w % 1024 ≠ 0 → w % 1024 ≠ 1023 → s.boot.wordBlock = w / 1024 → s.boot.words.length = w % 1024 →
        Completes (.updIndDataWrite m value) s (fun t => t.boot.wordBlock = w / 1024 ∧ t.boot.words = s.boot.words ++ [value.toNat] ∧
          SameRegisters [Page.upd] s t ∧ SameMemory s t)) ∧
      (w % 1024 = 1023 → s.boot.wordBlock = w / 1024 → s.boot.words.length = w % 1024 → updState s ≠ updHeader → updState s ≠ updBody →
        pageFenced s Page.dram = false →
        Completes (.updIndDataWrite m value) s (fun t => t.boot.words = [] ∧ refused updErrState t ∧ small t)) ∧
      (w % 1024 ≠ 0 → s.boot.wordBlock ≠ w / 1024 ∨ s.boot.words.length ≠ w % 1024 →
        Completes (.updIndDataWrite m value) s (fun t => t.boot.words = [] ∧ refused updErrOrder t ∧ small t))) ∧
    (∀ m : Master, Granted s m .guarded Page.upd 0x308 →
      let failed (ok : Bool) : State → Prop := fun t => t.boot.store = s.boot.store ∧ t.boot.settings = s.boot.settings ∧
        Raised Page.upd Ev.updNrWriteFail t ∧ (ok = false → Raised Page.flash Ev.flashProgFail t) ∧ stored t
      (pageFenced s Page.flash = false →
        (newelRuns s = true →
          Completes (.saveConfig m true) s (fun t =>
            let i := match bestHalf s with | some b => 1 - b | none => 0
            (cfgHalf t i).good = true ∧ (cfgHalf t i).seq = max (cfgHalf s 0).seq (cfgHalf s 1).seq + 1 ∧
            (cfgHalf t i).format = getR s Page.upd Reg.updCfgFmtCfgWrite ∧ (cfgHalf t i).descs = s.bridge.descs ∧
            (cfgHalf t i).rows = s.access.rows ∧ (cfgHalf t i).stair = (if staircaseActive s then s.stair.active else []) ∧
            cfgHalf t (1 - i) = cfgHalf s (1 - i) ∧ Raised Page.upd Ev.updConfigSaved t ∧ stored t)) ∧
        Completes (.saveNodeRecord m true) s (fun t =>
          let i := settingsTarget s (getR s Page.upd Reg.updNrFmtNrWrite)
          (settingsCopy t i).good = true ∧ (settingsCopy t i).seq = max (settingsCopy s 0).seq (settingsCopy s 1).seq + 1 ∧
          (settingsCopy t i).format = getR s Page.upd Reg.updNrFmtNrWrite ∧ (settingsCopy t i).regs = settingsEntries s ∧
          (settingsCopy t i).curves = ((List.range curveWords).map fun i => (i, storeGet 0 s.brk.curves i)) ∧
          settingsCopy t (1 - i) = settingsCopy s (1 - i) ∧ small t) ∧
        Completes (.clearConfig m true) s (fun t => t.boot.store = [] ∧ stored t)) ∧
      (newelRuns s = false → ∀ ok : Bool, Completes (.saveConfig m ok) s (fun t => t.boot.store = s.boot.store ∧ small t)) ∧
      (∀ ok : Bool, (ok = false ∨ pageFenced s Page.flash = true) →
        (newelRuns s = true → Completes (.saveConfig m ok) s (failed ok)) ∧
        Completes (.saveNodeRecord m ok) s (failed ok) ∧ Completes (.clearConfig m ok) s (failed ok))) ∧
    (Running s → (flag s Page.dram Reg.dramCfgScrubEn = false ∨ pageFenced s Page.dram = true) → ∀ (corrected : Word) (bad : List (BitVec 27)),
      exec (.dramScrub corrected bad) s = .next s) ∧
    (Running s → flag s Page.dram Reg.dramCfgScrubEn = true → pageFenced s Page.dram = false → ∀ (corrected : Word) (bad : List (BitVec 27)),
      Completes (.dramScrub corrected bad) s (fun t =>
        getR t Page.dram Reg.dramCorrCnt = min (getR s Page.dram Reg.dramCorrCnt + corrected.toNat) (2 ^ 32 - 1) ∧
        getR t Page.dram Reg.dramUncorrCnt = min (getR s Page.dram Reg.dramUncorrCnt + bad.length) (2 ^ 32 - 1) ∧
        (∀ a, bad.getLast? = some a → getR t Page.dram Reg.dramErrAddr = a.toNat / 8) ∧
        (∀ a ∈ bad, a.toNat / 8 ∈ t.boot.dramBad) ∧ Raised Page.dram Ev.dramScrubDone t ∧
        SameRegisters [Page.dram, Page.evt] s t ∧ SameMemory s t))

/-- For every command c and state s, a step of s with c at the front of its queue is exec of c on s with the queue's rest. On an empty queue the
block idles for one base tick, which is the model's choice (log entry 1). (R303) -/
def Obligations.StepTakesTheFrontCommand : Prop :=
  (∀ (c : Instr) (rest : List Instr) (s : State), step { s with pending := c :: rest } = exec c { s with pending := rest }) ∧
  (∀ s : State, s.pending = [] → step s = .next (baseTick s))

/-- A permitted read of a word of a register page whose offset lies in 0x040–0x2FF and is listed in no table answers 0, and a permitted write to it
changes no register and no memory. Neither is an error. (R10) -/
def Obligations.UnlistedOffsetsReadZero : Prop :=
  ∀ (s : State) (m : Master) (p : Byte) (off : Nat), kindOf p.toNat ≠ .none → 0x40 ≤ off → off < 0x300 → off % 4 = 0 →
    (∀ f ∈ pageFields p.toNat, f.off ≠ off) →
    let a : BitVec 48 := BitVec.ofNat 48 (p.toNat * 4096 + off)
    (Granted s m .read p.toNat off →
      Completes (.registerRead m a 4) s (fun t => t.sent = s.sent ++ [.answer m 0 0] ∧ t.event = s.event ∧ SameRegisters [] s t ∧ SameMemory s t)) ∧
    (∀ value : Word, Granted s m .write p.toNat off →
      Completes (.registerWrite m a (leBytes 4 value.toNat)) s (fun t => t.regs = s.regs ∧ t.event = s.event ∧ t.access = s.access ∧ SameMemory s t))

/-- A fault detected in a block that is already fenced, Newel included, starts no fence sequence and changes nothing but FAULT_CNT, which counts it.
(R438) -/
def Obligations.FaultInAFencedBlockIsOnlyCounted : Prop :=
  ∀ (s : State) (page cause : Byte), Running s → 1 ≤ cause.toNat → cause.toNat ≤ 8 → faultPage page.toNat = true → blockFenced s page.toNat = true →
    Completes (.fault page cause) s (fun t => Counted Page.evt Reg.evtFaultCnt s t ∧ t.event = s.event ∧
      SameFields Page.evt [Reg.evtFaultCnt] s t ∧ SameRegisters [Page.evt] s t ∧ SameMemory s t ∧ t = { s with regs := t.regs })

/-- Right after reset the invariant holds, every field of every page reads its Rst value, the queue is empty and every drawer slot is EMPTY. The
fuses of a part as delivered, and flash reading 0, are the model's choice (log entries 9 and 43) (R11, R102, R409, R426, R462) -/
def Obligations.ResetState : Prop :=
  State.reset.Wf ∧ State.reset.pending = [] ∧ (∀ p, ∀ f ∈ pageFields p, getR State.reset p f = f.rst) ∧
  (∀ n, drawerOf State.reset n = drawerEmpty) ∧ State.reset.key.lc = 0 ∧ State.reset.key.svcLeft = 63 ∧
  (∀ a, memRead State.reset.dram a = 0 ∧ memRead State.reset.image.committed a = 0 ∧ memRead State.reset.stair.active a = 0)

/-- In every state with the invariant, every step answers a next state; it has the invariant, and its queue is the queue without its front command.
So the byte memories stay in canonical form, the event log keeps its 256 latest entries and the journal writer holds at most 256 entries, whatever
command comes. (R435, R485) -/
def Obligations.EveryStepKeepsTheInvariant : Prop :=
  ∀ s : State, s.Wf → ∃ t, step s = .next t ∧ t.Wf ∧ t.pending = s.pending.drop 1
end

