-- ==== Sys2Proof/Laws/Store.lean ====
section
/-!
SUPPORT. Laws of the sparse tables and of byte memory: a read after a write, that a write leaves every other place alone, and that
every memory operation keeps the canonical form.
-/

namespace Sys2Proof.Machine

/-! ### Tables -/

@[simp] theorem storeFind_put_same {α : Type} (k : Nat) (v : α) (m : Store α) : storeFind k (storePut k v m) = some v := by
  induction m with
  | nil => simp [storePut, storeFind]
  | cons e m ih =>
    simp only [storePut]
    split
    · simp [storeFind]
    · split
      · simp [storeFind]
      · rename_i h2
        simp [storeFind, h2, ih]

@[simp] theorem storeFind_put_other {α : Type} {k j : Nat} (h : j ≠ k) (v : α) (m : Store α) :
    storeFind j (storePut k v m) = storeFind j m := by
  induction m with
  | nil => simp [storePut, storeFind, h]
  | cons e m ih =>
    simp only [storePut]
    split
    · simp [storeFind, h]
    · split
      · rename_i h2
        simp [storeFind, ← h2, h]
      · simp [storeFind, ih]

@[simp] theorem storeFind_del_same {α : Type} (k : Nat) (m : Store α) : storeFind k (storeDel k m) = none := by
  induction m with
  | nil => rfl
  | cons e m ih =>
    simp only [storeDel]
    split
    · exact ih
    · rename_i h
      simp [storeFind, h, ih]

@[simp] theorem storeFind_del_other {α : Type} {k j : Nat} (h : j ≠ k) (m : Store α) : storeFind j (storeDel k m) = storeFind j m := by
  induction m with
  | nil => rfl
  | cons e m ih =>
    simp only [storeDel]
    split
    · rename_i h2
      simp [storeFind, ih, ← h2, h]
    · simp [storeFind, ih]

@[simp] theorem storeGet_set_same {α : Type} [DecidableEq α] (d : α) (m : Store α) (k : Nat) (v : α) :
    storeGet d (storeSet d m k v) k = v := by
  unfold storeSet storeGet
  split <;> simp_all

@[simp] theorem storeGet_set_other {α : Type} [DecidableEq α] (d d' : α) (m : Store α) {k j : Nat} (h : j ≠ k) (v : α) :
    storeGet d' (storeSet d m k v) j = storeGet d' m j := by
  unfold storeSet storeGet
  split <;> simp [h]

@[simp] theorem storeGet_put_same {α : Type} (d : α) (m : Store α) (k : Nat) (v : α) : storeGet d (storePut k v m) k = v := by
  simp [storeGet]

@[simp] theorem storeGet_put_other {α : Type} (d : α) (m : Store α) {k j : Nat} (h : j ≠ k) (v : α) :
    storeGet d (storePut k v m) j = storeGet d m j := by
  simp [storeGet, h]

/-! ### Byte memory -/

@[simp] theorem memRead_write_same (m : Memory) (a : Nat) (b : Byte) : memRead (memWrite m a b) a = b := storeGet_set_same 0 m a b

@[simp] theorem memRead_write_other (m : Memory) {a c : Nat} (h : c ≠ a) (b : Byte) : memRead (memWrite m a b) c = memRead m c :=
  storeGet_set_other 0 0 m h b

/-- Bytes written from an address up leave every address outside them alone. -/
theorem memRead_writeN_outside (bs : List Byte) : ∀ (m : Memory) (a c : Nat), c < a ∨ a + bs.length ≤ c →
    memRead (memWriteN m a bs) c = memRead m c := by
  induction bs with
  | nil => intro m a c _; rfl
  | cons b bs ih =>
    intro m a c h
    simp only [List.length_cons] at h
    rw [memWriteN, ih _ _ _ (by omega), memRead_write_other _ (by omega)]

/-- The byte written at an offset from the address is read back there. -/
theorem memRead_writeN_inside (bs : List Byte) : ∀ (m : Memory) (a i : Nat) (h : i < bs.length),
    memRead (memWriteN m a bs) (a + i) = bs[i] := by
  induction bs with
  | nil => intro m a i h; simp at h
  | cons b bs ih =>
    intro m a i h
    cases i with
    | zero => rw [memWriteN, memRead_writeN_outside _ _ _ _ (by omega)]; simp
    | succ i =>
      have h' : i < bs.length := by simpa using h
      have := ih (memWrite m a b) (a + 1) i h'
      rw [memWriteN, show a + (i + 1) = a + 1 + i from by omega, this]
      simp

/-- Bytes read back where they were written. -/
theorem memReadN_writeN (bs : List Byte) : ∀ (m : Memory) (a : Nat), memReadN (memWriteN m a bs) a bs.length = bs := by
  induction bs with
  | nil => intro m a; rfl
  | cons b bs ih =>
    intro m a
    simp only [List.length_cons, memReadN, memWriteN]
    rw [ih, memRead_writeN_outside _ _ _ _ (by omega), memRead_write_same]

@[simp] theorem leBytes_length (n v : Nat) : (leBytes n v).length = n := by
  induction n generalizing v with
  | zero => rfl
  | succ n ih => simp [leBytes, ih]

/-! ### The canonical form -/

/-- Every listed address lies at or above a bound, in rising order, and no listed byte is 0. -/
def wfFrom : Nat → Memory → Prop
  | _, [] => True
  | lo, (a, b) :: m => lo ≤ a ∧ b ≠ 0 ∧ wfFrom (a + 1) m

theorem wfFrom_mono {lo lo' : Nat} (h : lo' ≤ lo) : ∀ {m : Memory}, wfFrom lo m → wfFrom lo' m
  | [], _ => trivial
  | _ :: _, hm => ⟨Nat.le_trans h hm.1, hm.2⟩

theorem memoryWf_iff : ∀ m : Memory, memoryWf m = true ↔ wfFrom 0 m
  | [] => by simp [memoryWf, wfFrom]
  | [(a, b)] => by simp [memoryWf, wfFrom]
  | (a, b) :: (a', b') :: m => by
    have ih := memoryWf_iff ((a', b') :: m)
    simp only [memoryWf, Bool.and_eq_true, decide_eq_true_eq, ih, wfFrom, Nat.zero_le, true_and, ne_eq]
    constructor
    · rintro ⟨⟨h1, h2⟩, h3⟩; exact ⟨h1, by omega, h3⟩
    · rintro ⟨h1, h2, h3⟩; exact ⟨⟨h1, by omega⟩, h3⟩

theorem wfFrom_put {a : Nat} {b : Byte} (hb : b ≠ 0) : ∀ {lo : Nat} {m : Memory}, lo ≤ a → wfFrom lo m → wfFrom lo (storePut a b m)
  | _, [], h, _ => ⟨h, hb, trivial⟩
  | lo, (a', b') :: m, h, hm => by
    simp only [storePut]
    split
    · exact ⟨h, hb, by omega, hm.2.1, hm.2.2⟩
    · split
      · rename_i h2; subst h2; exact ⟨h, hb, hm.2.2⟩
      · exact ⟨hm.1, hm.2.1, wfFrom_put hb (by omega) hm.2.2⟩

theorem wfFrom_del (a : Nat) : ∀ {lo : Nat} {m : Memory}, wfFrom lo m → wfFrom lo (storeDel a m)
  | _, [], _ => trivial
  | lo, (a', b') :: m, hm => by
    simp only [storeDel]
    split
    · exact wfFrom_del a (wfFrom_mono (by have := hm.1; omega) hm.2.2)
    · exact ⟨hm.1, hm.2.1, wfFrom_del a hm.2.2⟩

theorem memWrite_wf {m : Memory} (h : memoryWf m = true) (a : Nat) (b : Byte) : memoryWf (memWrite m a b) = true := by
  rw [memoryWf_iff] at *
  unfold memWrite storeSet
  split
  · exact wfFrom_del a h
  · exact wfFrom_put (by assumption) (Nat.zero_le _) h

theorem memWriteN_wf (bs : List Byte) : ∀ {m : Memory}, memoryWf m = true → ∀ a, memoryWf (memWriteN m a bs) = true := by
  induction bs with
  | nil => intro m h a; exact h
  | cons b bs ih => intro m h a; exact ih (memWrite_wf h a b) (a + 1)

theorem memPutNat_wf {m : Memory} (h : memoryWf m = true) (a n v : Nat) : memoryWf (memPutNat m a n v) = true := memWriteN_wf _ h a

theorem wfFrom_filter (p : Host.Cell → Bool) : ∀ {lo : Nat} {m : Memory}, wfFrom lo m → wfFrom lo (m.filter p)
  | _, [], _ => trivial
  | lo, (a, b) :: m, hm => by
    simp only [List.filter_cons]
    split
    · exact ⟨hm.1, hm.2.1, wfFrom_filter p hm.2.2⟩
    · exact wfFrom_mono (by have := hm.1; omega) (wfFrom_filter p hm.2.2)

theorem filter_wf {m : Memory} (h : memoryWf m = true) (p : Host.Cell → Bool) : memoryWf (m.filter p) = true := by
  rw [memoryWf_iff] at *
  exact wfFrom_filter p h

theorem memClear_wf {m : Memory} (h : memoryWf m = true) (a n : Nat) : memoryWf (memClear m a n) = true := filter_wf h _

theorem wfFrom_append {hi : Nat} : ∀ {lo : Nat} {m n : Memory}, wfFrom lo m → (∀ c ∈ m, c.1 < hi) → lo ≤ hi → wfFrom hi n → wfFrom lo (m ++ n)
  | _, [], _, _, _, h, hn => wfFrom_mono h hn
  | lo, (a, b) :: m, n, hm, hb, _, hn => by
    have ha : a < hi := hb (a, b) (by simp)
    exact ⟨hm.1, hm.2.1, wfFrom_append hm.2.2 (fun c hc => hb c (by simp [hc])) ha hn⟩

theorem wfFrom_cells (bs : List Byte) : ∀ a, wfFrom a (memCells a bs) ∧ ∀ c ∈ memCells a bs, c.1 < a + bs.length := by
  induction bs with
  | nil => intro a; exact ⟨trivial, fun c hc => by simp [memCells] at hc⟩
  | cons b bs ih =>
    intro a
    obtain ⟨h1, h2⟩ := ih (a + 1)
    simp only [memCells, List.length_cons]
    split
    · exact ⟨wfFrom_mono (by omega) h1, fun c hc => by have := h2 c hc; omega⟩
    · rename_i hb
      refine ⟨⟨Nat.le_refl a, hb, h1⟩, fun c hc => ?_⟩
      rcases List.mem_cons.mp hc with rfl | hc
      · show a < _; omega
      · have := h2 c hc; omega

theorem wfFrom_above (lo : Nat) : ∀ {k : Nat} {m : Memory}, wfFrom k m → wfFrom lo (m.filter fun c => lo ≤ c.1)
  | _, [], _ => trivial
  | k, (a, b) :: m, hm => by
    simp only [List.filter_cons]
    split
    · rename_i h
      refine ⟨by simpa using h, hm.2.1, ?_⟩
      exact wfFrom_filter _ hm.2.2
    · exact wfFrom_above lo hm.2.2

theorem memSplice_wf {m : Memory} (h : memoryWf m = true) (a : Nat) (bs : List Byte) : memoryWf (memSplice m a bs) = true := by
  rw [memoryWf_iff] at *
  obtain ⟨h1, h2⟩ := wfFrom_cells bs a
  unfold memSplice
  rw [List.append_assoc]
  refine wfFrom_append (hi := a) (wfFrom_filter _ h) (fun c hc => ?_) (Nat.zero_le _) ?_
  · simpa using (List.mem_filter.mp hc).2
  · exact wfFrom_append (hi := a + bs.length) h1 h2 (Nat.le_add_right _ _) (wfFrom_above _ h)

/-! ### Whole stretches -/

theorem storeFind_none {α : Type} {k : Nat} : ∀ {m : Store α}, (∀ c ∈ m, c.1 ≠ k) → storeFind k m = none
  | [], _ => rfl
  | (k', v) :: m, h => by
    have h0 : k ≠ k' := fun e => h (k', v) (by simp) e.symm
    simpa [storeFind, h0] using storeFind_none fun c hc => h c (by simp [hc])

theorem storeFind_append {α : Type} (k : Nat) (m n : Store α) : storeFind k (m ++ n) = (storeFind k m).or (storeFind k n) := by
  induction m with
  | nil => rfl
  | cons c m ih =>
    obtain ⟨k', v⟩ := c
    simp only [List.cons_append, storeFind]
    split <;> simp_all

/-- Nothing is listed where every key lies elsewhere. -/
theorem memRead_unlisted {m : Memory} {a : Nat} (h : ∀ c ∈ m, c.1 ≠ a) : memRead m a = 0 := by simp [memRead, storeGet, storeFind_none h]

theorem memReadN_getElem (m : Memory) (a n i : Nat) : (memReadN m a n)[i]? = if i < n then some (memRead m (a + i)) else none := by
  induction n generalizing a i with
  | zero => simp [memReadN]
  | succ n ih =>
    cases i with
    | zero => simp [memReadN]
    | succ i => simp [memReadN, ih, Nat.add_assoc, Nat.add_comm 1 i]

@[simp] theorem memReadN_length (m : Memory) (a n : Nat) : (memReadN m a n).length = n := by
  induction n generalizing a with
  | zero => rfl
  | succ n ih => simp [memReadN, ih]

/-- Two stretches that read alike at each offset are the same bytes. -/
theorem memReadN_congr {m m' : Memory} {a a' n : Nat} (h : ∀ i < n, memRead m (a + i) = memRead m' (a' + i)) :
    memReadN m a n = memReadN m' a' n := by
  apply List.ext_getElem?
  intro i
  simp only [memReadN_getElem]
  split
  · rw [h i ‹_›]
  · rfl

/-- The cells of a stretch lie in it. -/
theorem memCells_bound (bs : List Byte) : ∀ (a : Nat), ∀ c ∈ memCells a bs, a ≤ c.1 ∧ c.1 < a + bs.length := by
  induction bs with
  | nil => intro a c h; simp [memCells] at h
  | cons b bs ih =>
    intro a c h
    simp only [memCells] at h
    simp only [List.length_cons]
    split at h
    · have := ih (a + 1) c h; omega
    · rcases List.mem_cons.mp h with rfl | h
      · show a ≤ a ∧ a < _; omega
      · have := ih (a + 1) c h; omega

theorem memCells_find (bs : List Byte) : ∀ (a i : Nat), i < bs.length → (storeFind (a + i) (memCells a bs)).getD 0 = bs.getD i 0 := by
  induction bs with
  | nil => intro a i h; simp at h
  | cons b bs ih =>
    intro a i h
    have hout : ∀ c ∈ memCells (a + 1) bs, c.1 ≠ a := fun c hc => by
      have := ((memCells_bound bs (a + 1)) c hc).1; omega
    cases i with
    | zero =>
      simp only [memCells]
      split
      · rw [Nat.add_zero, storeFind_none hout]; simp_all
      · simp [storeFind]
    | succ i =>
      have e : a + (i + 1) = a + 1 + i := by omega
      have := ih (a + 1) i (by simpa using h)
      simp only [memCells]
      split
      · rw [e, this]; simp
      · rw [e, storeFind, if_neg (by omega), this]; simp

/-- A spliced stretch reads as its bytes. -/
theorem memRead_splice_inside (m : Memory) (a : Nat) (bs : List Byte) {i : Nat} (h : i < bs.length) :
    memRead (memSplice m a bs) (a + i) = bs.getD i 0 := by
  have h1 : storeFind (a + i) (m.filter fun c => c.1 < a) = none := storeFind_none fun c hc => by
    have := (List.mem_filter.mp hc).2; simp at this; omega
  have h3 : storeFind (a + i) (m.filter fun c => a + bs.length ≤ c.1) = none := storeFind_none fun c hc => by
    have := (List.mem_filter.mp hc).2; simp at this; omega
  rw [← memCells_find bs a i h, memRead, storeGet, memSplice, storeFind_append, storeFind_append, h1, h3]
  simp

/-- A stretch copied from another memory reads there as it reads here. -/
theorem memReadN_splice_copy (m d : Memory) (a b k n : Nat) {len : Nat} (h : k + n ≤ len) :
    memReadN (memSplice m b (memReadN d a len)) (b + k) n = memReadN d (a + k) n := by
  refine memReadN_congr fun i hi => ?_
  rw [Nat.add_assoc b, memRead_splice_inside _ _ _ (by simp; omega), List.getD_eq_getElem?_getD, memReadN_getElem, if_pos (by omega)]
  simp [Nat.add_assoc]

/-- Replacing a stretch leaves every address outside it alone. -/
theorem memRead_splice_outside (m : Memory) (a : Nat) (bs : List Byte) {c : Nat} (h : c < a ∨ a + bs.length ≤ c) :
    memRead (memSplice m a bs) c = memRead m c := by
  have h2 : storeFind c (memCells a bs) = none := storeFind_none fun e he => by
    have := memCells_bound bs a e he; omega
  rw [memRead, storeGet, memSplice, storeFind_append, storeFind_append, h2, Option.or_none, ← storeFind_append]
  have key : ∀ m : Memory, storeFind c ((m.filter fun e => e.1 < a) ++ m.filter fun e => a + bs.length ≤ e.1) = storeFind c m := by
    intro m
    induction m with
    | nil => rfl
    | cons e m ih =>
      obtain ⟨k, v⟩ := e
      rw [storeFind_append] at *
      simp only [List.filter_cons, storeFind]
      by_cases hk : c = k
      · subst hk
        rcases h with h | h
        · simp [storeFind, h]
        · have h' : ¬ c < a := by omega
          have hn : storeFind c (m.filter fun e => e.1 < a) = none := storeFind_none fun e he => by
            have := (List.mem_filter.mp he).2; simp at this; omega
          simp [storeFind, h, h', hn]
      · simp only [if_neg hk, ← ih]
        split <;> split <;> simp [storeFind, hk]
  rw [key]; rfl

end Sys2Proof.Machine
end

