-- ==== Sys2Proof/Laws/State.lean ====
section
/-!
SUPPORT. Laws of the state: what the named operations of Machine/Ops.lean leave alone, one lemma for each operation over every field of the state,
and what a register field reads as after them.
-/

namespace Sys2Proof.Machine

/-! ### Operations that touch register fields only -/

@[simp] theorem setBank_rest (b p : Nat) (f : Fld) (v : Nat) (s : State) :
    (setBank b p f v s).pending = s.pending ∧ (setBank b p f v s).latch = s.latch ∧ (setBank b p f v s).access = s.access ∧
    (setBank b p f v s).event = s.event ∧ (setBank b p f v s).time = s.time ∧ (setBank b p f v s).portE = s.portE ∧
    (setBank b p f v s).portW = s.portW ∧ (setBank b p f v s).stnE = s.stnE ∧ (setBank b p f v s).stnW = s.stnW ∧
    (setBank b p f v s).stair = s.stair ∧ (setBank b p f v s).image = s.image ∧ (setBank b p f v s).engines = s.engines ∧
    (setBank b p f v s).tileSafe = s.tileSafe ∧ (setBank b p f v s).cab = s.cab ∧ (setBank b p f v s).cans = s.cans ∧
    (setBank b p f v s).filters = s.filters ∧ (setBank b p f v s).filterHold = s.filterHold ∧ (setBank b p f v s).gov = s.gov ∧
    (setBank b p f v s).brk = s.brk ∧ (setBank b p f v s).key = s.key ∧ (setBank b p f v s).duplex = s.duplex ∧
    (setBank b p f v s).bridge = s.bridge ∧ (setBank b p f v s).boot = s.boot ∧ (setBank b p f v s).dram = s.dram ∧
    (setBank b p f v s).flash = s.flash ∧ (setBank b p f v s).sent = s.sent ∧ (setBank b p f v s).freeCtr = s.freeCtr := by
  and_intros <;> rfl

@[simp] theorem setR_rest (p : Nat) (f : Fld) (v : Nat) (s : State) :
    (setR p f v s).pending = s.pending ∧ (setR p f v s).latch = s.latch ∧ (setR p f v s).access = s.access ∧ (setR p f v s).event = s.event ∧
    (setR p f v s).time = s.time ∧ (setR p f v s).portE = s.portE ∧ (setR p f v s).portW = s.portW ∧ (setR p f v s).stnE = s.stnE ∧
    (setR p f v s).stnW = s.stnW ∧ (setR p f v s).stair = s.stair ∧ (setR p f v s).image = s.image ∧ (setR p f v s).engines = s.engines ∧
    (setR p f v s).tileSafe = s.tileSafe ∧ (setR p f v s).cab = s.cab ∧ (setR p f v s).cans = s.cans ∧ (setR p f v s).filters = s.filters ∧
    (setR p f v s).filterHold = s.filterHold ∧ (setR p f v s).gov = s.gov ∧ (setR p f v s).brk = s.brk ∧ (setR p f v s).key = s.key ∧
    (setR p f v s).duplex = s.duplex ∧ (setR p f v s).bridge = s.bridge ∧ (setR p f v s).boot = s.boot ∧ (setR p f v s).dram = s.dram ∧
    (setR p f v s).flash = s.flash ∧ (setR p f v s).sent = s.sent ∧ (setR p f v s).freeCtr = s.freeCtr := by
  and_intros <;> rfl

@[simp] theorem setFlag_rest (p : Nat) (f : Fld) (b : Bool) (s : State) :
    (setFlag p f b s).pending = s.pending ∧ (setFlag p f b s).latch = s.latch ∧ (setFlag p f b s).access = s.access ∧
    (setFlag p f b s).event = s.event ∧ (setFlag p f b s).time = s.time ∧ (setFlag p f b s).portE = s.portE ∧ (setFlag p f b s).portW = s.portW ∧
    (setFlag p f b s).stnE = s.stnE ∧ (setFlag p f b s).stnW = s.stnW ∧ (setFlag p f b s).stair = s.stair ∧ (setFlag p f b s).image = s.image ∧
    (setFlag p f b s).engines = s.engines ∧ (setFlag p f b s).tileSafe = s.tileSafe ∧ (setFlag p f b s).cab = s.cab ∧
    (setFlag p f b s).cans = s.cans ∧ (setFlag p f b s).filters = s.filters ∧ (setFlag p f b s).filterHold = s.filterHold ∧
    (setFlag p f b s).gov = s.gov ∧ (setFlag p f b s).brk = s.brk ∧ (setFlag p f b s).key = s.key ∧ (setFlag p f b s).duplex = s.duplex ∧
    (setFlag p f b s).bridge = s.bridge ∧ (setFlag p f b s).boot = s.boot ∧ (setFlag p f b s).dram = s.dram ∧ (setFlag p f b s).flash = s.flash ∧
    (setFlag p f b s).sent = s.sent ∧ (setFlag p f b s).freeCtr = s.freeCtr := by
  and_intros <;> rfl

@[simp] theorem addCnt_rest (p : Nat) (f : Fld) (n : Nat) (s : State) :
    (addCnt p f n s).pending = s.pending ∧ (addCnt p f n s).latch = s.latch ∧ (addCnt p f n s).access = s.access ∧ (addCnt p f n s).event = s.event ∧
    (addCnt p f n s).time = s.time ∧ (addCnt p f n s).portE = s.portE ∧ (addCnt p f n s).portW = s.portW ∧ (addCnt p f n s).stnE = s.stnE ∧
    (addCnt p f n s).stnW = s.stnW ∧ (addCnt p f n s).stair = s.stair ∧ (addCnt p f n s).image = s.image ∧ (addCnt p f n s).engines = s.engines ∧
    (addCnt p f n s).tileSafe = s.tileSafe ∧ (addCnt p f n s).cab = s.cab ∧ (addCnt p f n s).cans = s.cans ∧ (addCnt p f n s).filters = s.filters ∧
    (addCnt p f n s).filterHold = s.filterHold ∧ (addCnt p f n s).gov = s.gov ∧ (addCnt p f n s).brk = s.brk ∧ (addCnt p f n s).key = s.key ∧
    (addCnt p f n s).duplex = s.duplex ∧ (addCnt p f n s).bridge = s.bridge ∧ (addCnt p f n s).boot = s.boot ∧ (addCnt p f n s).dram = s.dram ∧
    (addCnt p f n s).flash = s.flash ∧ (addCnt p f n s).sent = s.sent ∧ (addCnt p f n s).freeCtr = s.freeCtr := by
  and_intros <;> rfl

@[simp] theorem incCnt_rest (p : Nat) (f : Fld) (s : State) :
    (incCnt p f s).pending = s.pending ∧ (incCnt p f s).latch = s.latch ∧ (incCnt p f s).access = s.access ∧ (incCnt p f s).event = s.event ∧
    (incCnt p f s).time = s.time ∧ (incCnt p f s).portE = s.portE ∧ (incCnt p f s).portW = s.portW ∧ (incCnt p f s).stnE = s.stnE ∧
    (incCnt p f s).stnW = s.stnW ∧ (incCnt p f s).stair = s.stair ∧ (incCnt p f s).image = s.image ∧ (incCnt p f s).engines = s.engines ∧
    (incCnt p f s).tileSafe = s.tileSafe ∧ (incCnt p f s).cab = s.cab ∧ (incCnt p f s).cans = s.cans ∧ (incCnt p f s).filters = s.filters ∧
    (incCnt p f s).filterHold = s.filterHold ∧ (incCnt p f s).gov = s.gov ∧ (incCnt p f s).brk = s.brk ∧ (incCnt p f s).key = s.key ∧
    (incCnt p f s).duplex = s.duplex ∧ (incCnt p f s).bridge = s.bridge ∧ (incCnt p f s).boot = s.boot ∧ (incCnt p f s).dram = s.dram ∧
    (incCnt p f s).flash = s.flash ∧ (incCnt p f s).sent = s.sent ∧ (incCnt p f s).freeCtr = s.freeCtr := by
  and_intros <;> rfl

@[simp] theorem incWrap_rest (p : Nat) (f : Fld) (s : State) :
    (incWrap p f s).pending = s.pending ∧ (incWrap p f s).latch = s.latch ∧ (incWrap p f s).access = s.access ∧ (incWrap p f s).event = s.event ∧
    (incWrap p f s).time = s.time ∧ (incWrap p f s).portE = s.portE ∧ (incWrap p f s).portW = s.portW ∧ (incWrap p f s).stnE = s.stnE ∧
    (incWrap p f s).stnW = s.stnW ∧ (incWrap p f s).stair = s.stair ∧ (incWrap p f s).image = s.image ∧ (incWrap p f s).engines = s.engines ∧
    (incWrap p f s).tileSafe = s.tileSafe ∧ (incWrap p f s).cab = s.cab ∧ (incWrap p f s).cans = s.cans ∧ (incWrap p f s).filters = s.filters ∧
    (incWrap p f s).filterHold = s.filterHold ∧ (incWrap p f s).gov = s.gov ∧ (incWrap p f s).brk = s.brk ∧ (incWrap p f s).key = s.key ∧
    (incWrap p f s).duplex = s.duplex ∧ (incWrap p f s).bridge = s.bridge ∧ (incWrap p f s).boot = s.boot ∧ (incWrap p f s).dram = s.dram ∧
    (incWrap p f s).flash = s.flash ∧ (incWrap p f s).sent = s.sent ∧ (incWrap p f s).freeCtr = s.freeCtr := by
  and_intros <;> rfl

@[simp] theorem setPair_rest (p : Nat) (lo hi : Fld) (v : Nat) (s : State) :
    (setPair p lo hi v s).pending = s.pending ∧ (setPair p lo hi v s).latch = s.latch ∧ (setPair p lo hi v s).access = s.access ∧
    (setPair p lo hi v s).event = s.event ∧ (setPair p lo hi v s).time = s.time ∧ (setPair p lo hi v s).portE = s.portE ∧
    (setPair p lo hi v s).portW = s.portW ∧ (setPair p lo hi v s).stnE = s.stnE ∧ (setPair p lo hi v s).stnW = s.stnW ∧
    (setPair p lo hi v s).stair = s.stair ∧ (setPair p lo hi v s).image = s.image ∧ (setPair p lo hi v s).engines = s.engines ∧
    (setPair p lo hi v s).tileSafe = s.tileSafe ∧ (setPair p lo hi v s).cab = s.cab ∧ (setPair p lo hi v s).cans = s.cans ∧
    (setPair p lo hi v s).filters = s.filters ∧ (setPair p lo hi v s).filterHold = s.filterHold ∧ (setPair p lo hi v s).gov = s.gov ∧
    (setPair p lo hi v s).brk = s.brk ∧ (setPair p lo hi v s).key = s.key ∧ (setPair p lo hi v s).duplex = s.duplex ∧
    (setPair p lo hi v s).bridge = s.bridge ∧ (setPair p lo hi v s).boot = s.boot ∧ (setPair p lo hi v s).dram = s.dram ∧
    (setPair p lo hi v s).flash = s.flash ∧ (setPair p lo hi v s).sent = s.sent ∧ (setPair p lo hi v s).freeCtr = s.freeCtr := by
  and_intros <;> rfl

@[simp] theorem addPair_rest (p : Nat) (lo hi : Fld) (n : Nat) (s : State) :
    (addPair p lo hi n s).pending = s.pending ∧ (addPair p lo hi n s).latch = s.latch ∧ (addPair p lo hi n s).access = s.access ∧
    (addPair p lo hi n s).event = s.event ∧ (addPair p lo hi n s).time = s.time ∧ (addPair p lo hi n s).portE = s.portE ∧
    (addPair p lo hi n s).portW = s.portW ∧ (addPair p lo hi n s).stnE = s.stnE ∧ (addPair p lo hi n s).stnW = s.stnW ∧
    (addPair p lo hi n s).stair = s.stair ∧ (addPair p lo hi n s).image = s.image ∧ (addPair p lo hi n s).engines = s.engines ∧
    (addPair p lo hi n s).tileSafe = s.tileSafe ∧ (addPair p lo hi n s).cab = s.cab ∧ (addPair p lo hi n s).cans = s.cans ∧
    (addPair p lo hi n s).filters = s.filters ∧ (addPair p lo hi n s).filterHold = s.filterHold ∧ (addPair p lo hi n s).gov = s.gov ∧
    (addPair p lo hi n s).brk = s.brk ∧ (addPair p lo hi n s).key = s.key ∧ (addPair p lo hi n s).duplex = s.duplex ∧
    (addPair p lo hi n s).bridge = s.bridge ∧ (addPair p lo hi n s).boot = s.boot ∧ (addPair p lo hi n s).dram = s.dram ∧
    (addPair p lo hi n s).flash = s.flash ∧ (addPair p lo hi n s).sent = s.sent ∧ (addPair p lo hi n s).freeCtr = s.freeCtr := by
  and_intros <;> rfl

/-! ### Operations in general: what they keep, said of any reading of the state -/

theorem whenS_keep {α : Type} (proj : State → α) {f : State → State} (h : ∀ u, proj (f u) = proj u) (b : Bool) (s : State) :
    proj (whenS b f s) = proj s := by
  unfold whenS
  split
  · exact h s
  · rfl

theorem foldl_keep {α β : Type} (proj : State → α) {f : State → β → State} (h : ∀ u x, proj (f u x) = proj u) :
    ∀ (xs : List β) (s : State), proj (xs.foldl f s) = proj s
  | [], _ => rfl
  | x :: xs, s => (foldl_keep proj h xs (f s x)).trans (h s x)

theorem forEach_keep {α β : Type} (proj : State → α) {f : β → State → State} (h : ∀ x u, proj (f x u) = proj u) (xs : List β) (s : State) :
    proj (forEach xs f s) = proj s := foldl_keep proj (fun u x => h x u) xs s

/-- A reading of the state that register writes leave alone is left alone by clearAll. -/
theorem clearAll_keep {α : Type} (proj : State → α) (p : Nat) (fs : List Fld) (h : ∀ f ∈ fs, ∀ v u, proj (setR p f v u) = proj u) (s : State) :
    proj (clearAll p fs s) = proj s := by
  unfold clearAll
  induction fs generalizing s with
  | nil => rfl
  | cons f fs ih =>
    simp only [List.foldl_cons]
    exact (ih (fun g hg => h g (List.mem_cons_of_mem _ hg)) _).trans (h f List.mem_cons_self _ _)

/-- What raising a group touches: ASSERT_TIME, the MSI-X table's pending bits, and what is sent. -/
theorem raiseGroup_keep {α : Type} (proj : State → α) (he : ∀ u e, proj { u with event := e } = proj u)
    (ho : ∀ u o, proj { u with sent := o } = proj u) (g : Nat) (s : State) : proj (raiseGroup g s) = proj s := by
  have hm : ∀ v u, proj (sendMsix v u) = proj u := by
    intro v u
    unfold sendMsix
    dsimp only
    split
    · exact he u _
    · exact ho u _
  have hn : ∀ o u, proj (emit o u) = proj u := fun o u => ho u _
  unfold raiseGroup
  rw [whenS_keep proj (hn _), whenS_keep proj (hm _)]
  exact he s _

/-- What setting sticky bits touches: the page's EVT_STICKY, LOG_SEQ, the event state, and what is sent. -/
theorem setSticky_keep {α : Type} (proj : State → α) (he : ∀ u e, proj { u with event := e } = proj u)
    (ho : ∀ u o, proj { u with sent := o } = proj u) (p : Nat) (hr : ∀ u v, proj (setR p Reg.comEvtSticky v u) = proj u)
    (hl : ∀ u v, proj (setR Page.evt Reg.evtLogSeq v u) = proj u) (mask : Nat) (s : State) : proj (setSticky p mask s) = proj s := by
  have hlog : ∀ src u, proj (logEvent src u) = proj u := by
    intro src u
    unfold logEvent incWrap
    exact (hl _ _).trans (he u _)
  unfold setSticky raiseChanged
  dsimp only
  split
  · rfl
  · rw [forEach_keep proj (fun g u => raiseGroup_keep proj he ho g u), forEach_keep proj (fun i u => hlog _ u), hr]

theorem raiseEv_keep {α : Type} (proj : State → α) (he : ∀ u e, proj { u with event := e } = proj u)
    (ho : ∀ u o, proj { u with sent := o } = proj u) (p : Nat) (hr : ∀ u v, proj (setR p Reg.comEvtSticky v u) = proj u)
    (hl : ∀ u v, proj (setR Page.evt Reg.evtLogSeq v u) = proj u) (i : Nat) (s : State) : proj (raiseEv p i s) = proj s :=
  setSticky_keep proj he ho p hr hl _ s

theorem raiseIf_keep {α : Type} (proj : State → α) (he : ∀ u e, proj { u with event := e } = proj u)
    (ho : ∀ u o, proj { u with sent := o } = proj u) (p : Nat) (hr : ∀ u v, proj (setR p Reg.comEvtSticky v u) = proj u)
    (hl : ∀ u v, proj (setR Page.evt Reg.evtLogSeq v u) = proj u) (b : Bool) (i : Nat) (s : State) : proj (raiseIf b p i s) = proj s := by
  unfold raiseIf
  split
  · exact raiseEv_keep proj he ho p hr hl i s
  · rfl

theorem setLevel_keep {α : Type} (proj : State → α) (he : ∀ u e, proj { u with event := e } = proj u)
    (ho : ∀ u o, proj { u with sent := o } = proj u) (p : Nat) (hr : ∀ u v, proj (setR p Reg.comEvtSticky v u) = proj u)
    (hw : ∀ u v, proj (setR p Reg.comEvtRaw v u) = proj u) (hl : ∀ u v, proj (setR Page.evt Reg.evtLogSeq v u) = proj u)
    (i : Nat) (b : Bool) (s : State) : proj (setLevel p i b s) = proj s := by
  unfold setLevel
  dsimp only
  split
  · exact (setSticky_keep proj he ho p hr hl _ _).trans (hw _ _)
  · exact hw _ _

/-- What an entry of the journal touches: DRAM, JRNL's HEAD and STATUS, the entries held, and the start of a checkpoint. -/
theorem journal_keep {α : Type} (proj : State → α) (he : ∀ u e, proj { u with event := e } = proj u)
    (hd : ∀ u m, proj { u with dram := m } = proj u) (hb : ∀ u b, proj { u with boot := b } = proj u)
    (hr : ∀ u f v, f = Reg.jrnlHeadLoSeq ∨ f = Reg.jrnlHeadHi ∨ f = Reg.jrnlStatusEntries ∨ f = Reg.jrnlStatusCkptBusy →
      proj (setR Page.jrnl f v u) = proj u)
    (who : Option Master) (cls target value result : Nat) (s : State) : proj (journal who cls target value result s) = proj s := by
  have hc : ∀ u, proj (startCheckpoint u) = proj u := by
    intro u
    unfold startCheckpoint setFlag
    split
    · rfl
    · rw [hr _ _ _ (by simp), hb]
  unfold journal
  dsimp only
  split
  · rw [hr _ _ _ (by simp), he]
  · unfold journalWrite setPair
    dsimp only
    rw [whenS_keep proj hc, hr _ _ _ (by simp), hr _ _ _ (by simp)]
    exact (hb _ _).trans (hd _ _)

/-! ### The fields of the state that events, the journal and what is sent leave alone -/

@[simp] theorem raiseGroup_rest (g : Nat) (s : State) :
    (raiseGroup g s).pending = s.pending ∧ (raiseGroup g s).regs = s.regs ∧ (raiseGroup g s).latch = s.latch ∧ (raiseGroup g s).access = s.access ∧
    (raiseGroup g s).time = s.time ∧ (raiseGroup g s).portE = s.portE ∧ (raiseGroup g s).portW = s.portW ∧ (raiseGroup g s).stnE = s.stnE ∧
    (raiseGroup g s).stnW = s.stnW ∧ (raiseGroup g s).stair = s.stair ∧ (raiseGroup g s).image = s.image ∧ (raiseGroup g s).engines = s.engines ∧
    (raiseGroup g s).tileSafe = s.tileSafe ∧ (raiseGroup g s).cab = s.cab ∧ (raiseGroup g s).cans = s.cans ∧ (raiseGroup g s).filters = s.filters ∧
    (raiseGroup g s).filterHold = s.filterHold ∧ (raiseGroup g s).gov = s.gov ∧ (raiseGroup g s).brk = s.brk ∧ (raiseGroup g s).key = s.key ∧
    (raiseGroup g s).duplex = s.duplex ∧ (raiseGroup g s).bridge = s.bridge ∧ (raiseGroup g s).boot = s.boot ∧ (raiseGroup g s).dram = s.dram ∧
    (raiseGroup g s).flash = s.flash ∧ (raiseGroup g s).freeCtr = s.freeCtr :=
  ⟨raiseGroup_keep (·.pending) (fun _ _ => rfl) (fun _ _ => rfl) g s,
   raiseGroup_keep (·.regs) (fun _ _ => rfl) (fun _ _ => rfl) g s,
   raiseGroup_keep (·.latch) (fun _ _ => rfl) (fun _ _ => rfl) g s,
   raiseGroup_keep (·.access) (fun _ _ => rfl) (fun _ _ => rfl) g s,
   raiseGroup_keep (·.time) (fun _ _ => rfl) (fun _ _ => rfl) g s,
   raiseGroup_keep (·.portE) (fun _ _ => rfl) (fun _ _ => rfl) g s,
   raiseGroup_keep (·.portW) (fun _ _ => rfl) (fun _ _ => rfl) g s,
   raiseGroup_keep (·.stnE) (fun _ _ => rfl) (fun _ _ => rfl) g s,
   raiseGroup_keep (·.stnW) (fun _ _ => rfl) (fun _ _ => rfl) g s,
   raiseGroup_keep (·.stair) (fun _ _ => rfl) (fun _ _ => rfl) g s,
   raiseGroup_keep (·.image) (fun _ _ => rfl) (fun _ _ => rfl) g s,
   raiseGroup_keep (·.engines) (fun _ _ => rfl) (fun _ _ => rfl) g s,
   raiseGroup_keep (·.tileSafe) (fun _ _ => rfl) (fun _ _ => rfl) g s,
   raiseGroup_keep (·.cab) (fun _ _ => rfl) (fun _ _ => rfl) g s,
   raiseGroup_keep (·.cans) (fun _ _ => rfl) (fun _ _ => rfl) g s,
   raiseGroup_keep (·.filters) (fun _ _ => rfl) (fun _ _ => rfl) g s,
   raiseGroup_keep (·.filterHold) (fun _ _ => rfl) (fun _ _ => rfl) g s,
   raiseGroup_keep (·.gov) (fun _ _ => rfl) (fun _ _ => rfl) g s,
   raiseGroup_keep (·.brk) (fun _ _ => rfl) (fun _ _ => rfl) g s,
   raiseGroup_keep (·.key) (fun _ _ => rfl) (fun _ _ => rfl) g s,
   raiseGroup_keep (·.duplex) (fun _ _ => rfl) (fun _ _ => rfl) g s,
   raiseGroup_keep (·.bridge) (fun _ _ => rfl) (fun _ _ => rfl) g s,
   raiseGroup_keep (·.boot) (fun _ _ => rfl) (fun _ _ => rfl) g s,
   raiseGroup_keep (·.dram) (fun _ _ => rfl) (fun _ _ => rfl) g s,
   raiseGroup_keep (·.flash) (fun _ _ => rfl) (fun _ _ => rfl) g s,
   raiseGroup_keep (·.freeCtr) (fun _ _ => rfl) (fun _ _ => rfl) g s⟩

@[simp] theorem setSticky_rest (p mask : Nat) (s : State) :
    (setSticky p mask s).pending = s.pending ∧ (setSticky p mask s).latch = s.latch ∧ (setSticky p mask s).access = s.access ∧
    (setSticky p mask s).time = s.time ∧ (setSticky p mask s).portE = s.portE ∧ (setSticky p mask s).portW = s.portW ∧
    (setSticky p mask s).stnE = s.stnE ∧ (setSticky p mask s).stnW = s.stnW ∧ (setSticky p mask s).stair = s.stair ∧
    (setSticky p mask s).image = s.image ∧ (setSticky p mask s).engines = s.engines ∧ (setSticky p mask s).tileSafe = s.tileSafe ∧
    (setSticky p mask s).cab = s.cab ∧ (setSticky p mask s).cans = s.cans ∧ (setSticky p mask s).filters = s.filters ∧
    (setSticky p mask s).filterHold = s.filterHold ∧ (setSticky p mask s).gov = s.gov ∧ (setSticky p mask s).brk = s.brk ∧
    (setSticky p mask s).key = s.key ∧ (setSticky p mask s).duplex = s.duplex ∧ (setSticky p mask s).bridge = s.bridge ∧
    (setSticky p mask s).boot = s.boot ∧ (setSticky p mask s).dram = s.dram ∧ (setSticky p mask s).flash = s.flash ∧
    (setSticky p mask s).freeCtr = s.freeCtr :=
  ⟨setSticky_keep (·.pending) (fun _ _ => rfl) (fun _ _ => rfl) p (fun _ _ => rfl) (fun _ _ => rfl) mask s,
   setSticky_keep (·.latch) (fun _ _ => rfl) (fun _ _ => rfl) p (fun _ _ => rfl) (fun _ _ => rfl) mask s,
   setSticky_keep (·.access) (fun _ _ => rfl) (fun _ _ => rfl) p (fun _ _ => rfl) (fun _ _ => rfl) mask s,
   setSticky_keep (·.time) (fun _ _ => rfl) (fun _ _ => rfl) p (fun _ _ => rfl) (fun _ _ => rfl) mask s,
   setSticky_keep (·.portE) (fun _ _ => rfl) (fun _ _ => rfl) p (fun _ _ => rfl) (fun _ _ => rfl) mask s,
   setSticky_keep (·.portW) (fun _ _ => rfl) (fun _ _ => rfl) p (fun _ _ => rfl) (fun _ _ => rfl) mask s,
   setSticky_keep (·.stnE) (fun _ _ => rfl) (fun _ _ => rfl) p (fun _ _ => rfl) (fun _ _ => rfl) mask s,
   setSticky_keep (·.stnW) (fun _ _ => rfl) (fun _ _ => rfl) p (fun _ _ => rfl) (fun _ _ => rfl) mask s,
   setSticky_keep (·.stair) (fun _ _ => rfl) (fun _ _ => rfl) p (fun _ _ => rfl) (fun _ _ => rfl) mask s,
   setSticky_keep (·.image) (fun _ _ => rfl) (fun _ _ => rfl) p (fun _ _ => rfl) (fun _ _ => rfl) mask s,
   setSticky_keep (·.engines) (fun _ _ => rfl) (fun _ _ => rfl) p (fun _ _ => rfl) (fun _ _ => rfl) mask s,
   setSticky_keep (·.tileSafe) (fun _ _ => rfl) (fun _ _ => rfl) p (fun _ _ => rfl) (fun _ _ => rfl) mask s,
   setSticky_keep (·.cab) (fun _ _ => rfl) (fun _ _ => rfl) p (fun _ _ => rfl) (fun _ _ => rfl) mask s,
   setSticky_keep (·.cans) (fun _ _ => rfl) (fun _ _ => rfl) p (fun _ _ => rfl) (fun _ _ => rfl) mask s,
   setSticky_keep (·.filters) (fun _ _ => rfl) (fun _ _ => rfl) p (fun _ _ => rfl) (fun _ _ => rfl) mask s,
   setSticky_keep (·.filterHold) (fun _ _ => rfl) (fun _ _ => rfl) p (fun _ _ => rfl) (fun _ _ => rfl) mask s,
   setSticky_keep (·.gov) (fun _ _ => rfl) (fun _ _ => rfl) p (fun _ _ => rfl) (fun _ _ => rfl) mask s,
   setSticky_keep (·.brk) (fun _ _ => rfl) (fun _ _ => rfl) p (fun _ _ => rfl) (fun _ _ => rfl) mask s,
   setSticky_keep (·.key) (fun _ _ => rfl) (fun _ _ => rfl) p (fun _ _ => rfl) (fun _ _ => rfl) mask s,
   setSticky_keep (·.duplex) (fun _ _ => rfl) (fun _ _ => rfl) p (fun _ _ => rfl) (fun _ _ => rfl) mask s,
   setSticky_keep (·.bridge) (fun _ _ => rfl) (fun _ _ => rfl) p (fun _ _ => rfl) (fun _ _ => rfl) mask s,
   setSticky_keep (·.boot) (fun _ _ => rfl) (fun _ _ => rfl) p (fun _ _ => rfl) (fun _ _ => rfl) mask s,
   setSticky_keep (·.dram) (fun _ _ => rfl) (fun _ _ => rfl) p (fun _ _ => rfl) (fun _ _ => rfl) mask s,
   setSticky_keep (·.flash) (fun _ _ => rfl) (fun _ _ => rfl) p (fun _ _ => rfl) (fun _ _ => rfl) mask s,
   setSticky_keep (·.freeCtr) (fun _ _ => rfl) (fun _ _ => rfl) p (fun _ _ => rfl) (fun _ _ => rfl) mask s⟩

@[simp] theorem raiseEv_rest (p i : Nat) (s : State) :
    (raiseEv p i s).pending = s.pending ∧ (raiseEv p i s).latch = s.latch ∧ (raiseEv p i s).access = s.access ∧ (raiseEv p i s).time = s.time ∧
    (raiseEv p i s).portE = s.portE ∧ (raiseEv p i s).portW = s.portW ∧ (raiseEv p i s).stnE = s.stnE ∧ (raiseEv p i s).stnW = s.stnW ∧
    (raiseEv p i s).stair = s.stair ∧ (raiseEv p i s).image = s.image ∧ (raiseEv p i s).engines = s.engines ∧ (raiseEv p i s).tileSafe = s.tileSafe ∧
    (raiseEv p i s).cab = s.cab ∧ (raiseEv p i s).cans = s.cans ∧ (raiseEv p i s).filters = s.filters ∧ (raiseEv p i s).filterHold = s.filterHold ∧
    (raiseEv p i s).gov = s.gov ∧ (raiseEv p i s).brk = s.brk ∧ (raiseEv p i s).key = s.key ∧ (raiseEv p i s).duplex = s.duplex ∧
    (raiseEv p i s).bridge = s.bridge ∧ (raiseEv p i s).boot = s.boot ∧ (raiseEv p i s).dram = s.dram ∧ (raiseEv p i s).flash = s.flash ∧
    (raiseEv p i s).freeCtr = s.freeCtr := setSticky_rest p _ s

@[simp] theorem raiseIf_rest (b : Bool) (p i : Nat) (s : State) :
    (raiseIf b p i s).pending = s.pending ∧ (raiseIf b p i s).latch = s.latch ∧ (raiseIf b p i s).access = s.access ∧
    (raiseIf b p i s).time = s.time ∧ (raiseIf b p i s).portE = s.portE ∧ (raiseIf b p i s).portW = s.portW ∧ (raiseIf b p i s).stnE = s.stnE ∧
    (raiseIf b p i s).stnW = s.stnW ∧ (raiseIf b p i s).stair = s.stair ∧ (raiseIf b p i s).image = s.image ∧ (raiseIf b p i s).engines = s.engines ∧
    (raiseIf b p i s).tileSafe = s.tileSafe ∧ (raiseIf b p i s).cab = s.cab ∧ (raiseIf b p i s).cans = s.cans ∧
    (raiseIf b p i s).filters = s.filters ∧ (raiseIf b p i s).filterHold = s.filterHold ∧ (raiseIf b p i s).gov = s.gov ∧
    (raiseIf b p i s).brk = s.brk ∧ (raiseIf b p i s).key = s.key ∧ (raiseIf b p i s).duplex = s.duplex ∧ (raiseIf b p i s).bridge = s.bridge ∧
    (raiseIf b p i s).boot = s.boot ∧ (raiseIf b p i s).dram = s.dram ∧ (raiseIf b p i s).flash = s.flash ∧ (raiseIf b p i s).freeCtr = s.freeCtr := by
  unfold raiseIf
  split
  · exact raiseEv_rest p i s
  · simp

@[simp] theorem setLevel_rest (p i : Nat) (b : Bool) (s : State) :
    (setLevel p i b s).pending = s.pending ∧ (setLevel p i b s).latch = s.latch ∧ (setLevel p i b s).access = s.access ∧
    (setLevel p i b s).time = s.time ∧ (setLevel p i b s).portE = s.portE ∧ (setLevel p i b s).portW = s.portW ∧ (setLevel p i b s).stnE = s.stnE ∧
    (setLevel p i b s).stnW = s.stnW ∧ (setLevel p i b s).stair = s.stair ∧ (setLevel p i b s).image = s.image ∧
    (setLevel p i b s).engines = s.engines ∧ (setLevel p i b s).tileSafe = s.tileSafe ∧ (setLevel p i b s).cab = s.cab ∧
    (setLevel p i b s).cans = s.cans ∧ (setLevel p i b s).filters = s.filters ∧ (setLevel p i b s).filterHold = s.filterHold ∧
    (setLevel p i b s).gov = s.gov ∧ (setLevel p i b s).brk = s.brk ∧ (setLevel p i b s).key = s.key ∧ (setLevel p i b s).duplex = s.duplex ∧
    (setLevel p i b s).bridge = s.bridge ∧ (setLevel p i b s).boot = s.boot ∧ (setLevel p i b s).dram = s.dram ∧ (setLevel p i b s).flash = s.flash ∧
    (setLevel p i b s).freeCtr = s.freeCtr := by
  unfold setLevel
  dsimp only
  split <;> simp

@[simp] theorem journal_rest (who : Option Master) (cls target value result : Nat) (s : State) :
    (journal who cls target value result s).pending = s.pending ∧ (journal who cls target value result s).latch = s.latch ∧
    (journal who cls target value result s).access = s.access ∧ (journal who cls target value result s).time = s.time ∧
    (journal who cls target value result s).portE = s.portE ∧ (journal who cls target value result s).portW = s.portW ∧
    (journal who cls target value result s).stnE = s.stnE ∧ (journal who cls target value result s).stnW = s.stnW ∧
    (journal who cls target value result s).stair = s.stair ∧ (journal who cls target value result s).image = s.image ∧
    (journal who cls target value result s).engines = s.engines ∧ (journal who cls target value result s).tileSafe = s.tileSafe ∧
    (journal who cls target value result s).cab = s.cab ∧ (journal who cls target value result s).cans = s.cans ∧
    (journal who cls target value result s).filters = s.filters ∧ (journal who cls target value result s).filterHold = s.filterHold ∧
    (journal who cls target value result s).gov = s.gov ∧ (journal who cls target value result s).brk = s.brk ∧
    (journal who cls target value result s).key = s.key ∧ (journal who cls target value result s).duplex = s.duplex ∧
    (journal who cls target value result s).bridge = s.bridge ∧ (journal who cls target value result s).flash = s.flash ∧
    (journal who cls target value result s).sent = s.sent ∧ (journal who cls target value result s).freeCtr = s.freeCtr :=
  ⟨journal_keep (·.pending) (fun _ _ => rfl) (fun _ _ => rfl) (fun _ _ => rfl) (fun _ _ _ _ => rfl) who cls target value result s,
   journal_keep (·.latch) (fun _ _ => rfl) (fun _ _ => rfl) (fun _ _ => rfl) (fun _ _ _ _ => rfl) who cls target value result s,
   journal_keep (·.access) (fun _ _ => rfl) (fun _ _ => rfl) (fun _ _ => rfl) (fun _ _ _ _ => rfl) who cls target value result s,
   journal_keep (·.time) (fun _ _ => rfl) (fun _ _ => rfl) (fun _ _ => rfl) (fun _ _ _ _ => rfl) who cls target value result s,
   journal_keep (·.portE) (fun _ _ => rfl) (fun _ _ => rfl) (fun _ _ => rfl) (fun _ _ _ _ => rfl) who cls target value result s,
   journal_keep (·.portW) (fun _ _ => rfl) (fun _ _ => rfl) (fun _ _ => rfl) (fun _ _ _ _ => rfl) who cls target value result s,
   journal_keep (·.stnE) (fun _ _ => rfl) (fun _ _ => rfl) (fun _ _ => rfl) (fun _ _ _ _ => rfl) who cls target value result s,
   journal_keep (·.stnW) (fun _ _ => rfl) (fun _ _ => rfl) (fun _ _ => rfl) (fun _ _ _ _ => rfl) who cls target value result s,
   journal_keep (·.stair) (fun _ _ => rfl) (fun _ _ => rfl) (fun _ _ => rfl) (fun _ _ _ _ => rfl) who cls target value result s,
   journal_keep (·.image) (fun _ _ => rfl) (fun _ _ => rfl) (fun _ _ => rfl) (fun _ _ _ _ => rfl) who cls target value result s,
   journal_keep (·.engines) (fun _ _ => rfl) (fun _ _ => rfl) (fun _ _ => rfl) (fun _ _ _ _ => rfl) who cls target value result s,
   journal_keep (·.tileSafe) (fun _ _ => rfl) (fun _ _ => rfl) (fun _ _ => rfl) (fun _ _ _ _ => rfl) who cls target value result s,
   journal_keep (·.cab) (fun _ _ => rfl) (fun _ _ => rfl) (fun _ _ => rfl) (fun _ _ _ _ => rfl) who cls target value result s,
   journal_keep (·.cans) (fun _ _ => rfl) (fun _ _ => rfl) (fun _ _ => rfl) (fun _ _ _ _ => rfl) who cls target value result s,
   journal_keep (·.filters) (fun _ _ => rfl) (fun _ _ => rfl) (fun _ _ => rfl) (fun _ _ _ _ => rfl) who cls target value result s,
   journal_keep (·.filterHold) (fun _ _ => rfl) (fun _ _ => rfl) (fun _ _ => rfl) (fun _ _ _ _ => rfl) who cls target value result s,
   journal_keep (·.gov) (fun _ _ => rfl) (fun _ _ => rfl) (fun _ _ => rfl) (fun _ _ _ _ => rfl) who cls target value result s,
   journal_keep (·.brk) (fun _ _ => rfl) (fun _ _ => rfl) (fun _ _ => rfl) (fun _ _ _ _ => rfl) who cls target value result s,
   journal_keep (·.key) (fun _ _ => rfl) (fun _ _ => rfl) (fun _ _ => rfl) (fun _ _ _ _ => rfl) who cls target value result s,
   journal_keep (·.duplex) (fun _ _ => rfl) (fun _ _ => rfl) (fun _ _ => rfl) (fun _ _ _ _ => rfl) who cls target value result s,
   journal_keep (·.bridge) (fun _ _ => rfl) (fun _ _ => rfl) (fun _ _ => rfl) (fun _ _ _ _ => rfl) who cls target value result s,
   journal_keep (·.flash) (fun _ _ => rfl) (fun _ _ => rfl) (fun _ _ => rfl) (fun _ _ _ _ => rfl) who cls target value result s,
   journal_keep (·.sent) (fun _ _ => rfl) (fun _ _ => rfl) (fun _ _ => rfl) (fun _ _ _ _ => rfl) who cls target value result s,
   journal_keep (·.freeCtr) (fun _ _ => rfl) (fun _ _ => rfl) (fun _ _ => rfl) (fun _ _ _ _ => rfl) who cls target value result s⟩

@[simp] theorem journalRefused_rest (who : Option Master) (cls target value : Nat) (s : State) :
    (journalRefused who cls target value s).pending = s.pending ∧ (journalRefused who cls target value s).latch = s.latch ∧
    (journalRefused who cls target value s).access = s.access ∧ (journalRefused who cls target value s).time = s.time ∧
    (journalRefused who cls target value s).portE = s.portE ∧ (journalRefused who cls target value s).portW = s.portW ∧
    (journalRefused who cls target value s).stnE = s.stnE ∧ (journalRefused who cls target value s).stnW = s.stnW ∧
    (journalRefused who cls target value s).stair = s.stair ∧ (journalRefused who cls target value s).image = s.image ∧
    (journalRefused who cls target value s).engines = s.engines ∧ (journalRefused who cls target value s).tileSafe = s.tileSafe ∧
    (journalRefused who cls target value s).cab = s.cab ∧ (journalRefused who cls target value s).cans = s.cans ∧
    (journalRefused who cls target value s).filters = s.filters ∧ (journalRefused who cls target value s).filterHold = s.filterHold ∧
    (journalRefused who cls target value s).gov = s.gov ∧ (journalRefused who cls target value s).brk = s.brk ∧
    (journalRefused who cls target value s).key = s.key ∧ (journalRefused who cls target value s).duplex = s.duplex ∧
    (journalRefused who cls target value s).bridge = s.bridge ∧ (journalRefused who cls target value s).flash = s.flash ∧
    (journalRefused who cls target value s).sent = s.sent := by
  unfold journalRefused freeValue
  simp

@[simp] theorem clearAll_rest (p : Nat) (fs : List Fld) (s : State) :
    (clearAll p fs s).pending = s.pending ∧ (clearAll p fs s).latch = s.latch ∧ (clearAll p fs s).access = s.access ∧
    (clearAll p fs s).event = s.event ∧ (clearAll p fs s).time = s.time ∧ (clearAll p fs s).portE = s.portE ∧ (clearAll p fs s).portW = s.portW ∧
    (clearAll p fs s).stnE = s.stnE ∧ (clearAll p fs s).stnW = s.stnW ∧ (clearAll p fs s).stair = s.stair ∧ (clearAll p fs s).image = s.image ∧
    (clearAll p fs s).engines = s.engines ∧ (clearAll p fs s).tileSafe = s.tileSafe ∧ (clearAll p fs s).cab = s.cab ∧
    (clearAll p fs s).cans = s.cans ∧ (clearAll p fs s).filters = s.filters ∧ (clearAll p fs s).filterHold = s.filterHold ∧
    (clearAll p fs s).gov = s.gov ∧ (clearAll p fs s).brk = s.brk ∧ (clearAll p fs s).key = s.key ∧ (clearAll p fs s).duplex = s.duplex ∧
    (clearAll p fs s).bridge = s.bridge ∧ (clearAll p fs s).boot = s.boot ∧ (clearAll p fs s).dram = s.dram ∧ (clearAll p fs s).flash = s.flash ∧
    (clearAll p fs s).sent = s.sent ∧ (clearAll p fs s).freeCtr = s.freeCtr :=
  ⟨clearAll_keep (·.pending) p fs (fun _ _ _ _ => rfl) s,
   clearAll_keep (·.latch) p fs (fun _ _ _ _ => rfl) s,
   clearAll_keep (·.access) p fs (fun _ _ _ _ => rfl) s,
   clearAll_keep (·.event) p fs (fun _ _ _ _ => rfl) s,
   clearAll_keep (·.time) p fs (fun _ _ _ _ => rfl) s,
   clearAll_keep (·.portE) p fs (fun _ _ _ _ => rfl) s,
   clearAll_keep (·.portW) p fs (fun _ _ _ _ => rfl) s,
   clearAll_keep (·.stnE) p fs (fun _ _ _ _ => rfl) s,
   clearAll_keep (·.stnW) p fs (fun _ _ _ _ => rfl) s,
   clearAll_keep (·.stair) p fs (fun _ _ _ _ => rfl) s,
   clearAll_keep (·.image) p fs (fun _ _ _ _ => rfl) s,
   clearAll_keep (·.engines) p fs (fun _ _ _ _ => rfl) s,
   clearAll_keep (·.tileSafe) p fs (fun _ _ _ _ => rfl) s,
   clearAll_keep (·.cab) p fs (fun _ _ _ _ => rfl) s,
   clearAll_keep (·.cans) p fs (fun _ _ _ _ => rfl) s,
   clearAll_keep (·.filters) p fs (fun _ _ _ _ => rfl) s,
   clearAll_keep (·.filterHold) p fs (fun _ _ _ _ => rfl) s,
   clearAll_keep (·.gov) p fs (fun _ _ _ _ => rfl) s,
   clearAll_keep (·.brk) p fs (fun _ _ _ _ => rfl) s,
   clearAll_keep (·.key) p fs (fun _ _ _ _ => rfl) s,
   clearAll_keep (·.duplex) p fs (fun _ _ _ _ => rfl) s,
   clearAll_keep (·.bridge) p fs (fun _ _ _ _ => rfl) s,
   clearAll_keep (·.boot) p fs (fun _ _ _ _ => rfl) s,
   clearAll_keep (·.dram) p fs (fun _ _ _ _ => rfl) s,
   clearAll_keep (·.flash) p fs (fun _ _ _ _ => rfl) s,
   clearAll_keep (·.sent) p fs (fun _ _ _ _ => rfl) s,
   clearAll_keep (·.freeCtr) p fs (fun _ _ _ _ => rfl) s⟩

@[simp] theorem emit_rest (o : Sent) (s : State) :
    (emit o s).pending = s.pending ∧ (emit o s).regs = s.regs ∧ (emit o s).latch = s.latch ∧ (emit o s).access = s.access ∧
    (emit o s).event = s.event ∧ (emit o s).time = s.time ∧ (emit o s).portE = s.portE ∧ (emit o s).portW = s.portW ∧ (emit o s).stnE = s.stnE ∧
    (emit o s).stnW = s.stnW ∧ (emit o s).stair = s.stair ∧ (emit o s).image = s.image ∧ (emit o s).engines = s.engines ∧
    (emit o s).tileSafe = s.tileSafe ∧ (emit o s).cab = s.cab ∧ (emit o s).cans = s.cans ∧ (emit o s).filters = s.filters ∧
    (emit o s).filterHold = s.filterHold ∧ (emit o s).gov = s.gov ∧ (emit o s).brk = s.brk ∧ (emit o s).key = s.key ∧ (emit o s).duplex = s.duplex ∧
    (emit o s).bridge = s.bridge ∧ (emit o s).boot = s.boot ∧ (emit o s).dram = s.dram ∧ (emit o s).flash = s.flash ∧ (emit o s).freeCtr = s.freeCtr := by
  and_intros <;> rfl

@[simp] theorem emit_sent (o : Sent) (s : State) : (emit o s).sent = s.sent ++ [o] := rfl

@[simp] theorem freeValue_rest (s : State) :
    (freeValue s).2.pending = s.pending ∧ (freeValue s).2.regs = s.regs ∧ (freeValue s).2.latch = s.latch ∧
    (freeValue s).2.access = s.access ∧ (freeValue s).2.event = s.event ∧ (freeValue s).2.time = s.time ∧ (freeValue s).2.portE = s.portE ∧
    (freeValue s).2.portW = s.portW ∧ (freeValue s).2.stnE = s.stnE ∧ (freeValue s).2.stnW = s.stnW ∧ (freeValue s).2.stair = s.stair ∧
    (freeValue s).2.image = s.image ∧ (freeValue s).2.engines = s.engines ∧ (freeValue s).2.tileSafe = s.tileSafe ∧
    (freeValue s).2.cab = s.cab ∧ (freeValue s).2.cans = s.cans ∧ (freeValue s).2.filters = s.filters ∧
    (freeValue s).2.filterHold = s.filterHold ∧ (freeValue s).2.gov = s.gov ∧ (freeValue s).2.brk = s.brk ∧ (freeValue s).2.key = s.key ∧
    (freeValue s).2.duplex = s.duplex ∧ (freeValue s).2.bridge = s.bridge ∧ (freeValue s).2.boot = s.boot ∧ (freeValue s).2.dram = s.dram ∧
    (freeValue s).2.flash = s.flash ∧ (freeValue s).2.sent = s.sent := by
  and_intros <;> rfl

/-! ### Register fields -/

/-- Where a field stands within a page. -/
def fldCode (f : Fld) : Nat := f.off * 2 ^ 5 + f.lsb

/-- Whether a field lies in a page: every field of the register tables does. -/
abbrev fldOk (f : Fld) : Prop := fldCode f < 2 ^ 17

theorem regKey_code (b p : Nat) (f : Fld) : regKey b p f = b * 2 ^ 29 + p * 2 ^ 17 + fldCode f := by
  unfold regKey fldCode
  omega

theorem getBank_setBank_same (b p : Nat) (f : Fld) (v : Nat) (s : State) : getBank (setBank b p f v s) b p f = v % 2 ^ f.width := by
  simp [getBank, setBank]

theorem getBank_setBank_ne {b p b' p' : Nat} {f g : Fld} (h : regKey b' p' g ≠ regKey b p f) (v : Nat) (s : State) :
    getBank (setBank b p f v s) b' p' g = getBank s b' p' g := by
  simp [getBank, setBank, h]

/-- A field reads what was last set, cut to its width. -/
@[simp] theorem getR_setR_same (p : Nat) (f : Fld) (v : Nat) (s : State) : getR (setR p f v s) p f = v % 2 ^ f.width :=
  getBank_setBank_same 0 p f v s

/-- Setting a field leaves the other fields of a page alone. -/
theorem getR_setR_field {f g : Fld} (h : fldCode g ≠ fldCode f) (p : Nat) (v : Nat) (s : State) : getR (setR p f v s) p g = getR s p g := by
  refine getBank_setBank_ne ?_ v s
  simp only [regKey_code]
  omega

/-- Setting a field leaves the other pages alone. -/
theorem getR_setR_page {p q : Nat} (h : q ≠ p) {f g : Fld} (hf : fldOk f) (hg : fldOk g) (v : Nat) (s : State) :
    getR (setR p f v s) q g = getR s q g := by
  refine getBank_setBank_ne ?_ v s
  simp only [regKey_code]
  unfold fldOk at hf hg
  omega

/-- A field other than the one set: another page or another place in it. -/
theorem getR_setR_other {p q : Nat} {f g : Fld} (h : q = p → fldCode g ≠ fldCode f) (hf : fldOk f) (hg : fldOk g) (v : Nat) (s : State) :
    getR (setR p f v s) q g = getR s q g := by
  by_cases e : q = p
  · subst e
    exact getR_setR_field (h rfl) q v s
  · exact getR_setR_page e hf hg v s

@[simp] theorem getR_event (s : State) (e : EventState) (p : Nat) (f : Fld) : getR { s with event := e } p f = getR s p f := rfl
@[simp] theorem getR_sent (s : State) (o : List Sent) (p : Nat) (f : Fld) : getR { s with sent := o } p f = getR s p f := rfl
@[simp] theorem getR_emit (o : Sent) (s : State) (p : Nat) (f : Fld) : getR (emit o s) p f = getR s p f := rfl
@[simp] theorem getR_freeValue (s : State) (p : Nat) (f : Fld) : getR (freeValue s).2 p f = getR s p f := rfl

/-- A field that an event of page `p` leaves alone: not the page's EVT_STICKY, not EVT.LOG_SEQ. -/
def offEvents (p q : Nat) (g : Fld) : Prop :=
  fldOk g ∧ (q = p → fldCode g ≠ fldCode Reg.comEvtSticky) ∧ (q = Page.evt → fldCode g ≠ fldCode Reg.evtLogSeq)

theorem getR_setSticky {p q : Nat} {g : Fld} (h : offEvents p q g) (mask : Nat) (s : State) :
    getR (setSticky p mask s) q g = getR s q g :=
  setSticky_keep (fun u => getR u q g) (fun _ _ => rfl) (fun _ _ => rfl) p
    (fun _ _ => getR_setR_other h.2.1 (by decide) h.1 _ _) (fun _ _ => getR_setR_other h.2.2 (by decide) h.1 _ _) mask s

theorem getR_raiseEv {p q : Nat} {g : Fld} (h : offEvents p q g) (i : Nat) (s : State) :
    getR (raiseEv p i s) q g = getR s q g := getR_setSticky h _ s

theorem getR_raiseIf {p q : Nat} {g : Fld} (h : offEvents p q g) (b : Bool) (i : Nat) (s : State) :
    getR (raiseIf b p i s) q g = getR s q g := by
  unfold raiseIf
  split
  · exact getR_raiseEv h i s
  · rfl

theorem getR_setLevel {p q : Nat} {g : Fld} (h : offEvents p q g) (hw : q = p → fldCode g ≠ fldCode Reg.comEvtRaw) (i : Nat) (b : Bool)
    (s : State) : getR (setLevel p i b s) q g = getR s q g := by
  have := getR_setR_other hw (by decide) h.1
  unfold setLevel
  dsimp only
  split
  · rw [getR_setSticky h, this]
  · rw [this]

/-- A field that an entry of the journal leaves alone. -/
def offJournal (q : Nat) (g : Fld) : Prop :=
  fldOk g ∧ (q = Page.jrnl → fldCode g ≠ fldCode Reg.jrnlHeadLoSeq ∧ fldCode g ≠ fldCode Reg.jrnlHeadHi ∧
    fldCode g ≠ fldCode Reg.jrnlStatusEntries ∧ fldCode g ≠ fldCode Reg.jrnlStatusCkptBusy)

theorem getR_journal {q : Nat} {g : Fld} (h : offJournal q g) (who : Option Master) (cls target value result : Nat) (s : State) :
    getR (journal who cls target value result s) q g = getR s q g := by
  refine journal_keep (fun u => getR u q g) (fun _ _ => rfl) (fun _ _ => rfl) (fun _ _ => rfl) ?_ who cls target value result s
  intro u f v hf
  refine getR_setR_other (fun e => ?_) ?_ h.1 v u
  · obtain rfl | rfl | rfl | rfl := hf <;> simp [h.2 e]
  · obtain rfl | rfl | rfl | rfl := hf <;> decide

theorem getR_clearAll {p q : Nat} {g : Fld} {fs : List Fld} (h : ∀ f ∈ fs, fldOk f ∧ (q = p → fldCode g ≠ fldCode f)) (hg : fldOk g) (s : State) :
    getR (clearAll p fs s) q g = getR s q g :=
  clearAll_keep (fun u => getR u q g) p fs (fun f hf v u => getR_setR_other (h f hf).2 (h f hf).1 hg v u) s

/-- A level that has just been set stands as set. -/
theorem levelOn_setLevel {i : Nat} (hi : i < 16) (p : Nat) (b : Bool) (s : State) : levelOn (setLevel p i b s) p i = b := by
  have hs : ∀ m u, getR (setSticky p m u) p Reg.comEvtRaw = getR u p Reg.comEvtRaw := fun m u =>
    getR_setSticky ⟨by decide, fun _ => by decide, fun _ => by decide⟩ m u
  unfold levelOn setLevel bit
  dsimp only
  cases b <;> simp only [if_true, Bool.false_eq_true, if_false]
  · rw [getR_setR_same]
    have h16 : (2 ^ i ^^^ 0xFFFF).testBit i = false := by
      revert hi
      revert i
      decide
    rw [Nat.testBit_mod_two_pow, Nat.testBit_and, h16]
    simp
  · rw [hs, getR_setR_same]
    rw [Nat.testBit_mod_two_pow, Nat.testBit_or, Nat.testBit_two_pow_self]
    simp [Reg.comEvtRaw, hi]

end Sys2Proof.Machine
end

