-- ==== Sys2Proof/Laws/Access.lean ====
section
/-!
SUPPORT. What a permitted register access does: a write reaches writeWord, a guarded pair guardedWrite, a read readRegister; around it stands only
the answer to a processor or JTAG.
-/

namespace Sys2Proof.Machine

theorem leNat_leBytes (n : Nat) : ∀ v, leNat (leBytes n v) = v % 256 ^ n := by
  induction n with
  | zero => intro v; simp [leBytes, leNat, Nat.mod_one]
  | succ n ih =>
    intro v
    simp only [leBytes, leNat, ih, BitVec.toNat_ofNat]
    rw [show 256 ^ (n + 1) = 256 * 256 ^ n by rw [Nat.pow_succ, Nat.mul_comm], Nat.mod_mul]

/-- A word of a register page in the local map. -/
theorem mapRegion_page {p off : Nat} (hp : p < 256) (ho : off + 4 ≤ 4096) : mapRegion (p * 4096 + off) 4 = .page p off := by
  have h : within (p * 4096 + off) 4 0 0x100000 = true := by
    simp only [within, decide_eq_true_eq]
    omega
  unfold mapRegion
  rw [if_pos h]
  congr 1 <;> omega

/-- A page that exists is numbered below 256 and is none of the MSI-X pages. -/
theorem kindOf_page {p : Nat} (h : kindOf p ≠ .none) : p < 256 ∧ p ≠ 0xE0 ∧ p ≠ 0xE1 := by
  refine ⟨?_, ?_, ?_⟩
  · refine Decidable.byContradiction fun hp => h ?_
    unfold kindOf
    repeat rw [if_neg (by omega)]
  · rintro rfl
    exact h (by decide)
  · rintro rfl
    exact h (by decide)

/-- The end of a write tells a processor or JTAG of its outcome and touches nothing else. -/
theorem endAccess_writeWaiter (m : Master) (a n st : Nat) (d : List Byte) (s : State) :
    ∃ o, endAccess (writeWaiter m) a n st d s = { s with sent := s.sent ++ o } := by
  unfold writeWaiter
  split
  · exact ⟨_, rfl⟩
  · exact ⟨[], by simp [endAccess, endWaiter]⟩

/-- A 32-bit access to a register page that nothing holds is decided and carried out at once. -/
theorem access_page {s : State} {m : Master} {write : Bool} {p off : Nat} (w : Waiter) (port : Nat) (bs : List Byte)
    (hd : dapBlocked s m = false) (hg : gateHolds s m write (p * 4096 + off) 4 = false) (hm : mapRegion (p * 4096 + off) 4 = .page p off) :
    access w port m write (p * 4096 + off) 4 bs s = endAccess w (p * 4096 + off) (if write then 0 else 4)
      (accessOnce m write (p * 4096 + off) 4 bs s).1 (accessOnce m write (p * 4096 + off) 4 bs s).2.1
      (accessOnce m write (p * 4096 + off) 4 bs s).2.2 := by
  have h1 : partnerTarget s m write (p * 4096 + off) 4 = none := by unfold partnerTarget; rw [hm]
  have h2 : accessHere m write (p * 4096 + off) 4 bs s = accessOnce m write (p * 4096 + off) 4 bs s := by
    unfold accessHere pagePair
    rw [hm]
    simp
  unfold access
  rw [if_neg (by simp [hd]), if_neg (by simp [hg]), h1, h2]

/-- A master that no gate holds at a permitted register is held at none of its page that it may access too. -/
theorem gateHolds_page {s : State} {m : Master} {write write' : Bool} {p off off' : Nat} (hm : mapRegion (p * 4096 + off) 4 = .page p off)
    (hm' : mapRegion (p * 4096 + off') 4 = .page p off') (hok : decide_ s m (accessKind write (p * 4096 + off) 4) (p * 4096 + off) 4 = .ok)
    (hg : gateHolds s m write (p * 4096 + off) 4 = false) : gateHolds s m write' (p * 4096 + off') 4 = false := by
  unfold gateHolds at hg ⊢
  rw [hm, hok] at hg
  rw [hm']
  split <;> simp_all

/-- A permitted write of a register below the guarded windows. -/
theorem regWrite_granted {s : State} {m : Master} {p off v : Nat} (h : Granted s m .write p off) (hk : kindOf p ≠ .none)
    (ho : off < 0x300) (h4 : off % 4 = 0) (hd : off ≠ 0x34) (hv : v < 2 ^ 32) :
    ∃ o, regWrite m p off v s = { writeWord m p off v 0xFFFFFFFF s with sent := (writeWord m p off v 0xFFFFFFFF s).sent ++ o } := by
  obtain ⟨hp, h0, h1⟩ := kindOf_page hk
  have hl := leBytes_length 4 v
  have hn : leNat (leBytes 4 v) = v := by
    rw [leNat_leBytes]
    omega
  have hm := mapRegion_page hp (off := off) (by omega)
  have hw : writeKind (p * 4096 + off) 4 = .write := by
    unfold writeKind
    rw [hm]
    simp
    omega
  have hgt : guardTimeoutDue p m.cls.val s = s := by
    unfold guardTimeoutDue
    rw [h.idle]
  have hgi : guardInterrupt m p s = s := by
    unfold guardInterrupt
    rw [h.idle]
  have hb : baseOffset off = off := by
    unfold baseOffset
    omega
  have hpw : pageWrite m p off v 0xFFFFFFFF s = writeWord m p off v 0xFFFFFFFF s := by
    unfold pageWrite
    simp only [hb, hgt, hgi]
    rw [if_neg (by omega), if_neg (by omega), if_neg hd]
  have hreg : writeRegion m (.page p off) (leBytes 4 v) s = writeWord m p off v 0xFFFFFFFF s := by
    simp only [writeRegion, wordPart, hl, hn, h4]
    simp only [if_false, h0, h1, or_self]
    rw [show off / 4 * 4 = off by omega]
    simpa using hpw
  have he : regWrite m p off v s =
      endAccess (writeWaiter m) (p * 4096 + off) 0 stOk [] (writeWord m p off v 0xFFFFFFFF s) := by
    unfold regWrite busWrite
    rw [hl, access_page _ _ _ h.debug (by simpa using h.unheld) hm]
    simp only [accessOnce, accessKind, if_true, hw, h.ok, noteVerdict, hm, hreg]
  rw [he]
  exact endAccess_writeWaiter m _ _ _ _ _

/-! ### Guarded pairs (R392) -/

/-- The decision of an access does not look at the guarded values that wait or at what was sent. -/
theorem decide_guards (s : State) (gs : List GuardPend) (o : List Sent) (m : Master) (k : AccessKind) (a n : Nat) :
    decide_ { s with access := { s.access with guards := gs }, sent := o } m k a n = decide_ s m k a n := rfl

/-- A master that may write a guarded register may write its complement. -/
theorem decide_complement {s : State} {m : Master} {p off : Nat} (hk : kindOf p ≠ .none) (ho : 0x300 ≤ off) (ho' : off < 0x380)
    (h4 : off % 4 = 0) (h : decide_ s m .guarded (p * 4096 + off) 4 = .ok) : decide_ s m .guarded (p * 4096 + (off + 0x80)) 4 = .ok := by
  obtain ⟨hp, -, -⟩ := kindOf_page hk
  have e1 : pageWidthOk (off + 0x80) 4 = pageWidthOk off 4 := by
    unfold pageWidthOk
    rw [show (off + 0x80) % 4 = off % 4 by omega]
  have e2 : servedFenced (off + 0x80) = servedFenced off := by
    unfold servedFenced baseOffset
    rw [Bool.eq_iff_iff]
    simp only [Bool.or_eq_true, decide_eq_true_eq]
    omega
  unfold decide_ at h ⊢
  rw [mapRegion_page hp (by omega)] at h ⊢
  simp only [e1, fencedTarget, e2, gatedTarget, rightsDenial] at h ⊢
  exact h

theorem setGuard_idle {s : State} {p cls : Nat} (h : guardOf s p cls = none) (g : GuardPend) (hg : g.page = p) (hc : g.cls = cls) :
    setGuard p cls none (setGuard p cls (some g) s) = s := by
  have hf : s.access.guards.filter (fun x => !(x.page = p && x.cls = cls)) = s.access.guards := by
    refine List.filter_eq_self.mpr fun x hx => ?_
    have := List.find?_eq_none.mp h x hx
    by_cases e : x.page = p <;> simp_all
  unfold setGuard
  simp only [Option.toList, List.filter_append, hf, List.append_nil]
  simp [hg, hc]

/-- A permitted guarded write: the value and its complement amount to one guarded write. -/
theorem regGuarded_granted {s : State} {m : Master} {p off v : Nat} (h : Granted s m .guarded p off) (hk : kindOf p ≠ .none)
    (ho : 0x300 ≤ off) (ho' : off < 0x380) (h4 : off % 4 = 0) (hv : v < 2 ^ 32) :
    ∃ o o', regGuarded m p off v s =
      { guardedWrite m p off v { s with sent := s.sent ++ o } with sent := (guardedWrite m p off v { s with sent := s.sent ++ o }).sent ++ o' } := by
  obtain ⟨hp, h0, h1⟩ := kindOf_page hk
  have hvx : v ^^^ 0xFFFFFFFF < 2 ^ 32 := Nat.xor_lt_two_pow hv (by decide)
  have hl : ∀ w, (leBytes 4 w).length = 4 := leBytes_length 4
  have hn : ∀ w, w < 2 ^ 32 → leNat (leBytes 4 w) = w := by
    intro w hw
    rw [leNat_leBytes]
    omega
  have hm : ∀ x, x + 4 ≤ 4096 → mapRegion (p * 4096 + x) 4 = .page p x := fun x hx => mapRegion_page hp hx
  have hw : ∀ x, 0x300 ≤ x → x < 0x400 → mapRegion (p * 4096 + x) 4 = .page p x → writeKind (p * 4096 + x) 4 = .guarded := by
    intro x hx hx' e
    unfold writeKind
    rw [e]
    simp only
    rw [if_pos ⟨hk, by omega, hx'⟩]
  have hreg : ∀ x w u, x % 4 = 0 → w < 2 ^ 32 → writeRegion m (.page p x) (leBytes 4 w) u = pageWrite m p x w 0xFFFFFFFF u := by
    intro x w u hx hw'
    simp only [writeRegion, wordPart, hl, hn w hw', hx]
    simp only [if_false, h0, h1, or_self]
    rw [show x / 4 * 4 = x by omega]
    simp
  have hgt : guardTimeoutDue p m.cls.val s = s := by
    unfold guardTimeoutDue
    rw [h.idle]
  -- the value
  let g : GuardPend := { page := p, cls := m.cls.val, node := masterNodeOf m, off := off - 0x300, value := v, at_ := s.time.tb2 }
  have hval : pageWrite m p off v 0xFFFFFFFF s = setGuard p m.cls.val (some g) s := by
    unfold pageWrite
    simp only [hgt, show baseOffset off = off by unfold baseOffset; omega]
    rw [if_neg (by omega), if_pos ho, if_neg (by simp), if_pos ho']
    unfold guardValue
    simp only [h.idle]
    rfl
  have he1 : ∃ o, regWrite m p off v s = { setGuard p m.cls.val (some g) s with sent := s.sent ++ o } := by
    have e : regWrite m p off v s = endAccess (writeWaiter m) (p * 4096 + off) 0 stOk [] (setGuard p m.cls.val (some g) s) := by
      unfold regWrite busWrite
      rw [hl, access_page _ _ _ h.debug (by simpa using h.unheld) (hm off (by omega))]
      simp only [accessOnce, accessKind, if_true, hw off ho (by omega) (hm off (by omega)), h.ok, noteVerdict, hm off (by omega),
        hreg off v s h4 hv, hval]
    rw [e]
    exact endAccess_writeWaiter m _ _ _ _ _
  obtain ⟨o, ho1⟩ := he1
  -- the complement
  let u : State := { setGuard p m.cls.val (some g) s with sent := s.sent ++ o }
  have hgu : guardOf u p m.cls.val = some g := by
    have hf : (s.access.guards.filter (fun x => !(x.page = p && x.cls = m.cls.val))).find? (fun x => x.page = p && x.cls = m.cls.val) = none := by
      refine List.find?_eq_none.mpr fun x hx => ?_
      have := (List.mem_filter.mp hx).2
      by_cases e : x.page = p <;> simp_all
    show ((s.access.guards.filter _) ++ (some g).toList).find? _ = _
    rw [List.find?_append, hf]
    simp [g]
  have hgtu : guardTimeoutDue p m.cls.val u = u := by
    unfold guardTimeoutDue
    rw [hgu]
    simp only
    rw [if_neg]
    simp [guardExpired, g, u, setGuard]
  have hcomp : pageWrite m p (off + 0x80) (v ^^^ 0xFFFFFFFF) 0xFFFFFFFF u = guardedWrite m p off v { s with sent := s.sent ++ o } := by
    unfold pageWrite
    simp only [hgtu, show baseOffset (off + 0x80) = off + 0x80 by unfold baseOffset; omega]
    rw [if_neg (by omega), if_pos (by omega), if_neg (by simp), if_neg (by omega)]
    unfold guardComplement
    rw [hgu]
    simp only
    rw [if_neg (by simp [g]), if_neg]
    · have hs : setGuard p m.cls.val none u = { s with sent := s.sent ++ o } := by
        have := setGuard_idle h.idle g rfl rfl
        show { setGuard p m.cls.val none (setGuard p m.cls.val (some g) s) with sent := s.sent ++ o } = _
        rw [this]
      rw [hs, show 0x300 + (off + 0x80 - 0x380) = off by omega]
    · have : v ^^^ (v ^^^ 0xFFFFFFFF) = 0xFFFFFFFF := by
        rw [← Nat.xor_assoc, Nat.xor_self, Nat.zero_xor]
      simp only [g, this]
      omega
  have hok : decide_ u m .guarded (p * 4096 + (off + 0x80)) 4 = .ok := by
    have : decide_ u m .guarded (p * 4096 + (off + 0x80)) 4 = decide_ s m .guarded (p * 4096 + (off + 0x80)) 4 := rfl
    rw [this]
    exact decide_complement hk ho ho' h4 h.ok
  have hdu : dapBlocked u m = false := h.debug
  have he2 : regWrite m p (off + 0x80) (v ^^^ 0xFFFFFFFF) u =
      endAccess (writeWaiter m) (p * 4096 + (off + 0x80)) 0 stOk [] (guardedWrite m p off v { s with sent := s.sent ++ o }) := by
    have hgu' : gateHolds u m true (p * 4096 + (off + 0x80)) 4 = false :=
      gateHolds_page (s := u) (hm off (by omega)) (hm (off + 0x80) (by omega)) (write := true)
        (by rw [accessKind, if_pos rfl, hw off ho (by omega) (hm off (by omega))]; exact h.ok)
        (show gateHolds s m true _ _ = false by simpa using h.unheld)
    unfold regWrite busWrite
    rw [hl, access_page _ _ _ hdu hgu' (hm _ (by omega))]
    simp only [accessOnce, accessKind, if_true, hw (off + 0x80) (by omega) (by omega) (hm _ (by omega)), hok, noteVerdict, hm (off + 0x80) (by omega),
      hreg (off + 0x80) _ u (by omega) hvx, hcomp]
  obtain ⟨o', ho2⟩ := endAccess_writeWaiter m (p * 4096 + (off + 0x80)) 0 stOk [] (guardedWrite m p off v { s with sent := s.sent ++ o })
  refine ⟨o, o', ?_⟩
  unfold regGuarded
  rw [ho1]
  exact he2.trans ho2

/-! ### Reads -/

/-- A permitted read of a register: its word, read with the effect of the read, is answered with status 0. -/
theorem regRead_granted {s : State} {m : Master} {p off : Nat} (h : Granted s m .read p off) (hk : kindOf p ≠ .none)
    (ho : off + 4 ≤ 0x400) (h4 : off % 4 = 0) :
    regRead m p off s = emit (.answer m 0 ((readRegister m p off s).1 % 2 ^ 32)) (readRegister m p off s).2 := by
  obtain ⟨hp, h0, h1⟩ := kindOf_page hk
  have hm := mapRegion_page hp (off := off) (by omega)
  have hn : leNat (wordBytes off 4 (readRegister m p off s).1) = (readRegister m p off s).1 % 2 ^ 32 := by
    unfold wordBytes
    rw [leNat_leBytes, h4]
    simp
  have e : regRead m p off s =
      endAccess (.master m) (p * 4096 + off) 4 stOk (wordBytes off 4 (readRegister m p off s).1) (readRegister m p off s).2 := by
    unfold regRead busRead
    rw [access_page _ _ _ h.debug (by simpa using h.unheld) hm]
    simp only [accessOnce, accessKind, Bool.false_eq_true, if_false, h.ok, noteVerdict, hm, readRegion, readPageBytes, readPage, h0, h1, or_self,
      show off / 4 * 4 = off by omega, show baseOffset off = off by unfold baseOffset; omega]
  rw [e]
  unfold endAccess endWaiter
  have hs : publicStatus 0 = 0 := rfl
  simp [hn, hs, stOk]

end Sys2Proof.Machine
end

