-- ==== Sys2Proof/Laws/Completes.lean ====
section
/-!
SUPPORT. How a command's completion is shown, and how frames are carried through the named operations.
-/

namespace Sys2Proof.Machine

/-- A command that is carried out while no larger reset is asserted completes in the state its effect gives. -/
theorem completes_alive {c : Instr} {s t : State} {P : State → Prop} (h : Running s) (e : exec c s = alive s t)
    (hP : P { t with pending := s.pending }) : Completes c s P := by
  refine ⟨_, ?_, hP⟩
  rw [e]
  unfold alive answer
  rw [h]
  rfl

/-- Every field of a page's table lies in the page. -/
theorem pageFields_ok : ∀ p, ∀ f ∈ pageFields p, fldOk f := by
  have hk : ∀ k : PageKind, ∀ f ∈ Reg.comFields ++ kindFields k, fldOk f := by
    intro k
    cases k <;> decide +kernel
  intro p f hf
  unfold pageFields at hf
  split at hf
  · cases hf
  · exact hk _ f hf

theorem SameMemory.rfl' (s : State) : SameMemory s s := fun _ => by and_intros <;> rfl

/-- Memory is the same where the parts that hold it are. -/
theorem sameMemory_of {s t : State} (h : t.dram = s.dram ∧ t.flash = s.flash ∧ t.image = s.image ∧ t.stair = s.stair) : SameMemory s t := by
  obtain ⟨h1, h2, h3, h4⟩ := h
  intro a
  rw [h1, h2, h3, h4]
  and_intros <;> rfl

theorem SameRegisters.refl (ps : List Nat) (s : State) : SameRegisters ps s s := fun _ _ _ _ => rfl

theorem SameRegisters.trans {ps : List Nat} {s t u : State} (h : SameRegisters ps s t) (k : SameRegisters ps t u) : SameRegisters ps s u :=
  fun p hp f hf => (k p hp f hf).trans (h p hp f hf)

/-- A register write on a listed page. -/
theorem sameRegisters_setR {ps : List Nat} {p : Nat} (hp : p ∈ ps) {g : Fld} (hg : fldOk g) (v : Nat) {s t : State}
    (h : SameRegisters ps s t) : SameRegisters ps s (setR p g v t) :=
  h.trans fun q hq f hf => getR_setR_page (fun e => absurd (e ▸ hp) hq) hg (pageFields_ok q f hf) v t

theorem sameRegisters_setFlag {ps : List Nat} {p : Nat} (hp : p ∈ ps) {g : Fld} (hg : fldOk g) (b : Bool) {s t : State}
    (h : SameRegisters ps s t) : SameRegisters ps s (setFlag p g b t) := sameRegisters_setR hp hg _ h

theorem sameRegisters_incCnt {ps : List Nat} {p : Nat} (hp : p ∈ ps) {g : Fld} (hg : fldOk g) {s t : State}
    (h : SameRegisters ps s t) : SameRegisters ps s (incCnt p g t) := sameRegisters_setR hp hg _ h

theorem sameRegisters_raiseEv {ps : List Nat} {p : Nat} (hp : p ∈ ps) (he : Page.evt ∈ ps) (i : Nat) {s t : State}
    (h : SameRegisters ps s t) : SameRegisters ps s (raiseEv p i t) :=
  h.trans fun q hq f hf => getR_raiseEv ⟨pageFields_ok q f hf, fun e => absurd (e ▸ hp) hq, fun e => absurd (e ▸ he) hq⟩ i t

theorem sameRegisters_setLevel {ps : List Nat} {p : Nat} (hp : p ∈ ps) (he : Page.evt ∈ ps) (i : Nat) (b : Bool) {s t : State}
    (h : SameRegisters ps s t) : SameRegisters ps s (setLevel p i b t) :=
  h.trans fun q hq f hf =>
    getR_setLevel ⟨pageFields_ok q f hf, fun e => absurd (e ▸ hp) hq, fun e => absurd (e ▸ he) hq⟩ (fun e => absurd (e ▸ hp) hq) i b t

end Sys2Proof.Machine
end

