-- ==== Sys2Proof/Laws/Wf.lean ====
section
/-!
SUPPORT. How the invariant State.Wf is carried through a step: what a record update must leave alone, and the step combinators.
-/

namespace Sys2Proof.Machine

set_option linter.all false

/-- What State.Wf says, of the parts of the state it speaks of. -/
structure WfParts (dram flash committed staging active pend : Memory) (store : List CfgHalf) (log : List (Nat × Nat)) (held : List (List Byte)) :
    Prop where
  dram : memoryWf dram = true
  flash : memoryWf flash = true
  committed : memoryWf committed = true
  staging : memoryWf staging = true
  active : memoryWf active = true
  pend : memoryWf pend = true
  store : ∀ h ∈ store, memoryWf h.stair = true
  log : log.length ≤ 256
  held : held.length ≤ 256

theorem wf_parts {X : State} (h : X.Wf) :
    WfParts X.dram X.flash X.image.committed X.image.staging X.stair.active X.stair.pend X.boot.store X.event.log X.event.held :=
  ⟨h.1, h.2, h.3, h.4, h.5, h.6, h.7, h.8, h.9⟩

theorem wf_of_parts {X : State}
    (h : WfParts X.dram X.flash X.image.committed X.image.staging X.stair.active X.stair.pend X.boot.store X.event.log X.event.held) : X.Wf :=
  ⟨h.1, h.2, h.3, h.4, h.5, h.6, h.7, h.8, h.9⟩

/-- A record update is seen through its parts. -/
theorem wf_mk {pd rg lt ac ev ti pe pw se sw st im en ts cb cn fi fh gv bk ky dx bg bo dr fl sn fc} :
    State.Wf (State.mk pd rg lt ac ev ti pe pw se sw st im en ts cb cn fi fh gv bk ky dx bg bo dr fl sn fc) ↔
      WfParts dr fl im.committed im.staging st.active st.pend bo.store ev.log ev.held :=
  ⟨fun h => wf_parts h, fun h => wf_of_parts h⟩

theorem whenS_wf {b : Bool} {f : State → State} {s : State} (hf : ∀ u : State, u.Wf → (f u).Wf) (h : s.Wf) : (whenS b f s).Wf := by
  unfold whenS
  split
  · exact hf s h
  · exact h

theorem foldl_wf {α : Type} {f : State → α → State} (hf : ∀ (u : State) (x : α), u.Wf → (f u x).Wf) :
    ∀ (xs : List α) (s : State), s.Wf → (xs.foldl f s).Wf
  | [], _, h => h
  | x :: xs, s, h => foldl_wf hf xs (f s x) (hf s x h)

theorem foldl_snd_wf {α β : Type} {f : β × State → α → β × State} (hf : ∀ (p : β × State) (x : α), p.2.Wf → (f p x).2.Wf) :
    ∀ (xs : List α) (p : β × State), p.2.Wf → (xs.foldl f p).2.Wf
  | [], _, h => h
  | x :: xs, p, h => foldl_snd_wf hf xs (f p x) (hf p x h)

theorem foldl_snd_wfE {α β : Type} {f : β × State → α → β × State} {xs : List α} {p : β × State} {b : β} {t : State}
    (hf : ∀ (p : β × State) (x : α), p.2.Wf → (f p x).2.Wf) (h : p.2.Wf) (e : xs.foldl f p = (b, t)) : t.Wf := by
  have hw := foldl_snd_wf hf xs p h
  rw [e] at hw
  exact hw

theorem forEach_wf {α : Type} {xs : List α} {f : α → State → State} {s : State} (hf : ∀ (x : α) (u : State), u.Wf → (f x u).Wf) (h : s.Wf) :
    (forEach xs f s).Wf := foldl_wf (fun u x hu => hf x u hu) xs s h

end Sys2Proof.Machine
end

