-- ==== Sys2Proof/Laws/Wf/Ops.lean ====
section
/-!
SUPPORT. The operations of Machine/Ops.lean keep the invariant State.Wf.
-/

namespace Sys2Proof.Machine

set_option linter.all false

/-- DRAM replaced by one in canonical form. -/
theorem wf_dram {s : State} (h : s.Wf) {m : Memory} (hm : memoryWf m = true) : State.Wf { s with dram := m } :=
  ⟨hm, h.flash, h.committed, h.staging, h.active, h.pend, h.store, h.log, h.held⟩

/-- Flash replaced by one in canonical form. -/
theorem wf_flash {s : State} (h : s.Wf) {m : Memory} (hm : memoryWf m = true) : State.Wf { s with flash := m } :=
  ⟨h.dram, hm, h.committed, h.staging, h.active, h.pend, h.store, h.log, h.held⟩

/-- The image replaced by one whose banks are in canonical form. -/
theorem wf_image {s : State} (h : s.Wf) {i : ImageState} (hc : memoryWf i.committed = true) (hs : memoryWf i.staging = true) :
    State.Wf { s with image := i } :=
  ⟨h.dram, h.flash, hc, hs, h.active, h.pend, h.store, h.log, h.held⟩

/-- The Staircase memory replaced by one whose banks are in canonical form. -/
theorem wf_stair {s : State} (h : s.Wf) {i : StairState} (hc : memoryWf i.active = true) (hs : memoryWf i.pend = true) :
    State.Wf { s with stair := i } :=
  ⟨h.dram, h.flash, h.committed, h.staging, hc, hs, h.store, h.log, h.held⟩

/-- The boot state replaced by one whose store halves hold canonical Staircases. -/
theorem wf_boot {s : State} (h : s.Wf) {b : BootState} (hb : ∀ x ∈ b.store, memoryWf x.stair = true) : State.Wf { s with boot := b } :=
  ⟨h.dram, h.flash, h.committed, h.staging, h.active, h.pend, hb, h.log, h.held⟩

/-- The event state replaced by one whose logs keep their bounds. -/
theorem wf_event {s : State} (h : s.Wf) {e : EventState} (hl : e.log.length ≤ 256) (hh : e.held.length ≤ 256) :
    State.Wf { s with event := e } :=
  ⟨h.dram, h.flash, h.committed, h.staging, h.active, h.pend, h.store, hl, hh⟩

theorem setBank_wf {bank : Nat} {page : Nat} {f : Fld} {v : Nat} {s : State} (hW : s.Wf) : (setBank bank page f v s).Wf := by
  unfold setBank
  repeat' first
    | with_reducible assumption
    | split
    | dsimp only
    | (simp only [wf_mk]; with_reducible apply wf_parts)

theorem setR_wf {page : Nat} {f : Fld} {v : Nat} {s : State} (hW : s.Wf) : (setR page f v s).Wf := by
  unfold setR
  repeat' first
    | with_reducible assumption
    | with_reducible apply setBank_wf
    | split
    | dsimp only
    | (simp only [wf_mk]; with_reducible apply wf_parts)

theorem setFlag_wf {page : Nat} {f : Fld} {b : Bool} {s : State} (hW : s.Wf) : (setFlag page f b s).Wf := by
  unfold setFlag
  repeat' first
    | with_reducible assumption
    | with_reducible apply setR_wf
    | split
    | dsimp only
    | (simp only [wf_mk]; with_reducible apply wf_parts)

theorem addCnt_wf {page : Nat} {f : Fld} {n : Nat} {s : State} (hW : s.Wf) : (addCnt page f n s).Wf := by
  unfold addCnt
  repeat' first
    | with_reducible assumption
    | with_reducible apply setR_wf
    | split
    | dsimp only
    | (simp only [wf_mk]; with_reducible apply wf_parts)

theorem incCnt_wf {page : Nat} {f : Fld} {s : State} (hW : s.Wf) : (incCnt page f s).Wf := by
  unfold incCnt
  repeat' first
    | with_reducible assumption
    | with_reducible apply addCnt_wf
    | split
    | dsimp only
    | (simp only [wf_mk]; with_reducible apply wf_parts)

theorem incWrap_wf {page : Nat} {f : Fld} {s : State} (hW : s.Wf) : (incWrap page f s).Wf := by
  unfold incWrap
  repeat' first
    | with_reducible assumption
    | with_reducible apply setR_wf
    | split
    | dsimp only
    | (simp only [wf_mk]; with_reducible apply wf_parts)

theorem clearR_wf {page : Nat} {f : Fld} {s : State} (hW : s.Wf) : (clearR page f s).Wf := by
  unfold clearR
  repeat' first
    | with_reducible assumption
    | with_reducible apply setR_wf
    | split
    | dsimp only
    | (simp only [wf_mk]; with_reducible apply wf_parts)

theorem clearAll_wf {page : Nat} {fs : List Fld} {s : State} (hW : s.Wf) : (clearAll page fs s).Wf := by
  unfold clearAll
  repeat' first
    | with_reducible assumption
    | with_reducible apply clearR_wf
    | with_reducible refine foldl_wf (fun u x hu => ?_) _ _ ?_
    | with_reducible refine foldl_snd_wf (fun p x hp => ?_) _ _ ?_
    | with_reducible refine foldl_snd_wfE (fun p x hp => ?_) ?_ (by with_reducible assumption)
    | split
    | dsimp only
    | (simp only [wf_mk]; with_reducible apply wf_parts)

theorem setPair_wf {page : Nat} {lo : Fld} {hi : Fld} {v : Nat} {s : State} (hW : s.Wf) : (setPair page lo hi v s).Wf := by
  unfold setPair
  repeat' first
    | with_reducible assumption
    | with_reducible apply setR_wf
    | split
    | dsimp only
    | (simp only [wf_mk]; with_reducible apply wf_parts)

theorem addPair_wf {page : Nat} {lo : Fld} {hi : Fld} {n : Nat} {s : State} (hW : s.Wf) : (addPair page lo hi n s).Wf := by
  unfold addPair
  repeat' first
    | with_reducible assumption
    | with_reducible apply setPair_wf
    | split
    | dsimp only
    | (simp only [wf_mk]; with_reducible apply wf_parts)

theorem freeValue_wf {s : State} (hW : s.Wf) : (freeValue s).2.Wf := by
  unfold freeValue
  repeat' first
    | with_reducible assumption
    | split
    | dsimp only
    | (simp only [wf_mk]; with_reducible apply wf_parts)

theorem freeValue_wfE {s : State} {x0} {tW : State} (hW : s.Wf) (eW : freeValue s = (x0, tW)) : tW.Wf := by
  have hw := freeValue_wf (s := s) hW
  rw [eW] at hw
  exact hw

theorem freeIf_wf {b : Bool} {s : State} (hW : s.Wf) : (freeIf b s).2.Wf := by
  unfold freeIf
  repeat' first
    | with_reducible assumption
    | with_reducible apply freeValue_wf
    | with_reducible refine freeValue_wfE ?_ (by with_reducible assumption)
    | split
    | dsimp only
    | (simp only [wf_mk]; with_reducible apply wf_parts)

theorem freeIf_wfE {b : Bool} {s : State} {x0} {tW : State} (hW : s.Wf) (eW : freeIf b s = (x0, tW)) : tW.Wf := by
  have hw := freeIf_wf (b := b) (s := s) hW
  rw [eW] at hw
  exact hw

theorem freeBytes_wf {n : Nat} {s : State} (hW : s.Wf) : (freeBytes n s).2.Wf := by
  unfold freeBytes
  repeat' first
    | with_reducible assumption
    | split
    | dsimp only
    | (simp only [wf_mk]; with_reducible apply wf_parts)

theorem freeBytes_wfE {n : Nat} {s : State} {x0} {tW : State} (hW : s.Wf) (eW : freeBytes n s = (x0, tW)) : tW.Wf := by
  have hw := freeBytes_wf (n := n) (s := s) hW
  rw [eW] at hw
  exact hw

theorem emit_wf {o : Sent} {s : State} (hW : s.Wf) : (emit o s).Wf := by
  unfold emit
  repeat' first
    | with_reducible assumption
    | split
    | dsimp only
    | (simp only [wf_mk]; with_reducible apply wf_parts)

theorem answer_wf {s t u : State} (h : t.Wf) (e : answer s t = .next u) : u.Wf := by
  unfold answer at e
  injection e with e
  subst e
  exact wf_mk.mpr (wf_parts h)

theorem alive_wf {s t u : State} (h : s.Wf) (ht : t.Wf) (e : alive s t = .next u) : u.Wf := by
  unfold alive at e
  split at e
  · injection e with e
    exact e ▸ h
  · exact answer_wf ht e

theorem setArrayBit_wf {page : Nat} {f : Nat → Fld} {i : Nat} {b : Bool} {s : State} (hW : s.Wf) : (setArrayBit page f i b s).Wf := by
  unfold setArrayBit
  repeat' first
    | with_reducible assumption
    | with_reducible apply setR_wf
    | split
    | dsimp only
    | (simp only [wf_mk]; with_reducible apply wf_parts)

theorem sendMsix_wf {v : Nat} {s : State} (hW : s.Wf) : (sendMsix v s).Wf := by
  unfold sendMsix
  repeat' first
    | with_reducible assumption
    | with_reducible apply emit_wf
    | split
    | dsimp only
    | (simp only [wf_mk]; with_reducible apply wf_parts)

theorem raiseGroup_wf {g : Nat} {s : State} (hW : s.Wf) : (raiseGroup g s).Wf := by
  unfold raiseGroup
  repeat' first
    | with_reducible assumption
    | with_reducible apply emit_wf
    | with_reducible apply sendMsix_wf
    | with_reducible refine whenS_wf (fun u hu => ?_) ?_
    | split
    | dsimp only
    | (simp only [wf_mk]; with_reducible apply wf_parts)

theorem raiseChanged_wf {gs : List Nat} {before : State} {after : State} (hW : before.Wf) (hW_after : after.Wf) : (raiseChanged gs before after).Wf := by
  unfold raiseChanged
  repeat' first
    | with_reducible assumption
    | with_reducible apply raiseGroup_wf
    | with_reducible refine forEach_wf (fun x u hu => ?_) ?_
    | split
    | dsimp only
    | (simp only [wf_mk]; with_reducible apply wf_parts)

theorem logEvent_wf {src : Nat} {s : State} (h : s.Wf) : (logEvent src s).Wf := by
  unfold logEvent
  exact incWrap_wf (wf_event h (by simp; omega) h.held)

theorem setSticky_wf {page : Nat} {mask : Nat} {s : State} (hW : s.Wf) : (setSticky page mask s).Wf := by
  unfold setSticky
  repeat' first
    | with_reducible assumption
    | with_reducible apply setR_wf
    | with_reducible apply raiseChanged_wf
    | with_reducible apply logEvent_wf
    | with_reducible refine forEach_wf (fun x u hu => ?_) ?_
    | split
    | dsimp only
    | (simp only [wf_mk]; with_reducible apply wf_parts)

theorem raiseEv_wf {page : Nat} {i : Nat} {s : State} (hW : s.Wf) : (raiseEv page i s).Wf := by
  unfold raiseEv
  repeat' first
    | with_reducible assumption
    | with_reducible apply setSticky_wf
    | split
    | dsimp only
    | (simp only [wf_mk]; with_reducible apply wf_parts)

theorem raiseIf_wf {b : Bool} {page : Nat} {i : Nat} {s : State} (hW : s.Wf) : (raiseIf b page i s).Wf := by
  unfold raiseIf
  repeat' first
    | with_reducible assumption
    | with_reducible apply raiseEv_wf
    | split
    | dsimp only
    | (simp only [wf_mk]; with_reducible apply wf_parts)

theorem setLevel_wf {page : Nat} {i : Nat} {b : Bool} {s : State} (hW : s.Wf) : (setLevel page i b s).Wf := by
  unfold setLevel
  repeat' first
    | with_reducible assumption
    | with_reducible apply setR_wf
    | with_reducible apply setSticky_wf
    | split
    | dsimp only
    | (simp only [wf_mk]; with_reducible apply wf_parts)

theorem startCheckpoint_wf {s : State} (hW : s.Wf) : (startCheckpoint s).Wf := by
  unfold startCheckpoint
  repeat' first
    | with_reducible assumption
    | with_reducible apply setFlag_wf
    | split
    | dsimp only
    | (simp only [wf_mk]; with_reducible apply wf_parts)

theorem healDram_wf {a : Nat} {n : Nat} {s : State} (hW : s.Wf) : (healDram a n s).Wf := by
  unfold healDram
  repeat' first
    | with_reducible assumption
    | split
    | dsimp only
    | (simp only [wf_mk]; with_reducible apply wf_parts)

theorem noteDramWord_wf {w : Nat} {s : State} (hW : s.Wf) : (noteDramWord w s).Wf := by
  unfold noteDramWord
  repeat' first
    | with_reducible assumption
    | with_reducible apply setR_wf
    | with_reducible apply incCnt_wf
    | with_reducible apply raiseEv_wf
    | split
    | dsimp only
    | (simp only [wf_mk]; with_reducible apply wf_parts)

theorem syncWear_wf {s : State} (hW : s.Wf) : (syncWear s).Wf := by
  unfold syncWear
  repeat' first
    | with_reducible assumption
    | with_reducible apply setFlag_wf
    | with_reducible apply setLevel_wf
    | split
    | dsimp only
    | (simp only [wf_mk]; with_reducible apply wf_parts)

theorem eraseFlash_wf {first : Nat} {n : Nat} {s : State} (hW : s.Wf) : (eraseFlash first n s).Wf := by
  unfold eraseFlash
  repeat' first
    | with_reducible assumption
    | with_reducible apply setR_wf
    | with_reducible apply syncWear_wf
    | with_reducible refine foldl_wf (fun u x hu => ?_) _ _ ?_
    | with_reducible refine foldl_snd_wf (fun p x hp => ?_) _ _ ?_
    | with_reducible refine foldl_snd_wfE (fun p x hp => ?_) ?_ (by with_reducible assumption)
    | split
    | dsimp only
    | (simp only [wf_mk]; with_reducible apply wf_parts)

theorem journalWrite_wf {bytes : List Byte} {s : State} (h : s.Wf) : (journalWrite bytes s).Wf := by
  unfold journalWrite
  exact whenS_wf (fun u hu => startCheckpoint_wf hu) (setPair_wf (healDram_wf (wf_dram h (memWriteN_wf _ h.dram _))))

theorem journal_wf {who : Option Master} {cls target value result : Nat} {s : State} (h : s.Wf) :
    (journal who cls target value result s).Wf := by
  unfold journal
  dsimp only
  split
  · refine setR_wf (wf_event h h.log ?_)
    have := h.held
    split
    · simp; omega
    · exact h.held
  · exact journalWrite_wf h

theorem journalDrain_wf {s : State} (h : s.Wf) : (journalDrain s).Wf := by
  unfold journalDrain
  exact setR_wf (forEach_wf (fun b u hu => journalWrite_wf hu) (wf_event h h.log (Nat.zero_le _)))

theorem journalRefused_wf {who : Option Master} {cls : Nat} {target : Nat} {value : Nat} {s : State} (hW : s.Wf) : (journalRefused who cls target value s).Wf := by
  unfold journalRefused
  repeat' first
    | with_reducible assumption
    | with_reducible apply freeValue_wf
    | with_reducible apply journal_wf
    | with_reducible refine freeValue_wfE ?_ (by with_reducible assumption)
    | split
    | dsimp only
    | (simp only [wf_mk]; with_reducible apply wf_parts)

end Sys2Proof.Machine
end

