-- ==== Sys2Proof/Laws/Wf/Cabinet.lean ====
section
/-!
SUPPORT. The operations of Machine/Cabinet.lean keep the invariant State.Wf.
-/

namespace Sys2Proof.Machine

set_option linter.all false

theorem setQueue_wf {q : Nat} {v : Queue} {s : State} (hW : s.Wf) : (setQueue q v s).Wf := by
  unfold setQueue
  repeat' first
    | with_reducible assumption
    | split
    | dsimp only
    | (simp only [wf_mk]; with_reducible apply wf_parts)

theorem syncCab_wf {s : State} (hW : s.Wf) : (syncCab s).Wf := by
  unfold syncCab
  repeat' first
    | with_reducible assumption
    | with_reducible apply setLevel_wf
    | split
    | dsimp only
    | (simp only [wf_mk]; with_reducible apply wf_parts)

theorem takeCell_wf {s : State} (hW : s.Wf) {x0} {tW : State} (eW : takeCell s = some (x0, tW)) : tW.Wf := by
  revert eW
  unfold takeCell
  repeat' first
    | with_reducible assumption
    | with_reducible apply freeValue_wf
    | with_reducible refine freeValue_wfE ?_ (by with_reducible assumption)
    | split
    | dsimp only
    | (simp only [wf_mk]; with_reducible apply wf_parts)
    | (intro (eQ : _ = _); cases eQ)

theorem returnCells_wf {cs : List Nat} {s : State} (hW : s.Wf) : (returnCells cs s).Wf := by
  unfold returnCells
  repeat' first
    | with_reducible assumption
    | split
    | dsimp only
    | (simp only [wf_mk]; with_reducible apply wf_parts)

theorem adjustGrant_wf {q : Nat} {s : State} (hW : s.Wf) : (adjustGrant q s).Wf := by
  unfold adjustGrant
  repeat' first
    | with_reducible assumption
    | with_reducible apply setQueue_wf
    | split
    | dsimp only
    | (simp only [wf_mk]; with_reducible apply wf_parts)

theorem mirrorMatch_wf {q : Nat} {p : Packet} {s : State} (hW : s.Wf) : (mirrorMatch q p s).Wf := by
  unfold mirrorMatch
  repeat' first
    | with_reducible assumption
    | with_reducible apply incCnt_wf
    | split
    | dsimp only
    | (simp only [wf_mk]; with_reducible apply wf_parts)

theorem mirrorClose_wf {port : Nat} {q : Nat} {p : Packet} {s : State} (hW : s.Wf) : (mirrorClose port q p s).Wf := by
  unfold mirrorClose
  repeat' first
    | with_reducible assumption
    | with_reducible apply mirrorMatch_wf
    | with_reducible refine whenS_wf (fun u hu => ?_) ?_
    | split
    | dsimp only
    | (simp only [wf_mk]; with_reducible apply wf_parts)

theorem mirrorRelease_wf {port : Nat} {q : Nat} {p : Packet} {s : State} (hW : s.Wf) : (mirrorRelease port q p s).Wf := by
  unfold mirrorRelease
  repeat' first
    | with_reducible assumption
    | with_reducible apply mirrorMatch_wf
    | with_reducible refine whenS_wf (fun u hu => ?_) ?_
    | split
    | dsimp only
    | (simp only [wf_mk]; with_reducible apply wf_parts)

theorem setOpen_wf {port : Nat} {q : Nat} {o : Option OpenPacket} {s : State} (hW : s.Wf) : (setOpen port q o s).Wf := by
  unfold setOpen
  repeat' first
    | with_reducible assumption
    | with_reducible apply setQueue_wf
    | split
    | dsimp only
    | (simp only [wf_mk]; with_reducible apply wf_parts)

theorem tailDrop_wf {q : Nat} {s : State} (hW : s.Wf) : (tailDrop q s).Wf := by
  unfold tailDrop
  repeat' first
    | with_reducible assumption
    | with_reducible apply incCnt_wf
    | with_reducible apply raiseEv_wf
    | with_reducible apply setQueue_wf
    | split
    | dsimp only
    | (simp only [wf_mk]; with_reducible apply wf_parts)

theorem beginPacket_wf {port : Nat} {q : Nat} {declare : Nat} {reserved : Bool} {s : State} (hW : s.Wf) : (beginPacket port q declare reserved s).2.Wf := by
  unfold beginPacket
  repeat' first
    | with_reducible assumption
    | with_reducible apply syncCab_wf
    | with_reducible apply setOpen_wf
    | with_reducible refine takeCell_wf ?_ (by with_reducible assumption)
    | split
    | dsimp only
    | (simp only [wf_mk]; with_reducible apply wf_parts)

theorem beginPacket_wfE {port : Nat} {q : Nat} {declare : Nat} {reserved : Bool} {s : State} {x0} {tW : State} (hW : s.Wf) (eW : beginPacket port q declare reserved s = (x0, tW)) : tW.Wf := by
  have hw := beginPacket_wf (port := port) (q := q) (declare := declare) (reserved := reserved) (s := s) hW
  rw [eW] at hw
  exact hw

theorem cabOpen_wf {port : Nat} {q : Nat} {declare : Nat} {reserved : Bool} {s : State} (hW : s.Wf) : (cabOpen port q declare reserved s).2.Wf := by
  unfold cabOpen
  repeat' first
    | with_reducible assumption
    | with_reducible apply setQueue_wf
    | with_reducible apply tailDrop_wf
    | with_reducible apply beginPacket_wf
    | with_reducible refine beginPacket_wfE ?_ (by with_reducible assumption)
    | split
    | dsimp only
    | (simp only [wf_mk]; with_reducible apply wf_parts)

theorem cabOpen_wfE {port : Nat} {q : Nat} {declare : Nat} {reserved : Bool} {s : State} {x0} {tW : State} (hW : s.Wf) (eW : cabOpen port q declare reserved s = (x0, tW)) : tW.Wf := by
  have hw := cabOpen_wf (port := port) (q := q) (declare := declare) (reserved := reserved) (s := s) hW
  rw [eW] at hw
  exact hw

theorem killPacket_wf {port : Nat} {q : Nat} {o : OpenPacket} {s : State} (hW : s.Wf) : (killPacket port q o s).Wf := by
  unfold killPacket
  repeat' first
    | with_reducible assumption
    | with_reducible apply syncCab_wf
    | with_reducible apply returnCells_wf
    | with_reducible apply adjustGrant_wf
    | with_reducible apply setOpen_wf
    | split
    | dsimp only
    | (simp only [wf_mk]; with_reducible apply wf_parts)

theorem cabPut_wf {port : Nat} {q : Nat} {w : Nat} {s : State} (hW : s.Wf) : (cabPut port q w s).2.Wf := by
  unfold cabPut
  repeat' first
    | with_reducible assumption
    | with_reducible apply incCnt_wf
    | with_reducible apply raiseEv_wf
    | with_reducible apply setQueue_wf
    | with_reducible apply setOpen_wf
    | with_reducible apply tailDrop_wf
    | with_reducible apply killPacket_wf
    | with_reducible refine takeCell_wf ?_ (by with_reducible assumption)
    | split
    | dsimp only
    | (simp only [wf_mk]; with_reducible apply wf_parts)

theorem cabPut_wfE {port : Nat} {q : Nat} {w : Nat} {s : State} {x0} {tW : State} (hW : s.Wf) (eW : cabPut port q w s = (x0, tW)) : tW.Wf := by
  have hw := cabPut_wf (port := port) (q := q) (w := w) (s := s) hW
  rw [eW] at hw
  exact hw

theorem cabAbort_wf {port : Nat} {q : Nat} {s : State} (hW : s.Wf) : (cabAbort port q s).2.Wf := by
  unfold cabAbort
  repeat' first
    | with_reducible assumption
    | with_reducible apply syncCab_wf
    | with_reducible apply returnCells_wf
    | with_reducible apply adjustGrant_wf
    | with_reducible apply setOpen_wf
    | split
    | dsimp only
    | (simp only [wf_mk]; with_reducible apply wf_parts)

theorem cabAbort_wfE {port : Nat} {q : Nat} {s : State} {x0} {tW : State} (hW : s.Wf) (eW : cabAbort port q s = (x0, tW)) : tW.Wf := by
  have hw := cabAbort_wf (port := port) (q := q) (s := s) hW
  rw [eW] at hw
  exact hw

theorem cabCloseWith_wf {port : Nat} {q : Nat} {trim : Nat} {trunc : Bool} {s : State} (hW : s.Wf) : (cabCloseWith port q trim trunc s).2.Wf := by
  unfold cabCloseWith
  repeat' first
    | with_reducible assumption
    | with_reducible apply setQueue_wf
    | with_reducible apply syncCab_wf
    | with_reducible apply returnCells_wf
    | with_reducible apply adjustGrant_wf
    | with_reducible apply mirrorClose_wf
    | with_reducible apply setOpen_wf
    | split
    | dsimp only
    | (simp only [wf_mk]; with_reducible apply wf_parts)

theorem cabCloseWith_wfE {port : Nat} {q : Nat} {trim : Nat} {trunc : Bool} {s : State} {x0} {tW : State} (hW : s.Wf) (eW : cabCloseWith port q trim trunc s = (x0, tW)) : tW.Wf := by
  have hw := cabCloseWith_wf (port := port) (q := q) (trim := trim) (trunc := trunc) (s := s) hW
  rw [eW] at hw
  exact hw

theorem cabClose_wf {port : Nat} {q : Nat} {trim : Nat} {s : State} (hW : s.Wf) : (cabClose port q trim s).2.Wf := by
  unfold cabClose
  repeat' first
    | with_reducible assumption
    | with_reducible apply cabCloseWith_wf
    | with_reducible refine cabCloseWith_wfE ?_ (by with_reducible assumption)
    | split
    | dsimp only
    | (simp only [wf_mk]; with_reducible apply wf_parts)

theorem cabClose_wfE {port : Nat} {q : Nat} {trim : Nat} {s : State} {x0} {tW : State} (hW : s.Wf) (eW : cabClose port q trim s = (x0, tW)) : tW.Wf := by
  have hw := cabClose_wf (port := port) (q := q) (trim := trim) (s := s) hW
  rw [eW] at hw
  exact hw

theorem cabProduce_wf {port : Nat} {q : Nat} {words : List Nat} {trim : Nat} {reserved : Bool} {s : State} (hW : s.Wf) : (cabProduce port q words trim reserved s).2.Wf := by
  unfold cabProduce
  repeat' first
    | with_reducible assumption
    | with_reducible apply cabOpen_wf
    | with_reducible apply cabPut_wf
    | with_reducible apply cabAbort_wf
    | with_reducible apply cabClose_wf
    | with_reducible refine foldl_wf (fun u x hu => ?_) _ _ ?_
    | with_reducible refine foldl_snd_wf (fun p x hp => ?_) _ _ ?_
    | with_reducible refine foldl_snd_wfE (fun p x hp => ?_) ?_ (by with_reducible assumption)
    | with_reducible refine cabOpen_wfE ?_ (by with_reducible assumption)
    | with_reducible refine cabPut_wfE ?_ (by with_reducible assumption)
    | with_reducible refine cabAbort_wfE ?_ (by with_reducible assumption)
    | with_reducible refine cabClose_wfE ?_ (by with_reducible assumption)
    | split
    | dsimp only
    | (simp only [wf_mk]; with_reducible apply wf_parts)

theorem cabProduce_wfE {port : Nat} {q : Nat} {words : List Nat} {trim : Nat} {reserved : Bool} {s : State} {x0} {tW : State} (hW : s.Wf) (eW : cabProduce port q words trim reserved s = (x0, tW)) : tW.Wf := by
  have hw := cabProduce_wf (port := port) (q := q) (words := words) (trim := trim) (reserved := reserved) (s := s) hW
  rw [eW] at hw
  exact hw

theorem ownerErr_wf {s : State} (hW : s.Wf) : (ownerErr s).2.Wf := by
  unfold ownerErr
  repeat' first
    | with_reducible assumption
    | with_reducible apply raiseEv_wf
    | split
    | dsimp only
    | (simp only [wf_mk]; with_reducible apply wf_parts)

theorem ownerErr_wfE {s : State} {x0} {tW : State} (hW : s.Wf) (eW : ownerErr s = (x0, tW)) : tW.Wf := by
  have hw := ownerErr_wf (s := s) hW
  rw [eW] at hw
  exact hw

theorem breakQueue_wf {q : Nat} {cell : Nat} {s : State} (hW : s.Wf) : (breakQueue q cell s).Wf := by
  unfold breakQueue
  repeat' first
    | with_reducible assumption
    | with_reducible apply raiseEv_wf
    | with_reducible apply setQueue_wf
    | with_reducible apply syncCab_wf
    | split
    | dsimp only
    | (simp only [wf_mk]; with_reducible apply wf_parts)

theorem checkLink_wf {q : Nat} {cell : Option Nat} {s : State} (hW : s.Wf) : (checkLink q cell s).Wf := by
  unfold checkLink
  repeat' first
    | with_reducible assumption
    | with_reducible apply incCnt_wf
    | with_reducible apply breakQueue_wf
    | split
    | dsimp only
    | (simp only [wf_mk]; with_reducible apply wf_parts)

theorem cabGet_wf {port : Nat} {q : Nat} {s : State} (hW : s.Wf) : (cabGet port q s).2.2.Wf := by
  unfold cabGet
  repeat' first
    | with_reducible assumption
    | with_reducible apply checkLink_wf
    | with_reducible apply setQueue_wf
    | with_reducible apply ownerErr_wf
    | with_reducible refine ownerErr_wfE ?_ (by with_reducible assumption)
    | split
    | dsimp only
    | (simp only [wf_mk]; with_reducible apply wf_parts)

theorem cabGet_wfE {port : Nat} {q : Nat} {s : State} {x0 x1} {tW : State} (hW : s.Wf) (eW : cabGet port q s = (x0, x1, tW)) : tW.Wf := by
  have hw := cabGet_wf (port := port) (q := q) (s := s) hW
  rw [eW] at hw
  exact hw

theorem cabMark_wf {port : Nat} {q : Nat} {s : State} (hW : s.Wf) : (cabMark port q s).2.Wf := by
  unfold cabMark
  repeat' first
    | with_reducible assumption
    | with_reducible apply setQueue_wf
    | with_reducible apply ownerErr_wf
    | with_reducible refine ownerErr_wfE ?_ (by with_reducible assumption)
    | split
    | dsimp only
    | (simp only [wf_mk]; with_reducible apply wf_parts)

theorem cabMark_wfE {port : Nat} {q : Nat} {s : State} {x0} {tW : State} (hW : s.Wf) (eW : cabMark port q s = (x0, tW)) : tW.Wf := by
  have hw := cabMark_wf (port := port) (q := q) (s := s) hW
  rw [eW] at hw
  exact hw

theorem cabRewind_wf {port : Nat} {q : Nat} {s : State} (hW : s.Wf) : (cabRewind port q s).2.Wf := by
  unfold cabRewind
  repeat' first
    | with_reducible assumption
    | with_reducible apply setQueue_wf
    | with_reducible apply ownerErr_wf
    | with_reducible refine ownerErr_wfE ?_ (by with_reducible assumption)
    | split
    | dsimp only
    | (simp only [wf_mk]; with_reducible apply wf_parts)

theorem cabRewind_wfE {port : Nat} {q : Nat} {s : State} {x0} {tW : State} (hW : s.Wf) (eW : cabRewind port q s = (x0, tW)) : tW.Wf := by
  have hw := cabRewind_wf (port := port) (q := q) (s := s) hW
  rw [eW] at hw
  exact hw

theorem releasePackets_wf {port : Nat} {q : Nat} {s : State} (hW : s.Wf) : (releasePackets port q s).Wf := by
  unfold releasePackets
  repeat' first
    | with_reducible assumption
    | with_reducible apply setQueue_wf
    | with_reducible apply syncCab_wf
    | with_reducible apply returnCells_wf
    | with_reducible apply adjustGrant_wf
    | with_reducible apply mirrorRelease_wf
    | with_reducible refine forEach_wf (fun x u hu => ?_) ?_
    | split
    | dsimp only
    | (simp only [wf_mk]; with_reducible apply wf_parts)

theorem cabRelease_wf {port : Nat} {q : Nat} {s : State} (hW : s.Wf) : (cabRelease port q s).2.Wf := by
  unfold cabRelease
  repeat' first
    | with_reducible assumption
    | with_reducible apply ownerErr_wf
    | with_reducible apply releasePackets_wf
    | with_reducible refine ownerErr_wfE ?_ (by with_reducible assumption)
    | split
    | dsimp only
    | (simp only [wf_mk]; with_reducible apply wf_parts)

theorem cabRelease_wfE {port : Nat} {q : Nat} {s : State} {x0} {tW : State} (hW : s.Wf) (eW : cabRelease port q s = (x0, tW)) : tW.Wf := by
  have hw := cabRelease_wf (port := port) (q := q) (s := s) hW
  rw [eW] at hw
  exact hw

theorem flushQueue_wf {q : Nat} {s : State} (hW : s.Wf) : (flushQueue q s).Wf := by
  unfold flushQueue
  repeat' first
    | with_reducible assumption
    | with_reducible apply setQueue_wf
    | with_reducible apply syncCab_wf
    | with_reducible apply returnCells_wf
    | with_reducible apply adjustGrant_wf
    | split
    | dsimp only
    | (simp only [wf_mk]; with_reducible apply wf_parts)

theorem flushConsumers_wf {sel : Nat → Bool} {s : State} (hW : s.Wf) : (flushConsumers sel s).Wf := by
  unfold flushConsumers
  repeat' first
    | with_reducible assumption
    | with_reducible apply flushQueue_wf
    | with_reducible refine forEach_wf (fun x u hu => ?_) ?_
    | split
    | dsimp only
    | (simp only [wf_mk]; with_reducible apply wf_parts)

theorem abortProducer_wf {port : Nat} {s : State} (hW : s.Wf) : (abortProducer port s).Wf := by
  unfold abortProducer
  repeat' first
    | with_reducible assumption
    | with_reducible apply cabAbort_wf
    | with_reducible refine forEach_wf (fun x u hu => ?_) ?_
    | with_reducible refine cabAbort_wfE ?_ (by with_reducible assumption)
    | split
    | dsimp only
    | (simp only [wf_mk]; with_reducible apply wf_parts)

theorem enableRefused_wf {s : State} (hW : s.Wf) : (enableRefused s).Wf := by
  unfold enableRefused
  repeat' first
    | with_reducible assumption
    | with_reducible apply raiseEv_wf
    | split
    | dsimp only
    | (simp only [wf_mk]; with_reducible apply wf_parts)

theorem queueEnable_wf {q : Nat} {s : State} (hW : s.Wf) : (queueEnable q s).Wf := by
  unfold queueEnable
  repeat' first
    | with_reducible assumption
    | with_reducible apply setQueue_wf
    | with_reducible apply syncCab_wf
    | with_reducible apply enableRefused_wf
    | split
    | dsimp only
    | (simp only [wf_mk]; with_reducible apply wf_parts)

theorem queueDisable_wf {q : Nat} {s : State} (hW : s.Wf) : (queueDisable q s).Wf := by
  unfold queueDisable
  repeat' first
    | with_reducible assumption
    | with_reducible apply setQueue_wf
    | with_reducible apply syncCab_wf
    | with_reducible apply flushQueue_wf
    | with_reducible apply enableRefused_wf
    | split
    | dsimp only
    | (simp only [wf_mk]; with_reducible apply wf_parts)

theorem clearBroken_wf {q : Nat} {s : State} (hW : s.Wf) : (clearBroken q s).Wf := by
  unfold clearBroken
  repeat' first
    | with_reducible assumption
    | with_reducible apply setQueue_wf
    | with_reducible apply flushQueue_wf
    | split
    | dsimp only
    | (simp only [wf_mk]; with_reducible apply wf_parts)

theorem queueCommand_wf {q : Nat} {cmd : Nat} {s : State} (hW : s.Wf) : (queueCommand q cmd s).Wf := by
  unfold queueCommand
  repeat' first
    | with_reducible assumption
    | with_reducible apply flushQueue_wf
    | with_reducible apply queueEnable_wf
    | with_reducible apply queueDisable_wf
    | with_reducible apply clearBroken_wf
    | split
    | dsimp only
    | (simp only [wf_mk]; with_reducible apply wf_parts)

theorem setSystemQueues_wf {s : State} (hW : s.Wf) : (setSystemQueues s).Wf := by
  unfold setSystemQueues
  repeat' first
    | with_reducible assumption
    | with_reducible apply setQueue_wf
    | with_reducible refine forEach_wf (fun x u hu => ?_) ?_
    | split
    | dsimp only
    | (simp only [wf_mk]; with_reducible apply wf_parts)

theorem cabRebuild_wf {s : State} (hW : s.Wf) : (cabRebuild s).Wf := by
  unfold cabRebuild
  repeat' first
    | with_reducible assumption
    | with_reducible apply setQueue_wf
    | with_reducible apply syncCab_wf
    | with_reducible apply enableRefused_wf
    | with_reducible apply setSystemQueues_wf
    | with_reducible refine forEach_wf (fun x u hu => ?_) ?_
    | split
    | dsimp only
    | (simp only [wf_mk]; with_reducible apply wf_parts)

theorem cabIndWrite_wf {addr : Nat} {v : Nat} {s : State} (hW : s.Wf) : (cabIndWrite addr v s).Wf := by
  unfold cabIndWrite
  repeat' first
    | with_reducible assumption
    | with_reducible apply raiseIf_wf
    | with_reducible apply setQueue_wf
    | with_reducible apply enableRefused_wf
    | split
    | dsimp only
    | (simp only [wf_mk]; with_reducible apply wf_parts)

theorem accStatus_wf {cls : Nat} {r : Nat} {s : State} (hW : s.Wf) : (accStatus cls r s).Wf := by
  unfold accStatus
  repeat' first
    | with_reducible assumption
    | with_reducible apply setBank_wf
    | split
    | dsimp only
    | (simp only [wf_mk]; with_reducible apply wf_parts)

theorem accCommand_wf {cls : Nat} {cmd : Nat} {declare : Nat} {trim : Nat} {s : State} (hW : s.Wf) : (accCommand cls cmd declare trim s).Wf := by
  unfold accCommand
  repeat' first
    | with_reducible assumption
    | with_reducible apply cabOpen_wf
    | with_reducible apply cabAbort_wf
    | with_reducible apply cabClose_wf
    | with_reducible apply cabMark_wf
    | with_reducible apply cabRewind_wf
    | with_reducible apply cabRelease_wf
    | with_reducible apply accStatus_wf
    | with_reducible refine cabOpen_wfE ?_ (by with_reducible assumption)
    | with_reducible refine cabAbort_wfE ?_ (by with_reducible assumption)
    | with_reducible refine cabClose_wfE ?_ (by with_reducible assumption)
    | with_reducible refine cabMark_wfE ?_ (by with_reducible assumption)
    | with_reducible refine cabRewind_wfE ?_ (by with_reducible assumption)
    | with_reducible refine cabRelease_wfE ?_ (by with_reducible assumption)
    | split
    | dsimp only
    | (simp only [wf_mk]; with_reducible apply wf_parts)

theorem accPut_wf {cls : Nat} {w : Nat} {s : State} (hW : s.Wf) : (accPut cls w s).Wf := by
  unfold accPut
  repeat' first
    | with_reducible assumption
    | with_reducible apply cabPut_wf
    | with_reducible apply accStatus_wf
    | with_reducible refine cabPut_wfE ?_ (by with_reducible assumption)
    | split
    | dsimp only
    | (simp only [wf_mk]; with_reducible apply wf_parts)

theorem accGet_wf {cls : Nat} {s : State} (hW : s.Wf) : (accGet cls s).2.Wf := by
  unfold accGet
  repeat' first
    | with_reducible assumption
    | with_reducible apply cabGet_wf
    | with_reducible apply accStatus_wf
    | with_reducible refine cabGet_wfE ?_ (by with_reducible assumption)
    | split
    | dsimp only
    | (simp only [wf_mk]; with_reducible apply wf_parts)

theorem accGet_wfE {cls : Nat} {s : State} {x0} {tW : State} (hW : s.Wf) (eW : accGet cls s = (x0, tW)) : tW.Wf := by
  have hw := accGet_wf (cls := cls) (s := s) hW
  rw [eW] at hw
  exact hw

theorem startWalk_wf {s : State} (hW : s.Wf) : (startWalk s).Wf := by
  unfold startWalk
  repeat' first
    | with_reducible assumption
    | split
    | dsimp only
    | (simp only [wf_mk]; with_reducible apply wf_parts)

theorem walkDone_wf {s : State} (hW : s.Wf) : (walkDone s).Wf := by
  unfold walkDone
  repeat' first
    | with_reducible assumption
    | with_reducible apply setR_wf
    | with_reducible apply raiseIf_wf
    | split
    | dsimp only
    | (simp only [wf_mk]; with_reducible apply wf_parts)

theorem reclaim_wf {who : Option Master} {s : State} (hW : s.Wf) : (reclaim who s).Wf := by
  unfold reclaim
  repeat' first
    | with_reducible assumption
    | with_reducible apply setR_wf
    | with_reducible apply raiseEv_wf
    | with_reducible apply journal_wf
    | with_reducible apply returnCells_wf
    | split
    | dsimp only
    | (simp only [wf_mk]; with_reducible apply wf_parts)

theorem auditCommand_wf {who : Option Master} {v : Nat} {s : State} (hW : s.Wf) : (auditCommand who v s).Wf := by
  unfold auditCommand
  repeat' first
    | with_reducible assumption
    | with_reducible apply startWalk_wf
    | with_reducible apply reclaim_wf
    | split
    | dsimp only
    | (simp only [wf_mk]; with_reducible apply wf_parts)

theorem execAuditWalk_wf {s : State} (hW : s.Wf) {tW : State} (eW : execAuditWalk s = .next tW) : tW.Wf := by
  revert eW
  unfold execAuditWalk
  repeat' first
    | with_reducible assumption
    | with_reducible apply startWalk_wf
    | with_reducible refine whenS_wf (fun u hu => ?_) ?_
    | (intro (eQ : _ = _); with_reducible refine alive_wf hW ?_ eQ)
    | (intro (eQ : _ = _); with_reducible refine answer_wf ?_ eQ)
    | split
    | dsimp only
    | (simp only [wf_mk]; with_reducible apply wf_parts)
    | (intro (eQ : _ = _); cases eQ)

theorem execWalkDone_wf {s : State} (hW : s.Wf) {tW : State} (eW : execWalkDone s = .next tW) : tW.Wf := by
  revert eW
  unfold execWalkDone
  repeat' first
    | with_reducible assumption
    | with_reducible apply walkDone_wf
    | (intro (eQ : _ = _); with_reducible refine alive_wf hW ?_ eQ)
    | (intro (eQ : _ = _); with_reducible refine answer_wf ?_ eQ)
    | split
    | dsimp only
    | (simp only [wf_mk]; with_reducible apply wf_parts)
    | (intro (eQ : _ = _); cases eQ)

theorem mirrorCopy_wf {late : Bool} {s : State} (hW : s.Wf) : (mirrorCopy late s).Wf := by
  unfold mirrorCopy
  repeat' first
    | with_reducible assumption
    | with_reducible apply incCnt_wf
    | with_reducible apply raiseEv_wf
    | with_reducible apply cabOpen_wf
    | with_reducible apply cabPut_wf
    | with_reducible apply cabAbort_wf
    | with_reducible apply cabCloseWith_wf
    | with_reducible refine foldl_wf (fun u x hu => ?_) _ _ ?_
    | with_reducible refine foldl_snd_wf (fun p x hp => ?_) _ _ ?_
    | with_reducible refine foldl_snd_wfE (fun p x hp => ?_) ?_ (by with_reducible assumption)
    | with_reducible refine cabOpen_wfE ?_ (by with_reducible assumption)
    | with_reducible refine cabPut_wfE ?_ (by with_reducible assumption)
    | with_reducible refine cabAbort_wfE ?_ (by with_reducible assumption)
    | with_reducible refine cabCloseWith_wfE ?_ (by with_reducible assumption)
    | split
    | dsimp only
    | (simp only [wf_mk]; with_reducible apply wf_parts)

theorem execMirrorCopy_wf {late : Bool} {s : State} (hW : s.Wf) {tW : State} (eW : execMirrorCopy late s = .next tW) : tW.Wf := by
  revert eW
  unfold execMirrorCopy
  repeat' first
    | with_reducible assumption
    | with_reducible apply mirrorCopy_wf
    | (intro (eQ : _ = _); with_reducible refine alive_wf hW ?_ eQ)
    | (intro (eQ : _ = _); with_reducible refine answer_wf ?_ eQ)
    | split
    | dsimp only
    | (simp only [wf_mk]; with_reducible apply wf_parts)
    | (intro (eQ : _ = _); cases eQ)

theorem mirrorCntClear_wf {s : State} (hW : s.Wf) : (mirrorCntClear s).Wf := by
  unfold mirrorCntClear
  repeat' first
    | with_reducible assumption
    | with_reducible apply clearAll_wf
    | split
    | dsimp only
    | (simp only [wf_mk]; with_reducible apply wf_parts)

theorem cabCntClear_wf {s : State} (hW : s.Wf) : (cabCntClear s).Wf := by
  unfold cabCntClear
  repeat' first
    | with_reducible assumption
    | with_reducible apply clearAll_wf
    | split
    | dsimp only
    | (simp only [wf_mk]; with_reducible apply wf_parts)

end Sys2Proof.Machine
end

