-- ==== Sys2Proof/Laws/Wf/Stair.lean ====
section
/-!
SUPPORT. The operations of Machine/Stair.lean keep the invariant State.Wf.
-/

namespace Sys2Proof.Machine

set_option linter.all false

theorem syncPendHash_wf {s : State} (hW : s.Wf) : (syncPendHash s).Wf := by
  unfold syncPendHash
  repeat' first
    | with_reducible assumption
    | with_reducible apply setR_wf
    | split
    | dsimp only
    | (simp only [wf_mk]; with_reducible apply wf_parts)

theorem setPend_wf {v : Nat} {s : State} (hW : s.Wf) : (setPend v s).Wf := by
  unfold setPend
  repeat' first
    | with_reducible assumption
    | with_reducible apply setR_wf
    | split
    | dsimp only
    | (simp only [wf_mk]; with_reducible apply wf_parts)

theorem setActState_wf {v : Nat} {s : State} (hW : s.Wf) : (setActState v s).Wf := by
  unfold setActState
  repeat' first
    | with_reducible assumption
    | with_reducible apply setR_wf
    | with_reducible apply setLevel_wf
    | split
    | dsimp only
    | (simp only [wf_mk]; with_reducible apply wf_parts)

theorem stairErr_wf {code : Nat} {off : Nat} {s : State} (hW : s.Wf) : (stairErr code off s).Wf := by
  unfold stairErr
  repeat' first
    | with_reducible assumption
    | with_reducible apply setR_wf
    | split
    | dsimp only
    | (simp only [wf_mk]; with_reducible apply wf_parts)

theorem syncAnnounced_wf {s : State} (hW : s.Wf) : (syncAnnounced s).Wf := by
  unfold syncAnnounced
  repeat' first
    | with_reducible assumption
    | with_reducible apply setR_wf
    | split
    | dsimp only
    | (simp only [wf_mk]; with_reducible apply wf_parts)

theorem recordAnnouncement_wf {f : Nat} {at_ : Nat} {g : Nat} {s : State} (hW : s.Wf) : (recordAnnouncement f at_ g s).Wf := by
  unfold recordAnnouncement
  repeat' first
    | with_reducible assumption
    | with_reducible apply syncAnnounced_wf
    | split
    | dsimp only
    | (simp only [wf_mk]; with_reducible apply wf_parts)

theorem setFlight_wf {f : Nat} {s : State} (hW : s.Wf) : (setFlight f s).Wf := by
  unfold setFlight
  repeat' first
    | with_reducible assumption
    | with_reducible apply setR_wf
    | with_reducible apply raiseIf_wf
    | split
    | dsimp only
    | (simp only [wf_mk]; with_reducible apply wf_parts)

theorem loadError_wf {code : Nat} {off : Nat} {s : State} (hW : s.Wf) : (loadError code off s).Wf := by
  unfold loadError
  repeat' first
    | with_reducible assumption
    | with_reducible apply raiseEv_wf
    | with_reducible apply stairErr_wf
    | split
    | dsimp only
    | (simp only [wf_mk]; with_reducible apply wf_parts)

theorem loadWord_wf {off : Nat} {v : Nat} {s : State} (hW : s.Wf) : (loadWord off v s).Wf := by
  unfold loadWord
  repeat' first
    | with_reducible assumption
    | with_reducible apply addCnt_wf
    | with_reducible apply syncPendHash_wf
    | with_reducible apply loadError_wf
    | split
    | dsimp only
    | (simp only [wf_mk]; with_reducible apply wf_parts)
    | (simp only [wf_mk]; constructor <;> first | rfl | with_reducible exact State.Wf.dram (by with_reducible assumption) | with_reducible exact State.Wf.flash (by with_reducible assumption) | with_reducible exact State.Wf.committed (by with_reducible assumption) | with_reducible exact State.Wf.staging (by with_reducible assumption) | with_reducible exact State.Wf.active (by with_reducible assumption) | with_reducible exact State.Wf.pend (by with_reducible assumption) | with_reducible exact State.Wf.store (by with_reducible assumption) | with_reducible exact State.Wf.log (by with_reducible assumption) | with_reducible exact State.Wf.held (by with_reducible assumption) | (with_reducible refine memWriteN_wf _ ?_ _; first | rfl | with_reducible exact State.Wf.dram (by with_reducible assumption) | with_reducible exact State.Wf.flash (by with_reducible assumption) | with_reducible exact State.Wf.committed (by with_reducible assumption) | with_reducible exact State.Wf.staging (by with_reducible assumption) | with_reducible exact State.Wf.active (by with_reducible assumption) | with_reducible exact State.Wf.pend (by with_reducible assumption)) | (with_reducible refine memPutNat_wf ?_ _ _ _; first | rfl | with_reducible exact State.Wf.dram (by with_reducible assumption) | with_reducible exact State.Wf.flash (by with_reducible assumption) | with_reducible exact State.Wf.committed (by with_reducible assumption) | with_reducible exact State.Wf.staging (by with_reducible assumption) | with_reducible exact State.Wf.active (by with_reducible assumption) | with_reducible exact State.Wf.pend (by with_reducible assumption)) | (with_reducible refine memSplice_wf ?_ _ _; first | rfl | with_reducible exact State.Wf.dram (by with_reducible assumption) | with_reducible exact State.Wf.flash (by with_reducible assumption) | with_reducible exact State.Wf.committed (by with_reducible assumption) | with_reducible exact State.Wf.staging (by with_reducible assumption) | with_reducible exact State.Wf.active (by with_reducible assumption) | with_reducible exact State.Wf.pend (by with_reducible assumption)) | (with_reducible refine memClear_wf ?_ _ _; first | rfl | with_reducible exact State.Wf.dram (by with_reducible assumption) | with_reducible exact State.Wf.flash (by with_reducible assumption) | with_reducible exact State.Wf.committed (by with_reducible assumption) | with_reducible exact State.Wf.staging (by with_reducible assumption) | with_reducible exact State.Wf.active (by with_reducible assumption) | with_reducible exact State.Wf.pend (by with_reducible assumption)))

theorem stairRefuse_wf {who : Option Master} {cmd : Nat} {code : Nat} {value : Nat} {s : State} (hW : s.Wf) : (stairRefuse who cmd code value s).Wf := by
  unfold stairRefuse
  repeat' first
    | with_reducible assumption
    | with_reducible apply raiseEv_wf
    | with_reducible apply journal_wf
    | with_reducible apply stairErr_wf
    | split
    | dsimp only
    | (simp only [wf_mk]; with_reducible apply wf_parts)

theorem syncActPending_wf {s : State} (hW : s.Wf) : (syncActPending s).Wf := by
  unfold syncActPending
  repeat' first
    | with_reducible assumption
    | with_reducible apply setFlag_wf
    | split
    | dsimp only
    | (simp only [wf_mk]; with_reducible apply wf_parts)

theorem loadBegin_wf {s : State} (hW : s.Wf) : (loadBegin s).Wf := by
  unfold loadBegin
  repeat' first
    | with_reducible assumption
    | with_reducible apply setR_wf
    | with_reducible apply syncPendHash_wf
    | with_reducible apply setPend_wf
    | split
    | dsimp only
    | (simp only [wf_mk]; with_reducible apply wf_parts)
    | (simp only [wf_mk]; constructor <;> first | rfl | with_reducible exact State.Wf.dram (by with_reducible assumption) | with_reducible exact State.Wf.flash (by with_reducible assumption) | with_reducible exact State.Wf.committed (by with_reducible assumption) | with_reducible exact State.Wf.staging (by with_reducible assumption) | with_reducible exact State.Wf.active (by with_reducible assumption) | with_reducible exact State.Wf.pend (by with_reducible assumption) | with_reducible exact State.Wf.store (by with_reducible assumption) | with_reducible exact State.Wf.log (by with_reducible assumption) | with_reducible exact State.Wf.held (by with_reducible assumption) | (with_reducible refine memWriteN_wf _ ?_ _; first | rfl | with_reducible exact State.Wf.dram (by with_reducible assumption) | with_reducible exact State.Wf.flash (by with_reducible assumption) | with_reducible exact State.Wf.committed (by with_reducible assumption) | with_reducible exact State.Wf.staging (by with_reducible assumption) | with_reducible exact State.Wf.active (by with_reducible assumption) | with_reducible exact State.Wf.pend (by with_reducible assumption)) | (with_reducible refine memPutNat_wf ?_ _ _ _; first | rfl | with_reducible exact State.Wf.dram (by with_reducible assumption) | with_reducible exact State.Wf.flash (by with_reducible assumption) | with_reducible exact State.Wf.committed (by with_reducible assumption) | with_reducible exact State.Wf.staging (by with_reducible assumption) | with_reducible exact State.Wf.active (by with_reducible assumption) | with_reducible exact State.Wf.pend (by with_reducible assumption)) | (with_reducible refine memSplice_wf ?_ _ _; first | rfl | with_reducible exact State.Wf.dram (by with_reducible assumption) | with_reducible exact State.Wf.flash (by with_reducible assumption) | with_reducible exact State.Wf.committed (by with_reducible assumption) | with_reducible exact State.Wf.staging (by with_reducible assumption) | with_reducible exact State.Wf.active (by with_reducible assumption) | with_reducible exact State.Wf.pend (by with_reducible assumption)) | (with_reducible refine memClear_wf ?_ _ _; first | rfl | with_reducible exact State.Wf.dram (by with_reducible assumption) | with_reducible exact State.Wf.flash (by with_reducible assumption) | with_reducible exact State.Wf.committed (by with_reducible assumption) | with_reducible exact State.Wf.staging (by with_reducible assumption) | with_reducible exact State.Wf.active (by with_reducible assumption) | with_reducible exact State.Wf.pend (by with_reducible assumption)))

theorem stairDiscard_wf {s : State} (hW : s.Wf) : (stairDiscard s).Wf := by
  unfold stairDiscard
  repeat' first
    | with_reducible assumption
    | with_reducible apply setR_wf
    | with_reducible apply syncPendHash_wf
    | with_reducible apply setPend_wf
    | split
    | dsimp only
    | (simp only [wf_mk]; with_reducible apply wf_parts)
    | (simp only [wf_mk]; constructor <;> first | rfl | with_reducible exact State.Wf.dram (by with_reducible assumption) | with_reducible exact State.Wf.flash (by with_reducible assumption) | with_reducible exact State.Wf.committed (by with_reducible assumption) | with_reducible exact State.Wf.staging (by with_reducible assumption) | with_reducible exact State.Wf.active (by with_reducible assumption) | with_reducible exact State.Wf.pend (by with_reducible assumption) | with_reducible exact State.Wf.store (by with_reducible assumption) | with_reducible exact State.Wf.log (by with_reducible assumption) | with_reducible exact State.Wf.held (by with_reducible assumption) | (with_reducible refine memWriteN_wf _ ?_ _; first | rfl | with_reducible exact State.Wf.dram (by with_reducible assumption) | with_reducible exact State.Wf.flash (by with_reducible assumption) | with_reducible exact State.Wf.committed (by with_reducible assumption) | with_reducible exact State.Wf.staging (by with_reducible assumption) | with_reducible exact State.Wf.active (by with_reducible assumption) | with_reducible exact State.Wf.pend (by with_reducible assumption)) | (with_reducible refine memPutNat_wf ?_ _ _ _; first | rfl | with_reducible exact State.Wf.dram (by with_reducible assumption) | with_reducible exact State.Wf.flash (by with_reducible assumption) | with_reducible exact State.Wf.committed (by with_reducible assumption) | with_reducible exact State.Wf.staging (by with_reducible assumption) | with_reducible exact State.Wf.active (by with_reducible assumption) | with_reducible exact State.Wf.pend (by with_reducible assumption)) | (with_reducible refine memSplice_wf ?_ _ _; first | rfl | with_reducible exact State.Wf.dram (by with_reducible assumption) | with_reducible exact State.Wf.flash (by with_reducible assumption) | with_reducible exact State.Wf.committed (by with_reducible assumption) | with_reducible exact State.Wf.staging (by with_reducible assumption) | with_reducible exact State.Wf.active (by with_reducible assumption) | with_reducible exact State.Wf.pend (by with_reducible assumption)) | (with_reducible refine memClear_wf ?_ _ _; first | rfl | with_reducible exact State.Wf.dram (by with_reducible assumption) | with_reducible exact State.Wf.flash (by with_reducible assumption) | with_reducible exact State.Wf.committed (by with_reducible assumption) | with_reducible exact State.Wf.staging (by with_reducible assumption) | with_reducible exact State.Wf.active (by with_reducible assumption) | with_reducible exact State.Wf.pend (by with_reducible assumption)))

theorem stairCommand_wf {who : Option Master} {cmd : Nat} {s : State} (hW : s.Wf) : (stairCommand who cmd s).Wf := by
  unfold stairCommand
  repeat' first
    | with_reducible assumption
    | with_reducible apply journal_wf
    | with_reducible apply setPend_wf
    | with_reducible apply stairRefuse_wf
    | with_reducible apply syncActPending_wf
    | with_reducible apply loadBegin_wf
    | with_reducible apply stairDiscard_wf
    | split
    | dsimp only
    | (simp only [wf_mk]; with_reducible apply wf_parts)

theorem prepareEnds_wf {s : State} (hW : s.Wf) : (prepareEnds s).Wf := by
  unfold prepareEnds
  repeat' first
    | with_reducible assumption
    | with_reducible apply setR_wf
    | with_reducible apply raiseEv_wf
    | with_reducible apply syncPendHash_wf
    | with_reducible apply setPend_wf
    | with_reducible apply stairErr_wf
    | split
    | dsimp only
    | (simp only [wf_mk]; with_reducible apply wf_parts)

theorem setFresh_wf {k : Nat} {v : Nat} {s : State} (hW : s.Wf) : (setFresh k v s).Wf := by
  unfold setFresh
  repeat' first
    | with_reducible assumption
    | split
    | dsimp only
    | (simp only [wf_mk]; with_reducible apply wf_parts)

theorem execPrepareDone_wf {s : State} (hW : s.Wf) {tW : State} (eW : execPrepareDone s = .next tW) : tW.Wf := by
  revert eW
  unfold execPrepareDone
  repeat' first
    | with_reducible assumption
    | with_reducible apply prepareEnds_wf
    | (intro (eQ : _ = _); with_reducible refine alive_wf hW ?_ eQ)
    | (intro (eQ : _ = _); with_reducible refine answer_wf ?_ eQ)
    | split
    | dsimp only
    | (simp only [wf_mk]; with_reducible apply wf_parts)
    | (intro (eQ : _ = _); cases eQ)

end Sys2Proof.Machine
end

