-- ==== Sys2Proof/Laws/Wf/Can.lean ====
section
/-!
SUPPORT. The operations of Machine/Can.lean keep the invariant State.Wf.
-/

namespace Sys2Proof.Machine

set_option linter.all false

theorem setCan_wf {n : Nat} {v : CanState} {s : State} (hW : s.Wf) : (setCan n v s).Wf := by
  unfold setCan
  repeat' first
    | with_reducible assumption
    | split
    | dsimp only
    | (simp only [wf_mk]; with_reducible apply wf_parts)

theorem measureDelay_wf {n : Nat} {delay : Nat} {s : State} (hW : s.Wf) : (measureDelay n delay s).Wf := by
  unfold measureDelay
  repeat' first
    | with_reducible assumption
    | with_reducible apply setR_wf
    | split
    | dsimp only
    | (simp only [wf_mk]; with_reducible apply wf_parts)

theorem setBufWord_wf {n : Nat} {b : Nat} {w : Nat} {v : Nat} {s : State} (hW : s.Wf) : (setBufWord n b w v s).Wf := by
  unfold setBufWord
  repeat' first
    | with_reducible assumption
    | with_reducible apply setCan_wf
    | split
    | dsimp only
    | (simp only [wf_mk]; with_reducible apply wf_parts)

theorem setMapBit_wf {pg : Nat} {f : Fld} {b : Nat} {v : Bool} {s : State} (hW : s.Wf) : (setMapBit pg f b v s).Wf := by
  unfold setMapBit
  repeat' first
    | with_reducible assumption
    | with_reducible apply setR_wf
    | split
    | dsimp only
    | (simp only [wf_mk]; with_reducible apply wf_parts)

theorem setBufStatus_wf {n : Nat} {b : Nat} {result : Nat} {errors : Nat} {clashes : Nat} {s : State} (hW : s.Wf) : (setBufStatus n b result errors clashes s).Wf := by
  unfold setBufStatus
  repeat' first
    | with_reducible assumption
    | with_reducible apply setBufWord_wf
    | split
    | dsimp only
    | (simp only [wf_mk]; with_reducible apply wf_parts)

theorem endRequest_wf {n : Nat} {b : Nat} {result : Nat} {s : State} (hW : s.Wf) : (endRequest n b result s).Wf := by
  unfold endRequest
  repeat' first
    | with_reducible assumption
    | with_reducible apply raiseEv_wf
    | with_reducible apply setCan_wf
    | with_reducible apply setMapBit_wf
    | with_reducible apply setBufStatus_wf
    | split
    | dsimp only
    | (simp only [wf_mk]; with_reducible apply wf_parts)

theorem requestBuf_wf {n : Nat} {b : Nat} {s : State} (hW : s.Wf) : (requestBuf n b s).Wf := by
  unfold requestBuf
  repeat' first
    | with_reducible assumption
    | with_reducible apply incCnt_wf
    | with_reducible apply setMapBit_wf
    | with_reducible apply setBufStatus_wf
    | with_reducible apply endRequest_wf
    | with_reducible refine whenS_wf (fun u hu => ?_) ?_
    | split
    | dsimp only
    | (simp only [wf_mk]; with_reducible apply wf_parts)

theorem requestTimed_wf {n : Nat} {b : Nat} {s : State} (hW : s.Wf) : (requestTimed n b s).Wf := by
  unfold requestTimed
  repeat' first
    | with_reducible assumption
    | with_reducible apply incCnt_wf
    | with_reducible apply raiseEv_wf
    | with_reducible apply requestBuf_wf
    | split
    | dsimp only
    | (simp only [wf_mk]; with_reducible apply wf_parts)

theorem endPending_wf {n : Nat} {result : Nat} {sel : Nat → Bool} {s : State} (hW : s.Wf) : (endPending n result sel s).Wf := by
  unfold endPending
  repeat' first
    | with_reducible assumption
    | with_reducible apply endRequest_wf
    | with_reducible refine forEach_wf (fun x u hu => ?_) ?_
    | split
    | dsimp only
    | (simp only [wf_mk]; with_reducible apply wf_parts)

theorem txbRequest_wf {n : Nat} {map : Nat} {s : State} (hW : s.Wf) : (txbRequest n map s).Wf := by
  unfold txbRequest
  repeat' first
    | with_reducible assumption
    | with_reducible apply requestBuf_wf
    | with_reducible refine forEach_wf (fun x u hu => ?_) ?_
    | split
    | dsimp only
    | (simp only [wf_mk]; with_reducible apply wf_parts)

theorem txbCancel_wf {n : Nat} {map : Nat} {s : State} (hW : s.Wf) : (txbCancel n map s).Wf := by
  unfold txbCancel
  repeat' first
    | with_reducible assumption
    | with_reducible apply setCan_wf
    | with_reducible apply endRequest_wf
    | with_reducible refine forEach_wf (fun x u hu => ?_) ?_
    | split
    | dsimp only
    | (simp only [wf_mk]; with_reducible apply wf_parts)

theorem txbUnpark_wf {n : Nat} {map : Nat} {s : State} (hW : s.Wf) : (txbUnpark n map s).Wf := by
  unfold txbUnpark
  repeat' first
    | with_reducible assumption
    | with_reducible apply setMapBit_wf
    | with_reducible apply setBufStatus_wf
    | with_reducible refine forEach_wf (fun x u hu => ?_) ?_
    | split
    | dsimp only
    | (simp only [wf_mk]; with_reducible apply wf_parts)

theorem attemptStart_wf {n : Nat} {s : State} (hW : s.Wf) : (attemptStart n s).Wf := by
  unfold attemptStart
  repeat' first
    | with_reducible assumption
    | with_reducible apply setFlag_wf
    | with_reducible apply setCan_wf
    | with_reducible apply endRequest_wf
    | split
    | dsimp only
    | (simp only [wf_mk]; with_reducible apply wf_parts)

theorem syncFc_wf {n : Nat} {s : State} (hW : s.Wf) : (syncFc n s).Wf := by
  unfold syncFc
  repeat' first
    | with_reducible assumption
    | with_reducible apply setR_wf
    | with_reducible apply setFlag_wf
    | with_reducible apply incCnt_wf
    | with_reducible apply setLevel_wf
    | with_reducible apply endPending_wf
    | with_reducible refine whenS_wf (fun u hu => ?_) ?_
    | split
    | dsimp only
    | (simp only [wf_mk]; with_reducible apply wf_parts)

theorem noteError_wf {n : Nat} {code : Nat} {dataPhase : Bool} {s : State} (hW : s.Wf) : (noteError n code dataPhase s).Wf := by
  unfold noteError
  repeat' first
    | with_reducible assumption
    | with_reducible apply setR_wf
    | with_reducible apply incCnt_wf
    | split
    | dsimp only
    | (simp only [wf_mk]; with_reducible apply wf_parts)

theorem canRecover_wf {n : Nat} {s : State} (hW : s.Wf) : (canRecover n s).Wf := by
  unfold canRecover
  repeat' first
    | with_reducible assumption
    | with_reducible apply setFlag_wf
    | split
    | dsimp only
    | (simp only [wf_mk]; with_reducible apply wf_parts)

theorem recoveryDone_wf {n : Nat} {s : State} (hW : s.Wf) : (recoveryDone n s).Wf := by
  unfold recoveryDone
  repeat' first
    | with_reducible assumption
    | with_reducible apply setR_wf
    | with_reducible apply setFlag_wf
    | with_reducible apply setLevel_wf
    | split
    | dsimp only
    | (simp only [wf_mk]; with_reducible apply wf_parts)

theorem enterMode_wf {n : Nat} {mode : Nat} {s : State} (hW : s.Wf) : (enterMode n mode s).Wf := by
  unfold enterMode
  repeat' first
    | with_reducible assumption
    | with_reducible apply setR_wf
    | with_reducible apply setFlag_wf
    | with_reducible apply setCan_wf
    | with_reducible apply endPending_wf
    | with_reducible refine whenS_wf (fun u hu => ?_) ?_
    | split
    | dsimp only
    | (simp only [wf_mk]; with_reducible apply wf_parts)

theorem canModeWrite_wf {n : Nat} {mode : Nat} {s : State} (hW : s.Wf) : (canModeWrite n mode s).Wf := by
  unfold canModeWrite
  repeat' first
    | with_reducible assumption
    | with_reducible apply setR_wf
    | with_reducible apply setFlag_wf
    | with_reducible apply setCan_wf
    | with_reducible apply enterMode_wf
    | split
    | dsimp only
    | (simp only [wf_mk]; with_reducible apply wf_parts)

theorem canSync_wf {n : Nat} {s : State} (hW : s.Wf) : (canSync n s).Wf := by
  unfold canSync
  repeat' first
    | with_reducible assumption
    | with_reducible apply setFlag_wf
    | split
    | dsimp only
    | (simp only [wf_mk]; with_reducible apply wf_parts)

theorem setCanGate_wf {n : Nat} {on : Bool} {s : State} (hW : s.Wf) : (setCanGate n on s).Wf := by
  unfold setCanGate
  repeat' first
    | with_reducible assumption
    | with_reducible apply setFlag_wf
    | with_reducible apply addCnt_wf
    | with_reducible apply setCan_wf
    | with_reducible apply endPending_wf
    | split
    | dsimp only
    | (simp only [wf_mk]; with_reducible apply wf_parts)

theorem clashReached_wf {n : Nat} {b : Nat} {img : List Nat} {s : State} (hW : s.Wf) : (clashReached n b img s).Wf := by
  unfold clashReached
  repeat' first
    | with_reducible assumption
    | with_reducible apply setR_wf
    | with_reducible apply setFlag_wf
    | with_reducible apply incCnt_wf
    | with_reducible apply raiseEv_wf
    | with_reducible apply setMapBit_wf
    | with_reducible apply setBufStatus_wf
    | with_reducible apply endRequest_wf
    | split
    | dsimp only
    | (simp only [wf_mk]; with_reducible apply wf_parts)

theorem attemptError_wf {n : Nat} {b : Nat} {img : List Nat} {code : Nat} {dataPhase : Bool} {clash : Bool} {exempt : Bool} {s : State} (hW : s.Wf) : (attemptError n b img code dataPhase clash exempt s).Wf := by
  unfold attemptError
  repeat' first
    | with_reducible assumption
    | with_reducible apply addCnt_wf
    | with_reducible apply setBufStatus_wf
    | with_reducible apply endRequest_wf
    | with_reducible apply syncFc_wf
    | with_reducible apply noteError_wf
    | with_reducible apply clashReached_wf
    | with_reducible refine whenS_wf (fun u hu => ?_) ?_
    | split
    | dsimp only
    | (simp only [wf_mk]; with_reducible apply wf_parts)

theorem attemptEnd_wf {n : Nat} {o : CanOutcome} {s : State} (hW : s.Wf) : (attemptEnd n o s).Wf := by
  unfold attemptEnd
  repeat' first
    | with_reducible assumption
    | with_reducible apply setR_wf
    | with_reducible apply setFlag_wf
    | with_reducible apply incCnt_wf
    | with_reducible apply setCan_wf
    | with_reducible apply measureDelay_wf
    | with_reducible apply setBufWord_wf
    | with_reducible apply endRequest_wf
    | with_reducible apply syncFc_wf
    | with_reducible apply enterMode_wf
    | with_reducible apply setCanGate_wf
    | with_reducible apply attemptError_wf
    | with_reducible refine whenS_wf (fun u hu => ?_) ?_
    | split
    | dsimp only
    | (simp only [wf_mk]; with_reducible apply wf_parts)

theorem rxLost_wf {n : Nat} {s : State} (hW : s.Wf) : (rxLost n s).Wf := by
  unfold rxLost
  repeat' first
    | with_reducible assumption
    | with_reducible apply incCnt_wf
    | with_reducible apply raiseEv_wf
    | split
    | dsimp only
    | (simp only [wf_mk]; with_reducible apply wf_parts)

theorem queueFrame_wf {n : Nat} {q : Nat} {prio : Bool} {w0 : Nat} {w1 : Nat} {stamp : Nat} {data : List Byte} {s : State} (hW : s.Wf) : (queueFrame n q prio w0 w1 stamp data s).Wf := by
  unfold queueFrame
  repeat' first
    | with_reducible assumption
    | with_reducible apply setCan_wf
    | with_reducible apply rxLost_wf
    | split
    | dsimp only
    | (simp only [wf_mk]; with_reducible apply wf_parts)

theorem mapFrame_wf {n : Nat} {slot : Nat} {w0 : Nat} {w1 : Nat} {stamp : Nat} {data : List Byte} {s : State} (hW : s.Wf) : (mapFrame n slot w0 w1 stamp data s).Wf := by
  unfold mapFrame
  repeat' first
    | with_reducible assumption
    | with_reducible apply setCan_wf
    | with_reducible refine foldl_wf (fun u x hu => ?_) _ _ ?_
    | with_reducible refine foldl_snd_wf (fun p x hp => ?_) _ _ ?_
    | with_reducible refine foldl_snd_wfE (fun p x hp => ?_) ?_ (by with_reducible assumption)
    | split
    | dsimp only
    | (simp only [wf_mk]; with_reducible apply wf_parts)

theorem filterFrame_wf {n : Nat} {f : CanFrame} {stamp : Nat} {s : State} (hW : s.Wf) : (filterFrame n f stamp s).Wf := by
  unfold filterFrame
  repeat' first
    | with_reducible assumption
    | with_reducible apply queueFrame_wf
    | with_reducible apply mapFrame_wf
    | split
    | dsimp only
    | (simp only [wf_mk]; with_reducible apply wf_parts)

theorem recAfterGood_wf {n : Nat} {s : State} (hW : s.Wf) : (recAfterGood n s).Wf := by
  unfold recAfterGood
  repeat' first
    | with_reducible assumption
    | with_reducible apply setR_wf
    | with_reducible apply freeValue_wf
    | with_reducible refine freeValue_wfE ?_ (by with_reducible assumption)
    | split
    | dsimp only
    | (simp only [wf_mk]; with_reducible apply wf_parts)

theorem frameReceived_wf {n : Nat} {f : CanFrame} {own : Bool} {stamp : Nat} {s : State} (hW : s.Wf) : (frameReceived n f own stamp s).Wf := by
  unfold frameReceived
  repeat' first
    | with_reducible assumption
    | with_reducible apply setR_wf
    | with_reducible apply incCnt_wf
    | with_reducible apply syncFc_wf
    | with_reducible apply filterFrame_wf
    | with_reducible apply recAfterGood_wf
    | with_reducible refine whenS_wf (fun u hu => ?_) ?_
    | split
    | dsimp only
    | (simp only [wf_mk]; with_reducible apply wf_parts)

theorem storeFrame_wf {n : Nat} {s : State} (hW : s.Wf) : (storeFrame n s).Wf := by
  unfold storeFrame
  repeat' first
    | with_reducible assumption
    | with_reducible apply raiseIf_wf
    | with_reducible apply cabProduce_wf
    | with_reducible apply setCan_wf
    | with_reducible apply rxLost_wf
    | with_reducible refine cabProduce_wfE ?_ (by with_reducible assumption)
    | split
    | dsimp only
    | (simp only [wf_mk]; with_reducible apply wf_parts)

theorem rxError_wf {n : Nat} {code : Nat} {dataPhase : Bool} {severe : Bool} {s : State} (hW : s.Wf) : (rxError n code dataPhase severe s).Wf := by
  unfold rxError
  repeat' first
    | with_reducible assumption
    | with_reducible apply addCnt_wf
    | with_reducible apply syncFc_wf
    | with_reducible apply noteError_wf
    | with_reducible refine whenS_wf (fun u hu => ?_) ?_
    | split
    | dsimp only
    | (simp only [wf_mk]; with_reducible apply wf_parts)

theorem filterWrite_wf {k : Nat} {v : Nat} {s : State} (hW : s.Wf) : (filterWrite k v s).Wf := by
  unfold filterWrite
  repeat' first
    | with_reducible assumption
    | split
    | dsimp only
    | (simp only [wf_mk]; with_reducible apply wf_parts)

theorem canIndWrite_wf {n : Nat} {addr : Nat} {v : Nat} {s : State} (hW : s.Wf) : (canIndWrite n addr v s).Wf := by
  unfold canIndWrite
  repeat' first
    | with_reducible assumption
    | with_reducible apply setBufWord_wf
    | with_reducible apply filterWrite_wf
    | split
    | dsimp only
    | (simp only [wf_mk]; with_reducible apply wf_parts)

theorem clearSlots_wf {n : Nat} {s : State} (hW : s.Wf) : (clearSlots n s).Wf := by
  unfold clearSlots
  repeat' first
    | with_reducible assumption
    | with_reducible apply setCan_wf
    | split
    | dsimp only
    | (simp only [wf_mk]; with_reducible apply wf_parts)

theorem dropWaiting_wf {n : Nat} {s : State} (hW : s.Wf) : (dropWaiting n s).Wf := by
  unfold dropWaiting
  repeat' first
    | with_reducible assumption
    | with_reducible apply setCan_wf
    | split
    | dsimp only
    | (simp only [wf_mk]; with_reducible apply wf_parts)

theorem canCntClear_wf {n : Nat} {s : State} (hW : s.Wf) : (canCntClear n s).Wf := by
  unfold canCntClear
  repeat' first
    | with_reducible assumption
    | with_reducible apply clearAll_wf
    | split
    | dsimp only
    | (simp only [wf_mk]; with_reducible apply wf_parts)

theorem execCanSync_wf {n : Fin 16} {s : State} (hW : s.Wf) {tW : State} (eW : execCanSync n s = .next tW) : tW.Wf := by
  revert eW
  unfold execCanSync
  repeat' first
    | with_reducible assumption
    | with_reducible apply canSync_wf
    | (intro (eQ : _ = _); with_reducible refine alive_wf hW ?_ eQ)
    | (intro (eQ : _ = _); with_reducible refine answer_wf ?_ eQ)
    | split
    | dsimp only
    | (simp only [wf_mk]; with_reducible apply wf_parts)
    | (intro (eQ : _ = _); cases eQ)

theorem execCanFrameReceived_wf {n : Fin 16} {frame : CanFrame} {own : Bool} {stamp : Word} {s : State} (hW : s.Wf) {tW : State} (eW : execCanFrameReceived n frame own stamp s = .next tW) : tW.Wf := by
  revert eW
  unfold execCanFrameReceived
  repeat' first
    | with_reducible assumption
    | with_reducible apply frameReceived_wf
    | (intro (eQ : _ = _); with_reducible refine alive_wf hW ?_ eQ)
    | (intro (eQ : _ = _); with_reducible refine answer_wf ?_ eQ)
    | split
    | dsimp only
    | (simp only [wf_mk]; with_reducible apply wf_parts)
    | (intro (eQ : _ = _); cases eQ)

theorem execCanStore_wf {n : Fin 16} {s : State} (hW : s.Wf) {tW : State} (eW : execCanStore n s = .next tW) : tW.Wf := by
  revert eW
  unfold execCanStore
  repeat' first
    | with_reducible assumption
    | with_reducible apply storeFrame_wf
    | (intro (eQ : _ = _); with_reducible refine alive_wf hW ?_ eQ)
    | (intro (eQ : _ = _); with_reducible refine answer_wf ?_ eQ)
    | split
    | dsimp only
    | (simp only [wf_mk]; with_reducible apply wf_parts)
    | (intro (eQ : _ = _); cases eQ)

theorem canTtRequest_wf {i : Nat} {s : State} (hW : s.Wf) : (canTtRequest i s).Wf := by
  unfold canTtRequest
  repeat' first
    | with_reducible assumption
    | with_reducible apply requestTimed_wf
    | split
    | dsimp only
    | (simp only [wf_mk]; with_reducible apply wf_parts)

theorem execCanTtRequest_wf {index : Nat} {s : State} (hW : s.Wf) {tW : State} (eW : execCanTtRequest index s = .next tW) : tW.Wf := by
  revert eW
  unfold execCanTtRequest
  repeat' first
    | with_reducible assumption
    | with_reducible apply canTtRequest_wf
    | (intro (eQ : _ = _); with_reducible refine alive_wf hW ?_ eQ)
    | (intro (eQ : _ = _); with_reducible refine answer_wf ?_ eQ)
    | split
    | dsimp only
    | (simp only [wf_mk]; with_reducible apply wf_parts)
    | (intro (eQ : _ = _); cases eQ)

theorem execRecoveryDone_wf {n : Fin 16} {s : State} (hW : s.Wf) {tW : State} (eW : execRecoveryDone n s = .next tW) : tW.Wf := by
  revert eW
  unfold execRecoveryDone
  repeat' first
    | with_reducible assumption
    | with_reducible apply recoveryDone_wf
    | (intro (eQ : _ = _); with_reducible refine alive_wf hW ?_ eQ)
    | (intro (eQ : _ = _); with_reducible refine answer_wf ?_ eQ)
    | split
    | dsimp only
    | (simp only [wf_mk]; with_reducible apply wf_parts)
    | (intro (eQ : _ = _); cases eQ)

theorem execCanRxError_wf {n : Fin 16} {code : Fin 8} {dataPhase : Bool} {severe : Bool} {s : State} (hW : s.Wf) {tW : State} (eW : execCanRxError n code dataPhase severe s = .next tW) : tW.Wf := by
  revert eW
  unfold execCanRxError
  repeat' first
    | with_reducible assumption
    | with_reducible apply rxError_wf
    | (intro (eQ : _ = _); with_reducible refine alive_wf hW ?_ eQ)
    | (intro (eQ : _ = _); with_reducible refine answer_wf ?_ eQ)
    | split
    | dsimp only
    | (simp only [wf_mk]; with_reducible apply wf_parts)
    | (intro (eQ : _ = _); cases eQ)

end Sys2Proof.Machine
end

