-- ==== Sys2Proof/Laws/Wf/Engine.lean ====
section
/-!
SUPPORT. The operations of Machine/Engine.lean keep the invariant State.Wf.
-/

namespace Sys2Proof.Machine

set_option linter.all false

theorem setEng_wf {e : Nat} {v : EngState} {s : State} (hW : s.Wf) : (setEng e v s).Wf := by
  unfold setEng
  repeat' first
    | with_reducible assumption
    | split
    | dsimp only
    | (simp only [wf_mk]; with_reducible apply wf_parts)

theorem setEngR_wf {e : Nat} {f : Fld} {v : Nat} {s : State} (hW : s.Wf) : (setEngR e f v s).Wf := by
  unfold setEngR
  repeat' first
    | with_reducible assumption
    | with_reducible apply setR_wf
    | split
    | dsimp only
    | (simp only [wf_mk]; with_reducible apply wf_parts)

theorem setEngFlag_wf {e : Nat} {f : Fld} {b : Bool} {s : State} (hW : s.Wf) : (setEngFlag e f b s).Wf := by
  unfold setEngFlag
  repeat' first
    | with_reducible assumption
    | with_reducible apply setFlag_wf
    | split
    | dsimp only
    | (simp only [wf_mk]; with_reducible apply wf_parts)

theorem setTxf_wf {e : Nat} {ws : List Nat} {s : State} (hW : s.Wf) : (setTxf e ws s).Wf := by
  unfold setTxf
  repeat' first
    | with_reducible assumption
    | with_reducible apply setEng_wf
    | with_reducible apply setEngR_wf
    | split
    | dsimp only
    | (simp only [wf_mk]; with_reducible apply wf_parts)

theorem setRxf_wf {e : Nat} {ws : List Nat} {s : State} (hW : s.Wf) : (setRxf e ws s).Wf := by
  unfold setRxf
  repeat' first
    | with_reducible assumption
    | with_reducible apply setEng_wf
    | with_reducible apply setEngR_wf
    | split
    | dsimp only
    | (simp only [wf_mk]; with_reducible apply wf_parts)

theorem pushTxf_wf {e : Nat} {w : Nat} {s : State} (hW : s.Wf) : (pushTxf e w s).Wf := by
  unfold pushTxf
  repeat' first
    | with_reducible assumption
    | with_reducible apply setTxf_wf
    | split
    | dsimp only
    | (simp only [wf_mk]; with_reducible apply wf_parts)

theorem pushRxf_wf {e : Nat} {w : Nat} {s : State} (hW : s.Wf) : (pushRxf e w s).Wf := by
  unfold pushRxf
  repeat' first
    | with_reducible assumption
    | with_reducible apply setRxf_wf
    | split
    | dsimp only
    | (simp only [wf_mk]; with_reducible apply wf_parts)

theorem pagePush_wf {e : Nat} {w : Nat} {s : State} (hW : s.Wf) : (pagePush e w s).Wf := by
  unfold pagePush
  repeat' first
    | with_reducible assumption
    | with_reducible apply incCnt_wf
    | with_reducible apply raiseEv_wf
    | with_reducible apply pushTxf_wf
    | split
    | dsimp only
    | (simp only [wf_mk]; with_reducible apply wf_parts)

theorem pagePop_wf {e : Nat} {s : State} (hW : s.Wf) : (pagePop e s).2.Wf := by
  unfold pagePop
  repeat' first
    | with_reducible assumption
    | with_reducible apply incCnt_wf
    | with_reducible apply raiseEv_wf
    | with_reducible apply setRxf_wf
    | split
    | dsimp only
    | (simp only [wf_mk]; with_reducible apply wf_parts)

theorem pagePop_wfE {e : Nat} {s : State} {x0} {tW : State} (hW : s.Wf) (eW : pagePop e s = (x0, tW)) : tW.Wf := by
  have hw := pagePop_wf (e := e) (s := s) hW
  rw [eW] at hw
  exact hw

theorem setOwner_wf {t : Nat} {p : Nat} {o : Option (Nat × Nat)} {s : State} (hW : s.Wf) : (setOwner t p o s).Wf := by
  unfold setOwner
  repeat' first
    | with_reducible assumption
    | with_reducible apply setR_wf
    | split
    | dsimp only
    | (simp only [wf_mk]; with_reducible apply wf_parts)

theorem syncTile_wf {t : Nat} {s : State} (hW : s.Wf) : (syncTile t s).Wf := by
  unfold syncTile
  repeat' first
    | with_reducible assumption
    | with_reducible apply setR_wf
    | with_reducible apply raiseIf_wf
    | with_reducible refine whenS_wf (fun u hu => ?_) ?_
    | with_reducible refine foldl_wf (fun u x hu => ?_) _ _ ?_
    | with_reducible refine foldl_snd_wf (fun p x hp => ?_) _ _ ?_
    | with_reducible refine foldl_snd_wfE (fun p x hp => ?_) ?_ (by with_reducible assumption)
    | split
    | dsimp only
    | (simp only [wf_mk]; with_reducible apply wf_parts)

theorem claimConflict_wf {t : Nat} {p : Nat} {j : Nat} {i : Nat} {s : State} (hW : s.Wf) : (claimConflict t p j i s).Wf := by
  unfold claimConflict
  repeat' first
    | with_reducible assumption
    | with_reducible apply setR_wf
    | with_reducible apply incCnt_wf
    | with_reducible apply raiseEv_wf
    | split
    | dsimp only
    | (simp only [wf_mk]; with_reducible apply wf_parts)

theorem releaseClaim_wf {e : Nat} {new : Nat} {i : Nat} {s : State} (hW : s.Wf) : (releaseClaim e new i s).Wf := by
  unfold releaseClaim
  repeat' first
    | with_reducible assumption
    | with_reducible apply setOwner_wf
    | with_reducible refine whenS_wf (fun u hu => ?_) ?_
    | split
    | dsimp only
    | (simp only [wf_mk]; with_reducible apply wf_parts)

theorem requestClaim_wf {e i : Nat} {acc : Nat × State} (hW : acc.2.Wf) : (requestClaim e i acc).2.Wf := by
  obtain ⟨new, s⟩ := acc
  replace hW : s.Wf := hW
  unfold requestClaim
  dsimp only
  split
  · exact hW
  · split
    · dsimp only
      exact setOwner_wf hW
    · split
      · exact hW
      · dsimp only
        exact claimConflict_wf hW

theorem setFilter_wf {e : Nat} {i : Nat} {f : PinFilter} {s : State} (hW : s.Wf) : (setFilter e i f s).Wf := by
  unfold setFilter
  repeat' first
    | with_reducible assumption
    | with_reducible apply setEng_wf
    | split
    | dsimp only
    | (simp only [wf_mk]; with_reducible apply wf_parts)

theorem syncPinIn_wf {e : Nat} {s : State} (hW : s.Wf) : (syncPinIn e s).Wf := by
  unfold syncPinIn
  repeat' first
    | with_reducible assumption
    | with_reducible apply setEngR_wf
    | with_reducible refine foldl_wf (fun u x hu => ?_) _ _ ?_
    | with_reducible refine foldl_snd_wf (fun p x hp => ?_) _ _ ?_
    | with_reducible refine foldl_snd_wfE (fun p x hp => ?_) ?_ (by with_reducible assumption)
    | split
    | dsimp only
    | (simp only [wf_mk]; with_reducible apply wf_parts)

theorem pinmapWrite_wf {e : Nat} {v : Nat} {s : State} (hW : s.Wf) : (pinmapWrite e v s).Wf := by
  unfold pinmapWrite
  repeat' first
    | with_reducible assumption
    | with_reducible apply setEngR_wf
    | with_reducible apply syncTile_wf
    | with_reducible apply releaseClaim_wf
    | with_reducible apply requestClaim_wf
    | with_reducible apply syncPinIn_wf
    | with_reducible refine forEach_wf (fun x u hu => ?_) ?_
    | with_reducible refine foldl_wf (fun u x hu => ?_) _ _ ?_
    | with_reducible refine foldl_snd_wf (fun p x hp => ?_) _ _ ?_
    | with_reducible refine foldl_snd_wfE (fun p x hp => ?_) ?_ (by with_reducible assumption)
    | with_reducible refine requestClaim_wfE ?_ (by with_reducible assumption)
    | split
    | dsimp only
    | (simp only [wf_mk]; with_reducible apply wf_parts)

theorem tileCfgWrite_wf {t : Nat} {sel : Nat} {en : Nat} {s : State} (hW : s.Wf) : (tileCfgWrite t sel en s).Wf := by
  unfold tileCfgWrite
  repeat' first
    | with_reducible assumption
    | with_reducible apply setR_wf
    | with_reducible apply setFlag_wf
    | with_reducible apply freeValue_wf
    | with_reducible apply setLevel_wf
    | with_reducible apply syncTile_wf
    | with_reducible refine freeValue_wfE ?_ (by with_reducible assumption)
    | split
    | dsimp only
    | (simp only [wf_mk]; with_reducible apply wf_parts)

theorem vioFault_wf {t : Nat} {mv : Nat} {s : State} (hW : s.Wf) : (vioFault t mv s).Wf := by
  unfold vioFault
  repeat' first
    | with_reducible assumption
    | with_reducible apply setR_wf
    | with_reducible apply setFlag_wf
    | with_reducible apply setLevel_wf
    | with_reducible apply syncTile_wf
    | split
    | dsimp only
    | (simp only [wf_mk]; with_reducible apply wf_parts)

theorem vioFaultClear_wf {t : Nat} {mv : Nat} {s : State} (hW : s.Wf) : (vioFaultClear t mv s).Wf := by
  unfold vioFaultClear
  repeat' first
    | with_reducible assumption
    | with_reducible apply setR_wf
    | with_reducible apply setFlag_wf
    | with_reducible apply setLevel_wf
    | with_reducible apply syncTile_wf
    | split
    | dsimp only
    | (simp only [wf_mk]; with_reducible apply wf_parts)

theorem readback_wf {t : Nat} {p : Nat} {s : State} (hW : s.Wf) : (readback t p s).Wf := by
  unfold readback
  repeat' first
    | with_reducible assumption
    | with_reducible apply setR_wf
    | with_reducible apply incCnt_wf
    | with_reducible apply raiseEv_wf
    | split
    | dsimp only
    | (simp only [wf_mk]; with_reducible apply wf_parts)

theorem execVioFault_wf {t : Fin 16} {mv : Fin 4096} {s : State} (hW : s.Wf) {tW : State} (eW : execVioFault t mv s = .next tW) : tW.Wf := by
  revert eW
  unfold execVioFault
  repeat' first
    | with_reducible assumption
    | with_reducible apply vioFault_wf
    | (intro (eQ : _ = _); with_reducible refine alive_wf hW ?_ eQ)
    | (intro (eQ : _ = _); with_reducible refine answer_wf ?_ eQ)
    | split
    | dsimp only
    | (simp only [wf_mk]; with_reducible apply wf_parts)
    | (intro (eQ : _ = _); cases eQ)

theorem execVioFaultClear_wf {t : Fin 16} {mv : Fin 4096} {s : State} (hW : s.Wf) {tW : State} (eW : execVioFaultClear t mv s = .next tW) : tW.Wf := by
  revert eW
  unfold execVioFaultClear
  repeat' first
    | with_reducible assumption
    | with_reducible apply vioFaultClear_wf
    | (intro (eQ : _ = _); with_reducible refine alive_wf hW ?_ eQ)
    | (intro (eQ : _ = _); with_reducible refine answer_wf ?_ eQ)
    | split
    | dsimp only
    | (simp only [wf_mk]; with_reducible apply wf_parts)
    | (intro (eQ : _ = _); cases eQ)

theorem execReadback_wf {t : Fin 16} {p : Fin 32} {s : State} (hW : s.Wf) {tW : State} (eW : execReadback t p s = .next tW) : tW.Wf := by
  revert eW
  unfold execReadback
  repeat' first
    | with_reducible assumption
    | with_reducible apply readback_wf
    | (intro (eQ : _ = _); with_reducible refine alive_wf hW ?_ eQ)
    | (intro (eQ : _ = _); with_reducible refine answer_wf ?_ eQ)
    | split
    | dsimp only
    | (simp only [wf_mk]; with_reducible apply wf_parts)
    | (intro (eQ : _ = _); cases eQ)

theorem startDivider_wf {e : Nat} {s : State} (hW : s.Wf) : (startDivider e s).Wf := by
  unfold startDivider
  repeat' first
    | with_reducible assumption
    | with_reducible apply setEng_wf
    | split
    | dsimp only
    | (simp only [wf_mk]; with_reducible apply wf_parts)

theorem dividerTick_wf {e : Nat} {s : State} (hW : s.Wf) : (dividerTick e s).1.Wf := by
  unfold dividerTick
  repeat' first
    | with_reducible assumption
    | with_reducible apply setEng_wf
    | split
    | dsimp only
    | (simp only [wf_mk]; with_reducible apply wf_parts)

theorem dividerTick_wfE {e : Nat} {s : State} {x0} {tW : State} (hW : s.Wf) (eW : dividerTick e s = (tW, x0)) : tW.Wf := by
  have hw := dividerTick_wf (e := e) (s := s) hW
  rw [eW] at hw
  exact hw

theorem dividerAtTick_wf {e : Nat} {s : State} (hW : s.Wf) : (dividerAtTick e s).Wf := by
  unfold dividerAtTick
  repeat' first
    | with_reducible assumption
    | with_reducible apply setEng_wf
    | with_reducible apply startDivider_wf
    | split
    | dsimp only
    | (simp only [wf_mk]; with_reducible apply wf_parts)

theorem setSwap_wf {e : Nat} {w : Option (Nat × Bool)} {s : State} (hW : s.Wf) : (setSwap e w s).Wf := by
  unfold setSwap
  repeat' first
    | with_reducible assumption
    | with_reducible apply setEng_wf
    | with_reducible apply setEngFlag_wf
    | split
    | dsimp only
    | (simp only [wf_mk]; with_reducible apply wf_parts)

theorem exchangeBanks_wf {e : Nat} {s : State} (hW : s.Wf) : (exchangeBanks e s).Wf := by
  unfold exchangeBanks
  repeat' first
    | with_reducible assumption
    | with_reducible apply setEngR_wf
    | split
    | dsimp only
    | (simp only [wf_mk]; with_reducible apply wf_parts)

theorem dropRetained_wf {e : Nat} {s : State} (hW : s.Wf) : (dropRetained e s).Wf := by
  unfold dropRetained
  repeat' first
    | with_reducible assumption
    | with_reducible apply setEng_wf
    | with_reducible apply setEngFlag_wf
    | split
    | dsimp only
    | (simp only [wf_mk]; with_reducible apply wf_parts)

theorem takeSwap_wf {e : Nat} {restart : Bool} {s : State} (hW : s.Wf) : (takeSwap e restart s).Wf := by
  unfold takeSwap
  repeat' first
    | with_reducible assumption
    | with_reducible apply raiseEv_wf
    | with_reducible apply setEngR_wf
    | with_reducible apply setSwap_wf
    | with_reducible apply exchangeBanks_wf
    | with_reducible refine whenS_wf (fun u hu => ?_) ?_
    | split
    | dsimp only
    | (simp only [wf_mk]; with_reducible apply wf_parts)

theorem clearEngine_wf {e : Nat} {s : State} (hW : s.Wf) : (clearEngine e s).Wf := by
  unfold clearEngine
  repeat' first
    | with_reducible assumption
    | with_reducible apply clearAll_wf
    | split
    | dsimp only
    | (simp only [wf_mk]; with_reducible apply wf_parts)

theorem forceTick_wf {e : Nat} {s : State} (hW : s.Wf) : (forceTick e s).Wf := by
  unfold forceTick
  repeat' first
    | with_reducible assumption
    | with_reducible apply raiseEv_wf
    | with_reducible apply setEng_wf
    | with_reducible apply setEngFlag_wf
    | with_reducible apply syncTile_wf
    | with_reducible apply setSwap_wf
    | with_reducible apply exchangeBanks_wf
    | with_reducible apply dropRetained_wf
    | with_reducible apply clearEngine_wf
    | split
    | dsimp only
    | (simp only [wf_mk]; with_reducible apply wf_parts)

theorem swapAtRest_wf {e : Nat} {s : State} (hW : s.Wf) : (swapAtRest e s).Wf := by
  unfold swapAtRest
  repeat' first
    | with_reducible assumption
    | with_reducible apply raiseEv_wf
    | with_reducible apply setEngR_wf
    | with_reducible apply setSwap_wf
    | with_reducible apply exchangeBanks_wf
    | split
    | dsimp only
    | (simp only [wf_mk]; with_reducible apply wf_parts)

theorem requestSwap_wf {e : Nat} {mode : Nat} {restart : Bool} {s : State} (hW : s.Wf) : (requestSwap e mode restart s).Wf := by
  unfold requestSwap
  repeat' first
    | with_reducible assumption
    | with_reducible apply setSwap_wf
    | with_reducible apply swapAtRest_wf
    | split
    | dsimp only
    | (simp only [wf_mk]; with_reducible apply wf_parts)

theorem cancelSwap_wf {e : Nat} {s : State} (hW : s.Wf) : (cancelSwap e s).Wf := by
  unfold cancelSwap
  repeat' first
    | with_reducible assumption
    | with_reducible apply setSwap_wf
    | split
    | dsimp only
    | (simp only [wf_mk]; with_reducible apply wf_parts)

theorem swapWrite_wf {e : Nat} {mode : Nat} {restart : Bool} {req : Bool} {cancel : Bool} {s : State} (hW : s.Wf) : (swapWrite e mode restart req cancel s).Wf := by
  unfold swapWrite
  repeat' first
    | with_reducible assumption
    | with_reducible apply setEngR_wf
    | with_reducible apply setEngFlag_wf
    | with_reducible apply requestSwap_wf
    | with_reducible apply cancelSwap_wf
    | with_reducible refine whenS_wf (fun u hu => ?_) ?_
    | split
    | dsimp only
    | (simp only [wf_mk]; with_reducible apply wf_parts)

theorem engIndWrite_wf {e : Nat} {addr : Nat} {v : Nat} {s : State} (hW : s.Wf) {tW : State} (eW : engIndWrite e addr v s = some tW) : tW.Wf := by
  revert eW
  unfold engIndWrite
  repeat' first
    | with_reducible assumption
    | with_reducible apply setEng_wf
    | split
    | dsimp only
    | (simp only [wf_mk]; with_reducible apply wf_parts)
    | (intro (eQ : _ = _); cases eQ)

theorem sampleFilters_wf {e : Nat} {s : State} (hW : s.Wf) : (sampleFilters e s).Wf := by
  unfold sampleFilters
  repeat' first
    | with_reducible assumption
    | with_reducible apply setFilter_wf
    | with_reducible apply syncPinIn_wf
    | with_reducible refine forEach_wf (fun x u hu => ?_) ?_
    | split
    | dsimp only
    | (simp only [wf_mk]; with_reducible apply wf_parts)

theorem timerTick_wf {e : Nat} {s : State} (hW : s.Wf) : (timerTick e s).Wf := by
  unfold timerTick
  repeat' first
    | with_reducible assumption
    | with_reducible apply setEngR_wf
    | with_reducible apply setEngFlag_wf
    | split
    | dsimp only
    | (simp only [wf_mk]; with_reducible apply wf_parts)

theorem latchLinks_wf {e : Nat} {s : State} (hW : s.Wf) : (latchLinks e s).Wf := by
  unfold latchLinks
  repeat' first
    | with_reducible assumption
    | with_reducible apply setEng_wf
    | split
    | dsimp only
    | (simp only [wf_mk]; with_reducible apply wf_parts)

theorem latchAllLinks_wf {s : State} (hW : s.Wf) : (latchAllLinks s).Wf := by
  unfold latchAllLinks
  repeat' first
    | with_reducible assumption
    | with_reducible apply latchLinks_wf
    | with_reducible refine forEach_wf (fun x u hu => ?_) ?_
    | split
    | dsimp only
    | (simp only [wf_mk]; with_reducible apply wf_parts)

theorem selectEntry_wf {e : Nat} {s : State} (hW : s.Wf) : (selectEntry e s).2.Wf := by
  unfold selectEntry
  repeat' first
    | with_reducible assumption
    | with_reducible apply setEngFlag_wf
    | with_reducible refine whenS_wf (fun u hu => ?_) ?_
    | split
    | dsimp only
    | (simp only [wf_mk]; with_reducible apply wf_parts)

theorem selectEntry_wfE {e : Nat} {s : State} {x0} {tW : State} (hW : s.Wf) (eW : selectEntry e s = (x0, tW)) : tW.Wf := by
  have hw := selectEntry_wf (e := e) (s := s) hW
  rw [eW] at hw
  exact hw

theorem shiftOnce_wf {e : Nat} {b : Bool} {s : State} (hW : s.Wf) : (shiftOnce e b s).Wf := by
  unfold shiftOnce
  repeat' first
    | with_reducible assumption
    | with_reducible apply setEngR_wf
    | split
    | dsimp only
    | (simp only [wf_mk]; with_reducible apply wf_parts)

theorem noteStale_wf {e : Nat} {moved : Bool} {s : State} (hW : s.Wf) : (noteStale e moved s).Wf := by
  unfold noteStale
  repeat' first
    | with_reducible assumption
    | with_reducible apply incCnt_wf
    | with_reducible apply raiseIf_wf
    | with_reducible apply setEngFlag_wf
    | split
    | dsimp only
    | (simp only [wf_mk]; with_reducible apply wf_parts)

theorem popAction_wf {e : Nat} {blocking : Bool} {s : State} (hW : s.Wf) {x0} {tW : State} (eW : popAction e blocking s = some (x0, tW)) : tW.Wf := by
  revert eW
  unfold popAction
  repeat' first
    | with_reducible assumption
    | with_reducible apply setEngR_wf
    | with_reducible apply setTxf_wf
    | with_reducible apply noteStale_wf
    | split
    | dsimp only
    | (simp only [wf_mk]; with_reducible apply wf_parts)
    | (intro (eQ : _ = _); cases eQ)

theorem pushAction_wf {e : Nat} {w : Nat} {blocking : Bool} {s : State} (hW : s.Wf) {tW : State} (eW : pushAction e w blocking s = some tW) : tW.Wf := by
  revert eW
  unfold pushAction
  repeat' first
    | with_reducible assumption
    | with_reducible apply pushRxf_wf
    | with_reducible apply noteStale_wf
    | split
    | dsimp only
    | (simp only [wf_mk]; with_reducible apply wf_parts)
    | (intro (eQ : _ = _); cases eQ)

theorem loadSr_wf {e : Nat} {r : Option (Nat × State)} (hW : ∀ x u, r = some (x, u) → u.Wf) {tW : State}
    (eW : loadSr e r = some tW) : tW.Wf := by
  unfold loadSr at eW
  cases r with
  | none => cases eW
  | some p =>
    obtain ⟨x, u⟩ := p
    cases eW
    exact setEngR_wf (setEngR_wf (hW x u rfl))

theorem loadCnt_wf {e : Nat} {r : Option (Nat × State)} (hW : ∀ x u, r = some (x, u) → u.Wf) {tW : State}
    (eW : loadCnt e r = some tW) : tW.Wf := by
  unfold loadCnt at eW
  cases r with
  | none => cases eW
  | some p =>
    obtain ⟨x, u⟩ := p
    cases eW
    exact setEngR_wf (hW x u rfl)

theorem setLink_wf {e : Nat} {k : Nat} {b : Bool} {s : State} (hW : s.Wf) : (setLink e k b s).Wf := by
  unfold setLink
  repeat' first
    | with_reducible assumption
    | with_reducible apply setEngR_wf
    | split
    | dsimp only
    | (simp only [wf_mk]; with_reducible apply wf_parts)

theorem engAction_wf {e : Nat} {code : Nat} {s : State} (hW : s.Wf) {tW : State} (eW : engAction e code s = some tW) : tW.Wf := by
  revert eW
  unfold engAction
  repeat' first
    | with_reducible assumption
    | with_reducible apply raiseEv_wf
    | with_reducible apply setEngR_wf
    | with_reducible apply setEngFlag_wf
    | with_reducible apply shiftOnce_wf
    | with_reducible apply setLink_wf
    | with_reducible refine popAction_wf ?_ (by with_reducible assumption)
    | with_reducible refine pushAction_wf ?_ (by with_reducible assumption)
    | with_reducible refine loadSr_wf ?_ (by with_reducible assumption)
    | with_reducible refine loadCnt_wf ?_ (by with_reducible assumption)
    | split
    | dsimp only
    | (simp only [wf_mk]; with_reducible apply wf_parts)
    | (intro (eQ : _ = _); cases eQ)
    | (intro (eQ : _ = _); with_reducible refine pushAction_wf ?_ eQ)
    | (intro (eQ : _ = _); with_reducible refine loadSr_wf ?_ eQ)
    | (intro (eQ : _ = _); with_reducible refine loadCnt_wf ?_ eQ)
    | (intro (eQ : _ = _); with_reducible refine loadSr_wf ?_ eQ)
    | (intro (eQ : _ = _); with_reducible refine loadCnt_wf ?_ eQ)
    | (intro x u eP; with_reducible refine popAction_wf ?_ eP)

theorem safeSwap_wf {e : Nat} {s : State} (hW : s.Wf) : (safeSwap e s).Wf := by
  unfold safeSwap
  repeat' first
    | with_reducible assumption
    | with_reducible apply takeSwap_wf
    | split
    | dsimp only
    | (simp only [wf_mk]; with_reducible apply wf_parts)

theorem applyEntry_wf {e : Nat} {w : Nat} {out : Option Bool} {s : State} (hW : s.Wf) : (applyEntry e w out s).Wf := by
  unfold applyEntry
  repeat' first
    | with_reducible assumption
    | with_reducible apply setEng_wf
    | with_reducible apply setEngR_wf
    | with_reducible apply setEngFlag_wf
    | with_reducible apply syncTile_wf
    | with_reducible apply dropRetained_wf
    | with_reducible apply safeSwap_wf
    | with_reducible refine whenS_wf (fun u hu => ?_) ?_
    | split
    | dsimp only
    | (simp only [wf_mk]; with_reducible apply wf_parts)

theorem tryEntry_wf {e : Nat} {w : Nat} {s : State} (hW : s.Wf) : (tryEntry e w s).Wf := by
  unfold tryEntry
  repeat' first
    | with_reducible assumption
    | with_reducible apply incCnt_wf
    | with_reducible apply setEng_wf
    | with_reducible apply setEngFlag_wf
    | with_reducible apply applyEntry_wf
    | with_reducible refine engAction_wf ?_ (by with_reducible assumption)
    | split
    | dsimp only
    | (simp only [wf_mk]; with_reducible apply wf_parts)

theorem engineEval_wf {e : Nat} {s : State} (hW : s.Wf) : (engineEval e s).Wf := by
  unfold engineEval
  repeat' first
    | with_reducible assumption
    | with_reducible apply setEng_wf
    | with_reducible apply forceTick_wf
    | with_reducible apply sampleFilters_wf
    | with_reducible apply timerTick_wf
    | with_reducible apply selectEntry_wf
    | with_reducible apply tryEntry_wf
    | with_reducible refine selectEntry_wfE ?_ (by with_reducible assumption)
    | split
    | dsimp only
    | (simp only [wf_mk]; with_reducible apply wf_parts)

theorem engineTick_wf {e : Nat} {s : State} (hW : s.Wf) : (engineTick e s).Wf := by
  unfold engineTick
  repeat' first
    | with_reducible assumption
    | with_reducible apply dividerAtTick_wf
    | with_reducible apply engineEval_wf
    | with_reducible refine whenS_wf (fun u hu => ?_) ?_
    | split
    | dsimp only
    | (simp only [wf_mk]; with_reducible apply wf_parts)

theorem startEngine_wf {e : Nat} {s : State} (hW : s.Wf) : (startEngine e s).Wf := by
  unfold startEngine
  repeat' first
    | with_reducible assumption
    | with_reducible apply setEng_wf
    | with_reducible apply setEngR_wf
    | with_reducible apply setEngFlag_wf
    | with_reducible apply syncTile_wf
    | with_reducible apply setFilter_wf
    | with_reducible apply syncPinIn_wf
    | with_reducible apply startDivider_wf
    | with_reducible apply dropRetained_wf
    | with_reducible apply clearEngine_wf
    | with_reducible refine forEach_wf (fun x u hu => ?_) ?_
    | split
    | dsimp only
    | (simp only [wf_mk]; with_reducible apply wf_parts)

theorem haltEngine_wf {e : Nat} {s : State} (hW : s.Wf) : (haltEngine e s).Wf := by
  unfold haltEngine
  repeat' first
    | with_reducible assumption
    | with_reducible apply setEng_wf
    | with_reducible apply setEngR_wf
    | with_reducible apply setEngFlag_wf
    | with_reducible apply syncTile_wf
    | with_reducible apply dropRetained_wf
    | with_reducible apply swapAtRest_wf
    | split
    | dsimp only
    | (simp only [wf_mk]; with_reducible apply wf_parts)

theorem engineBoundary_wf {e : Nat} {s : State} (hW : s.Wf) : (engineBoundary e s).Wf := by
  unfold engineBoundary
  repeat' first
    | with_reducible assumption
    | with_reducible apply startDivider_wf
    | with_reducible apply dropRetained_wf
    | with_reducible apply takeSwap_wf
    | with_reducible apply engineEval_wf
    | with_reducible apply startEngine_wf
    | split
    | dsimp only
    | (simp only [wf_mk]; with_reducible apply wf_parts)

theorem engineBaseTick_wf {e : Nat} {s : State} (hW : s.Wf) : (engineBaseTick e s).Wf := by
  unfold engineBaseTick
  repeat' first
    | with_reducible assumption
    | with_reducible apply dividerTick_wf
    | with_reducible apply engineTick_wf
    | with_reducible apply startEngine_wf
    | with_reducible apply haltEngine_wf
    | with_reducible refine dividerTick_wfE ?_ (by with_reducible assumption)
    | split
    | dsimp only
    | (simp only [wf_mk]; with_reducible apply wf_parts)

theorem setPads_wf {t : Nat} {v : Nat} {s : State} (hW : s.Wf) : (setPads t v s).Wf := by
  unfold setPads
  repeat' first
    | with_reducible assumption
    | with_reducible apply setR_wf
    | split
    | dsimp only
    | (simp only [wf_mk]; with_reducible apply wf_parts)

theorem execEngineTick_wf {e : Fin 128} {pads : BitVec 32} {s : State} (hW : s.Wf) {tW : State} (eW : execEngineTick e pads s = .next tW) : tW.Wf := by
  revert eW
  unfold execEngineTick
  repeat' first
    | with_reducible assumption
    | with_reducible apply latchLinks_wf
    | with_reducible apply engineTick_wf
    | with_reducible apply setPads_wf
    | (intro (eQ : _ = _); with_reducible refine alive_wf hW ?_ eQ)
    | (intro (eQ : _ = _); with_reducible refine answer_wf ?_ eQ)
    | split
    | dsimp only
    | (simp only [wf_mk]; with_reducible apply wf_parts)
    | (intro (eQ : _ = _); cases eQ)

theorem execForceSwap_wf {e : Fin 128} {s : State} (hW : s.Wf) {tW : State} (eW : execForceSwap e s = .next tW) : tW.Wf := by
  revert eW
  unfold execForceSwap
  repeat' first
    | with_reducible assumption
    | with_reducible apply latchLinks_wf
    | with_reducible apply engineTick_wf
    | (intro (eQ : _ = _); with_reducible refine alive_wf hW ?_ eQ)
    | (intro (eQ : _ = _); with_reducible refine answer_wf ?_ eQ)
    | split
    | dsimp only
    | (simp only [wf_mk]; with_reducible apply wf_parts)
    | (intro (eQ : _ = _); cases eQ)

theorem execEngineStart_wf {e : Fin 128} {s : State} (hW : s.Wf) {tW : State} (eW : execEngineStart e s = .next tW) : tW.Wf := by
  revert eW
  unfold execEngineStart
  repeat' first
    | with_reducible assumption
    | with_reducible apply latchLinks_wf
    | with_reducible apply startEngine_wf
    | with_reducible refine whenS_wf (fun u hu => ?_) ?_
    | (intro (eQ : _ = _); with_reducible refine alive_wf hW ?_ eQ)
    | (intro (eQ : _ = _); with_reducible refine answer_wf ?_ eQ)
    | split
    | dsimp only
    | (simp only [wf_mk]; with_reducible apply wf_parts)
    | (intro (eQ : _ = _); cases eQ)

theorem execEngineStop_wf {e : Fin 128} {s : State} (hW : s.Wf) {tW : State} (eW : execEngineStop e s = .next tW) : tW.Wf := by
  revert eW
  unfold execEngineStop
  repeat' first
    | with_reducible assumption
    | with_reducible apply latchLinks_wf
    | with_reducible apply haltEngine_wf
    | with_reducible refine whenS_wf (fun u hu => ?_) ?_
    | (intro (eQ : _ = _); with_reducible refine alive_wf hW ?_ eQ)
    | (intro (eQ : _ = _); with_reducible refine answer_wf ?_ eQ)
    | split
    | dsimp only
    | (simp only [wf_mk]; with_reducible apply wf_parts)
    | (intro (eQ : _ = _); cases eQ)

theorem setTrigLatch_wf {e : Nat} {s : State} (hW : s.Wf) : (setTrigLatch e s).Wf := by
  unfold setTrigLatch
  repeat' first
    | with_reducible assumption
    | with_reducible apply setEngFlag_wf
    | split
    | dsimp only
    | (simp only [wf_mk]; with_reducible apply wf_parts)

theorem setTreadLatch_wf {e : Nat} {s : State} (hW : s.Wf) : (setTreadLatch e s).Wf := by
  unfold setTreadLatch
  repeat' first
    | with_reducible assumption
    | with_reducible apply setEngFlag_wf
    | split
    | dsimp only
    | (simp only [wf_mk]; with_reducible apply wf_parts)

theorem engCntClear_wf {e : Nat} {s : State} (hW : s.Wf) : (engCntClear e s).Wf := by
  unfold engCntClear
  repeat' first
    | with_reducible assumption
    | with_reducible apply clearAll_wf
    | split
    | dsimp only
    | (simp only [wf_mk]; with_reducible apply wf_parts)

end Sys2Proof.Machine
end

