-- ==== Sys2Proof/Laws/Wf/Clock.lean ====
section
/-!
SUPPORT. The operations of Machine/Clock.lean keep the invariant State.Wf.
-/

namespace Sys2Proof.Machine

set_option linter.all false

theorem xtaLost_wf {s : State} (hW : s.Wf) : (xtaLost s).Wf := by
  unfold xtaLost
  repeat' first
    | with_reducible assumption
    | with_reducible apply setFlag_wf
    | with_reducible apply setLevel_wf
    | split
    | dsimp only
    | (simp only [wf_mk]; with_reducible apply wf_parts)

theorem xtaOk_wf {s : State} (hW : s.Wf) : (xtaOk s).Wf := by
  unfold xtaOk
  repeat' first
    | with_reducible assumption
    | with_reducible apply setFlag_wf
    | with_reducible apply raiseIf_wf
    | split
    | dsimp only
    | (simp only [wf_mk]; with_reducible apply wf_parts)

theorem xtaSelect_wf {s : State} (hW : s.Wf) {tW : State} (eW : xtaSelect s = some tW) : tW.Wf := by
  revert eW
  unfold xtaSelect
  repeat' first
    | with_reducible assumption
    | with_reducible apply setFlag_wf
    | with_reducible apply setLevel_wf
    | split
    | dsimp only
    | (simp only [wf_mk]; with_reducible apply wf_parts)
    | (intro (eQ : _ = _); cases eQ)

theorem foscTrim_wf {trim : Nat} {err : Nat} {s : State} (hW : s.Wf) : (foscTrim trim err s).Wf := by
  unfold foscTrim
  repeat' first
    | with_reducible assumption
    | with_reducible apply setR_wf
    | with_reducible apply setFlag_wf
    | split
    | dsimp only
    | (simp only [wf_mk]; with_reducible apply wf_parts)

theorem execXtaLost_wf {s : State} (hW : s.Wf) {tW : State} (eW : execXtaLost s = .next tW) : tW.Wf := by
  revert eW
  unfold execXtaLost
  repeat' first
    | with_reducible assumption
    | with_reducible apply xtaLost_wf
    | (intro (eQ : _ = _); with_reducible refine alive_wf hW ?_ eQ)
    | (intro (eQ : _ = _); with_reducible refine answer_wf ?_ eQ)
    | split
    | dsimp only
    | (simp only [wf_mk]; with_reducible apply wf_parts)
    | (intro (eQ : _ = _); cases eQ)

theorem execXtaOk_wf {s : State} (hW : s.Wf) {tW : State} (eW : execXtaOk s = .next tW) : tW.Wf := by
  revert eW
  unfold execXtaOk
  repeat' first
    | with_reducible assumption
    | with_reducible apply xtaOk_wf
    | (intro (eQ : _ = _); with_reducible refine alive_wf hW ?_ eQ)
    | (intro (eQ : _ = _); with_reducible refine answer_wf ?_ eQ)
    | split
    | dsimp only
    | (simp only [wf_mk]; with_reducible apply wf_parts)
    | (intro (eQ : _ = _); cases eQ)

theorem execFoscTrim_wf {trim : BitVec 10} {err : BitVec 16} {s : State} (hW : s.Wf) {tW : State} (eW : execFoscTrim trim err s = .next tW) : tW.Wf := by
  revert eW
  unfold execFoscTrim
  repeat' first
    | with_reducible assumption
    | with_reducible apply foscTrim_wf
    | (intro (eQ : _ = _); with_reducible refine alive_wf hW ?_ eQ)
    | (intro (eQ : _ = _); with_reducible refine answer_wf ?_ eQ)
    | split
    | dsimp only
    | (simp only [wf_mk]; with_reducible apply wf_parts)
    | (intro (eQ : _ = _); cases eQ)

theorem execMainPllUnlock_wf {s : State} (hW : s.Wf) {tW : State} (eW : execMainPllUnlock s = .next tW) : tW.Wf := by
  revert eW
  unfold execMainPllUnlock
  repeat' first
    | with_reducible assumption
    | with_reducible apply setFlag_wf
    | with_reducible apply setLevel_wf
    | (intro (eQ : _ = _); with_reducible refine alive_wf hW ?_ eQ)
    | (intro (eQ : _ = _); with_reducible refine answer_wf ?_ eQ)
    | split
    | dsimp only
    | (simp only [wf_mk]; with_reducible apply wf_parts)
    | (intro (eQ : _ = _); cases eQ)

theorem execMainPllLock_wf {s : State} (hW : s.Wf) {tW : State} (eW : execMainPllLock s = .next tW) : tW.Wf := by
  revert eW
  unfold execMainPllLock
  repeat' first
    | with_reducible assumption
    | with_reducible apply setFlag_wf
    | with_reducible apply setLevel_wf
    | (intro (eQ : _ = _); with_reducible refine alive_wf hW ?_ eQ)
    | (intro (eQ : _ = _); with_reducible refine answer_wf ?_ eQ)
    | split
    | dsimp only
    | (simp only [wf_mk]; with_reducible apply wf_parts)
    | (intro (eQ : _ = _); cases eQ)

theorem setGate_wf {code : Nat} {on : Bool} {s : State} (hW : s.Wf) : (setGate code on s).Wf := by
  unfold setGate
  repeat' first
    | with_reducible assumption
    | with_reducible apply setR_wf
    | split
    | dsimp only
    | (simp only [wf_mk]; with_reducible apply wf_parts)

theorem refuseGate_wf {code : Nat} {s : State} (hW : s.Wf) : (refuseGate code s).Wf := by
  unfold refuseGate
  repeat' first
    | with_reducible assumption
    | with_reducible apply setR_wf
    | with_reducible apply raiseEv_wf
    | split
    | dsimp only
    | (simp only [wf_mk]; with_reducible apply wf_parts)

theorem gateCommand_wf {cls : Nat} {target : Nat} {op : Nat} {s : State} (hW : s.Wf) : (gateCommand cls target op s).Wf := by
  unfold gateCommand
  repeat' first
    | with_reducible assumption
    | with_reducible apply setR_wf
    | with_reducible apply setFlag_wf
    | with_reducible apply refuseGate_wf
    | split
    | dsimp only
    | (simp only [wf_mk]; with_reducible apply wf_parts)

theorem gateDone_wf {s : State} (hW : s.Wf) : (gateDone s).Wf := by
  unfold gateDone
  repeat' first
    | with_reducible assumption
    | with_reducible apply setR_wf
    | with_reducible apply setFlag_wf
    | with_reducible apply raiseEv_wf
    | with_reducible apply setGate_wf
    | split
    | dsimp only
    | (simp only [wf_mk]; with_reducible apply wf_parts)

theorem gateStillBusy_wf {s : State} (hW : s.Wf) : (gateStillBusy s).Wf := by
  unfold gateStillBusy
  repeat' first
    | with_reducible assumption
    | with_reducible apply setFlag_wf
    | with_reducible apply refuseGate_wf
    | split
    | dsimp only
    | (simp only [wf_mk]; with_reducible apply wf_parts)

end Sys2Proof.Machine
end

