-- ==== Sys2Proof/Laws/Wf/Gov.lean ====
section
/-!
SUPPORT. The operations of Machine/Gov.lean keep the invariant State.Wf.
-/

namespace Sys2Proof.Machine

set_option linter.all false

theorem beginOp_wf {target : Nat} {s : State} (hW : s.Wf) : (beginOp target s).Wf := by
  unfold beginOp
  repeat' first
    | with_reducible assumption
    | with_reducible apply setR_wf
    | with_reducible apply setFlag_wf
    | with_reducible refine whenS_wf (fun u hu => ?_) ?_
    | split
    | dsimp only
    | (simp only [wf_mk]; with_reducible apply wf_parts)

theorem requestOp_wf {target : Nat} {forced : Bool} {s : State} (hW : s.Wf) : (requestOp target forced s).Wf := by
  unfold requestOp
  repeat' first
    | with_reducible assumption
    | with_reducible apply setR_wf
    | with_reducible apply beginOp_wf
    | split
    | dsimp only
    | (simp only [wf_mk]; with_reducible apply wf_parts)

theorem nextOp_wf {s : State} (hW : s.Wf) : (nextOp s).Wf := by
  unfold nextOp
  repeat' first
    | with_reducible assumption
    | with_reducible apply beginOp_wf
    | split
    | dsimp only
    | (simp only [wf_mk]; with_reducible apply wf_parts)

theorem powerGood_wf {s : State} (hW : s.Wf) : (powerGood s).Wf := by
  unfold powerGood
  repeat' first
    | with_reducible assumption
    | with_reducible apply setR_wf
    | with_reducible apply setFlag_wf
    | with_reducible apply incCnt_wf
    | with_reducible apply raiseEv_wf
    | with_reducible apply nextOp_wf
    | split
    | dsimp only
    | (simp only [wf_mk]; with_reducible apply wf_parts)

theorem vrailFail_wf {s : State} (hW : s.Wf) : (vrailFail s).Wf := by
  unfold vrailFail
  repeat' first
    | with_reducible assumption
    | with_reducible apply setR_wf
    | with_reducible apply setFlag_wf
    | with_reducible apply raiseEv_wf
    | with_reducible apply nextOp_wf
    | split
    | dsimp only
    | (simp only [wf_mk]; with_reducible apply wf_parts)

theorem execPowerGood_wf {s : State} (hW : s.Wf) {tW : State} (eW : execPowerGood s = .next tW) : tW.Wf := by
  revert eW
  unfold execPowerGood
  repeat' first
    | with_reducible assumption
    | with_reducible apply powerGood_wf
    | (intro (eQ : _ = _); with_reducible refine alive_wf hW ?_ eQ)
    | (intro (eQ : _ = _); with_reducible refine answer_wf ?_ eQ)
    | split
    | dsimp only
    | (simp only [wf_mk]; with_reducible apply wf_parts)
    | (intro (eQ : _ = _); cases eQ)

theorem execVrailFail_wf {s : State} (hW : s.Wf) {tW : State} (eW : execVrailFail s = .next tW) : tW.Wf := by
  revert eW
  unfold execVrailFail
  repeat' first
    | with_reducible assumption
    | with_reducible apply vrailFail_wf
    | (intro (eQ : _ = _); with_reducible refine alive_wf hW ?_ eQ)
    | (intro (eQ : _ = _); with_reducible refine answer_wf ?_ eQ)
    | split
    | dsimp only
    | (simp only [wf_mk]; with_reducible apply wf_parts)
    | (intro (eQ : _ = _); cases eQ)

theorem takeSensors_wf {temps : List (BitVec 16 × Bool)} {s : State} (hW : s.Wf) : (takeSensors temps s).Wf := by
  unfold takeSensors
  repeat' first
    | with_reducible assumption
    | with_reducible apply setR_wf
    | with_reducible apply setFlag_wf
    | with_reducible apply setLevel_wf
    | with_reducible refine forEach_wf (fun x u hu => ?_) ?_
    | with_reducible refine foldl_wf (fun u x hu => ?_) _ _ ?_
    | with_reducible refine foldl_snd_wf (fun p x hp => ?_) _ _ ?_
    | with_reducible refine foldl_snd_wfE (fun p x hp => ?_) ?_ (by with_reducible assumption)
    | split
    | dsimp only
    | (simp only [wf_mk]; with_reducible apply wf_parts)

theorem withdrawLeanest_wf {s : State} (hW : s.Wf) : (withdrawLeanest s).Wf := by
  unfold withdrawLeanest
  repeat' first
    | with_reducible assumption
    | with_reducible apply setR_wf
    | split
    | dsimp only
    | (simp only [wf_mk]; with_reducible apply wf_parts)

theorem syncForced_wf {s : State} (hW : s.Wf) : (syncForced s).Wf := by
  unfold syncForced
  repeat' first
    | with_reducible assumption
    | with_reducible apply setFlag_wf
    | with_reducible apply setLevel_wf
    | with_reducible apply requestOp_wf
    | with_reducible refine whenS_wf (fun u hu => ?_) ?_
    | split
    | dsimp only
    | (simp only [wf_mk]; with_reducible apply wf_parts)

theorem takeSense_wf {m : Sense} {s : State} (hW : s.Wf) : (takeSense m s).Wf := by
  unfold takeSense
  repeat' first
    | with_reducible assumption
    | with_reducible apply setR_wf
    | with_reducible apply takeSensors_wf
    | split
    | dsimp only
    | (simp only [wf_mk]; with_reducible apply wf_parts)

theorem syncOvertemp_wf {s : State} (hW : s.Wf) : (syncOvertemp s).Wf := by
  unfold syncOvertemp
  repeat' first
    | with_reducible assumption
    | with_reducible apply setLevel_wf
    | split
    | dsimp only
    | (simp only [wf_mk]; with_reducible apply wf_parts)

theorem countDecision_wf {m : Sense} {s : State} (hW : s.Wf) : (countDecision m s).Wf := by
  unfold countDecision
  repeat' first
    | with_reducible assumption
    | split
    | dsimp only
    | (simp only [wf_mk]; with_reducible apply wf_parts)

theorem showDecision_wf {m : Sense} {free : Nat} {s : State} (hW : s.Wf) : (showDecision m free s).Wf := by
  unfold showDecision
  repeat' first
    | with_reducible assumption
    | with_reducible apply setR_wf
    | with_reducible apply setFlag_wf
    | with_reducible apply setLevel_wf
    | with_reducible apply syncForced_wf
    | split
    | dsimp only
    | (simp only [wf_mk]; with_reducible apply wf_parts)

theorem chooseOp_wf {m : Sense} {free : Nat} {s : State} (hW : s.Wf) : (chooseOp m free s).Wf := by
  unfold chooseOp
  repeat' first
    | with_reducible assumption
    | with_reducible apply requestOp_wf
    | split
    | dsimp only
    | (simp only [wf_mk]; with_reducible apply wf_parts)

theorem governorDecision_wf {m : Sense} {s : State} (hW : s.Wf) : (governorDecision m s).Wf := by
  unfold governorDecision
  repeat' first
    | with_reducible assumption
    | with_reducible apply freeIf_wf
    | with_reducible apply takeSense_wf
    | with_reducible apply syncOvertemp_wf
    | with_reducible apply countDecision_wf
    | with_reducible apply showDecision_wf
    | with_reducible apply chooseOp_wf
    | with_reducible refine freeIf_wfE ?_ (by with_reducible assumption)
    | split
    | dsimp only
    | (simp only [wf_mk]; with_reducible apply wf_parts)

theorem execGovernorDecision_wf {sense : Sense} {s : State} (hW : s.Wf) {tW : State} (eW : execGovernorDecision sense s = .next tW) : tW.Wf := by
  revert eW
  unfold execGovernorDecision
  repeat' first
    | with_reducible assumption
    | with_reducible apply governorDecision_wf
    | (intro (eQ : _ = _); with_reducible refine alive_wf hW ?_ eQ)
    | (intro (eQ : _ = _); with_reducible refine answer_wf ?_ eQ)
    | split
    | dsimp only
    | (simp only [wf_mk]; with_reducible apply wf_parts)
    | (intro (eQ : _ = _); cases eQ)

theorem govCntClear_wf {s : State} (hW : s.Wf) : (govCntClear s).Wf := by
  unfold govCntClear
  repeat' first
    | with_reducible assumption
    | with_reducible apply clearAll_wf
    | split
    | dsimp only
    | (simp only [wf_mk]; with_reducible apply wf_parts)

theorem noteStatusRecord_wf {bs : List Byte} {s : State} (hW : s.Wf) : (noteStatusRecord bs s).Wf := by
  unfold noteStatusRecord
  repeat' first
    | with_reducible assumption
    | split
    | dsimp only
    | (simp only [wf_mk]; with_reducible apply wf_parts)

theorem showWorst_wf {rs : List (Nat × StatusRec)} {s : State} (hW : s.Wf) : (showWorst rs s).Wf := by
  unfold showWorst
  repeat' first
    | with_reducible assumption
    | with_reducible apply setR_wf
    | with_reducible apply setFlag_wf
    | split
    | dsimp only
    | (simp only [wf_mk]; with_reducible apply wf_parts)

theorem decideFlight_wf {c : Nat} {f : Nat} {loop : Nat} {up : Bool} {s : State} (hW : s.Wf) : (decideFlight c f loop up s).Wf := by
  unfold decideFlight
  repeat' first
    | with_reducible assumption
    | with_reducible apply setR_wf
    | with_reducible apply setFlag_wf
    | with_reducible apply raiseEv_wf
    | with_reducible apply recordAnnouncement_wf
    | split
    | dsimp only
    | (simp only [wf_mk]; with_reducible apply wf_parts)

theorem withdrawStepUp_wf {s : State} (hW : s.Wf) : (withdrawStepUp s).Wf := by
  unfold withdrawStepUp
  repeat' first
    | with_reducible assumption
    | with_reducible apply syncAnnounced_wf
    | split
    | dsimp only
    | (simp only [wf_mk]; with_reducible apply wf_parts)

theorem flightDecision_wf {c : Nat} {loop : Nat} {member : Nat → Bool} {s : State} (hW : s.Wf) : (flightDecision c loop member s).Wf := by
  unfold flightDecision
  repeat' first
    | with_reducible assumption
    | with_reducible apply showWorst_wf
    | with_reducible apply decideFlight_wf
    | with_reducible apply withdrawStepUp_wf
    | split
    | dsimp only
    | (simp only [wf_mk]; with_reducible apply wf_parts)

theorem showSince_wf {c : Nat} {s : State} (hW : s.Wf) : (showSince c s).Wf := by
  unfold showSince
  repeat' first
    | with_reducible assumption
    | with_reducible apply setR_wf
    | split
    | dsimp only
    | (simp only [wf_mk]; with_reducible apply wf_parts)

theorem applyCeiling_wf {s : State} (hW : s.Wf) : (applyCeiling s).Wf := by
  unfold applyCeiling
  repeat' first
    | with_reducible assumption
    | with_reducible apply setR_wf
    | with_reducible apply requestOp_wf
    | split
    | dsimp only
    | (simp only [wf_mk]; with_reducible apply wf_parts)

end Sys2Proof.Machine
end

