-- ==== Sys2Proof/Laws/Wf/Brk.lean ====
section
/-!
SUPPORT. The operations of Machine/Brk.lean keep the invariant State.Wf.
-/

namespace Sys2Proof.Machine

set_option linter.all false

theorem setReq_wf {ch : Nat} {b : Bool} {s : State} (hW : s.Wf) : (setReq ch b s).Wf := by
  unfold setReq
  repeat' first
    | with_reducible assumption
    | with_reducible apply setFlag_wf
    | split
    | dsimp only
    | (simp only [wf_mk]; with_reducible apply wf_parts)

theorem setCause_wf {ch : Nat} {c : Nat} {s : State} (hW : s.Wf) : (setCause ch c s).Wf := by
  unfold setCause
  repeat' first
    | with_reducible assumption
    | with_reducible apply setR_wf
    | split
    | dsimp only
    | (simp only [wf_mk]; with_reducible apply wf_parts)

theorem syncBrk_wf {s : State} (hW : s.Wf) : (syncBrk s).Wf := by
  unfold syncBrk
  repeat' first
    | with_reducible assumption
    | with_reducible apply setR_wf
    | with_reducible apply setFlag_wf
    | with_reducible apply raiseIf_wf
    | with_reducible apply setLevel_wf
    | with_reducible refine foldl_wf (fun u x hu => ?_) _ _ ?_
    | with_reducible refine foldl_snd_wf (fun p x hp => ?_) _ _ ?_
    | with_reducible refine foldl_snd_wfE (fun p x hp => ?_) ?_ (by with_reducible assumption)
    | split
    | dsimp only
    | (simp only [wf_mk]; with_reducible apply wf_parts)

theorem setChState_wf {ch : Nat} {st : Nat} {s : State} (hW : s.Wf) : (setChState ch st s).Wf := by
  unfold setChState
  repeat' first
    | with_reducible assumption
    | with_reducible apply setR_wf
    | with_reducible apply setFlag_wf
    | split
    | dsimp only
    | (simp only [wf_mk]; with_reducible apply wf_parts)

theorem enqueueBranch_wf {ch : Nat} {s : State} (hW : s.Wf) : (enqueueBranch ch s).Wf := by
  unfold enqueueBranch
  repeat' first
    | with_reducible assumption
    | with_reducible apply setChState_wf
    | split
    | dsimp only
    | (simp only [wf_mk]; with_reducible apply wf_parts)

theorem beginRamp_wf {ch : Nat} {s : State} (hW : s.Wf) : (beginRamp ch s).Wf := by
  unfold beginRamp
  repeat' first
    | with_reducible assumption
    | with_reducible apply setChState_wf
    | split
    | dsimp only
    | (simp only [wf_mk]; with_reducible apply wf_parts)

theorem entryLost_wf {s : State} (hW : s.Wf) : (entryLost s).Wf := by
  unfold entryLost
  repeat' first
    | with_reducible assumption
    | with_reducible apply setCause_wf
    | with_reducible apply enqueueBranch_wf
    | with_reducible refine forEach_wf (fun x u hu => ?_) ?_
    | split
    | dsimp only
    | (simp only [wf_mk]; with_reducible apply wf_parts)

theorem lowerGate_wf {ch : Nat} {st : Nat} {s : State} (hW : s.Wf) : (lowerGate ch st s).Wf := by
  unfold lowerGate
  repeat' first
    | with_reducible assumption
    | with_reducible apply setChState_wf
    | with_reducible apply entryLost_wf
    | with_reducible refine whenS_wf (fun u hu => ?_) ?_
    | split
    | dsimp only
    | (simp only [wf_mk]; with_reducible apply wf_parts)

theorem queueRecord_wf {ch : Nat} {uncleared : Bool} {s : State} (hW : s.Wf) : (queueRecord ch uncleared s).Wf := by
  unfold queueRecord
  repeat' first
    | with_reducible assumption
    | split
    | dsimp only
    | (simp only [wf_mk]; with_reducible apply wf_parts)

theorem tripChannel_wf {ch : Nat} {cause : Nat} {s : State} (hW : s.Wf) : (tripChannel ch cause s).Wf := by
  unfold tripChannel
  repeat' first
    | with_reducible assumption
    | with_reducible apply setR_wf
    | with_reducible apply setFlag_wf
    | with_reducible apply incCnt_wf
    | with_reducible apply raiseEv_wf
    | with_reducible apply setReq_wf
    | with_reducible apply setCause_wf
    | with_reducible apply syncBrk_wf
    | with_reducible apply lowerGate_wf
    | with_reducible apply queueRecord_wf
    | split
    | dsimp only
    | (simp only [wf_mk]; with_reducible apply wf_parts)

theorem tripIf_wf {b : Bool} {ch : Nat} {cause : Nat} {s : State} (hW : s.Wf) : (tripIf b ch cause s).Wf := by
  unfold tripIf
  repeat' first
    | with_reducible assumption
    | with_reducible apply tripChannel_wf
    | split
    | dsimp only
    | (simp only [wf_mk]; with_reducible apply wf_parts)

theorem execFastTrip_wf {ch : Fin 9} {s : State} (hW : s.Wf) {tW : State} (eW : execFastTrip ch s = .next tW) : tW.Wf := by
  revert eW
  unfold execFastTrip
  repeat' first
    | with_reducible assumption
    | with_reducible apply tripIf_wf
    | (intro (eQ : _ = _); with_reducible refine alive_wf hW ?_ eQ)
    | (intro (eQ : _ = _); with_reducible refine answer_wf ?_ eQ)
    | split
    | dsimp only
    | (simp only [wf_mk]; with_reducible apply wf_parts)
    | (intro (eQ : _ = _); cases eQ)

theorem execCurveTrip_wf {ch : Fin 9} {k : Fin 8} {s : State} (hW : s.Wf) {tW : State} (eW : execCurveTrip ch k s = .next tW) : tW.Wf := by
  revert eW
  unfold execCurveTrip
  repeat' first
    | with_reducible assumption
    | with_reducible apply setR_wf
    | with_reducible apply tripIf_wf
    | with_reducible refine whenS_wf (fun u hu => ?_) ?_
    | (intro (eQ : _ = _); with_reducible refine alive_wf hW ?_ eQ)
    | (intro (eQ : _ = _); with_reducible refine answer_wf ?_ eQ)
    | split
    | dsimp only
    | (simp only [wf_mk]; with_reducible apply wf_parts)
    | (intro (eQ : _ = _); cases eQ)

theorem execSoaTrip_wf {ch : Fin 9} {s : State} (hW : s.Wf) {tW : State} (eW : execSoaTrip ch s = .next tW) : tW.Wf := by
  revert eW
  unfold execSoaTrip
  repeat' first
    | with_reducible assumption
    | with_reducible apply tripIf_wf
    | (intro (eQ : _ = _); with_reducible refine alive_wf hW ?_ eQ)
    | (intro (eQ : _ = _); with_reducible refine answer_wf ?_ eQ)
    | split
    | dsimp only
    | (simp only [wf_mk]; with_reducible apply wf_parts)
    | (intro (eQ : _ = _); cases eQ)

theorem execRampFast_wf {ch : Fin 9} {s : State} (hW : s.Wf) {tW : State} (eW : execRampFast ch s = .next tW) : tW.Wf := by
  revert eW
  unfold execRampFast
  repeat' first
    | with_reducible assumption
    | with_reducible apply tripIf_wf
    | (intro (eQ : _ = _); with_reducible refine alive_wf hW ?_ eQ)
    | (intro (eQ : _ = _); with_reducible refine answer_wf ?_ eQ)
    | split
    | dsimp only
    | (simp only [wf_mk]; with_reducible apply wf_parts)
    | (intro (eQ : _ = _); cases eQ)

theorem execRampTimeout_wf {ch : Fin 9} {s : State} (hW : s.Wf) {tW : State} (eW : execRampTimeout ch s = .next tW) : tW.Wf := by
  revert eW
  unfold execRampTimeout
  repeat' first
    | with_reducible assumption
    | with_reducible apply tripIf_wf
    | (intro (eQ : _ = _); with_reducible refine alive_wf hW ?_ eQ)
    | (intro (eQ : _ = _); with_reducible refine answer_wf ?_ eQ)
    | split
    | dsimp only
    | (simp only [wf_mk]; with_reducible apply wf_parts)
    | (intro (eQ : _ = _); cases eQ)

theorem execRampDone_wf {ch : Fin 9} {s : State} (hW : s.Wf) {tW : State} (eW : execRampDone ch s = .next tW) : tW.Wf := by
  revert eW
  unfold execRampDone
  repeat' first
    | with_reducible assumption
    | with_reducible apply raiseEv_wf
    | with_reducible apply syncBrk_wf
    | with_reducible apply setChState_wf
    | (intro (eQ : _ = _); with_reducible refine alive_wf hW ?_ eQ)
    | (intro (eQ : _ = _); with_reducible refine answer_wf ?_ eQ)
    | split
    | dsimp only
    | (simp only [wf_mk]; with_reducible apply wf_parts)
    | (intro (eQ : _ = _); cases eQ)

theorem offTimerDone_wf {ch : Nat} {s : State} (hW : s.Wf) : (offTimerDone ch s).Wf := by
  unfold offTimerDone
  repeat' first
    | with_reducible assumption
    | with_reducible apply setR_wf
    | with_reducible apply syncBrk_wf
    | with_reducible apply setChState_wf
    | with_reducible apply enqueueBranch_wf
    | with_reducible apply beginRamp_wf
    | split
    | dsimp only
    | (simp only [wf_mk]; with_reducible apply wf_parts)

theorem execOffTimerExpiry_wf {ch : Fin 9} {s : State} (hW : s.Wf) {tW : State} (eW : execOffTimerExpiry ch s = .next tW) : tW.Wf := by
  revert eW
  unfold execOffTimerExpiry
  repeat' first
    | with_reducible assumption
    | with_reducible apply offTimerDone_wf
    | (intro (eQ : _ = _); with_reducible refine alive_wf hW ?_ eQ)
    | (intro (eQ : _ = _); with_reducible refine answer_wf ?_ eQ)
    | split
    | dsimp only
    | (simp only [wf_mk]; with_reducible apply wf_parts)
    | (intro (eQ : _ = _); cases eQ)

theorem autoClear_wf {ch : Nat} {s : State} (hW : s.Wf) : (autoClear ch s).Wf := by
  unfold autoClear
  repeat' first
    | with_reducible assumption
    | with_reducible apply setR_wf
    | with_reducible apply setFlag_wf
    | with_reducible apply queueRecord_wf
    | split
    | dsimp only
    | (simp only [wf_mk]; with_reducible apply wf_parts)

theorem execAutoClear_wf {ch : Fin 9} {s : State} (hW : s.Wf) {tW : State} (eW : execAutoClear ch s = .next tW) : tW.Wf := by
  revert eW
  unfold execAutoClear
  repeat' first
    | with_reducible assumption
    | with_reducible apply autoClear_wf
    | (intro (eQ : _ = _); with_reducible refine alive_wf hW ?_ eQ)
    | (intro (eQ : _ = _); with_reducible refine answer_wf ?_ eQ)
    | split
    | dsimp only
    | (simp only [wf_mk]; with_reducible apply wf_parts)
    | (intro (eQ : _ = _); cases eQ)

theorem writeRecord_wf {ok : Bool} {s : State} (hW : s.Wf) : (writeRecord ok s).Wf := by
  unfold writeRecord
  repeat' first
    | with_reducible assumption
    | with_reducible apply raiseEv_wf
    | split
    | dsimp only
    | (simp only [wf_mk]; with_reducible apply wf_parts)

theorem execTripRecord_wf {ok : Bool} {s : State} (hW : s.Wf) {tW : State} (eW : execTripRecord ok s = .next tW) : tW.Wf := by
  revert eW
  unfold execTripRecord
  repeat' first
    | with_reducible assumption
    | with_reducible apply writeRecord_wf
    | (intro (eQ : _ = _); with_reducible refine alive_wf hW ?_ eQ)
    | (intro (eQ : _ = _); with_reducible refine answer_wf ?_ eQ)
    | split
    | dsimp only
    | (simp only [wf_mk]; with_reducible apply wf_parts)
    | (intro (eQ : _ = _); cases eQ)

theorem brkRefused_wf {s : State} (hW : s.Wf) : (brkRefused s).Wf := by
  unfold brkRefused
  repeat' first
    | with_reducible assumption
    | with_reducible apply raiseEv_wf
    | split
    | dsimp only
    | (simp only [wf_mk]; with_reducible apply wf_parts)

theorem channelOn_wf {ch : Nat} {s : State} (hW : s.Wf) : (channelOn ch s).2.Wf := by
  unfold channelOn
  repeat' first
    | with_reducible assumption
    | with_reducible apply setReq_wf
    | with_reducible apply syncBrk_wf
    | with_reducible apply enqueueBranch_wf
    | with_reducible apply beginRamp_wf
    | with_reducible apply brkRefused_wf
    | split
    | dsimp only
    | (simp only [wf_mk]; with_reducible apply wf_parts)

theorem channelOn_wfE {ch : Nat} {s : State} {x0} {tW : State} (hW : s.Wf) (eW : channelOn ch s = (x0, tW)) : tW.Wf := by
  have hw := channelOn_wf (ch := ch) (s := s) hW
  rw [eW] at hw
  exact hw

theorem channelOff_wf {ch : Nat} {s : State} (hW : s.Wf) : (channelOff ch s).Wf := by
  unfold channelOff
  repeat' first
    | with_reducible assumption
    | with_reducible apply setReq_wf
    | with_reducible apply setCause_wf
    | with_reducible apply syncBrk_wf
    | with_reducible apply lowerGate_wf
    | split
    | dsimp only
    | (simp only [wf_mk]; with_reducible apply wf_parts)

theorem channelClear_wf {ch : Nat} {s : State} (hW : s.Wf) : (channelClear ch s).Wf := by
  unfold channelClear
  repeat' first
    | with_reducible assumption
    | with_reducible apply setR_wf
    | with_reducible apply setFlag_wf
    | with_reducible apply setReq_wf
    | with_reducible apply syncBrk_wf
    | with_reducible apply setChState_wf
    | with_reducible apply queueRecord_wf
    | with_reducible refine whenS_wf (fun u hu => ?_) ?_
    | split
    | dsimp only
    | (simp only [wf_mk]; with_reducible apply wf_parts)

theorem applyCurve_wf {ch : Nat} {s : State} (hW : s.Wf) : (applyCurve ch s).2.Wf := by
  unfold applyCurve
  repeat' first
    | with_reducible assumption
    | with_reducible apply raiseEv_wf
    | with_reducible refine foldl_wf (fun u x hu => ?_) _ _ ?_
    | with_reducible refine foldl_snd_wf (fun p x hp => ?_) _ _ ?_
    | with_reducible refine foldl_snd_wfE (fun p x hp => ?_) ?_ (by with_reducible assumption)
    | split
    | dsimp only
    | (simp only [wf_mk]; with_reducible apply wf_parts)

theorem applyCurve_wfE {ch : Nat} {s : State} {x0} {tW : State} (hW : s.Wf) (eW : applyCurve ch s = (x0, tW)) : tW.Wf := by
  have hw := applyCurve_wf (ch := ch) (s := s) hW
  rw [eW] at hw
  exact hw

theorem breakerCommand_wf {who : Option Master} {ch : Nat} {cmd : Nat} {s : State} (hW : s.Wf) : (breakerCommand who ch cmd s).Wf := by
  unfold breakerCommand
  repeat' first
    | with_reducible assumption
    | with_reducible apply journal_wf
    | with_reducible apply journalRefused_wf
    | with_reducible apply channelOn_wf
    | with_reducible apply channelOff_wf
    | with_reducible apply channelClear_wf
    | with_reducible apply applyCurve_wf
    | with_reducible refine channelOn_wfE ?_ (by with_reducible assumption)
    | with_reducible refine applyCurve_wfE ?_ (by with_reducible assumption)
    | split
    | dsimp only
    | (simp only [wf_mk]; with_reducible apply wf_parts)

theorem brkIndWrite_wf {addr : Nat} {v : Nat} {s : State} (hW : s.Wf) {tW : State} (eW : brkIndWrite addr v s = some tW) : tW.Wf := by
  revert eW
  unfold brkIndWrite
  repeat' first
    | with_reducible assumption
    | split
    | dsimp only
    | (simp only [wf_mk]; with_reducible apply wf_parts)
    | (intro (eQ : _ = _); cases eQ)

theorem takePower_wf {m : PowerMeas} {s : State} (hW : s.Wf) : (takePower m s).Wf := by
  unfold takePower
  repeat' first
    | with_reducible assumption
    | with_reducible apply setR_wf
    | with_reducible apply setFlag_wf
    | with_reducible refine forEach_wf (fun x u hu => ?_) ?_
    | split
    | dsimp only
    | (simp only [wf_mk]; with_reducible apply wf_parts)

theorem admitFrom_wf {xs : List Nat} : ∀ {s : State}, s.Wf → (admitFrom xs s).Wf := by
  induction xs with
  | nil =>
    intro s hW
    exact hW
  | cons ch rest ih =>
    intro s hW
    unfold admitFrom
    split
    · split
      · exact beginRamp_wf hW
      · exact ih (raiseEv_wf (incCnt_wf hW))
    · exact ih hW

theorem execAdmission_wf {meas : PowerMeas} {s : State} (hW : s.Wf) {tW : State} (eW : execAdmission meas s = .next tW) : tW.Wf := by
  revert eW
  unfold execAdmission
  repeat' first
    | with_reducible assumption
    | with_reducible apply syncBrk_wf
    | with_reducible apply takePower_wf
    | with_reducible apply admitFrom_wf
    | (intro (eQ : _ = _); with_reducible refine alive_wf hW ?_ eQ)
    | (intro (eQ : _ = _); with_reducible refine answer_wf ?_ eQ)
    | split
    | dsimp only
    | (simp only [wf_mk]; with_reducible apply wf_parts)
    | (intro (eQ : _ = _); cases eQ)

theorem flightBranches_wf {s : State} (hW : s.Wf) : (flightBranches s).Wf := by
  unfold flightBranches
  repeat' first
    | with_reducible assumption
    | with_reducible apply setCause_wf
    | with_reducible apply syncBrk_wf
    | with_reducible apply enqueueBranch_wf
    | with_reducible refine forEach_wf (fun x u hu => ?_) ?_
    | split
    | dsimp only
    | (simp only [wf_mk]; with_reducible apply wf_parts)

theorem entryAutoOn_wf {s : State} (hW : s.Wf) : (entryAutoOn s).Wf := by
  unfold entryAutoOn
  repeat' first
    | with_reducible assumption
    | with_reducible apply channelOn_wf
    | with_reducible refine channelOn_wfE ?_ (by with_reducible assumption)
    | split
    | dsimp only
    | (simp only [wf_mk]; with_reducible apply wf_parts)

theorem shedBranch_wf {ch : Nat} {s : State} (hW : s.Wf) : (shedBranch ch s).Wf := by
  unfold shedBranch
  repeat' first
    | with_reducible assumption
    | with_reducible apply incCnt_wf
    | with_reducible apply raiseEv_wf
    | with_reducible apply setCause_wf
    | with_reducible apply syncBrk_wf
    | with_reducible apply setChState_wf
    | split
    | dsimp only
    | (simp only [wf_mk]; with_reducible apply wf_parts)

theorem bowRaised_wf {s : State} (hW : s.Wf) : (bowRaised s).Wf := by
  unfold bowRaised
  repeat' first
    | with_reducible assumption
    | with_reducible apply setR_wf
    | with_reducible apply setFlag_wf
    | with_reducible apply setLevel_wf
    | with_reducible apply startCheckpoint_wf
    | with_reducible apply syncForced_wf
    | with_reducible apply syncBrk_wf
    | with_reducible apply shedBranch_wf
    | with_reducible refine forEach_wf (fun x u hu => ?_) ?_
    | split
    | dsimp only
    | (simp only [wf_mk]; with_reducible apply wf_parts)

theorem execBow_wf {meas : PowerMeas} {s : State} (hW : s.Wf) {tW : State} (eW : execBow meas s = .next tW) : tW.Wf := by
  revert eW
  unfold execBow
  repeat' first
    | with_reducible assumption
    | with_reducible apply takePower_wf
    | with_reducible apply bowRaised_wf
    | (intro (eQ : _ = _); with_reducible refine alive_wf hW ?_ eQ)
    | (intro (eQ : _ = _); with_reducible refine answer_wf ?_ eQ)
    | split
    | dsimp only
    | (simp only [wf_mk]; with_reducible apply wf_parts)
    | (intro (eQ : _ = _); cases eQ)

theorem execShed_wf {meas : PowerMeas} {s : State} (hW : s.Wf) {tW : State} (eW : execShed meas s = .next tW) : tW.Wf := by
  revert eW
  unfold execShed
  repeat' first
    | with_reducible assumption
    | with_reducible apply takePower_wf
    | with_reducible apply shedBranch_wf
    | (intro (eQ : _ = _); with_reducible refine alive_wf hW ?_ eQ)
    | (intro (eQ : _ = _); with_reducible refine answer_wf ?_ eQ)
    | split
    | dsimp only
    | (simp only [wf_mk]; with_reducible apply wf_parts)
    | (intro (eQ : _ = _); cases eQ)

theorem restoreBranches_wf {s : State} (hW : s.Wf) : (restoreBranches s).Wf := by
  unfold restoreBranches
  repeat' first
    | with_reducible assumption
    | with_reducible apply setFlag_wf
    | with_reducible apply setLevel_wf
    | with_reducible apply withdrawLeanest_wf
    | with_reducible apply syncForced_wf
    | with_reducible apply syncBrk_wf
    | with_reducible apply setChState_wf
    | with_reducible refine forEach_wf (fun x u hu => ?_) ?_
    | split
    | dsimp only
    | (simp only [wf_mk]; with_reducible apply wf_parts)

theorem execRestoration_wf {meas : PowerMeas} {s : State} (hW : s.Wf) {tW : State} (eW : execRestoration meas s = .next tW) : tW.Wf := by
  revert eW
  unfold execRestoration
  repeat' first
    | with_reducible assumption
    | with_reducible apply takePower_wf
    | with_reducible apply restoreBranches_wf
    | (intro (eQ : _ = _); with_reducible refine alive_wf hW ?_ eQ)
    | (intro (eQ : _ = _); with_reducible refine answer_wf ?_ eQ)
    | split
    | dsimp only
    | (simp only [wf_mk]; with_reducible apply wf_parts)
    | (intro (eQ : _ = _); cases eQ)

theorem execOv_wf {on : Bool} {s : State} (hW : s.Wf) {tW : State} (eW : execOv on s = .next tW) : tW.Wf := by
  revert eW
  unfold execOv
  repeat' first
    | with_reducible assumption
    | with_reducible apply setFlag_wf
    | with_reducible apply setLevel_wf
    | (intro (eQ : _ = _); with_reducible refine alive_wf hW ?_ eQ)
    | (intro (eQ : _ = _); with_reducible refine answer_wf ?_ eQ)
    | split
    | dsimp only
    | (simp only [wf_mk]; with_reducible apply wf_parts)
    | (intro (eQ : _ = _); cases eQ)

theorem execVholdLow_wf {on : Bool} {s : State} (hW : s.Wf) {tW : State} (eW : execVholdLow on s = .next tW) : tW.Wf := by
  revert eW
  unfold execVholdLow
  repeat' first
    | with_reducible assumption
    | with_reducible apply setFlag_wf
    | with_reducible apply setLevel_wf
    | (intro (eQ : _ = _); with_reducible refine alive_wf hW ?_ eQ)
    | (intro (eQ : _ = _); with_reducible refine answer_wf ?_ eQ)
    | split
    | dsimp only
    | (simp only [wf_mk]; with_reducible apply wf_parts)
    | (intro (eQ : _ = _); cases eQ)

theorem gatesDown_wf {s : State} (hW : s.Wf) : (gatesDown s).Wf := by
  unfold gatesDown
  repeat' first
    | with_reducible assumption
    | with_reducible apply setR_wf
    | with_reducible apply setCause_wf
    | with_reducible apply setChState_wf
    | with_reducible refine whenS_wf (fun u hu => ?_) ?_
    | with_reducible refine forEach_wf (fun x u hu => ?_) ?_
    | split
    | dsimp only
    | (simp only [wf_mk]; with_reducible apply wf_parts)

theorem rebuildChannels_wf {s : State} (hW : s.Wf) : (rebuildChannels s).Wf := by
  unfold rebuildChannels
  repeat' first
    | with_reducible assumption
    | with_reducible apply setReq_wf
    | with_reducible apply syncBrk_wf
    | with_reducible apply setChState_wf
    | with_reducible refine forEach_wf (fun x u hu => ?_) ?_
    | split
    | dsimp only
    | (simp only [wf_mk]; with_reducible apply wf_parts)

theorem coldStart_wf {s : State} (hW : s.Wf) : (coldStart s).Wf := by
  unfold coldStart
  repeat' first
    | with_reducible assumption
    | with_reducible apply setR_wf
    | with_reducible apply setFlag_wf
    | with_reducible apply raiseEv_wf
    | with_reducible apply rebuildChannels_wf
    | with_reducible refine forEach_wf (fun x u hu => ?_) ?_
    | split
    | dsimp only
    | (simp only [wf_mk]; with_reducible apply wf_parts)

theorem fenceBrk_wf {s : State} (hW : s.Wf) : (fenceBrk s).Wf := by
  unfold fenceBrk
  repeat' first
    | with_reducible assumption
    | with_reducible apply syncBrk_wf
    | with_reducible apply setChState_wf
    | with_reducible refine forEach_wf (fun x u hu => ?_) ?_
    | split
    | dsimp only
    | (simp only [wf_mk]; with_reducible apply wf_parts)

theorem brkMillisecond_wf {s : State} (hW : s.Wf) : (brkMillisecond s).Wf := by
  unfold brkMillisecond
  repeat' first
    | with_reducible assumption
    | with_reducible apply setR_wf
    | with_reducible apply offTimerDone_wf
    | with_reducible refine forEach_wf (fun x u hu => ?_) ?_
    | split
    | dsimp only
    | (simp only [wf_mk]; with_reducible apply wf_parts)

end Sys2Proof.Machine
end

