-- ==== Sys2Proof/Laws/Wf/Access.lean ====
section
/-!
SUPPORT. The operations of Machine/Access.lean keep the invariant State.Wf.
-/

namespace Sys2Proof.Machine

set_option linter.all false

theorem denialCause_wf {cause : Option Nat} {s : State} (hW : s.Wf) : (denialCause cause s).2.Wf := by
  unfold denialCause
  repeat' first
    | with_reducible assumption
    | with_reducible apply freeValue_wf
    | with_reducible refine freeValue_wfE ?_ (by with_reducible assumption)
    | split
    | dsimp only
    | (simp only [wf_mk]; with_reducible apply wf_parts)

theorem denialCause_wfE {cause : Option Nat} {s : State} {x0} {tW : State} (hW : s.Wf) (eW : denialCause cause s = (x0, tW)) : tW.Wf := by
  have hw := denialCause_wf (cause := cause) (s := s) hW
  rw [eW] at hw
  exact hw

theorem logDenial_wf {m : Master} {k : AccessKind} {cause : Option Nat} {a : Nat} {s : State} (hW : s.Wf) : (logDenial m k cause a s).Wf := by
  unfold logDenial
  repeat' first
    | with_reducible assumption
    | with_reducible apply setR_wf
    | with_reducible apply setFlag_wf
    | with_reducible apply incCnt_wf
    | with_reducible apply raiseEv_wf
    | with_reducible apply denialCause_wf
    | with_reducible apply access_wf
    | with_reducible refine denialCause_wfE ?_ (by with_reducible assumption)
    | split
    | dsimp only
    | (simp only [wf_mk]; with_reducible apply wf_parts)

theorem denyPop_wf {s : State} (hW : s.Wf) : (denyPop s).Wf := by
  unfold denyPop
  repeat' first
    | with_reducible assumption
    | with_reducible apply setR_wf
    | with_reducible apply access_wf
    | split
    | dsimp only
    | (simp only [wf_mk]; with_reducible apply wf_parts)

theorem noteGated_wf {s : State} (hW : s.Wf) : (noteGated s).Wf := by
  unfold noteGated
  repeat' first
    | with_reducible assumption
    | with_reducible apply incCnt_wf
    | with_reducible apply raiseEv_wf
    | split
    | dsimp only
    | (simp only [wf_mk]; with_reducible apply wf_parts)

theorem noteVerdict_wf {v : Verdict} {m : Master} {k : AccessKind} {a : Nat} {s : State} (hW : s.Wf) : (noteVerdict v m k a s).Wf := by
  unfold noteVerdict
  repeat' first
    | with_reducible assumption
    | with_reducible apply logDenial_wf
    | with_reducible apply noteGated_wf
    | split
    | dsimp only
    | (simp only [wf_mk]; with_reducible apply wf_parts)

theorem setAccItem_wf {space : Nat} {index : Nat} {v : Nat} {s : State} (hW : s.Wf) : (setAccItem space index v s).Wf := by
  unfold setAccItem
  repeat' first
    | with_reducible assumption
    | with_reducible apply setR_wf
    | with_reducible apply access_wf
    | split
    | dsimp only
    | (simp only [wf_mk]; with_reducible apply wf_parts)

theorem rowVal_wf {who : Option Master} {v : Nat} {s : State} (hW : s.Wf) : (rowVal who v s).Wf := by
  unfold rowVal
  repeat' first
    | with_reducible assumption
    | with_reducible apply raiseEv_wf
    | with_reducible apply raiseIf_wf
    | with_reducible apply journal_wf
    | with_reducible apply journalRefused_wf
    | with_reducible apply setAccItem_wf
    | split
    | dsimp only
    | (simp only [wf_mk]; with_reducible apply wf_parts)

theorem dramWrite_wf {a : Nat} {bs : List Byte} {s : State} (hW : s.Wf) : (dramWrite a bs s).Wf := by
  unfold dramWrite
  repeat' first
    | with_reducible assumption
    | with_reducible apply healDram_wf
    | split
    | dsimp only
    | (simp only [wf_mk]; with_reducible apply wf_parts)
    | (simp only [wf_mk]; constructor <;> first | rfl | with_reducible exact State.Wf.dram (by with_reducible assumption) | with_reducible exact State.Wf.flash (by with_reducible assumption) | with_reducible exact State.Wf.committed (by with_reducible assumption) | with_reducible exact State.Wf.staging (by with_reducible assumption) | with_reducible exact State.Wf.active (by with_reducible assumption) | with_reducible exact State.Wf.pend (by with_reducible assumption) | with_reducible exact State.Wf.store (by with_reducible assumption) | with_reducible exact State.Wf.log (by with_reducible assumption) | with_reducible exact State.Wf.held (by with_reducible assumption) | (with_reducible refine memWriteN_wf _ ?_ _; first | rfl | with_reducible exact State.Wf.dram (by with_reducible assumption) | with_reducible exact State.Wf.flash (by with_reducible assumption) | with_reducible exact State.Wf.committed (by with_reducible assumption) | with_reducible exact State.Wf.staging (by with_reducible assumption) | with_reducible exact State.Wf.active (by with_reducible assumption) | with_reducible exact State.Wf.pend (by with_reducible assumption)) | (with_reducible refine memPutNat_wf ?_ _ _ _; first | rfl | with_reducible exact State.Wf.dram (by with_reducible assumption) | with_reducible exact State.Wf.flash (by with_reducible assumption) | with_reducible exact State.Wf.committed (by with_reducible assumption) | with_reducible exact State.Wf.staging (by with_reducible assumption) | with_reducible exact State.Wf.active (by with_reducible assumption) | with_reducible exact State.Wf.pend (by with_reducible assumption)) | (with_reducible refine memSplice_wf ?_ _ _; first | rfl | with_reducible exact State.Wf.dram (by with_reducible assumption) | with_reducible exact State.Wf.flash (by with_reducible assumption) | with_reducible exact State.Wf.committed (by with_reducible assumption) | with_reducible exact State.Wf.staging (by with_reducible assumption) | with_reducible exact State.Wf.active (by with_reducible assumption) | with_reducible exact State.Wf.pend (by with_reducible assumption)) | (with_reducible refine memClear_wf ?_ _ _; first | rfl | with_reducible exact State.Wf.dram (by with_reducible assumption) | with_reducible exact State.Wf.flash (by with_reducible assumption) | with_reducible exact State.Wf.committed (by with_reducible assumption) | with_reducible exact State.Wf.staging (by with_reducible assumption) | with_reducible exact State.Wf.active (by with_reducible assumption) | with_reducible exact State.Wf.pend (by with_reducible assumption)))

theorem guardFail_wf {m : Master} {page : Nat} {n : Nat} {cause : Nat} {s : State} (hW : s.Wf) : (guardFail m page n cause s).Wf := by
  unfold guardFail
  repeat' first
    | with_reducible assumption
    | with_reducible apply setR_wf
    | with_reducible apply incCnt_wf
    | with_reducible apply raiseEv_wf
    | split
    | dsimp only
    | (simp only [wf_mk]; with_reducible apply wf_parts)

end Sys2Proof.Machine
end

