-- ==== Sys2Proof/Laws/Wf/LanePort.lean ====
section
/-!
SUPPORT. The operations of Machine/LanePort.lean keep the invariant State.Wf.
-/

namespace Sys2Proof.Machine

set_option linter.all false

theorem setPort_wf {p : Side} {v : PortState} {s : State} (hW : s.Wf) : (setPort p v s).Wf := by
  unfold setPort
  repeat' first
    | with_reducible assumption
    | split
    | dsimp only
    | (simp only [wf_mk]; with_reducible apply wf_parts)

theorem setLane_wf {p : Side} {n : Nat} {v : LaneState} {s : State} (hW : s.Wf) : (setLane p n v s).Wf := by
  unfold setLane
  repeat' first
    | with_reducible assumption
    | with_reducible apply setPort_wf
    | split
    | dsimp only
    | (simp only [wf_mk]; with_reducible apply wf_parts)

theorem setLaneState_wf {p : Side} {n : Nat} {v : Nat} {s : State} (hW : s.Wf) : (setLaneState p n v s).Wf := by
  unfold setLaneState
  repeat' first
    | with_reducible assumption
    | with_reducible apply setR_wf
    | split
    | dsimp only
    | (simp only [wf_mk]; with_reducible apply wf_parts)

theorem syncLaneLevels_wf {p : Side} {s : State} (hW : s.Wf) : (syncLaneLevels p s).Wf := by
  unfold syncLaneLevels
  repeat' first
    | with_reducible assumption
    | with_reducible apply setLevel_wf
    | split
    | dsimp only
    | (simp only [wf_mk]; with_reducible apply wf_parts)

theorem beginPark_wf {p : Side} {n : Nat} {deep : Bool} {s : State} (hW : s.Wf) : (beginPark p n deep s).Wf := by
  unfold beginPark
  repeat' first
    | with_reducible assumption
    | with_reducible apply setLane_wf
    | split
    | dsimp only
    | (simp only [wf_mk]; with_reducible apply wf_parts)

theorem leavePark_wf {p : Side} {n : Nat} {s : State} (hW : s.Wf) : (leavePark p n s).Wf := by
  unfold leavePark
  repeat' first
    | with_reducible assumption
    | with_reducible apply setLane_wf
    | with_reducible apply setLaneState_wf
    | split
    | dsimp only
    | (simp only [wf_mk]; with_reducible apply wf_parts)

theorem requestExit_wf {p : Side} {n : Nat} {s : State} (hW : s.Wf) : (requestExit p n s).Wf := by
  unfold requestExit
  repeat' first
    | with_reducible assumption
    | with_reducible apply setLane_wf
    | with_reducible apply leavePark_wf
    | split
    | dsimp only
    | (simp only [wf_mk]; with_reducible apply wf_parts)

theorem finishPark_wf {p : Side} {n : Nat} {s : State} (hW : s.Wf) : (finishPark p n s).Wf := by
  unfold finishPark
  repeat' first
    | with_reducible assumption
    | with_reducible apply setFlag_wf
    | with_reducible apply setLane_wf
    | with_reducible apply setLaneState_wf
    | with_reducible apply syncLaneLevels_wf
    | with_reducible apply requestExit_wf
    | with_reducible refine whenS_wf (fun u hu => ?_) ?_
    | split
    | dsimp only
    | (simp only [wf_mk]; with_reducible apply wf_parts)

theorem wakeLanes_wf {p : Side} {width : Nat} {s : State} (hW : s.Wf) : (wakeLanes p width s).Wf := by
  unfold wakeLanes
  repeat' first
    | with_reducible assumption
    | with_reducible apply requestExit_wf
    | with_reducible refine forEach_wf (fun x u hu => ?_) ?_
    | split
    | dsimp only
    | (simp only [wf_mk]; with_reducible apply wf_parts)

theorem parkLanes_wf {p : Side} {lo : Nat} {hi : Nat} {deep : Bool} {s : State} (hW : s.Wf) : (parkLanes p lo hi deep s).Wf := by
  unfold parkLanes
  repeat' first
    | with_reducible assumption
    | with_reducible apply beginPark_wf
    | with_reducible refine forEach_wf (fun x u hu => ?_) ?_
    | split
    | dsimp only
    | (simp only [wf_mk]; with_reducible apply wf_parts)

theorem setTxWidth_wf {p : Side} {width : Nat} {deep : Bool} {s : State} (hW : s.Wf) : (setTxWidth p width deep s).Wf := by
  unfold setTxWidth
  repeat' first
    | with_reducible assumption
    | with_reducible apply setR_wf
    | with_reducible apply raiseIf_wf
    | with_reducible apply parkLanes_wf
    | split
    | dsimp only
    | (simp only [wf_mk]; with_reducible apply wf_parts)

theorem laneCntClear_wf {p : Side} {s : State} (hW : s.Wf) : (laneCntClear p s).Wf := by
  unfold laneCntClear
  repeat' first
    | with_reducible assumption
    | with_reducible apply setR_wf
    | with_reducible apply clearAll_wf
    | split
    | dsimp only
    | (simp only [wf_mk]; with_reducible apply wf_parts)

end Sys2Proof.Machine
end

