-- ==== Sys2Proof/Laws/Wf/StationRegs.lean ====
section
/-!
SUPPORT. The operations of Machine/StationRegs.lean keep the invariant State.Wf.
-/

namespace Sys2Proof.Machine

set_option linter.all false

theorem setStation_wf {st : Side} {v : StationState} {s : State} (hW : s.Wf) : (setStation st v s).Wf := by
  unfold setStation
  repeat' first
    | with_reducible assumption
    | split
    | dsimp only
    | (simp only [wf_mk]; with_reducible apply wf_parts)

theorem setRole_wf {st : Side} {r : Nat} {s : State} (hW : s.Wf) : (setRole st r s).Wf := by
  unfold setRole
  repeat' first
    | with_reducible assumption
    | with_reducible apply setR_wf
    | with_reducible apply raiseIf_wf
    | split
    | dsimp only
    | (simp only [wf_mk]; with_reducible apply wf_parts)

theorem setPortOpen_wf {p : Side} {b : Bool} {s : State} (hW : s.Wf) : (setPortOpen p b s).Wf := by
  unfold setPortOpen
  repeat' first
    | with_reducible assumption
    | with_reducible apply setFlag_wf
    | with_reducible apply setLevel_wf
    | split
    | dsimp only
    | (simp only [wf_mk]; with_reducible apply wf_parts)

theorem recordStamp_wf {c : Nat} {p : Side} {dep : Bool} {v : Int} {s : State} (hW : s.Wf) : (recordStamp c p dep v s).Wf := by
  unfold recordStamp
  repeat' first
    | with_reducible assumption
    | split
    | dsimp only
    | (simp only [wf_mk]; with_reducible apply wf_parts)

end Sys2Proof.Machine
end

