-- ==== Sys2Proof/Laws/Wf/Keys.lean ====
section
/-!
SUPPORT. The operations of Machine/Keys.lean keep the invariant State.Wf.
-/

namespace Sys2Proof.Machine

set_option linter.all false

theorem setDrawer_wf {n : Nat} {d : Drawer} {s : State} (hW : s.Wf) : (setDrawer n d s).Wf := by
  unfold setDrawer
  repeat' first
    | with_reducible assumption
    | split
    | dsimp only
    | (simp only [wf_mk]; with_reducible apply wf_parts)

theorem writeDrawer_wf {n : Nat} {attr : Nat} {material : List Byte} {s : State} (hW : s.Wf) : (writeDrawer n attr material s).Wf := by
  unfold writeDrawer
  repeat' first
    | with_reducible assumption
    | with_reducible apply setDrawer_wf
    | split
    | dsimp only
    | (simp only [wf_mk]; with_reducible apply wf_parts)

theorem spoilDrawer_wf {n : Nat} {s : State} (hW : s.Wf) : (spoilDrawer n s).Wf := by
  unfold spoilDrawer
  repeat' first
    | with_reducible assumption
    | with_reducible apply setDrawer_wf
    | split
    | dsimp only
    | (simp only [wf_mk]; with_reducible apply wf_parts)

theorem syncKey_wf {s : State} (hW : s.Wf) : (syncKey s).Wf := by
  unfold syncKey
  repeat' first
    | with_reducible assumption
    | with_reducible apply setLevel_wf
    | split
    | dsimp only
    | (simp only [wf_mk]; with_reducible apply wf_parts)

theorem takeRingKey_wf {s : State} (hW : s.Wf) : (takeRingKey s).Wf := by
  unfold takeRingKey
  repeat' first
    | with_reducible assumption
    | with_reducible apply spoilDrawer_wf
    | with_reducible apply syncKey_wf
    | with_reducible refine whenS_wf (fun u hu => ?_) ?_
    | split
    | dsimp only
    | (simp only [wf_mk]; with_reducible apply wf_parts)

theorem ringSwitch_wf {c : Nat} {s : State} (hW : s.Wf) : (ringSwitch c s).Wf := by
  unfold ringSwitch
  repeat' first
    | with_reducible assumption
    | with_reducible apply setR_wf
    | with_reducible apply setFlag_wf
    | with_reducible apply raiseEv_wf
    | with_reducible apply journal_wf
    | with_reducible apply takeRingKey_wf
    | split
    | dsimp only
    | (simp only [wf_mk]; with_reducible apply wf_parts)

theorem dropNonce_wf {s : State} (hW : s.Wf) : (dropNonce s).Wf := by
  unfold dropNonce
  repeat' first
    | with_reducible assumption
    | with_reducible apply setR_wf
    | with_reducible apply setFlag_wf
    | with_reducible refine forEach_wf (fun x u hu => ?_) ?_
    | split
    | dsimp only
    | (simp only [wf_mk]; with_reducible apply wf_parts)

theorem syncDebug_wf {s : State} (hW : s.Wf) : (syncDebug s).Wf := by
  unfold syncDebug
  repeat' first
    | with_reducible assumption
    | with_reducible apply setFlag_wf
    | with_reducible refine whenS_wf (fun u hu => ?_) ?_
    | split
    | dsimp only
    | (simp only [wf_mk]; with_reducible apply wf_parts)

theorem wipeDrawers_wf {s : State} (hW : s.Wf) : (wipeDrawers s).Wf := by
  unfold wipeDrawers
  repeat' first
    | with_reducible assumption
    | split
    | dsimp only
    | (simp only [wf_mk]; with_reducible apply wf_parts)

theorem takeTransition_wf {who : Option Master} {upto : Nat} {s : State} (hW : s.Wf) : (takeTransition who upto s).Wf := by
  unfold takeTransition
  repeat' first
    | with_reducible assumption
    | with_reducible apply raiseEv_wf
    | with_reducible apply journal_wf
    | with_reducible apply setDrawer_wf
    | with_reducible apply syncDebug_wf
    | with_reducible apply wipeDrawers_wf
    | with_reducible refine whenS_wf (fun u hu => ?_) ?_
    | with_reducible refine forEach_wf (fun x u hu => ?_) ?_
    | split
    | dsimp only
    | (simp only [wf_mk]; with_reducible apply wf_parts)

theorem entropy_wf {n : Nat} {s : State} (hW : s.Wf) : (entropy n s).2.Wf := by
  unfold entropy
  repeat' first
    | with_reducible assumption
    | with_reducible apply freeBytes_wf
    | with_reducible refine freeBytes_wfE ?_ (by with_reducible assumption)
    | split
    | dsimp only
    | (simp only [wf_mk]; with_reducible apply wf_parts)

theorem entropy_wfE {n : Nat} {s : State} {x0} {tW : State} (hW : s.Wf) (eW : entropy n s = (x0, tW)) : tW.Wf := by
  have hw := entropy_wf (n := n) (s := s) hW
  rw [eW] at hw
  exact hw

theorem keyRun_wf {c : KeyCmd} {s : State} (hW : s.Wf) : (keyRun c s).2.2.Wf := by
  unfold keyRun
  repeat' first
    | with_reducible assumption
    | with_reducible apply setR_wf
    | with_reducible apply setFlag_wf
    | with_reducible apply setPair_wf
    | with_reducible apply setDrawer_wf
    | with_reducible apply writeDrawer_wf
    | with_reducible apply takeTransition_wf
    | with_reducible apply entropy_wf
    | with_reducible refine forEach_wf (fun x u hu => ?_) ?_
    | with_reducible refine entropy_wfE ?_ (by with_reducible assumption)
    | split
    | dsimp only
    | (simp only [wf_mk]; with_reducible apply wf_parts)

theorem keyRun_wfE {c : KeyCmd} {s : State} {x0 x1} {tW : State} (hW : s.Wf) (eW : keyRun c s = (x0, x1, tW)) : tW.Wf := by
  have hw := keyRun_wf (c := c) (s := s) hW
  rw [eW] at hw
  exact hw

theorem answerRecord_wf {rec_ : Nat} {result : Nat} {out : List Byte} {s : State} (hW : s.Wf) : (answerRecord rec_ result out s).Wf := by
  unfold answerRecord
  repeat' first
    | with_reducible assumption
    | with_reducible apply raiseEv_wf
    | with_reducible apply dramWrite_wf
    | split
    | dsimp only
    | (simp only [wf_mk]; with_reducible apply wf_parts)

theorem keyOutput_wf {c : KeyCmd} {r : Nat} {out : List Byte} {s : State} (hW : s.Wf) : (keyOutput c r out s).Wf := by
  unfold keyOutput
  repeat' first
    | with_reducible assumption
    | with_reducible apply dramWrite_wf
    | with_reducible apply answerRecord_wf
    | with_reducible refine whenS_wf (fun u hu => ?_) ?_
    | split
    | dsimp only
    | (simp only [wf_mk]; with_reducible apply wf_parts)

theorem keyFinish_wf {c : KeyCmd} {s : State} (hW : s.Wf) : (keyFinish c s).Wf := by
  unfold keyFinish
  repeat' first
    | with_reducible assumption
    | with_reducible apply setR_wf
    | with_reducible apply setFlag_wf
    | with_reducible apply raiseEv_wf
    | with_reducible apply raiseIf_wf
    | with_reducible apply journal_wf
    | with_reducible apply spoilDrawer_wf
    | with_reducible apply syncKey_wf
    | with_reducible apply dropNonce_wf
    | with_reducible apply keyRun_wf
    | with_reducible apply keyOutput_wf
    | with_reducible refine whenS_wf (fun u hu => ?_) ?_
    | with_reducible refine keyRun_wfE ?_ (by with_reducible assumption)
    | split
    | dsimp only
    | (simp only [wf_mk]; with_reducible apply wf_parts)

theorem keyStart_wf {c : KeyCmd} {s : State} (hW : s.Wf) : (keyStart c s).Wf := by
  unfold keyStart
  repeat' first
    | with_reducible assumption
    | with_reducible apply setFlag_wf
    | with_reducible apply incCnt_wf
    | with_reducible apply raiseEv_wf
    | with_reducible apply journalRefused_wf
    | with_reducible apply keyFinish_wf
    | split
    | dsimp only
    | (simp only [wf_mk]; with_reducible apply wf_parts)

theorem keyCommand_wf {m : Master} {code : Nat} {s : State} (hW : s.Wf) : (keyCommand m code s).Wf := by
  unfold keyCommand
  repeat' first
    | with_reducible assumption
    | with_reducible apply keyStart_wf
    | split
    | dsimp only
    | (simp only [wf_mk]; with_reducible apply wf_parts)

theorem keyDone_wf {s : State} (hW : s.Wf) : (keyDone s).Wf := by
  unfold keyDone
  repeat' first
    | with_reducible assumption
    | with_reducible apply keyFinish_wf
    | split
    | dsimp only
    | (simp only [wf_mk]; with_reducible apply wf_parts)

theorem scrubStep_wf {s : State} (hW : s.Wf) : (scrubStep s).Wf := by
  unfold scrubStep
  repeat' first
    | with_reducible assumption
    | with_reducible apply incWrap_wf
    | with_reducible apply spoilDrawer_wf
    | with_reducible apply syncKey_wf
    | with_reducible refine whenS_wf (fun u hu => ?_) ?_
    | split
    | dsimp only
    | (simp only [wf_mk]; with_reducible apply wf_parts)

theorem serveRecord_wf {c : Nat} {s : State} (hW : s.Wf) : (serveRecord c s).Wf := by
  unfold serveRecord
  repeat' first
    | with_reducible assumption
    | with_reducible apply raiseEv_wf
    | with_reducible apply keyFinish_wf
    | split
    | dsimp only
    | (simp only [wf_mk]; with_reducible apply wf_parts)

theorem keyService_wf {s : State} (hW : s.Wf) : (keyService s).Wf := by
  unfold keyService
  repeat' first
    | with_reducible assumption
    | with_reducible apply serveRecord_wf
    | with_reducible refine forEach_wf (fun x u hu => ?_) ?_
    | split
    | dsimp only
    | (simp only [wf_mk]; with_reducible apply wf_parts)

theorem setEntropy_wf {ok : Bool} {s : State} (hW : s.Wf) : (setEntropy ok s).Wf := by
  unfold setEntropy
  repeat' first
    | with_reducible assumption
    | with_reducible apply setFlag_wf
    | with_reducible apply setLevel_wf
    | split
    | dsimp only
    | (simp only [wf_mk]; with_reducible apply wf_parts)

theorem execScrub_wf {s : State} (hW : s.Wf) {tW : State} (eW : execScrub s = .next tW) : tW.Wf := by
  revert eW
  unfold execScrub
  repeat' first
    | with_reducible assumption
    | with_reducible apply scrubStep_wf
    | (intro (eQ : _ = _); with_reducible refine alive_wf hW ?_ eQ)
    | (intro (eQ : _ = _); with_reducible refine answer_wf ?_ eQ)
    | split
    | dsimp only
    | (simp only [wf_mk]; with_reducible apply wf_parts)
    | (intro (eQ : _ = _); cases eQ)

theorem execEntropyFail_wf {s : State} (hW : s.Wf) {tW : State} (eW : execEntropyFail s = .next tW) : tW.Wf := by
  revert eW
  unfold execEntropyFail
  repeat' first
    | with_reducible assumption
    | with_reducible apply setEntropy_wf
    | (intro (eQ : _ = _); with_reducible refine alive_wf hW ?_ eQ)
    | (intro (eQ : _ = _); with_reducible refine answer_wf ?_ eQ)
    | split
    | dsimp only
    | (simp only [wf_mk]; with_reducible apply wf_parts)
    | (intro (eQ : _ = _); cases eQ)

theorem execEntropyOk_wf {s : State} (hW : s.Wf) {tW : State} (eW : execEntropyOk s = .next tW) : tW.Wf := by
  revert eW
  unfold execEntropyOk
  repeat' first
    | with_reducible assumption
    | with_reducible apply setEntropy_wf
    | (intro (eQ : _ = _); with_reducible refine alive_wf hW ?_ eQ)
    | (intro (eQ : _ = _); with_reducible refine answer_wf ?_ eQ)
    | split
    | dsimp only
    | (simp only [wf_mk]; with_reducible apply wf_parts)
    | (intro (eQ : _ = _); cases eQ)

theorem dapDenied_wf {s : State} (hW : s.Wf) : (dapDenied s).Wf := by
  unfold dapDenied
  repeat' first
    | with_reducible assumption
    | with_reducible apply incCnt_wf
    | with_reducible apply raiseEv_wf
    | split
    | dsimp only
    | (simp only [wf_mk]; with_reducible apply wf_parts)

theorem execDapAttach_wf {s : State} (hW : s.Wf) {tW : State} (eW : execDapAttach s = .next tW) : tW.Wf := by
  revert eW
  unfold execDapAttach
  repeat' first
    | with_reducible assumption
    | with_reducible apply setFlag_wf
    | with_reducible apply raiseEv_wf
    | with_reducible apply dapDenied_wf
    | (intro (eQ : _ = _); with_reducible refine alive_wf hW ?_ eQ)
    | (intro (eQ : _ = _); with_reducible refine answer_wf ?_ eQ)
    | split
    | dsimp only
    | (simp only [wf_mk]; with_reducible apply wf_parts)
    | (intro (eQ : _ = _); cases eQ)

theorem execDapDenied_wf {s : State} (hW : s.Wf) {tW : State} (eW : execDapDenied s = .next tW) : tW.Wf := by
  revert eW
  unfold execDapDenied
  repeat' first
    | with_reducible assumption
    | with_reducible apply dapDenied_wf
    | with_reducible refine whenS_wf (fun u hu => ?_) ?_
    | (intro (eQ : _ = _); with_reducible refine alive_wf hW ?_ eQ)
    | (intro (eQ : _ = _); with_reducible refine answer_wf ?_ eQ)
    | split
    | dsimp only
    | (simp only [wf_mk]; with_reducible apply wf_parts)
    | (intro (eQ : _ = _); cases eQ)

theorem execDapDetach_wf {s : State} (hW : s.Wf) {tW : State} (eW : execDapDetach s = .next tW) : tW.Wf := by
  revert eW
  unfold execDapDetach
  repeat' first
    | with_reducible assumption
    | with_reducible apply setFlag_wf
    | (intro (eQ : _ = _); with_reducible refine alive_wf hW ?_ eQ)
    | (intro (eQ : _ = _); with_reducible refine answer_wf ?_ eQ)
    | split
    | dsimp only
    | (simp only [wf_mk]; with_reducible apply wf_parts)
    | (intro (eQ : _ = _); cases eQ)

end Sys2Proof.Machine
end

