-- ==== Sys2Proof/Laws/Wf/Transmit.lean ====
section
/-!
SUPPORT. The operations of Machine/Transmit.lean keep the invariant State.Wf.
-/

namespace Sys2Proof.Machine

set_option linter.all false

theorem sendGroup_wf {p : Side} {n : Nat} {w : Nat} {s : State} (hW : s.Wf) : (sendGroup p n w s).Wf := by
  unfold sendGroup
  repeat' first
    | with_reducible assumption
    | with_reducible apply emit_wf
    | with_reducible apply setLane_wf
    | split
    | dsimp only
    | (simp only [wf_mk]; with_reducible apply wf_parts)

theorem laneBlock_wf {p : Side} {n : Nat} {sync : Nat} {payload : Nat} {bip : Nat} {s : State} (hW : s.Wf) : (laneBlock p n sync payload bip s).Wf := by
  unfold laneBlock
  repeat' first
    | with_reducible assumption
    | with_reducible apply setLane_wf
    | with_reducible apply sendGroup_wf
    | split
    | dsimp only
    | (simp only [wf_mk]; with_reducible apply wf_parts)

theorem laneData_wf {p : Side} {sync : Nat} {payload : Nat} {n : Nat} {s : State} (hW : s.Wf) : (laneData p sync payload n s).Wf := by
  unfold laneData
  repeat' first
    | with_reducible assumption
    | with_reducible apply laneBlock_wf
    | with_reducible refine whenS_wf (fun u hu => ?_) ?_
    | split
    | dsimp only
    | (simp only [wf_mk]; with_reducible apply wf_parts)

theorem laneMarker_wf {p : Side} {n : Nat} {s : State} (hW : s.Wf) : (laneMarker p n s).Wf := by
  unfold laneMarker
  repeat' first
    | with_reducible assumption
    | with_reducible apply laneBlock_wf
    | with_reducible refine whenS_wf (fun u hu => ?_) ?_
    | split
    | dsimp only
    | (simp only [wf_mk]; with_reducible apply wf_parts)

theorem wakingFiller_wf {p : Side} {s : State} (hW : s.Wf) : (wakingFiller p s).Wf := by
  unfold wakingFiller
  repeat' first
    | with_reducible assumption
    | with_reducible apply laneData_wf
    | with_reducible refine forEach_wf (fun x u hu => ?_) ?_
    | split
    | dsimp only
    | (simp only [wf_mk]; with_reducible apply wf_parts)

theorem fillerStripe_wf {p : Side} {s : State} (hW : s.Wf) : (fillerStripe p s).Wf := by
  unfold fillerStripe
  repeat' first
    | with_reducible assumption
    | with_reducible apply setPort_wf
    | with_reducible apply laneData_wf
    | with_reducible refine forEach_wf (fun x u hu => ?_) ?_
    | split
    | dsimp only
    | (simp only [wf_mk]; with_reducible apply wf_parts)

theorem markerOut_wf {p : Side} {s : State} (hW : s.Wf) : (markerOut p s).Wf := by
  unfold markerOut
  repeat' first
    | with_reducible assumption
    | with_reducible apply setPort_wf
    | with_reducible apply laneMarker_wf
    | with_reducible refine forEach_wf (fun x u hu => ?_) ?_
    | split
    | dsimp only
    | (simp only [wf_mk]; with_reducible apply wf_parts)

theorem closeStripe_wf {p : Side} {s : State} (hW : s.Wf) : (closeStripe p s).Wf := by
  unfold closeStripe
  repeat' first
    | with_reducible assumption
    | with_reducible apply setPort_wf
    | with_reducible apply laneData_wf
    | with_reducible refine forEach_wf (fun x u hu => ?_) ?_
    | split
    | dsimp only
    | (simp only [wf_mk]; with_reducible apply wf_parts)

theorem sendRiser_wf {p : Side} {fill : Nat} {s : State} (hW : s.Wf) : (sendRiser p fill s).Wf := by
  unfold sendRiser
  repeat' first
    | with_reducible assumption
    | with_reducible apply fillerStripe_wf
    | with_reducible apply markerOut_wf
    | with_reducible apply closeStripe_wf
    | with_reducible refine forEach_wf (fun x u hu => ?_) ?_
    | split
    | dsimp only
    | (simp only [wf_mk]; with_reducible apply wf_parts)

theorem sendBlock_wf {p : Side} {sync : Nat} {payload : Nat} {s : State} (hW : s.Wf) : (sendBlock p sync payload s).Wf := by
  unfold sendBlock
  repeat' first
    | with_reducible assumption
    | with_reducible apply setPort_wf
    | with_reducible apply laneData_wf
    | with_reducible apply wakingFiller_wf
    | split
    | dsimp only
    | (simp only [wf_mk]; with_reducible apply wf_parts)

theorem idleStripe_wf {p : Side} {s : State} (hW : s.Wf) : (idleStripe p s).Wf := by
  unfold idleStripe
  repeat' first
    | with_reducible assumption
    | with_reducible apply fillerStripe_wf
    | with_reducible apply markerOut_wf
    | split
    | dsimp only
    | (simp only [wf_mk]; with_reducible apply wf_parts)

theorem prbsReceive_wf {p : Side} {n : Nat} {group : Nat} {s : State} (hW : s.Wf) : (prbsReceive p n group s).Wf := by
  unfold prbsReceive
  repeat' first
    | with_reducible assumption
    | with_reducible apply addPair_wf
    | with_reducible apply raiseIf_wf
    | with_reducible apply setLane_wf
    | split
    | dsimp only
    | (simp only [wf_mk]; with_reducible apply wf_parts)

theorem nearLoop_wf {p : Side} {n : Nat} {w : Nat} {s : State} (hW : s.Wf) : (nearLoop p n w s).Wf := by
  unfold nearLoop
  repeat' first
    | with_reducible assumption
    | with_reducible apply emit_wf
    | with_reducible apply setLane_wf
    | with_reducible apply prbsReceive_wf
    | with_reducible refine whenS_wf (fun u hu => ?_) ?_
    | split
    | dsimp only
    | (simp only [wf_mk]; with_reducible apply wf_parts)

theorem testGroup_wf {p : Side} {n : Nat} {s : State} (hW : s.Wf) : (testGroup p n s).Wf := by
  unfold testGroup
  repeat' first
    | with_reducible assumption
    | with_reducible apply setLane_wf
    | with_reducible apply sendGroup_wf
    | with_reducible apply nearLoop_wf
    | split
    | dsimp only
    | (simp only [wf_mk]; with_reducible apply wf_parts)

theorem portTime_wf {before : Nat} {p : Side} {s : State} (hW : s.Wf) : (portTime before p s).Wf := by
  unfold portTime
  repeat' first
    | with_reducible assumption
    | with_reducible apply idleStripe_wf
    | with_reducible apply testGroup_wf
    | with_reducible refine whenS_wf (fun u hu => ?_) ?_
    | with_reducible refine forEach_wf (fun x u hu => ?_) ?_
    | split
    | dsimp only
    | (simp only [wf_mk]; with_reducible apply wf_parts)

theorem decideThrough_wf {st : Side} {m : Memory} {f : Nat} {c : Nat} {t : Nat} {s : State} (hW : s.Wf) : (decideThrough st m f c t s).2.Wf := by
  unfold decideThrough
  repeat' first
    | with_reducible assumption
    | with_reducible apply incCnt_wf
    | with_reducible apply setStation_wf
    | split
    | dsimp only
    | (simp only [wf_mk]; with_reducible apply wf_parts)

theorem decideThrough_wfE {st : Side} {m : Memory} {f : Nat} {c : Nat} {t : Nat} {s : State} {x0} {tW : State} (hW : s.Wf) (eW : decideThrough st m f c t s = (x0, tW)) : tW.Wf := by
  have hw := decideThrough_wf (st := st) (m := m) (f := f) (c := c) (t := t) (s := s) hW
  rw [eW] at hw
  exact hw

theorem nextItem_wf {st : Side} {m : Memory} {s : State} (hW : s.Wf) {x0} {tW : State} (eW : nextItem st m s = some (x0, tW)) : tW.Wf := by
  revert eW
  unfold nextItem
  repeat' first
    | with_reducible assumption
    | with_reducible apply setStation_wf
    | with_reducible apply decideThrough_wf
    | with_reducible refine decideThrough_wfE ?_ (by with_reducible assumption)
    | split
    | dsimp only
    | (simp only [wf_mk]; with_reducible apply wf_parts)
    | (intro (eQ : _ = _); cases eQ)

theorem putItem_wf {st : Side} {item : OutItem} {blocks : List (Nat × Nat)} {s : State} (hW : s.Wf) : (putItem st item blocks s).Wf := by
  unfold putItem
  repeat' first
    | with_reducible assumption
    | with_reducible apply setStation_wf
    | with_reducible apply sendRiser_wf
    | with_reducible apply sendBlock_wf
    | with_reducible refine forEach_wf (fun x u hu => ?_) ?_
    | split
    | dsimp only
    | (simp only [wf_mk]; with_reducible apply wf_parts)

theorem pumpItems_wf {st : Side} {m : Memory} : ∀ {n : Nat} {s : State}, s.Wf → (pumpItems st m n s).Wf
  | 0, _, h => h
  | n + 1, s, h => by
    unfold pumpItems
    split
    · exact h
    · split
      · exact h
      · rename_i item u e
        split
        · exact h
        · exact pumpItems_wf (putItem_wf (nextItem_wf h e))

theorem pump_wf {st : Side} {s : State} (hW : s.Wf) : (pump st s).Wf := by
  unfold pump
  repeat' first
    | with_reducible assumption
    | with_reducible apply pumpItems_wf
    | split
    | dsimp only
    | (simp only [wf_mk]; with_reducible apply wf_parts)

theorem sendItems_wf {st : Side} {xs : List OutItem} {s : State} (hW : s.Wf) : (sendItems st xs s).Wf := by
  unfold sendItems
  repeat' first
    | with_reducible assumption
    | with_reducible apply setStation_wf
    | with_reducible apply pump_wf
    | split
    | dsimp only
    | (simp only [wf_mk]; with_reducible apply wf_parts)

theorem beginSend_wf {st : Side} {c : Nat} {f : Nat} {start : Nat} {until_ : Nat} {timed : Bool} {items : List OutItem} {sent : Nat} {s : State} (hW : s.Wf) : (beginSend st c f start until_ timed items sent s).Wf := by
  unfold beginSend
  repeat' first
    | with_reducible assumption
    | with_reducible apply setStation_wf
    | with_reducible apply pump_wf
    | split
    | dsimp only
    | (simp only [wf_mk]; with_reducible apply wf_parts)

end Sys2Proof.Machine
end

