-- ==== Sys2Proof/Laws/Wf/Landing.lean ====
section
/-!
SUPPORT. The operations of Machine/Landing.lean keep the invariant State.Wf.
-/

namespace Sys2Proof.Machine

set_option linter.all false

theorem dropPacket_wf {q : Nat} {i : Nat} {s : State} (hW : s.Wf) : (dropPacket q i s).Wf := by
  unfold dropPacket
  repeat' first
    | with_reducible assumption
    | with_reducible apply setQueue_wf
    | with_reducible apply syncCab_wf
    | with_reducible apply returnCells_wf
    | with_reducible apply adjustGrant_wf
    | with_reducible apply mirrorRelease_wf
    | split
    | dsimp only
    | (simp only [wf_mk]; with_reducible apply wf_parts)

theorem retryMsg_wf {acc : List OutMsg × List Nat × State} {m : OutMsg} (hW : acc.2.2.Wf) : (retryMsg acc m).2.2.Wf := by
  obtain ⟨done, stuck, u⟩ := acc
  replace hW : u.Wf := hW
  unfold retryMsg
  dsimp only
  split
  · exact hW
  · split
    · exact cabProduce_wf (s := u) hW
    · exact hW

theorem retryAll_wf : ∀ {ms : List OutMsg} {acc : List OutMsg × List Nat × State}, acc.2.2.Wf → (ms.foldl retryMsg acc).2.2.Wf
  | [], _, h => h
  | m :: ms, acc, h => retryAll_wf (ms := ms) (acc := retryMsg acc m) (retryMsg_wf h)

theorem retryOut_wf {s : State} (hW : s.Wf) : (retryOut s).Wf := by
  unfold retryOut
  exact wf_mk.mpr (wf_parts (retryAll_wf (acc := ([], [], s)) hW))

theorem queueOut_wf {m : OutMsg} {s : State} (hW : s.Wf) : (queueOut m s).Wf := by
  unfold queueOut
  repeat' first
    | with_reducible assumption
    | with_reducible apply retryOut_wf
    | split
    | dsimp only
    | (simp only [wf_mk]; with_reducible apply wf_parts)

theorem removeOut_wf {i : Nat} {s : State} (hW : s.Wf) : (removeOut i s).Wf := by
  unfold removeOut
  repeat' first
    | with_reducible assumption
    | with_reducible apply dropPacket_wf
    | with_reducible apply retryOut_wf
    | with_reducible refine whenS_wf (fun u hu => ?_) ?_
    | split
    | dsimp only
    | (simp only [wf_mk]; with_reducible apply wf_parts)

theorem logPwe_wf {addr : Nat} {mclass : Nat} {cause : Nat} {far : Nat} {seq : Nat} {s : State} (hW : s.Wf) : (logPwe addr mclass cause far seq s).Wf := by
  unfold logPwe
  repeat' first
    | with_reducible assumption
    | with_reducible apply setR_wf
    | with_reducible apply setFlag_wf
    | with_reducible apply incCnt_wf
    | with_reducible apply raiseEv_wf
    | split
    | dsimp only
    | (simp only [wf_mk]; with_reducible apply wf_parts)

theorem pwePop_wf {s : State} (hW : s.Wf) : (pwePop s).Wf := by
  unfold pwePop
  repeat' first
    | with_reducible assumption
    | with_reducible apply setR_wf
    | split
    | dsimp only
    | (simp only [wf_mk]; with_reducible apply wf_parts)

theorem syncNotices_wf {s : State} (hW : s.Wf) : (syncNotices s).Wf := by
  unfold syncNotices
  repeat' first
    | with_reducible assumption
    | with_reducible apply setR_wf
    | with_reducible apply setLevel_wf
    | with_reducible refine forEach_wf (fun x u hu => ?_) ?_
    | split
    | dsimp only
    | (simp only [wf_mk]; with_reducible apply wf_parts)

theorem enterNotice_wf {port : Nat} {words : List Nat} {s : State} (hW : s.Wf) {tW : State} (eW : enterNotice port words s = some tW) : tW.Wf := by
  revert eW
  unfold enterNotice
  repeat' first
    | with_reducible assumption
    | with_reducible apply cabProduce_wf
    | with_reducible apply syncNotices_wf
    | with_reducible refine cabProduce_wfE ?_ (by with_reducible assumption)
    | split
    | dsimp only
    | (simp only [wf_mk]; with_reducible apply wf_parts)
    | (intro (eQ : _ = _); cases eQ)

theorem noticePop_wf {s : State} (hW : s.Wf) : (noticePop s).Wf := by
  unfold noticePop
  repeat' first
    | with_reducible assumption
    | with_reducible apply dropPacket_wf
    | with_reducible apply syncNotices_wf
    | split
    | dsimp only
    | (simp only [wf_mk]; with_reducible apply wf_parts)

theorem syncTickets_wf {s : State} (hW : s.Wf) : (syncTickets s).Wf := by
  unfold syncTickets
  repeat' first
    | with_reducible assumption
    | with_reducible apply setR_wf
    | split
    | dsimp only
    | (simp only [wf_mk]; with_reducible apply wf_parts)

theorem ticketDone_wf {slot : Nat} {st : Nat} {data : List Byte} {s : State} (hW : s.Wf) : (ticketDone slot st data s).Wf := by
  unfold ticketDone
  repeat' first
    | with_reducible assumption
    | with_reducible apply raiseEv_wf
    | with_reducible apply syncTickets_wf
    | split
    | dsimp only
    | (simp only [wf_mk]; with_reducible apply wf_parts)

theorem aerReport_wf {s : State} (hW : s.Wf) : (aerReport s).Wf := by
  unfold aerReport
  repeat' first
    | with_reducible assumption
    | with_reducible apply freeValue_wf
    | with_reducible apply raiseIf_wf
    | with_reducible refine freeValue_wfE ?_ (by with_reducible assumption)
    | split
    | dsimp only
    | (simp only [wf_mk]; with_reducible apply wf_parts)

theorem completeBar2_wf {tag : Nat} {node : Nat} {addr : Nat} {len : Nat} {st : Nat} {data : List Byte} {s : State} (hW : s.Wf) : (completeBar2 tag node addr len st data s).Wf := by
  unfold completeBar2
  repeat' first
    | with_reducible assumption
    | with_reducible apply setR_wf
    | with_reducible apply incCnt_wf
    | with_reducible apply emit_wf
    | with_reducible apply raiseEv_wf
    | with_reducible apply aerReport_wf
    | split
    | dsimp only
    | (simp only [wf_mk]; with_reducible apply wf_parts)

theorem sendNotice_wf {port : Nat} {dest : Nat} {stream : Nat} {op : Nat} {blocks : List Nat} {s : State} (hW : s.Wf) : (sendNotice port dest stream op blocks s).Wf := by
  unfold sendNotice
  repeat' first
    | with_reducible assumption
    | with_reducible apply queueOut_wf
    | split
    | dsimp only
    | (simp only [wf_mk]; with_reducible apply wf_parts)

theorem endWaiter_wf {w : Waiter} {addr : Nat} {len : Nat} {st : Nat} {data : List Byte} {s : State} (hW : s.Wf) : (endWaiter w addr len st data s).Wf := by
  unfold endWaiter
  repeat' first
    | with_reducible assumption
    | with_reducible apply emit_wf
    | with_reducible apply queueOut_wf
    | with_reducible apply ticketDone_wf
    | with_reducible apply completeBar2_wf
    | with_reducible apply sendNotice_wf
    | split
    | dsimp only
    | (simp only [wf_mk]; with_reducible apply wf_parts)

theorem endAccess_wf {w : Waiter} {addr : Nat} {len : Nat} {st : Nat} {data : List Byte} {s : State} (hW : s.Wf) : (endAccess w addr len st data s).Wf := by
  unfold endAccess
  repeat' first
    | with_reducible assumption
    | with_reducible apply endWaiter_wf
    | split
    | dsimp only
    | (simp only [wf_mk]; with_reducible apply wf_parts)

theorem splitAccess_wf {s : State} {w : Waiter} {addr : Nat} {len : Nat} {data : List Byte} (hW : s.Wf) : (splitAccess s w addr len data).2.Wf := by
  unfold splitAccess
  repeat' first
    | with_reducible assumption
    | with_reducible refine foldl_wf (fun u x hu => ?_) _ _ ?_
    | with_reducible refine foldl_snd_wf (fun p x hp => ?_) _ _ ?_
    | with_reducible refine foldl_snd_wfE (fun p x hp => ?_) ?_ (by with_reducible assumption)
    | split
    | dsimp only
    | (simp only [wf_mk]; with_reducible apply wf_parts)

theorem splitAccess_wfE {s : State} {w : Waiter} {addr : Nat} {len : Nat} {data : List Byte} {x0} {tW : State} (hW : s.Wf) (eW : splitAccess s w addr len data = (x0, tW)) : tW.Wf := by
  have hw := splitAccess_wf (s := s) (w := w) (addr := addr) (len := len) (data := data) hW
  rw [eW] at hw
  exact hw

theorem syncTags_wf {s : State} (hW : s.Wf) : (syncTags s).Wf := by
  unfold syncTags
  repeat' first
    | with_reducible assumption
    | with_reducible apply setR_wf
    | split
    | dsimp only
    | (simp only [wf_mk]; with_reducible apply wf_parts)

theorem freeTag_wf {s : State} (hW : s.Wf) : (freeTag s).2.Wf := by
  unfold freeTag
  repeat' first
    | with_reducible assumption
    | with_reducible apply freeValue_wf
    | with_reducible refine freeValue_wfE ?_ (by with_reducible assumption)
    | split
    | dsimp only
    | (simp only [wf_mk]; with_reducible apply wf_parts)

theorem freeTag_wfE {s : State} {x0} {tW : State} (hW : s.Wf) (eW : freeTag s = (x0, tW)) : tW.Wf := by
  have hw := freeTag_wf (s := s) hW
  rw [eW] at hw
  exact hw

theorem endRemote_wf {tag : Nat} {st : Nat} {data : List Byte} {s : State} (hW : s.Wf) : (endRemote tag st data s).Wf := by
  unfold endRemote
  repeat' first
    | with_reducible assumption
    | with_reducible apply syncCab_wf
    | with_reducible apply endAccess_wf
    | with_reducible apply syncTags_wf
    | split
    | dsimp only
    | (simp only [wf_mk]; with_reducible apply wf_parts)

theorem takeTag_wf {s : State} (hW : s.Wf) : (takeTag s).2.Wf := by
  unfold takeTag
  repeat' first
    | with_reducible assumption
    | with_reducible apply freeTag_wf
    | with_reducible refine foldl_wf (fun u x hu => ?_) _ _ ?_
    | with_reducible refine foldl_snd_wf (fun p x hp => ?_) _ _ ?_
    | with_reducible refine foldl_snd_wfE (fun p x hp => ?_) ?_ (by with_reducible assumption)
    | with_reducible refine freeTag_wfE ?_ (by with_reducible assumption)
    | split
    | dsimp only
    | (simp only [wf_mk]; with_reducible apply wf_parts)

theorem takeTag_wfE {s : State} {x0} {tW : State} (hW : s.Wf) (eW : takeTag s = (x0, tW)) : tW.Wf := by
  have hw := takeTag_wf (s := s) hW
  rw [eW] at hw
  exact hw

theorem sendRequest_wf {port : Nat} {dest : Nat} {mclass : Nat} {stream : Nat} {op : Nat} {addr : Nat} {len : Nat} {data : List Byte} {w : Waiter} {s : State} (hW : s.Wf) : (sendRequest port dest mclass stream op addr len data w s).Wf := by
  unfold sendRequest
  repeat' first
    | with_reducible assumption
    | with_reducible apply queueOut_wf
    | with_reducible apply endAccess_wf
    | with_reducible apply syncTags_wf
    | with_reducible apply takeTag_wf
    | with_reducible refine takeTag_wfE ?_ (by with_reducible assumption)
    | split
    | dsimp only
    | (simp only [wf_mk]; with_reducible apply wf_parts)

theorem sendPosted_wf {port : Nat} {dest : Nat} {mclass : Nat} {stream : Nat} {op : Nat} {addr : Nat} {data : List Byte} {s : State} (hW : s.Wf) : (sendPosted port dest mclass stream op addr data s).Wf := by
  unfold sendPosted
  repeat' first
    | with_reducible assumption
    | with_reducible apply setPair_wf
    | with_reducible apply queueOut_wf
    | with_reducible apply logPwe_wf
    | split
    | dsimp only
    | (simp only [wf_mk]; with_reducible apply wf_parts)

theorem steer_wf {st : Side} {c : Nat} {m : OutMsg} {s : State} (hW : s.Wf) : (steer st c m s).2.Wf := by
  unfold steer
  repeat' first
    | with_reducible assumption
    | split
    | dsimp only
    | (simp only [wf_mk]; with_reducible apply wf_parts)

theorem steer_wfE {st : Side} {c : Nat} {m : OutMsg} {s : State} {x0} {tW : State} (hW : s.Wf) (eW : steer st c m s = (x0, tW)) : tW.Wf := by
  have hw := steer_wf (st := st) (c := c) (m := m) (s := s) hW
  rw [eW] at hw
  exact hw

theorem placeMessage_wf {st : Side} {c : Nat} {i : Nat} {k : Nat} {m : OutMsg} {s : State} (hW : s.Wf) : (placeMessage st c i k m s).Wf := by
  unfold placeMessage
  repeat' first
    | with_reducible assumption
    | with_reducible apply syncCab_wf
    | with_reducible apply removeOut_wf
    | with_reducible refine whenS_wf (fun u hu => ?_) ?_
    | split
    | dsimp only
    | (simp only [wf_mk]; with_reducible apply wf_parts)

theorem lateTag_wf {k : Nat} {m : OutMsg} {s : State} (hW : s.Wf) : (lateTag k m s).2.Wf := by
  unfold lateTag
  repeat' first
    | with_reducible assumption
    | with_reducible apply syncTags_wf
    | with_reducible apply freeTag_wf
    | with_reducible refine freeTag_wfE ?_ (by with_reducible assumption)
    | split
    | dsimp only
    | (simp only [wf_mk]; with_reducible apply wf_parts)

theorem lateTag_wfE {k : Nat} {m : OutMsg} {s : State} {x0} {tW : State} (hW : s.Wf) (eW : lateTag k m s = (x0, tW)) : tW.Wf := by
  have hw := lateTag_wf (k := k) (m := m) (s := s) hW
  rw [eW] at hw
  exact hw

theorem tryMessage_wf {st : Side} {c : Nat} {i : Nat} {room : Nat} {k : Nat} {s : State} (hW : s.Wf) : (tryMessage st c i room k s).2.Wf := by
  unfold tryMessage
  repeat' first
    | with_reducible assumption
    | with_reducible apply steer_wf
    | with_reducible apply placeMessage_wf
    | with_reducible apply lateTag_wf
    | with_reducible refine steer_wfE ?_ (by with_reducible assumption)
    | with_reducible refine lateTag_wfE ?_ (by with_reducible assumption)
    | split
    | dsimp only
    | (simp only [wf_mk]; with_reducible apply wf_parts)

theorem tryMessage_wfE {st : Side} {c : Nat} {i : Nat} {room : Nat} {k : Nat} {s : State} {x0} {tW : State} (hW : s.Wf) (eW : tryMessage st c i room k s = (x0, tW)) : tW.Wf := by
  have hw := tryMessage_wf (st := st) (c := c) (i := i) (room := room) (k := k) (s := s) hW
  rw [eW] at hw
  exact hw

theorem dropStaleBroadcasts_wf {c : Nat} {s : State} (hW : s.Wf) : (dropStaleBroadcasts c s).Wf := by
  unfold dropStaleBroadcasts
  repeat' first
    | with_reducible assumption
    | with_reducible apply removeOut_wf
    | split
    | dsimp only
    | (simp only [wf_mk]; with_reducible apply wf_parts)

theorem shareSend_wf {st : Side} {i : Nat} {s : State} (hW : s.Wf) : (shareSend st i s).Wf := by
  unfold shareSend
  repeat' first
    | with_reducible assumption
    | with_reducible apply retryOut_wf
    | with_reducible apply tryMessage_wf
    | with_reducible apply dropStaleBroadcasts_wf
    | with_reducible refine foldl_wf (fun u x hu => ?_) _ _ ?_
    | with_reducible refine foldl_snd_wf (fun p x hp => ?_) _ _ ?_
    | with_reducible refine foldl_snd_wfE (fun p x hp => ?_) ?_ (by with_reducible assumption)
    | with_reducible refine tryMessage_wfE ?_ (by with_reducible assumption)
    | split
    | dsimp only
    | (simp only [wf_mk]; with_reducible apply wf_parts)

theorem resetPeer_wf {n : Nat} {s : State} (hW : s.Wf) : (resetPeer n s).Wf := by
  unfold resetPeer
  repeat' first
    | with_reducible assumption
    | split
    | dsimp only
    | (simp only [wf_mk]; with_reducible apply wf_parts)

theorem creditEpoch_wf {c : Nat} {s : State} (hW : s.Wf) : (creditEpoch c s).Wf := by
  unfold creditEpoch
  repeat' first
    | with_reducible assumption
    | with_reducible apply setR_wf
    | with_reducible apply raiseEv_wf
    | split
    | dsimp only
    | (simp only [wf_mk]; with_reducible apply wf_parts)

theorem takeCredit_wf {from_ : Nat} {e : Nat} {s : State} (hW : s.Wf) : (takeCredit from_ e s).Wf := by
  unfold takeCredit
  repeat' first
    | with_reducible assumption
    | with_reducible apply raiseIf_wf
    | with_reducible apply resetPeer_wf
    | with_reducible refine whenS_wf (fun u hu => ?_) ?_
    | split
    | dsimp only
    | (simp only [wf_mk]; with_reducible apply wf_parts)

theorem takeCredits_wf {from_ : Nat} {bs : List Byte} {s : State} (hW : s.Wf) : (takeCredits from_ bs s).Wf := by
  unfold takeCredits
  repeat' first
    | with_reducible assumption
    | with_reducible apply takeCredit_wf
    | with_reducible refine forEach_wf (fun x u hu => ?_) ?_
    | split
    | dsimp only
    | (simp only [wf_mk]; with_reducible apply wf_parts)

theorem markAdvertised_wf {src : Nat} {s : State} (hW : s.Wf) : (markAdvertised src s).Wf := by
  unfold markAdvertised
  repeat' first
    | with_reducible assumption
    | split
    | dsimp only
    | (simp only [wf_mk]; with_reducible apply wf_parts)

theorem advertise_wf {n : Nat} {s : State} (hW : s.Wf) : (advertise n s).2.Wf := by
  unfold advertise
  repeat' first
    | with_reducible assumption
    | with_reducible apply markAdvertised_wf
    | with_reducible refine forEach_wf (fun x u hu => ?_) ?_
    | split
    | dsimp only
    | (simp only [wf_mk]; with_reducible apply wf_parts)

theorem advertise_wfE {n : Nat} {s : State} {x0} {tW : State} (hW : s.Wf) (eW : advertise n s = (x0, tW)) : tW.Wf := by
  have hw := advertise_wf (n := n) (s := s) hW
  rw [eW] at hw
  exact hw

theorem creditMessages_wf {c : Nat} {s : State} (hW : s.Wf) : (creditMessages c s).Wf := by
  unfold creditMessages
  repeat' first
    | with_reducible assumption
    | with_reducible apply queueOut_wf
    | with_reducible apply markAdvertised_wf
    | with_reducible refine forEach_wf (fun x u hu => ?_) ?_
    | split
    | dsimp only
    | (simp only [wf_mk]; with_reducible apply wf_parts)

theorem requestTimeout_wf {tag : Nat} {s : State} (hW : s.Wf) : (requestTimeout tag s).Wf := by
  unfold requestTimeout
  repeat' first
    | with_reducible assumption
    | with_reducible apply incCnt_wf
    | with_reducible apply raiseEv_wf
    | with_reducible apply removeOut_wf
    | with_reducible apply endRemote_wf
    | split
    | dsimp only
    | (simp only [wf_mk]; with_reducible apply wf_parts)

theorem unreachable_wf {s : State} (hW : s.Wf) : (unreachable s).Wf := by
  unfold unreachable
  repeat' first
    | with_reducible assumption
    | with_reducible apply raiseEv_wf
    | with_reducible apply removeOut_wf
    | with_reducible apply logPwe_wf
    | with_reducible apply endRemote_wf
    | with_reducible refine whenS_wf (fun u hu => ?_) ?_
    | split
    | dsimp only
    | (simp only [wf_mk]; with_reducible apply wf_parts)

theorem bridgeCntClear_wf {s : State} (hW : s.Wf) : (bridgeCntClear s).Wf := by
  unfold bridgeCntClear
  repeat' first
    | with_reducible assumption
    | with_reducible apply clearAll_wf
    | split
    | dsimp only
    | (simp only [wf_mk]; with_reducible apply wf_parts)

theorem execLandingShareSend_wf {st : Side} {share : BitVec 16} {s : State} (hW : s.Wf) {tW : State} (eW : execLandingShareSend st share s = .next tW) : tW.Wf := by
  revert eW
  unfold execLandingShareSend
  repeat' first
    | with_reducible assumption
    | with_reducible apply shareSend_wf
    | (intro (eQ : _ = _); with_reducible refine alive_wf hW ?_ eQ)
    | (intro (eQ : _ = _); with_reducible refine answer_wf ?_ eQ)
    | split
    | dsimp only
    | (simp only [wf_mk]; with_reducible apply wf_parts)
    | (intro (eQ : _ = _); cases eQ)

theorem execUnreachable_wf {s : State} (hW : s.Wf) {tW : State} (eW : execUnreachable s = .next tW) : tW.Wf := by
  revert eW
  unfold execUnreachable
  repeat' first
    | with_reducible assumption
    | with_reducible apply unreachable_wf
    | (intro (eQ : _ = _); with_reducible refine alive_wf hW ?_ eQ)
    | (intro (eQ : _ = _); with_reducible refine answer_wf ?_ eQ)
    | split
    | dsimp only
    | (simp only [wf_mk]; with_reducible apply wf_parts)
    | (intro (eQ : _ = _); cases eQ)

theorem execRemoteTimeout_wf {tag : Nat} {s : State} (hW : s.Wf) {tW : State} (eW : execRemoteTimeout tag s = .next tW) : tW.Wf := by
  revert eW
  unfold execRemoteTimeout
  repeat' first
    | with_reducible assumption
    | with_reducible apply requestTimeout_wf
    | (intro (eQ : _ = _); with_reducible refine alive_wf hW ?_ eQ)
    | (intro (eQ : _ = _); with_reducible refine answer_wf ?_ eQ)
    | split
    | dsimp only
    | (simp only [wf_mk]; with_reducible apply wf_parts)
    | (intro (eQ : _ = _); cases eQ)

end Sys2Proof.Machine
end

