-- ==== Sys2Proof/Laws/Wf/TimeBase.lean ====
section
/-!
SUPPORT. The operations of Machine/TimeBase.lean keep the invariant State.Wf.
-/

namespace Sys2Proof.Machine

set_option linter.all false

theorem setRate_wf {f : Fld} {v : Int} {s : State} (hW : s.Wf) : (setRate f v s).Wf := by
  unfold setRate
  repeat' first
    | with_reducible assumption
    | with_reducible apply setR_wf
    | split
    | dsimp only
    | (simp only [wf_mk]; with_reducible apply wf_parts)

theorem countTicks_wf {n : Nat} {s : State} (hW : s.Wf) : (countTicks n s).Wf := by
  unfold countTicks
  repeat' first
    | with_reducible assumption
    | split
    | dsimp only
    | (simp only [wf_mk]; with_reducible apply wf_parts)

theorem timeRead_wf {off : Nat} {live : Nat} {s : State} (hW : s.Wf) : (timeRead off live s).2.Wf := by
  unfold timeRead
  repeat' first
    | with_reducible assumption
    | with_reducible refine foldl_wf (fun u x hu => ?_) _ _ ?_
    | with_reducible refine foldl_snd_wf (fun p x hp => ?_) _ _ ?_
    | with_reducible refine foldl_snd_wfE (fun p x hp => ?_) ?_ (by with_reducible assumption)
    | split
    | dsimp only
    | (simp only [wf_mk]; with_reducible apply wf_parts)

theorem timeRead_wfE {off : Nat} {live : Nat} {s : State} {x0} {tW : State} (hW : s.Wf) (eW : timeRead off live s = (x0, tW)) : tW.Wf := by
  have hw := timeRead_wf (off := off) (live := live) (s := s) hW
  rw [eW] at hw
  exact hw

theorem captureUnit_wf {n : Nat} {s : State} (hW : s.Wf) : (captureUnit n s).Wf := by
  unfold captureUnit
  repeat' first
    | with_reducible assumption
    | with_reducible apply setR_wf
    | with_reducible apply setFlag_wf
    | with_reducible apply incWrap_wf
    | with_reducible apply raiseEv_wf
    | with_reducible apply raiseIf_wf
    | with_reducible refine whenS_wf (fun u hu => ?_) ?_
    | split
    | dsimp only
    | (simp only [wf_mk]; with_reducible apply wf_parts)

theorem captureSource_wf {src : CaptureSource} {s : State} (hW : s.Wf) : (captureSource src s).Wf := by
  unfold captureSource
  repeat' first
    | with_reducible assumption
    | with_reducible apply captureUnit_wf
    | with_reducible refine forEach_wf (fun x u hu => ?_) ?_
    | split
    | dsimp only
    | (simp only [wf_mk]; with_reducible apply wf_parts)

theorem captureRead_wf {n : Nat} {s : State} (hW : s.Wf) : (captureRead n s).2.Wf := by
  unfold captureRead
  repeat' first
    | with_reducible assumption
    | with_reducible apply setFlag_wf
    | split
    | dsimp only
    | (simp only [wf_mk]; with_reducible apply wf_parts)

theorem captureRead_wfE {n : Nat} {s : State} {x0} {tW : State} (hW : s.Wf) (eW : captureRead n s = (x0, tW)) : tW.Wf := by
  have hw := captureRead_wf (n := n) (s := s) hW
  rw [eW] at hw
  exact hw

theorem execCapture_wf {src : CaptureSource} {s : State} (hW : s.Wf) {tW : State} (eW : execCapture src s = .next tW) : tW.Wf := by
  revert eW
  unfold execCapture
  repeat' first
    | with_reducible assumption
    | with_reducible apply captureSource_wf
    | (intro (eQ : _ = _); with_reducible refine alive_wf hW ?_ eQ)
    | (intro (eQ : _ = _); with_reducible refine answer_wf ?_ eQ)
    | split
    | dsimp only
    | (simp only [wf_mk]; with_reducible apply wf_parts)
    | (intro (eQ : _ = _); cases eQ)

end Sys2Proof.Machine
end

