-- ==== Sys2Proof/Laws/Wf/Time.lean ====
section
/-!
SUPPORT. The operations of Machine/Time.lean keep the invariant State.Wf.
-/

namespace Sys2Proof.Machine

set_option linter.all false

theorem startPulse_wf {s : State} (hW : s.Wf) : (startPulse s).Wf := by
  unfold startPulse
  repeat' first
    | with_reducible assumption
    | split
    | dsimp only
    | (simp only [wf_mk]; with_reducible apply wf_parts)

theorem endPulse_wf {s : State} (hW : s.Wf) : (endPulse s).Wf := by
  unfold endPulse
  repeat' first
    | with_reducible assumption
    | split
    | dsimp only
    | (simp only [wf_mk]; with_reducible apply wf_parts)

theorem fireEffects_wf {n : Nat} {late : Bool} {s : State} (hW : s.Wf) : (fireEffects n late s).Wf := by
  unfold fireEffects
  repeat' first
    | with_reducible assumption
    | with_reducible apply setR_wf
    | with_reducible apply setFlag_wf
    | with_reducible apply incWrap_wf
    | with_reducible apply raiseIf_wf
    | with_reducible apply requestTimed_wf
    | with_reducible apply setTrigLatch_wf
    | with_reducible apply captureSource_wf
    | with_reducible apply startPulse_wf
    | with_reducible refine whenS_wf (fun u hu => ?_) ?_
    | with_reducible refine forEach_wf (fun x u hu => ?_) ?_
    | split
    | dsimp only
    | (simp only [wf_mk]; with_reducible apply wf_parts)

theorem disarmCmp_wf {n : Nat} {s : State} (hW : s.Wf) : (disarmCmp n s).Wf := by
  unfold disarmCmp
  repeat' first
    | with_reducible assumption
    | with_reducible apply setFlag_wf
    | split
    | dsimp only
    | (simp only [wf_mk]; with_reducible apply wf_parts)

theorem fireUnit_wf {n : Nat} {late : Bool} {next : Nat} {s : State} (hW : s.Wf) : (fireUnit n late next s).Wf := by
  unfold fireUnit
  repeat' first
    | with_reducible assumption
    | with_reducible apply setR_wf
    | with_reducible apply fireEffects_wf
    | with_reducible apply disarmCmp_wf
    | split
    | dsimp only
    | (simp only [wf_mk]; with_reducible apply wf_parts)

theorem fireDue_wf {n : Nat} {s : State} (hW : s.Wf) : (fireDue n s).Wf := by
  unfold fireDue
  repeat' first
    | with_reducible assumption
    | with_reducible apply fireUnit_wf
    | split
    | dsimp only
    | (simp only [wf_mk]; with_reducible apply wf_parts)

theorem armCmp_wf {n : Nat} {s : State} (hW : s.Wf) : (armCmp n s).Wf := by
  unfold armCmp
  repeat' first
    | with_reducible assumption
    | with_reducible apply setFlag_wf
    | with_reducible apply disarmCmp_wf
    | split
    | dsimp only
    | (simp only [wf_mk]; with_reducible apply wf_parts)

theorem cmpCfgWrite_wf {n : Nat} {base : Nat} {mode : Nat} {evt : Nat} {arm : Bool} {s : State} (hW : s.Wf) : (cmpCfgWrite n base mode evt arm s).Wf := by
  unfold cmpCfgWrite
  repeat' first
    | with_reducible assumption
    | with_reducible apply setR_wf
    | with_reducible apply disarmCmp_wf
    | with_reducible apply armCmp_wf
    | with_reducible refine whenS_wf (fun u hu => ?_) ?_
    | split
    | dsimp only
    | (simp only [wf_mk]; with_reducible apply wf_parts)

theorem execCompareFire_wf {n : Fin 32} {s : State} (hW : s.Wf) {tW : State} (eW : execCompareFire n s = .next tW) : tW.Wf := by
  revert eW
  unfold execCompareFire
  repeat' first
    | with_reducible assumption
    | with_reducible apply fireDue_wf
    | (intro (eQ : _ = _); with_reducible refine alive_wf hW ?_ eQ)
    | (intro (eQ : _ = _); with_reducible refine answer_wf ?_ eQ)
    | split
    | dsimp only
    | (simp only [wf_mk]; with_reducible apply wf_parts)
    | (intro (eQ : _ = _); cases eQ)

theorem execPpsOutEnd_wf {s : State} (hW : s.Wf) {tW : State} (eW : execPpsOutEnd s = .next tW) : tW.Wf := by
  revert eW
  unfold execPpsOutEnd
  repeat' first
    | with_reducible assumption
    | with_reducible apply endPulse_wf
    | (intro (eQ : _ = _); with_reducible refine alive_wf hW ?_ eQ)
    | (intro (eQ : _ = _); with_reducible refine answer_wf ?_ eQ)
    | split
    | dsimp only
    | (simp only [wf_mk]; with_reducible apply wf_parts)
    | (intro (eQ : _ = _); cases eQ)

theorem stepUnit_wf {base : Nat} {d : Int} {old : Nat} {n : Nat} {s : State} (hW : s.Wf) : (stepUnit base d old n s).Wf := by
  unfold stepUnit
  repeat' first
    | with_reducible assumption
    | with_reducible apply fireUnit_wf
    | split
    | dsimp only
    | (simp only [wf_mk]; with_reducible apply wf_parts)

theorem stepCycleUnit_wf {n : Nat} {s : State} (hW : s.Wf) : (stepCycleUnit n s).Wf := by
  unfold stepCycleUnit
  repeat' first
    | with_reducible assumption
    | with_reducible apply fireUnit_wf
    | split
    | dsimp only
    | (simp only [wf_mk]; with_reducible apply wf_parts)

theorem stepUnits_wf {base : Nat} {d : Int} {old : Nat} {s : State} (hW : s.Wf) : (stepUnits base d old s).Wf := by
  unfold stepUnits
  repeat' first
    | with_reducible assumption
    | with_reducible apply stepUnit_wf
    | with_reducible apply stepCycleUnit_wf
    | with_reducible refine whenS_wf (fun u hu => ?_) ?_
    | with_reducible refine forEach_wf (fun x u hu => ?_) ?_
    | split
    | dsimp only
    | (simp only [wf_mk]; with_reducible apply wf_parts)

theorem stepTb0_wf {who : Option Master} {d16 : Int} {s : State} (hW : s.Wf) : (stepTb0 who d16 s).Wf := by
  unfold stepTb0
  repeat' first
    | with_reducible assumption
    | with_reducible apply raiseEv_wf
    | with_reducible apply journal_wf
    | with_reducible apply stepUnits_wf
    | split
    | dsimp only
    | (simp only [wf_mk]; with_reducible apply wf_parts)

theorem stepTb3_wf {who : Option Master} {s : State} (hW : s.Wf) : (stepTb3 who s).Wf := by
  unfold stepTb3
  repeat' first
    | with_reducible assumption
    | with_reducible apply raiseEv_wf
    | with_reducible apply journal_wf
    | with_reducible apply stepUnits_wf
    | split
    | dsimp only
    | (simp only [wf_mk]; with_reducible apply wf_parts)

theorem setTod_wf {sec : Nat} {ns : Nat} {s : State} (hW : s.Wf) : (setTod sec ns s).Wf := by
  unfold setTod
  repeat' first
    | with_reducible assumption
    | with_reducible apply raiseEv_wf
    | with_reducible apply stepUnits_wf
    | split
    | dsimp only
    | (simp only [wf_mk]; with_reducible apply wf_parts)

theorem tb1Set_wf {s : State} (hW : s.Wf) : (tb1Set s).Wf := by
  unfold tb1Set
  repeat' first
    | with_reducible assumption
    | with_reducible apply setTod_wf
    | split
    | dsimp only
    | (simp only [wf_mk]; with_reducible apply wf_parts)

theorem setTb0State_wf {st : Nat} {s : State} (hW : s.Wf) : (setTb0State st s).Wf := by
  unfold setTb0State
  repeat' first
    | with_reducible assumption
    | with_reducible apply setR_wf
    | with_reducible apply setFlag_wf
    | with_reducible apply setLevel_wf
    | with_reducible refine whenS_wf (fun u hu => ?_) ?_
    | split
    | dsimp only
    | (simp only [wf_mk]; with_reducible apply wf_parts)

theorem setPath_wf {valid : Bool} {port : Nat} {hops : Nat} {s : State} (hW : s.Wf) : (setPath valid port hops s).Wf := by
  unfold setPath
  repeat' first
    | with_reducible assumption
    | with_reducible apply setR_wf
    | with_reducible apply setFlag_wf
    | split
    | dsimp only
    | (simp only [wf_mk]; with_reducible apply wf_parts)

theorem becomeTimeMaster_wf {s : State} (hW : s.Wf) : (becomeTimeMaster s).Wf := by
  unfold becomeTimeMaster
  repeat' first
    | with_reducible assumption
    | with_reducible apply setRate_wf
    | with_reducible apply setTb0State_wf
    | with_reducible apply setPath_wf
    | split
    | dsimp only
    | (simp only [wf_mk]; with_reducible apply wf_parts)

theorem leaveTimeMaster_wf {c : Nat} {s : State} (hW : s.Wf) : (leaveTimeMaster c s).Wf := by
  unfold leaveTimeMaster
  repeat' first
    | with_reducible assumption
    | with_reducible apply setRate_wf
    | with_reducible apply setTb0State_wf
    | with_reducible apply setPath_wf
    | split
    | dsimp only
    | (simp only [wf_mk]; with_reducible apply wf_parts)

theorem setExchange_wf {p : Nat} {x : Exchange} {s : State} (hW : s.Wf) : (setExchange p x s).Wf := by
  unfold setExchange
  repeat' first
    | with_reducible assumption
    | split
    | dsimp only
    | (simp only [wf_mk]; with_reducible apply wf_parts)

theorem beginExchange_wf {c : Nat} {p : Nat} {s : State} (hW : s.Wf) : (beginExchange c p s).Wf := by
  unfold beginExchange
  repeat' first
    | with_reducible assumption
    | with_reducible apply setExchange_wf
    | split
    | dsimp only
    | (simp only [wf_mk]; with_reducible apply wf_parts)

theorem exchangeNow_wf {s : State} (hW : s.Wf) : (exchangeNow s).Wf := by
  unfold exchangeNow
  repeat' first
    | with_reducible assumption
    | with_reducible apply beginExchange_wf
    | split
    | dsimp only
    | (simp only [wf_mk]; with_reducible apply wf_parts)

theorem endExchange_wf {c : Nat} {p : Nat} {d : Int} {s : State} (hW : s.Wf) : (endExchange c p d s).Wf := by
  unfold endExchange
  repeat' first
    | with_reducible assumption
    | with_reducible apply incCnt_wf
    | with_reducible apply raiseEv_wf
    | with_reducible apply raiseIf_wf
    | with_reducible apply setRate_wf
    | with_reducible apply setTb0State_wf
    | with_reducible apply setExchange_wf
    | with_reducible refine whenS_wf (fun u hu => ?_) ?_
    | split
    | dsimp only
    | (simp only [wf_mk]; with_reducible apply wf_parts)

theorem countExchange_wf {c : Nat} {p : Nat} {r : TimeReport} {s : State} (hW : s.Wf) : (countExchange c p r s).Wf := by
  unfold countExchange
  repeat' first
    | with_reducible assumption
    | with_reducible apply setExchange_wf
    | with_reducible apply endExchange_wf
    | split
    | dsimp only
    | (simp only [wf_mk]; with_reducible apply wf_parts)

theorem servoStep_wf {c : Nat} {theta : Int} {s : State} (hW : s.Wf) : (servoStep c theta s).Wf := by
  unfold servoStep
  repeat' first
    | with_reducible assumption
    | with_reducible apply setLevel_wf
    | with_reducible apply setRate_wf
    | with_reducible apply setTb0State_wf
    | with_reducible refine whenS_wf (fun u hu => ?_) ?_
    | split
    | dsimp only
    | (simp only [wf_mk]; with_reducible apply wf_parts)

theorem acquireStep_wf {c : Nat} {p : Nat} {r : TimeReport} {s : State} (hW : s.Wf) : (acquireStep c p r s).Wf := by
  unfold acquireStep
  repeat' first
    | with_reducible assumption
    | with_reducible apply stepTb0_wf
    | with_reducible apply setExchange_wf
    | split
    | dsimp only
    | (simp only [wf_mk]; with_reducible apply wf_parts)

theorem reportCommitted_wf {c : Nat} {p : Nat} {r : TimeReport} {presence : Bool} {s : State} (hW : s.Wf) : (reportCommitted c p r presence s).Wf := by
  unfold reportCommitted
  repeat' first
    | with_reducible assumption
    | with_reducible apply setRate_wf
    | with_reducible apply setTb0State_wf
    | with_reducible apply countExchange_wf
    | with_reducible apply servoStep_wf
    | with_reducible apply acquireStep_wf
    | split
    | dsimp only
    | (simp only [wf_mk]; with_reducible apply wf_parts)

theorem reportHalf_wf {c : Nat} {p : Nat} {second : Bool} {bs : List Byte} {presence : Bool} {s : State} (hW : s.Wf) : (reportHalf c p second bs presence s).Wf := by
  unfold reportHalf
  repeat' first
    | with_reducible assumption
    | with_reducible apply reportCommitted_wf
    | split
    | dsimp only
    | (simp only [wf_mk]; with_reducible apply wf_parts)

theorem resync_wf {who : Option Master} {s : State} (hW : s.Wf) {tW : State} (eW : resync who s = some tW) : tW.Wf := by
  revert eW
  unfold resync
  repeat' first
    | with_reducible assumption
    | with_reducible apply stepTb0_wf
    | split
    | dsimp only
    | (simp only [wf_mk]; with_reducible apply wf_parts)
    | (intro (eQ : _ = _); cases eQ)

theorem takeSource_wf {c : Nat} {s : State} (hW : s.Wf) : (takeSource c s).Wf := by
  unfold takeSource
  repeat' first
    | with_reducible assumption
    | with_reducible apply raiseIf_wf
    | with_reducible apply setPath_wf
    | with_reducible refine whenS_wf (fun u hu => ?_) ?_
    | split
    | dsimp only
    | (simp only [wf_mk]; with_reducible apply wf_parts)

theorem enterHoldover_wf {s : State} (hW : s.Wf) : (enterHoldover s).Wf := by
  unfold enterHoldover
  repeat' first
    | with_reducible assumption
    | with_reducible apply setFlag_wf
    | with_reducible apply setTb0State_wf
    | with_reducible apply setPath_wf
    | split
    | dsimp only
    | (simp only [wf_mk]; with_reducible apply wf_parts)

theorem exchangeBoundary_wf {c : Nat} {p : Nat} {s : State} (hW : s.Wf) : (exchangeBoundary c p s).Wf := by
  unfold exchangeBoundary
  repeat' first
    | with_reducible assumption
    | with_reducible apply incCnt_wf
    | with_reducible apply raiseEv_wf
    | with_reducible apply setExchange_wf
    | with_reducible apply beginExchange_wf
    | split
    | dsimp only
    | (simp only [wf_mk]; with_reducible apply wf_parts)

theorem timeBoundary_wf {c : Nat} {absent : Nat} {headless : Bool} {s : State} (hW : s.Wf) : (timeBoundary c absent headless s).Wf := by
  unfold timeBoundary
  repeat' first
    | with_reducible assumption
    | with_reducible apply setTb0State_wf
    | with_reducible apply setPath_wf
    | with_reducible apply takeSource_wf
    | with_reducible apply enterHoldover_wf
    | with_reducible apply exchangeBoundary_wf
    | split
    | dsimp only
    | (simp only [wf_mk]; with_reducible apply wf_parts)

theorem setTb1State_wf {st : Nat} {s : State} (hW : s.Wf) : (setTb1State st s).Wf := by
  unfold setTb1State
  repeat' first
    | with_reducible assumption
    | with_reducible apply setR_wf
    | with_reducible apply setLevel_wf
    | split
    | dsimp only
    | (simp only [wf_mk]; with_reducible apply wf_parts)

theorem todArm_wf {s : State} (hW : s.Wf) : (todArm s).Wf := by
  unfold todArm
  repeat' first
    | with_reducible assumption
    | with_reducible apply setTb1State_wf
    | split
    | dsimp only
    | (simp only [wf_mk]; with_reducible apply wf_parts)

theorem acceptEdge_wf {e : Int} {s : State} (hW : s.Wf) : (acceptEdge e s).Wf := by
  unfold acceptEdge
  repeat' first
    | with_reducible assumption
    | with_reducible apply setPair_wf
    | with_reducible apply setLevel_wf
    | with_reducible apply setRate_wf
    | with_reducible apply setTb1State_wf
    | split
    | dsimp only
    | (simp only [wf_mk]; with_reducible apply wf_parts)

theorem rejectEdge_wf {s : State} (hW : s.Wf) : (rejectEdge s).Wf := by
  unfold rejectEdge
  repeat' first
    | with_reducible assumption
    | with_reducible apply raiseEv_wf
    | split
    | dsimp only
    | (simp only [wf_mk]; with_reducible apply wf_parts)

theorem ppsEdge_wf {s : State} (hW : s.Wf) : (ppsEdge s).Wf := by
  unfold ppsEdge
  repeat' first
    | with_reducible assumption
    | with_reducible apply setLevel_wf
    | with_reducible apply setTod_wf
    | with_reducible apply setTb1State_wf
    | with_reducible apply acceptEdge_wf
    | with_reducible apply rejectEdge_wf
    | split
    | dsimp only
    | (simp only [wf_mk]; with_reducible apply wf_parts)

theorem execPpsEdge_wf {rising : Bool} {s : State} (hW : s.Wf) {tW : State} (eW : execPpsEdge rising s = .next tW) : tW.Wf := by
  revert eW
  unfold execPpsEdge
  repeat' first
    | with_reducible assumption
    | with_reducible apply captureSource_wf
    | with_reducible apply ppsEdge_wf
    | with_reducible refine whenS_wf (fun u hu => ?_) ?_
    | (intro (eQ : _ = _); with_reducible refine alive_wf hW ?_ eQ)
    | (intro (eQ : _ = _); with_reducible refine answer_wf ?_ eQ)
    | split
    | dsimp only
    | (simp only [wf_mk]; with_reducible apply wf_parts)
    | (intro (eQ : _ = _); cases eQ)

theorem ppsLost_wf {s : State} (hW : s.Wf) : (ppsLost s).Wf := by
  unfold ppsLost
  repeat' first
    | with_reducible assumption
    | with_reducible apply setLevel_wf
    | with_reducible apply setTb1State_wf
    | split
    | dsimp only
    | (simp only [wf_mk]; with_reducible apply wf_parts)

theorem execPpsLost_wf {s : State} (hW : s.Wf) {tW : State} (eW : execPpsLost s = .next tW) : tW.Wf := by
  revert eW
  unfold execPpsLost
  repeat' first
    | with_reducible assumption
    | with_reducible apply ppsLost_wf
    | (intro (eQ : _ = _); with_reducible refine alive_wf hW ?_ eQ)
    | (intro (eQ : _ = _); with_reducible refine answer_wf ?_ eQ)
    | split
    | dsimp only
    | (simp only [wf_mk]; with_reducible apply wf_parts)
    | (intro (eQ : _ = _); cases eQ)

end Sys2Proof.Machine
end

