-- ==== Sys2Proof/Laws/Wf/Duplex.lean ====
section
/-!
SUPPORT. The operations of Machine/Duplex.lean keep the invariant State.Wf.
-/

namespace Sys2Proof.Machine

set_option linter.all false

theorem syncYield_wf {s : State} (hW : s.Wf) : (syncYield s).Wf := by
  unfold syncYield
  repeat' first
    | with_reducible assumption
    | with_reducible apply setFlag_wf
    | split
    | dsimp only
    | (simp only [wf_mk]; with_reducible apply wf_parts)

theorem storeToken_wf {term : Nat} {holder : Nat} {yield : Bool} {expiry : Nat} {s : State} (hW : s.Wf) : (storeToken term holder yield expiry s).Wf := by
  unfold storeToken
  repeat' first
    | with_reducible assumption
    | with_reducible apply setR_wf
    | with_reducible apply setPair_wf
    | with_reducible apply syncYield_wf
    | split
    | dsimp only
    | (simp only [wf_mk]; with_reducible apply wf_parts)

theorem syncElig_wf {s : State} (hW : s.Wf) : (syncElig s).Wf := by
  unfold syncElig
  repeat' first
    | with_reducible assumption
    | with_reducible apply setR_wf
    | with_reducible apply setFlag_wf
    | with_reducible apply setLevel_wf
    | split
    | dsimp only
    | (simp only [wf_mk]; with_reducible apply wf_parts)

theorem hostKick_wf {s : State} (hW : s.Wf) : (hostKick s).Wf := by
  unfold hostKick
  repeat' first
    | with_reducible assumption
    | with_reducible apply syncElig_wf
    | split
    | dsimp only
    | (simp only [wf_mk]; with_reducible apply wf_parts)

theorem takeView_wf {from_ : Nat} {v : Nat} {s : State} (hW : s.Wf) : (takeView from_ v s).Wf := by
  unfold takeView
  repeat' first
    | with_reducible assumption
    | with_reducible apply setR_wf
    | with_reducible apply incCnt_wf
    | with_reducible apply raiseEv_wf
    | with_reducible apply storeToken_wf
    | with_reducible apply syncElig_wf
    | with_reducible refine whenS_wf (fun u hu => ?_) ?_
    | with_reducible refine forEach_wf (fun x u hu => ?_) ?_
    | split
    | dsimp only
    | (simp only [wf_mk]; with_reducible apply wf_parts)

theorem sendPairFrame_wf {c : Nat} {s : State} (hW : s.Wf) : (sendPairFrame c s).Wf := by
  unfold sendPairFrame
  repeat' first
    | with_reducible assumption
    | with_reducible apply emit_wf
    | split
    | dsimp only
    | (simp only [wf_mk]; with_reducible apply wf_parts)

theorem setPairLink_wf {down : Bool} {s : State} (hW : s.Wf) : (setPairLink down s).Wf := by
  unfold setPairLink
  repeat' first
    | with_reducible assumption
    | with_reducible apply setFlag_wf
    | with_reducible apply setLevel_wf
    | split
    | dsimp only
    | (simp only [wf_mk]; with_reducible apply wf_parts)

theorem pairLinkFrame_wf {bs : List Byte} {s : State} (hW : s.Wf) : (pairLinkFrame bs s).Wf := by
  unfold pairLinkFrame
  repeat' first
    | with_reducible assumption
    | with_reducible apply incCnt_wf
    | with_reducible apply takeView_wf
    | with_reducible apply setPairLink_wf
    | split
    | dsimp only
    | (simp only [wf_mk]; with_reducible apply wf_parts)

theorem pairLinkBoundary_wf {c : Nat} {s : State} (hW : s.Wf) : (pairLinkBoundary c s).Wf := by
  unfold pairLinkBoundary
  repeat' first
    | with_reducible assumption
    | with_reducible apply incCnt_wf
    | with_reducible apply sendPairFrame_wf
    | with_reducible apply setPairLink_wf
    | with_reducible refine whenS_wf (fun u hu => ?_) ?_
    | split
    | dsimp only
    | (simp only [wf_mk]; with_reducible apply wf_parts)

theorem syncGates_wf {s : State} (hW : s.Wf) : (syncGates s).Wf := by
  unfold syncGates
  repeat' first
    | with_reducible assumption
    | with_reducible apply setFlag_wf
    | with_reducible apply setCanGate_wf
    | with_reducible apply syncTile_wf
    | with_reducible refine forEach_wf (fun x u hu => ?_) ?_
    | split
    | dsimp only
    | (simp only [wf_mk]; with_reducible apply wf_parts)

theorem giveWay_wf {c : Nat} {s : State} (hW : s.Wf) : (giveWay c s).Wf := by
  unfold giveWay
  repeat' first
    | with_reducible assumption
    | with_reducible apply setCan_wf
    | with_reducible refine forEach_wf (fun x u hu => ?_) ?_
    | split
    | dsimp only
    | (simp only [wf_mk]; with_reducible apply wf_parts)

theorem setJoin_wf {node : Nat} {step : Nat} {s : State} (hW : s.Wf) : (setJoin node step s).Wf := by
  unfold setJoin
  repeat' first
    | with_reducible assumption
    | with_reducible apply setR_wf
    | split
    | dsimp only
    | (simp only [wf_mk]; with_reducible apply wf_parts)

theorem journalLease_wf {holder : Nat} {gained : Bool} {s : State} (hW : s.Wf) : (journalLease holder gained s).Wf := by
  unfold journalLease
  repeat' first
    | with_reducible assumption
    | with_reducible apply journal_wf
    | split
    | dsimp only
    | (simp only [wf_mk]; with_reducible apply wf_parts)

theorem setPairRole_wf {r : Nat} {s : State} (hW : s.Wf) : (setPairRole r s).Wf := by
  unfold setPairRole
  repeat' first
    | with_reducible assumption
    | with_reducible apply setR_wf
    | with_reducible apply syncYield_wf
    | split
    | dsimp only
    | (simp only [wf_mk]; with_reducible apply wf_parts)

theorem setRoles_wf {r : Nat} {s : State} (hW : s.Wf) : (setRoles r s).Wf := by
  unfold setRoles
  repeat' first
    | with_reducible assumption
    | with_reducible apply setRole_wf
    | split
    | dsimp only
    | (simp only [wf_mk]; with_reducible apply wf_parts)

theorem claimLease_wf {c : Nat} {s : State} (hW : s.Wf) : (claimLease c s).Wf := by
  unfold claimLease
  repeat' first
    | with_reducible assumption
    | with_reducible apply setR_wf
    | with_reducible apply setFlag_wf
    | with_reducible apply incCnt_wf
    | with_reducible apply raiseEv_wf
    | with_reducible apply becomeTimeMaster_wf
    | with_reducible apply storeToken_wf
    | with_reducible apply syncGates_wf
    | with_reducible apply giveWay_wf
    | with_reducible apply journalLease_wf
    | with_reducible apply setPairRole_wf
    | with_reducible apply setRoles_wf
    | split
    | dsimp only
    | (simp only [wf_mk]; with_reducible apply wf_parts)

theorem stopHolding_wf {c : Nat} {s : State} (hW : s.Wf) : (stopHolding c s).Wf := by
  unfold stopHolding
  repeat' first
    | with_reducible assumption
    | with_reducible apply incCnt_wf
    | with_reducible apply raiseEv_wf
    | with_reducible apply leaveTimeMaster_wf
    | with_reducible apply syncGates_wf
    | with_reducible apply setJoin_wf
    | with_reducible apply journalLease_wf
    | with_reducible apply setPairRole_wf
    | with_reducible apply setRoles_wf
    | split
    | dsimp only
    | (simp only [wf_mk]; with_reducible apply wf_parts)

theorem holderForwarder_wf {s : State} (hW : s.Wf) : (holderForwarder s).Wf := by
  unfold holderForwarder
  repeat' first
    | with_reducible assumption
    | with_reducible apply incCnt_wf
    | with_reducible apply raiseEv_wf
    | with_reducible apply leaveTimeMaster_wf
    | with_reducible apply storeToken_wf
    | with_reducible apply syncGates_wf
    | with_reducible apply setJoin_wf
    | with_reducible apply journalLease_wf
    | with_reducible apply setPairRole_wf
    | split
    | dsimp only
    | (simp only [wf_mk]; with_reducible apply wf_parts)

theorem renewLease_wf {c : Nat} {s : State} (hW : s.Wf) : (renewLease c s).Wf := by
  unfold renewLease
  repeat' first
    | with_reducible assumption
    | with_reducible apply storeToken_wf
    | split
    | dsimp only
    | (simp only [wf_mk]; with_reducible apply wf_parts)

theorem yieldFail_wf {s : State} (hW : s.Wf) : (yieldFail s).Wf := by
  unfold yieldFail
  repeat' first
    | with_reducible assumption
    | with_reducible apply raiseEv_wf
    | split
    | dsimp only
    | (simp only [wf_mk]; with_reducible apply wf_parts)

theorem beginYield_wf {c : Nat} {s : State} (hW : s.Wf) : (beginYield c s).Wf := by
  unfold beginYield
  repeat' first
    | with_reducible assumption
    | with_reducible apply storeToken_wf
    | split
    | dsimp only
    | (simp only [wf_mk]; with_reducible apply wf_parts)

theorem holderBoundary_wf {c : Nat} {s : State} (hW : s.Wf) : (holderBoundary c s).Wf := by
  unfold holderBoundary
  repeat' first
    | with_reducible assumption
    | with_reducible apply reclaim_wf
    | with_reducible apply stopHolding_wf
    | with_reducible apply renewLease_wf
    | with_reducible apply yieldFail_wf
    | with_reducible apply beginYield_wf
    | split
    | dsimp only
    | (simp only [wf_mk]; with_reducible apply wf_parts)

theorem yieldCommand_wf {s : State} (hW : s.Wf) : (yieldCommand s).1.Wf := by
  unfold yieldCommand
  repeat' first
    | with_reducible assumption
    | with_reducible apply yieldFail_wf
    | split
    | dsimp only
    | (simp only [wf_mk]; with_reducible apply wf_parts)

theorem yieldCommand_wfE {s : State} {x0} {tW : State} (hW : s.Wf) (eW : yieldCommand s = (tW, x0)) : tW.Wf := by
  have hw := yieldCommand_wf (s := s) hW
  rw [eW] at hw
  exact hw

theorem reclaimBoundary_wf {c : Nat} {s : State} (hW : s.Wf) : (reclaimBoundary c s).Wf := by
  unfold reclaimBoundary
  repeat' first
    | with_reducible assumption
    | with_reducible apply setR_wf
    | with_reducible apply setFlag_wf
    | split
    | dsimp only
    | (simp only [wf_mk]; with_reducible apply wf_parts)

theorem acknowledge_wf {s : State} (hW : s.Wf) : (acknowledge s).Wf := by
  unfold acknowledge
  repeat' first
    | with_reducible assumption
    | split
    | dsimp only
    | (simp only [wf_mk]; with_reducible apply wf_parts)

theorem standbyBoundary_wf {c : Nat} {s : State} (hW : s.Wf) : (standbyBoundary c s).Wf := by
  unfold standbyBoundary
  repeat' first
    | with_reducible assumption
    | with_reducible apply claimLease_wf
    | with_reducible apply reclaimBoundary_wf
    | with_reducible apply acknowledge_wf
    | split
    | dsimp only
    | (simp only [wf_mk]; with_reducible apply wf_parts)

theorem leaseBoundary_wf {c : Nat} {s : State} (hW : s.Wf) : (leaseBoundary c s).Wf := by
  unfold leaseBoundary
  repeat' first
    | with_reducible assumption
    | with_reducible apply syncElig_wf
    | with_reducible apply holderBoundary_wf
    | with_reducible apply reclaimBoundary_wf
    | with_reducible apply standbyBoundary_wf
    | split
    | dsimp only
    | (simp only [wf_mk]; with_reducible apply wf_parts)

theorem duplexActivate_wf {c : Nat} {alone : Bool} {s : State} (hW : s.Wf) : (duplexActivate c alone s).Wf := by
  unfold duplexActivate
  repeat' first
    | with_reducible assumption
    | with_reducible apply setR_wf
    | with_reducible apply becomeTimeMaster_wf
    | with_reducible apply leaveTimeMaster_wf
    | with_reducible apply storeToken_wf
    | with_reducible apply syncElig_wf
    | with_reducible apply syncGates_wf
    | with_reducible apply setPairRole_wf
    | with_reducible apply setRoles_wf
    | with_reducible apply claimLease_wf
    | with_reducible refine whenS_wf (fun u hu => ?_) ?_
    | split
    | dsimp only
    | (simp only [wf_mk]; with_reducible apply wf_parts)

theorem duplexDeactivate_wf {s : State} (hW : s.Wf) : (duplexDeactivate s).Wf := by
  unfold duplexDeactivate
  repeat' first
    | with_reducible assumption
    | with_reducible apply leaveTimeMaster_wf
    | with_reducible apply syncElig_wf
    | with_reducible apply syncGates_wf
    | with_reducible apply setJoin_wf
    | with_reducible apply setPairRole_wf
    | with_reducible apply holderForwarder_wf
    | split
    | dsimp only
    | (simp only [wf_mk]; with_reducible apply wf_parts)

theorem ceaseMaster_wf {s : State} (hW : s.Wf) : (ceaseMaster s).Wf := by
  unfold ceaseMaster
  repeat' first
    | with_reducible assumption
    | with_reducible apply setR_wf
    | with_reducible apply storeToken_wf
    | with_reducible apply syncElig_wf
    | with_reducible apply syncGates_wf
    | with_reducible apply setPairRole_wf
    | split
    | dsimp only
    | (simp only [wf_mk]; with_reducible apply wf_parts)

theorem renumber_wf {old : Nat} {new : Nat} {s : State} (hW : s.Wf) : (renumber old new s).Wf := by
  unfold renumber
  repeat' first
    | with_reducible assumption
    | split
    | dsimp only
    | (simp only [wf_mk]; with_reducible apply wf_parts)

theorem notePresence_wf {c : Nat} {node : Nat} {holder : Nat} {s : State} (hW : s.Wf) : (notePresence c node holder s).Wf := by
  unfold notePresence
  repeat' first
    | with_reducible assumption
    | with_reducible apply setR_wf
    | with_reducible apply setFlag_wf
    | with_reducible apply raiseIf_wf
    | with_reducible apply setLevel_wf
    | with_reducible refine whenS_wf (fun u hu => ?_) ?_
    | split
    | dsimp only
    | (simp only [wf_mk]; with_reducible apply wf_parts)

theorem headlessBoundary_wf {s : State} (hW : s.Wf) : (headlessBoundary s).Wf := by
  unfold headlessBoundary
  repeat' first
    | with_reducible assumption
    | with_reducible apply setFlag_wf
    | with_reducible apply setLevel_wf
    | split
    | dsimp only
    | (simp only [wf_mk]; with_reducible apply wf_parts)

theorem setMember_wf {n : Nat} {b : Bool} {s : State} (hW : s.Wf) : (setMember n b s).Wf := by
  unfold setMember
  repeat' first
    | with_reducible assumption
    | with_reducible apply setArrayBit_wf
    | split
    | dsimp only
    | (simp only [wf_mk]; with_reducible apply wf_parts)

theorem loseMember_wf {n : Nat} {s : State} (hW : s.Wf) : (loseMember n s).Wf := by
  unfold loseMember
  repeat' first
    | with_reducible assumption
    | with_reducible apply raiseEv_wf
    | with_reducible apply setMember_wf
    | split
    | dsimp only
    | (simp only [wf_mk]; with_reducible apply wf_parts)

theorem memberBoundary_wf {c : Nat} {s : State} (hW : s.Wf) : (memberBoundary c s).Wf := by
  unfold memberBoundary
  repeat' first
    | with_reducible assumption
    | with_reducible apply loseMember_wf
    | with_reducible refine forEach_wf (fun x u hu => ?_) ?_
    | split
    | dsimp only
    | (simp only [wf_mk]; with_reducible apply wf_parts)

theorem journalJoin_wf {node : Nat} {cause : Nat} {opening : Bool} {value : Nat} {s : State} (hW : s.Wf) : (journalJoin node cause opening value s).Wf := by
  unfold journalJoin
  repeat' first
    | with_reducible assumption
    | with_reducible apply journal_wf
    | split
    | dsimp only
    | (simp only [wf_mk]; with_reducible apply wf_parts)

theorem joinRefuse_wf {node : Nat} {cause : Nat} {hash : Option Nat} {s : State} (hW : s.Wf) : (joinRefuse node cause hash s).Wf := by
  unfold joinRefuse
  repeat' first
    | with_reducible assumption
    | with_reducible apply setR_wf
    | with_reducible apply incCnt_wf
    | with_reducible apply raiseEv_wf
    | with_reducible apply setJoin_wf
    | with_reducible apply journalJoin_wf
    | with_reducible refine whenS_wf (fun u hu => ?_) ?_
    | split
    | dsimp only
    | (simp only [wf_mk]; with_reducible apply wf_parts)

theorem newelPost_wf {node : Nat} {op : Nat} {page : Nat} {off : Nat} {data : List Byte} {s : State} (hW : s.Wf) : (newelPost node op page off data s).Wf := by
  unfold newelPost
  repeat' first
    | with_reducible assumption
    | with_reducible apply sendPosted_wf
    | split
    | dsimp only
    | (simp only [wf_mk]; with_reducible apply wf_parts)

theorem newelGuarded_wf {node : Nat} {page : Nat} {off : Nat} {v : Nat} {s : State} (hW : s.Wf) : (newelGuarded node page off v s).Wf := by
  unfold newelGuarded
  repeat' first
    | with_reducible assumption
    | with_reducible apply newelPost_wf
    | split
    | dsimp only
    | (simp only [wf_mk]; with_reducible apply wf_parts)

theorem armEnd_wf {node : Nat} {eastPort : Bool} {c : Nat} {s : State} (hW : s.Wf) : (armEnd node eastPort c s).Wf := by
  unfold armEnd
  repeat' first
    | with_reducible assumption
    | with_reducible apply setFlag_wf
    | with_reducible apply setPair_wf
    | with_reducible apply newelGuarded_wf
    | split
    | dsimp only
    | (simp only [wf_mk]; with_reducible apply wf_parts)

theorem linkReport_wf {src : Nat} {eastPort : Bool} {neighbour : Nat} {neighbourWest : Bool} {s : State} (hW : s.Wf) : (linkReport src eastPort neighbour neighbourWest s).Wf := by
  unfold linkReport
  repeat' first
    | with_reducible assumption
    | with_reducible apply raiseEv_wf
    | with_reducible apply setJoin_wf
    | with_reducible apply joinRefuse_wf
    | with_reducible apply armEnd_wf
    | with_reducible refine whenS_wf (fun u hu => ?_) ?_
    | split
    | dsimp only
    | (simp only [wf_mk]; with_reducible apply wf_parts)

theorem joinActivate_wf {node : Nat} {s : State} (hW : s.Wf) : (joinActivate node s).Wf := by
  unfold joinActivate
  repeat' first
    | with_reducible assumption
    | with_reducible apply setJoin_wf
    | with_reducible apply journalJoin_wf
    | with_reducible apply newelGuarded_wf
    | split
    | dsimp only
    | (simp only [wf_mk]; with_reducible apply wf_parts)

theorem joinChallenge_wf {node : Nat} {s : State} (hW : s.Wf) : (joinChallenge node s).Wf := by
  unfold joinChallenge
  repeat' first
    | with_reducible assumption
    | with_reducible apply freeBytes_wf
    | with_reducible apply setJoin_wf
    | with_reducible apply newelPost_wf
    | with_reducible refine freeBytes_wfE ?_ (by with_reducible assumption)
    | split
    | dsimp only
    | (simp only [wf_mk]; with_reducible apply wf_parts)

theorem joinRecordAt_wf {node : Nat} {flags : Nat} {proto : Nat} {hash : Nat} {resp : Nat} {s : State} (hW : s.Wf) : (joinRecordAt node flags proto hash resp s).Wf := by
  unfold joinRecordAt
  repeat' first
    | with_reducible assumption
    | with_reducible apply raiseEv_wf
    | with_reducible apply setJoin_wf
    | with_reducible apply joinRefuse_wf
    | with_reducible apply joinActivate_wf
    | with_reducible apply joinChallenge_wf
    | with_reducible refine whenS_wf (fun u hu => ?_) ?_
    | split
    | dsimp only
    | (simp only [wf_mk]; with_reducible apply wf_parts)

theorem joinTimeout_wf {s : State} (hW : s.Wf) : (joinTimeout s).Wf := by
  unfold joinTimeout
  repeat' first
    | with_reducible assumption
    | with_reducible apply joinRefuse_wf
    | split
    | dsimp only
    | (simp only [wf_mk]; with_reducible apply wf_parts)

theorem joinCommand_wf {cmd : Nat} {node : Nat} {s : State} (hW : s.Wf) : (joinCommand cmd node s).Wf := by
  unfold joinCommand
  repeat' first
    | with_reducible assumption
    | with_reducible apply joinRefuse_wf
    | with_reducible apply joinActivate_wf
    | split
    | dsimp only
    | (simp only [wf_mk]; with_reducible apply wf_parts)

theorem memberRecord_wf {c : Nat} {node : Nat} {view : Option Nat} {s : State} (hW : s.Wf) : (memberRecord c node view s).Wf := by
  unfold memberRecord
  repeat' first
    | with_reducible assumption
    | with_reducible apply raiseIf_wf
    | with_reducible apply takeView_wf
    | with_reducible apply notePresence_wf
    | with_reducible apply setMember_wf
    | with_reducible apply setJoin_wf
    | with_reducible refine whenS_wf (fun u hu => ?_) ?_
    | split
    | dsimp only
    | (simp only [wf_mk]; with_reducible apply wf_parts)

theorem candidateRecord_wf {bs : List Byte} {s : State} (hW : s.Wf) : (candidateRecord bs s).Wf := by
  unfold candidateRecord
  repeat' first
    | with_reducible assumption
    | with_reducible apply loseMember_wf
    | with_reducible apply joinRecordAt_wf
    | with_reducible refine whenS_wf (fun u hu => ?_) ?_
    | split
    | dsimp only
    | (simp only [wf_mk]; with_reducible apply wf_parts)

theorem neighbourReport_wf {c : Nat} {node : Nat} {bs : List Byte} {s : State} (hW : s.Wf) : (neighbourReport c node bs s).Wf := by
  unfold neighbourReport
  repeat' first
    | with_reducible assumption
    | with_reducible apply reportHalf_wf
    | split
    | dsimp only
    | (simp only [wf_mk]; with_reducible apply wf_parts)

theorem statusDelivery_wf {c : Nat} {bs : List Byte} {s : State} (hW : s.Wf) : (statusDelivery c bs s).Wf := by
  unfold statusDelivery
  repeat' first
    | with_reducible assumption
    | with_reducible apply noteStatusRecord_wf
    | with_reducible apply takeView_wf
    | with_reducible apply notePresence_wf
    | with_reducible apply memberRecord_wf
    | with_reducible apply candidateRecord_wf
    | with_reducible apply neighbourReport_wf
    | with_reducible refine whenS_wf (fun u hu => ?_) ?_
    | split
    | dsimp only
    | (simp only [wf_mk]; with_reducible apply wf_parts)

theorem joinNonceHi_wf {from_ : Nat} {s : State} (hW : s.Wf) : (joinNonceHi from_ s).Wf := by
  unfold joinNonceHi
  repeat' first
    | with_reducible assumption
    | split
    | dsimp only
    | (simp only [wf_mk]; with_reducible apply wf_parts)

theorem joinResponse_wf {s : State} (hW : s.Wf) : (joinResponse s).Wf := by
  unfold joinResponse
  repeat' first
    | with_reducible assumption
    | split
    | dsimp only
    | (simp only [wf_mk]; with_reducible apply wf_parts)

theorem headlessArm_wf {p : Side} {s : State} (hW : s.Wf) : (headlessArm p s).Wf := by
  unfold headlessArm
  repeat' first
    | with_reducible assumption
    | with_reducible apply setFlag_wf
    | with_reducible apply setPair_wf
    | split
    | dsimp only
    | (simp only [wf_mk]; with_reducible apply wf_parts)

theorem linkReportSend_wf {p : Side} {s : State} (hW : s.Wf) : (linkReportSend p s).Wf := by
  unfold linkReportSend
  repeat' first
    | with_reducible assumption
    | with_reducible apply setPort_wf
    | with_reducible apply sendNotice_wf
    | with_reducible apply linkReport_wf
    | split
    | dsimp only
    | (simp only [wf_mk]; with_reducible apply wf_parts)

theorem execPairLinkFrame_wf {bytes : List Byte} {s : State} (hW : s.Wf) {tW : State} (eW : execPairLinkFrame bytes s = .next tW) : tW.Wf := by
  revert eW
  unfold execPairLinkFrame
  repeat' first
    | with_reducible assumption
    | with_reducible apply pairLinkFrame_wf
    | (intro (eQ : _ = _); with_reducible refine alive_wf hW ?_ eQ)
    | (intro (eQ : _ = _); with_reducible refine answer_wf ?_ eQ)
    | split
    | dsimp only
    | (simp only [wf_mk]; with_reducible apply wf_parts)
    | (intro (eQ : _ = _); cases eQ)

theorem execHeadlessArm_wf {p : Side} {s : State} (hW : s.Wf) {tW : State} (eW : execHeadlessArm p s = .next tW) : tW.Wf := by
  revert eW
  unfold execHeadlessArm
  repeat' first
    | with_reducible assumption
    | with_reducible apply headlessArm_wf
    | (intro (eQ : _ = _); with_reducible refine alive_wf hW ?_ eQ)
    | (intro (eQ : _ = _); with_reducible refine answer_wf ?_ eQ)
    | split
    | dsimp only
    | (simp only [wf_mk]; with_reducible apply wf_parts)
    | (intro (eQ : _ = _); cases eQ)

theorem execLinkReportSend_wf {p : Side} {s : State} (hW : s.Wf) {tW : State} (eW : execLinkReportSend p s = .next tW) : tW.Wf := by
  revert eW
  unfold execLinkReportSend
  repeat' first
    | with_reducible assumption
    | with_reducible apply linkReportSend_wf
    | (intro (eQ : _ = _); with_reducible refine alive_wf hW ?_ eQ)
    | (intro (eQ : _ = _); with_reducible refine answer_wf ?_ eQ)
    | split
    | dsimp only
    | (simp only [wf_mk]; with_reducible apply wf_parts)
    | (intro (eQ : _ = _); cases eQ)

theorem execJoinResponse_wf {s : State} (hW : s.Wf) {tW : State} (eW : execJoinResponse s = .next tW) : tW.Wf := by
  revert eW
  unfold execJoinResponse
  repeat' first
    | with_reducible assumption
    | with_reducible apply joinResponse_wf
    | (intro (eQ : _ = _); with_reducible refine alive_wf hW ?_ eQ)
    | (intro (eQ : _ = _); with_reducible refine answer_wf ?_ eQ)
    | split
    | dsimp only
    | (simp only [wf_mk]; with_reducible apply wf_parts)
    | (intro (eQ : _ = _); cases eQ)

theorem execJoinTimeout_wf {s : State} (hW : s.Wf) {tW : State} (eW : execJoinTimeout s = .next tW) : tW.Wf := by
  revert eW
  unfold execJoinTimeout
  repeat' first
    | with_reducible assumption
    | with_reducible apply joinTimeout_wf
    | (intro (eQ : _ = _); with_reducible refine alive_wf hW ?_ eQ)
    | (intro (eQ : _ = _); with_reducible refine answer_wf ?_ eQ)
    | split
    | dsimp only
    | (simp only [wf_mk]; with_reducible apply wf_parts)
    | (intro (eQ : _ = _); cases eQ)

end Sys2Proof.Machine
end

