-- ==== Sys2Proof/Laws/Wf/Deliver.lean ====
section
/-!
SUPPORT. The operations of Machine/Deliver.lean keep the invariant State.Wf.
-/

namespace Sys2Proof.Machine

set_option linter.all false

theorem deliverTxf_wf {e : Nat} {data : List Byte} {s : State} (hW : s.Wf) : (deliverTxf e data s).Wf := by
  unfold deliverTxf
  repeat' first
    | with_reducible assumption
    | with_reducible apply raiseEv_wf
    | with_reducible apply pushTxf_wf
    | with_reducible apply setTreadLatch_wf
    | with_reducible refine forEach_wf (fun x u hu => ?_) ?_
    | split
    | dsimp only
    | (simp only [wf_mk]; with_reducible apply wf_parts)

theorem deliverTxb_wf {n : Nat} {b : Nat} {data : List Byte} {s : State} (hW : s.Wf) : (deliverTxb n b data s).Wf := by
  unfold deliverTxb
  repeat' first
    | with_reducible assumption
    | with_reducible apply setBufWord_wf
    | with_reducible apply requestBuf_wf
    | with_reducible refine whenS_wf (fun u hu => ?_) ?_
    | with_reducible refine forEach_wf (fun x u hu => ?_) ?_
    | split
    | dsimp only
    | (simp only [wf_mk]; with_reducible apply wf_parts)

theorem deliverVwire_wf {i : Nat} {data : List Byte} {s : State} (hW : s.Wf) : (deliverVwire i data s).Wf := by
  unfold deliverVwire
  repeat' first
    | with_reducible assumption
    | with_reducible apply setR_wf
    | with_reducible apply raiseIf_wf
    | split
    | dsimp only
    | (simp only [wf_mk]; with_reducible apply wf_parts)

theorem deliverAction_wf {c : Nat} {f : Nat} {a : Action} {data : List Byte} {s : State} (hW : s.Wf) : (deliverAction c f a data s).Wf := by
  unfold deliverAction
  repeat' first
    | with_reducible assumption
    | with_reducible apply takeCredits_wf
    | with_reducible apply statusDelivery_wf
    | with_reducible apply deliverTxf_wf
    | with_reducible apply deliverTxb_wf
    | with_reducible apply deliverVwire_wf
    | split
    | dsimp only
    | (simp only [wf_mk]; with_reducible apply wf_parts)

theorem popWords_wf {e : Nat} {n : Nat} {s : State} (hW : s.Wf) : (popWords e n s).2.Wf := by
  unfold popWords
  repeat' first
    | with_reducible assumption
    | with_reducible apply setRxf_wf
    | split
    | dsimp only
    | (simp only [wf_mk]; with_reducible apply wf_parts)

theorem popWords_wfE {e : Nat} {n : Nat} {s : State} {x0} {tW : State} (hW : s.Wf) (eW : popWords e n s = (x0, tW)) : tW.Wf := by
  have hw := popWords_wf (e := e) (n := n) (s := s) hW
  rw [eW] at hw
  exact hw

theorem sourceAction_wf {a : Action} {c : Nat} {s : State} (hW : s.Wf) : (sourceAction a c s).2.Wf := by
  unfold sourceAction
  repeat' first
    | with_reducible assumption
    | with_reducible apply advertise_wf
    | with_reducible apply popWords_wf
    | with_reducible refine advertise_wfE ?_ (by with_reducible assumption)
    | with_reducible refine popWords_wfE ?_ (by with_reducible assumption)
    | split
    | dsimp only
    | (simp only [wf_mk]; with_reducible apply wf_parts)

theorem sourceAction_wfE {a : Action} {c : Nat} {s : State} {x0} {tW : State} (hW : s.Wf) (eW : sourceAction a c s = (x0, tW)) : tW.Wf := by
  have hw := sourceAction_wf (a := a) (c := c) (s := s) hW
  rw [eW] at hw
  exact hw

end Sys2Proof.Machine
end

