-- ==== Sys2Proof/Laws/Wf/Station.lean ====
section
/-!
SUPPORT. The operations of Machine/Station.lean keep the invariant State.Wf.
-/

namespace Sys2Proof.Machine

set_option linter.all false

theorem announceLanes_wf {f : Nat} {s : State} (hW : s.Wf) : (announceLanes f s).Wf := by
  unfold announceLanes
  repeat' first
    | with_reducible assumption
    | with_reducible apply setR_wf
    | with_reducible apply wakeLanes_wf
    | with_reducible apply parkLanes_wf
    | with_reducible refine forEach_wf (fun x u hu => ?_) ?_
    | split
    | dsimp only
    | (simp only [wf_mk]; with_reducible apply wf_parts)

theorem noteCarried_wf {c : Nat} {f : Nat} {s : State} (hW : s.Wf) : (noteCarried c f s).Wf := by
  unfold noteCarried
  repeat' first
    | with_reducible assumption
    | split
    | dsimp only
    | (simp only [wf_mk]; with_reducible apply wf_parts)

theorem leadWidth_wf {st : Side} {m : Memory} {f : Nat} {s : State} (hW : s.Wf) : (leadWidth st m f s).Wf := by
  unfold leadWidth
  repeat' first
    | with_reducible assumption
    | with_reducible apply setTxWidth_wf
    | split
    | dsimp only
    | (simp only [wf_mk]; with_reducible apply wf_parts)

theorem produce_wf {st : Side} {c : Nat} {f : Nat} {pos : Nat} {start : Nat} {origin : Nat} {completer : Option Nat} {s : State} (hW : s.Wf) : (produce st c f pos start origin completer s).Wf := by
  unfold produce
  repeat' first
    | with_reducible assumption
    | with_reducible apply setStation_wf
    | with_reducible apply recordStamp_wf
    | with_reducible apply sendItems_wf
    | with_reducible apply beginSend_wf
    | with_reducible apply announceLanes_wf
    | with_reducible apply noteCarried_wf
    | with_reducible apply leadWidth_wf
    | with_reducible refine whenS_wf (fun u hu => ?_) ?_
    | split
    | dsimp only
    | (simp only [wf_mk]; with_reducible apply wf_parts)

theorem complete_wf {st : Side} {c : Nat} {f : Nat} {pos : Nat} {start : Nat} {s : State} (hW : s.Wf) : (complete st c f pos start s).Wf := by
  unfold complete
  repeat' first
    | with_reducible assumption
    | with_reducible apply incCnt_wf
    | with_reducible apply raiseEv_wf
    | with_reducible apply setRole_wf
    | with_reducible apply produce_wf
    | split
    | dsimp only
    | (simp only [wf_mk]; with_reducible apply wf_parts)

theorem completePending_wf {st : Side} {start : Nat} {s : State} (hW : s.Wf) : (completePending st start s).Wf := by
  unfold completePending
  repeat' first
    | with_reducible assumption
    | with_reducible apply complete_wf
    | split
    | dsimp only
    | (simp only [wf_mk]; with_reducible apply wf_parts)

theorem originate_wf {st : Side} {c : Nat} {s : State} (hW : s.Wf) : (originate st c s).Wf := by
  unfold originate
  repeat' first
    | with_reducible assumption
    | with_reducible apply produce_wf
    | split
    | dsimp only
    | (simp only [wf_mk]; with_reducible apply wf_parts)

theorem undoPreloads_wf {st : Side} {n : Nat} {s : State} (hW : s.Wf) : (undoPreloads st n s).Wf := by
  unfold undoPreloads
  repeat' first
    | with_reducible assumption
    | with_reducible apply addCnt_wf
    | split
    | dsimp only
    | (simp only [wf_mk]; with_reducible apply wf_parts)

theorem endCopy_wf {st : Side} {t : Nat} {s : State} (hW : s.Wf) : (endCopy st t s).Wf := by
  unfold endCopy
  repeat' first
    | with_reducible assumption
    | with_reducible apply setStation_wf
    | split
    | dsimp only
    | (simp only [wf_mk]; with_reducible apply wf_parts)

theorem dropCopy_wf {st : Side} {s : State} (hW : s.Wf) : (dropCopy st s).Wf := by
  unfold dropCopy
  repeat' first
    | with_reducible assumption
    | with_reducible apply undoPreloads_wf
    | with_reducible apply endCopy_wf
    | split
    | dsimp only
    | (simp only [wf_mk]; with_reducible apply wf_parts)

theorem failCopy_wf {st : Side} {t : Nat} {s : State} (hW : s.Wf) : (failCopy st t s).Wf := by
  unfold failCopy
  repeat' first
    | with_reducible assumption
    | with_reducible apply incCnt_wf
    | with_reducible apply raiseEv_wf
    | with_reducible apply undoPreloads_wf
    | with_reducible apply endCopy_wf
    | split
    | dsimp only
    | (simp only [wf_mk]; with_reducible apply wf_parts)

theorem galleryLost_wf {st : Side} {g : RxGallery} {s : State} (hW : s.Wf) : (galleryLost st g s).Wf := by
  unfold galleryLost
  extract_lets m laid ended failed
  have ho : ∀ u : State, u.Wf → (ended u).Wf := fun u hu => setStation_wf hu
  have hf : ∀ u : State, u.Wf → (failed u).Wf := by
    intro u hu
    show State.Wf (match cutTread s st g with
      | some t => if laid && (g.mode = .forward || g.mode = .absorb) then failCopy st t u else dropCopy st u
      | none => dropCopy st u)
    split
    · split
      · exact failCopy_wf hu
      · exact dropCopy_wf hu
    · exact dropCopy_wf hu
  split
  · exact ho _ (hf _ hW)
  · split
    · exact ho _ (hf _ (complete_wf hW))
    · exact ho _ (hf _ (sendItems_wf hW))

theorem receiveLost_wf {st : Side} {s : State} (hW : s.Wf) : (receiveLost st s).Wf := by
  unfold receiveLost
  repeat' first
    | with_reducible assumption
    | with_reducible apply setStation_wf
    | with_reducible apply completePending_wf
    | with_reducible apply galleryLost_wf
    | split
    | dsimp only
    | (simp only [wf_mk]; with_reducible apply wf_parts)

theorem quarantinePort_wf {p : Side} {s : State} (hW : s.Wf) : (quarantinePort p s).Wf := by
  unfold quarantinePort
  repeat' first
    | with_reducible assumption
    | with_reducible apply setFlag_wf
    | with_reducible apply raiseIf_wf
    | with_reducible apply setPortOpen_wf
    | with_reducible apply receiveLost_wf
    | split
    | dsimp only
    | (simp only [wf_mk]; with_reducible apply wf_parts)

theorem stationLinkDown_wf {p : Side} {s : State} (hW : s.Wf) : (stationLinkDown p s).Wf := by
  unfold stationLinkDown
  repeat' first
    | with_reducible assumption
    | with_reducible apply quarantinePort_wf
    | split
    | dsimp only
    | (simp only [wf_mk]; with_reducible apply wf_parts)

theorem noteIdent_wf {payload : Nat} {s0 : State} (hW : s0.Wf) : (noteIdent payload s0).Wf := by
  unfold noteIdent
  repeat' first
    | with_reducible assumption
    | with_reducible apply setR_wf
    | with_reducible apply setFlag_wf
    | with_reducible apply setLevel_wf
    | split
    | dsimp only
    | (simp only [wf_mk]; with_reducible apply wf_parts)

theorem noteOrigin_wf {st : Side} {n : Nat} {s : State} (hW : s.Wf) : (noteOrigin st n s).Wf := by
  unfold noteOrigin
  repeat' first
    | with_reducible assumption
    | with_reducible apply setR_wf
    | with_reducible apply setStation_wf
    | split
    | dsimp only
    | (simp only [wf_mk]; with_reducible apply wf_parts)

theorem applyAnnouncement_wf {f : Nat} {at_ : Nat} {g : Nat} {s : State} (hW : s.Wf) : (applyAnnouncement f at_ g s).Wf := by
  unfold applyAnnouncement
  repeat' first
    | with_reducible assumption
    | with_reducible apply recordAnnouncement_wf
    | with_reducible apply announceLanes_wf
    | split
    | dsimp only
    | (simp only [wf_mk]; with_reducible apply wf_parts)

theorem recordArrival_wf {st : Side} {payload : Nat} {c : Nat} {t : Int} {s : State} (hW : s.Wf) : (recordArrival st payload c t s).Wf := by
  unfold recordArrival
  repeat' first
    | with_reducible assumption
    | with_reducible apply setR_wf
    | with_reducible apply raiseIf_wf
    | with_reducible refine whenS_wf (fun u hu => ?_) ?_
    | split
    | dsimp only
    | (simp only [wf_mk]; with_reducible apply wf_parts)

theorem beginRx_wf {st : Side} {c : Nat} {f : Nat} {mode : RxMode} {s : State} (hW : s.Wf) : (beginRx st c f mode s).Wf := by
  unfold beginRx
  repeat' first
    | with_reducible assumption
    | with_reducible apply setStation_wf
    | with_reducible apply dropCopy_wf
    | split
    | dsimp only
    | (simp only [wf_mk]; with_reducible apply wf_parts)

theorem countGood_wf {st : Side} {c : Nat} {inWindow : Bool} {s : State} (hW : s.Wf) : (countGood st c inWindow s).Wf := by
  unfold countGood
  repeat' first
    | with_reducible assumption
    | with_reducible apply setR_wf
    | with_reducible apply setStation_wf
    | with_reducible apply setRole_wf
    | split
    | dsimp only
    | (simp only [wf_mk]; with_reducible apply wf_parts)

theorem passStart_wf {st : Side} {c : Nat} {f : Nat} {payload : Nat} {s : State} (hW : s.Wf) : (passStart st c f payload s).Wf := by
  unfold passStart
  repeat' first
    | with_reducible assumption
    | with_reducible apply beginSend_wf
    | with_reducible apply beginRx_wf
    | with_reducible refine whenS_wf (fun u hu => ?_) ?_
    | split
    | dsimp only
    | (simp only [wf_mk]; with_reducible apply wf_parts)

theorem readStart_wf {st : Side} {c : Nat} {f : Nat} {payload : Nat} {mode : RxMode} {s : State} (hW : s.Wf) : (readStart st c f payload mode s).Wf := by
  unfold readStart
  repeat' first
    | with_reducible assumption
    | with_reducible apply raiseIf_wf
    | with_reducible apply noteCarried_wf
    | with_reducible apply noteOrigin_wf
    | with_reducible apply applyAnnouncement_wf
    | with_reducible apply beginRx_wf
    | with_reducible refine whenS_wf (fun u hu => ?_) ?_
    | split
    | dsimp only
    | (simp only [wf_mk]; with_reducible apply wf_parts)

theorem forwardStart_wf {st : Side} {c : Nat} {f : Nat} {payload : Nat} {t : Int} {frac : Nat} {s : State} (hW : s.Wf) : (forwardStart st c f payload t frac s).Wf := by
  unfold forwardStart
  repeat' first
    | with_reducible assumption
    | with_reducible apply setStation_wf
    | with_reducible apply recordStamp_wf
    | with_reducible apply beginSend_wf
    | with_reducible apply leadWidth_wf
    | with_reducible apply recordArrival_wf
    | with_reducible apply readStart_wf
    | with_reducible refine whenS_wf (fun u hu => ?_) ?_
    | split
    | dsimp only
    | (simp only [wf_mk]; with_reducible apply wf_parts)

theorem actOnStart_wf {st : Side} {c : Nat} {f : Nat} {payload : Nat} {t : Int} {frac : Nat} {s : State} (hW : s.Wf) : (actOnStart st c f payload t frac s).Wf := by
  unfold actOnStart
  repeat' first
    | with_reducible assumption
    | with_reducible apply incCnt_wf
    | with_reducible apply raiseEv_wf
    | with_reducible apply beginRx_wf
    | with_reducible apply countGood_wf
    | with_reducible apply readStart_wf
    | with_reducible apply forwardStart_wf
    | split
    | dsimp only
    | (simp only [wf_mk]; with_reducible apply wf_parts)

theorem galleryStart_wf {st : Side} {payload : Nat} {frac : Nat} {s : State} (hW : s.Wf) : (galleryStart st payload frac s).Wf := by
  unfold galleryStart
  repeat' first
    | with_reducible assumption
    | with_reducible apply raiseEv_wf
    | with_reducible apply setTxWidth_wf
    | with_reducible apply recordStamp_wf
    | with_reducible apply captureSource_wf
    | with_reducible apply noteIdent_wf
    | with_reducible apply beginRx_wf
    | with_reducible apply passStart_wf
    | with_reducible apply actOnStart_wf
    | with_reducible refine whenS_wf (fun u hu => ?_) ?_
    | split
    | dsimp only
    | (simp only [wf_mk]; with_reducible apply wf_parts)

theorem readBlock_wf {st : Side} {m : Memory} {g : RxGallery} {blk : Option (Nat × Nat)} {s : State} (hW : s.Wf) : (readBlock st m g blk s).Wf := by
  unfold readBlock
  repeat' first
    | with_reducible assumption
    | with_reducible apply setStation_wf
    | split
    | dsimp only
    | (simp only [wf_mk]; with_reducible apply wf_parts)

theorem advanceRx_wf {st : Side} {g : RxGallery} {fail : List Nat} {s : State} (hW : s.Wf) : (advanceRx st g fail s).Wf := by
  unfold advanceRx
  repeat' first
    | with_reducible assumption
    | with_reducible apply setStation_wf
    | split
    | dsimp only
    | (simp only [wf_mk]; with_reducible apply wf_parts)

theorem passBlock_wf {st : Side} {g : RxGallery} {blk : Option (Nat × Nat)} {s : State} (hW : s.Wf) : (passBlock st g blk s).Wf := by
  unfold passBlock
  repeat' first
    | with_reducible assumption
    | with_reducible apply sendItems_wf
    | with_reducible apply readBlock_wf
    | with_reducible apply advanceRx_wf
    | with_reducible refine whenS_wf (fun u hu => ?_) ?_
    | split
    | dsimp only
    | (simp only [wf_mk]; with_reducible apply wf_parts)

theorem startTread_wf {st : Side} {m : Memory} {g : RxGallery} {id : Nat} {s : State} (hW : s.Wf) : (startTread st m g id s).Wf := by
  unfold startTread
  repeat' first
    | with_reducible assumption
    | with_reducible apply setStation_wf
    | with_reducible apply sendItems_wf
    | split
    | dsimp only
    | (simp only [wf_mk]; with_reducible apply wf_parts)

theorem treadBlock_wf {st : Side} {m : Memory} {g : RxGallery} {id : Nat} {len : Nat} {isTrailer : Bool} {blk : Option (Nat × Nat)} {s : State} (hW : s.Wf) : (treadBlock st m g id len isTrailer blk s).Wf := by
  unfold treadBlock
  repeat' first
    | with_reducible assumption
    | with_reducible apply sendItems_wf
    | with_reducible apply failCopy_wf
    | with_reducible apply advanceRx_wf
    | with_reducible refine whenS_wf (fun u hu => ?_) ?_
    | split
    | dsimp only
    | (simp only [wf_mk]; with_reducible apply wf_parts)

theorem shareBlock_wf {st : Side} {m : Memory} {g : RxGallery} {i : Nat} {first : Bool} {blk : Option (Nat × Nat)} {s : State} (hW : s.Wf) :
    (shareBlock st m g i first blk s).Wf := by
  have h1 : (readBlock st m g blk (advanceRx st g [] s)).Wf := readBlock_wf (advanceRx_wf hW)
  unfold shareBlock
  dsimp only
  generalize readBlock st m g blk (advanceRx st g [] s) = s1 at h1
  split
  · exact whenS_wf (fun u hu => sendItems_wf hu) h1
  · split
    · exact whenS_wf (fun u hu => sendItems_wf hu) h1
    · exact whenS_wf (fun u hu => raiseEv_wf (sendItems_wf hu)) h1

theorem layoutError_wf {st : Side} {s : State} (hW : s.Wf) : (layoutError st s).Wf := by
  unfold layoutError
  repeat' first
    | with_reducible assumption
    | with_reducible apply incCnt_wf
    | with_reducible apply raiseEv_wf
    | split
    | dsimp only
    | (simp only [wf_mk]; with_reducible apply wf_parts)

theorem endGallery_wf {st : Side} {fill : Nat} {s : State} (hW : s.Wf) : (endGallery st fill s).Wf := by
  unfold endGallery
  repeat' first
    | with_reducible assumption
    | with_reducible apply setStation_wf
    | with_reducible apply sendItems_wf
    | with_reducible refine whenS_wf (fun u hu => ?_) ?_
    | split
    | dsimp only
    | (simp only [wf_mk]; with_reducible apply wf_parts)

theorem openRegion_wf {st : Side} {failed : Bool} {s : State} (hW : s.Wf) : (openRegion st failed s).Wf := by
  unfold openRegion
  repeat' first
    | with_reducible assumption
    | with_reducible apply setStation_wf
    | split
    | dsimp only
    | (simp only [wf_mk]; with_reducible apply wf_parts)

theorem controlBlock_wf {st : Side} {g : RxGallery} {kind : Nat} {stand : OutItem} {blk : Option (Nat × Nat)} {s : State} (hW : s.Wf) : (controlBlock st g kind stand blk s).2.Wf := by
  unfold controlBlock
  repeat' first
    | with_reducible assumption
    | with_reducible apply sendItems_wf
    | with_reducible apply advanceRx_wf
    | with_reducible apply layoutError_wf
    | with_reducible refine whenS_wf (fun u hu => ?_) ?_
    | split
    | dsimp only
    | (simp only [wf_mk]; with_reducible apply wf_parts)

theorem controlBlock_wfE {st : Side} {g : RxGallery} {kind : Nat} {stand : OutItem} {blk : Option (Nat × Nat)} {s : State} {x0} {tW : State} (hW : s.Wf) (eW : controlBlock st g kind stand blk s = (x0, tW)) : tW.Wf := by
  have hw := controlBlock_wf (st := st) (g := g) (kind := kind) (stand := stand) (blk := blk) (s := s) hW
  rw [eW] at hw
  exact hw

theorem padBlock_wf {st : Side} {g : RxGallery} {blk : Option (Nat × Nat)} {s : State} (hW : s.Wf) : (padBlock st g blk s).Wf := by
  unfold padBlock
  repeat' first
    | with_reducible assumption
    | with_reducible apply sendItems_wf
    | with_reducible apply advanceRx_wf
    | with_reducible refine whenS_wf (fun u hu => ?_) ?_
    | split
    | dsimp only
    | (simp only [wf_mk]; with_reducible apply wf_parts)

theorem layoutBlock_wf {st : Side} {m : Memory} {g : RxGallery} {blk : Option (Nat × Nat)} {s : State} (hW : s.Wf) : (layoutBlock st m g blk s).Wf := by
  unfold layoutBlock
  repeat' first
    | with_reducible assumption
    | with_reducible apply advanceRx_wf
    | with_reducible apply startTread_wf
    | with_reducible apply treadBlock_wf
    | with_reducible apply shareBlock_wf
    | with_reducible apply endGallery_wf
    | with_reducible apply openRegion_wf
    | with_reducible apply controlBlock_wf
    | with_reducible apply padBlock_wf
    | with_reducible refine controlBlock_wfE ?_ (by with_reducible assumption)
    | split
    | dsimp only
    | (simp only [wf_mk]; with_reducible apply wf_parts)

theorem strayBlock_wf {st : Side} {blk : Option (Nat × Nat)} {s : State} (hW : s.Wf) : (strayBlock st blk s).Wf := by
  unfold strayBlock
  repeat' first
    | with_reducible assumption
    | with_reducible apply sendItems_wf
    | with_reducible refine whenS_wf (fun u hu => ?_) ?_
    | split
    | dsimp only
    | (simp only [wf_mk]; with_reducible apply wf_parts)

theorem stationBlock_wf {st : Side} {blk : Option (Nat × Nat)} {s : State} (hW : s.Wf) : (stationBlock st blk s).Wf := by
  unfold stationBlock
  repeat' first
    | with_reducible assumption
    | with_reducible apply advanceRx_wf
    | with_reducible apply passBlock_wf
    | with_reducible apply layoutBlock_wf
    | with_reducible apply strayBlock_wf
    | split
    | dsimp only
    | (simp only [wf_mk]; with_reducible apply wf_parts)

theorem failRun_wf {st : Side} {m : Memory} {g : RxGallery} {upto : Nat} {s : State} (hW : s.Wf) : (failRun st m g upto s).Wf := by
  unfold failRun
  repeat' first
    | with_reducible assumption
    | with_reducible apply setStation_wf
    | with_reducible apply undoPreloads_wf
    | with_reducible apply dropCopy_wf
    | with_reducible apply layoutError_wf
    | with_reducible refine foldl_wf (fun u x hu => ?_) _ _ ?_
    | with_reducible refine foldl_snd_wf (fun p x hp => ?_) _ _ ?_
    | with_reducible refine foldl_snd_wfE (fun p x hp => ?_) ?_ (by with_reducible assumption)
    | split
    | dsimp only
    | (simp only [wf_mk]; with_reducible apply wf_parts)

theorem stationMarker_wf {st : Side} {fillers : Nat} {s : State} (hW : s.Wf) : (stationMarker st fillers s).Wf := by
  unfold stationMarker
  repeat' first
    | with_reducible assumption
    | with_reducible apply setStation_wf
    | with_reducible apply sendItems_wf
    | with_reducible apply endGallery_wf
    | with_reducible apply failRun_wf
    | with_reducible refine whenS_wf (fun u hu => ?_) ?_
    | split
    | dsimp only
    | (simp only [wf_mk]; with_reducible apply wf_parts)

theorem galleryEnd_wf {st : Side} {payload : Nat} {s : State} (hW : s.Wf) : (galleryEnd st payload s).Wf := by
  unfold galleryEnd
  repeat' first
    | with_reducible assumption
    | with_reducible apply sendItems_wf
    | with_reducible apply noteOrigin_wf
    | with_reducible apply layoutError_wf
    | with_reducible apply endGallery_wf
    | with_reducible refine whenS_wf (fun u hu => ?_) ?_
    | split
    | dsimp only
    | (simp only [wf_mk]; with_reducible apply wf_parts)

theorem landingStart_wf {st : Side} {payload : Nat} {s : State} (hW : s.Wf) : (landingStart st payload s).Wf := by
  unfold landingStart
  repeat' first
    | with_reducible assumption
    | with_reducible apply sendItems_wf
    | with_reducible apply layoutError_wf
    | with_reducible apply openRegion_wf
    | with_reducible refine whenS_wf (fun u hu => ?_) ?_
    | split
    | dsimp only
    | (simp only [wf_mk]; with_reducible apply wf_parts)

theorem landingEndStation_wf {st : Side} {payload : Nat} {s : State} (hW : s.Wf) : (landingEndStation st payload s).Wf := by
  unfold landingEndStation
  repeat' first
    | with_reducible assumption
    | with_reducible apply sendItems_wf
    | with_reducible apply layoutError_wf
    | with_reducible refine whenS_wf (fun u hu => ?_) ?_
    | split
    | dsimp only
    | (simp only [wf_mk]; with_reducible apply wf_parts)

theorem placePieces_wf {reads : List Action} {payload : List Byte} {lo hi : Nat} :
    ∀ {mem : Memory}, memoryWf mem = true → memoryWf (placePieces reads payload lo hi mem) = true := by
  unfold placePieces
  induction reads with
  | nil =>
    intro mem h
    exact h
  | cons a rest ih =>
    intro mem h
    exact ih (memWriteN_wf _ h _)

theorem stagePiece_wf {reads : List Action} {t lo : Nat} {payload : List Byte} {s : State} (hW : s.Wf) :
    (stagePiece reads t lo payload s).Wf := by
  unfold stagePiece
  exact wf_image hW hW.committed (placePieces_wf hW.staging)

theorem stagingWrite_wf {st : Side} {t : Nat} {k : Nat} {payload : Nat} {s : State} (hW : s.Wf) : (stagingWrite st t k payload s).Wf := by
  unfold stagingWrite
  repeat' first
    | with_reducible assumption
    | with_reducible apply setStation_wf
    | with_reducible apply dropCopy_wf
    | with_reducible apply stagePiece_wf
    | with_reducible refine whenS_wf (fun u hu => ?_) ?_
    | split
    | dsimp only
    | (simp only [wf_mk]; with_reducible apply wf_parts)

theorem releasePairs_wf {sel : PairWait → Bool} {s : State} (hW : s.Wf) : (releasePairs sel s).Wf := by
  unfold releasePairs
  repeat' first
    | with_reducible assumption
    | with_reducible apply deliverAction_wf
    | with_reducible refine forEach_wf (fun x u hu => ?_) ?_
    | split
    | dsimp only
    | (simp only [wf_mk]; with_reducible apply wf_parts)

theorem pairCompare_wf {st : Side} {m : Memory} {f : Nat} {c : Nat} {t : Nat} {tag : Nat} {crc : Nat} {s : State} (hW : s.Wf) : (pairCompare st m f c t tag crc s).Wf := by
  unfold pairCompare
  repeat' first
    | with_reducible assumption
    | with_reducible apply setR_wf
    | with_reducible apply incCnt_wf
    | with_reducible apply raiseEv_wf
    | with_reducible apply releasePairs_wf
    | with_reducible refine whenS_wf (fun u hu => ?_) ?_
    | split
    | dsimp only
    | (simp only [wf_mk]; with_reducible apply wf_parts)

theorem relayTrailer_wf {st : Side} {t : Nat} {trailer : Nat} {cls : TrailerClass} {payload : List Byte} {s : State} (hW : s.Wf) : (relayTrailer st t trailer cls payload s).Wf := by
  unfold relayTrailer
  repeat' first
    | with_reducible assumption
    | with_reducible apply sendItems_wf
    | split
    | dsimp only
    | (simp only [wf_mk]; with_reducible apply wf_parts)

theorem candidateTrailer_wf {st : Side} {g : RxGallery} {m : Memory} {t : Nat} {trailer : Nat} {s : State} (hW : s.Wf) : (candidateTrailer st g m t trailer s).Wf := by
  unfold candidateTrailer
  repeat' first
    | with_reducible assumption
    | with_reducible apply setStation_wf
    | with_reducible apply sendItems_wf
    | with_reducible apply endCopy_wf
    | with_reducible refine whenS_wf (fun u hu => ?_) ?_
    | split
    | dsimp only
    | (simp only [wf_mk]; with_reducible apply wf_parts)

theorem countTrailer_wf {st : Side} {cls : TrailerClass} {trailerErr : Bool} {s : State} (hW : s.Wf) : (countTrailer st cls trailerErr s).Wf := by
  unfold countTrailer
  repeat' first
    | with_reducible assumption
    | with_reducible apply incCnt_wf
    | with_reducible apply raiseEv_wf
    | with_reducible refine whenS_wf (fun u hu => ?_) ?_
    | split
    | dsimp only
    | (simp only [wf_mk]; with_reducible apply wf_parts)

theorem keepThrough_wf {st : Side} {t : Nat} {cp : ThroughCopy} {s : State} (hW : s.Wf) : (keepThrough st t cp s).Wf := by
  unfold keepThrough
  repeat' first
    | with_reducible assumption
    | with_reducible apply setStation_wf
    | split
    | dsimp only
    | (simp only [wf_mk]; with_reducible apply wf_parts)

theorem acceptCopy_wf {st : Side} {cp : Copy} {s : State} (hW : s.Wf) : (acceptCopy st cp s).Wf := by
  unfold acceptCopy
  repeat' first
    | with_reducible assumption
    | with_reducible apply raiseEv_wf
    | with_reducible apply setStation_wf
    | with_reducible apply undoPreloads_wf
    | with_reducible apply endCopy_wf
    | split
    | dsimp only
    | (simp only [wf_mk]; with_reducible apply wf_parts)

theorem judgeCopy_wf {st : Side} {m : Memory} {void : Bool} {cp : Copy} {s : State} (hW : s.Wf) : (judgeCopy st m void cp s).Wf := by
  unfold judgeCopy
  repeat' first
    | with_reducible assumption
    | with_reducible apply incCnt_wf
    | with_reducible apply raiseEv_wf
    | with_reducible apply undoPreloads_wf
    | with_reducible apply endCopy_wf
    | with_reducible apply pairCompare_wf
    | with_reducible apply acceptCopy_wf
    | split
    | dsimp only
    | (simp only [wf_mk]; with_reducible apply wf_parts)

theorem ownTrailer_wf {st : Side} {g : RxGallery} {t : Nat} {trailer : Nat} {s : State} (hW : s.Wf) : (ownTrailer st g t trailer s).Wf := by
  unfold ownTrailer
  repeat' first
    | with_reducible assumption
    | with_reducible apply undoPreloads_wf
    | with_reducible apply endCopy_wf
    | with_reducible apply relayTrailer_wf
    | with_reducible apply countTrailer_wf
    | with_reducible apply keepThrough_wf
    | with_reducible apply judgeCopy_wf
    | with_reducible refine whenS_wf (fun u hu => ?_) ?_
    | split
    | dsimp only
    | (simp only [wf_mk]; with_reducible apply wf_parts)

theorem treadTrailer_wf {st : Side} {t : Nat} {trailer : Nat} {s : State} (hW : s.Wf) : (treadTrailer st t trailer s).Wf := by
  unfold treadTrailer
  repeat' first
    | with_reducible assumption
    | with_reducible apply candidateTrailer_wf
    | with_reducible apply ownTrailer_wf
    | split
    | dsimp only
    | (simp only [wf_mk]; with_reducible apply wf_parts)

theorem commitAction_wf {cp : Copy} {compared : Bool} {ia : Nat × Action} {s : State} (hW : s.Wf) : (commitAction cp compared ia s).Wf := by
  unfold commitAction
  repeat' first
    | with_reducible assumption
    | with_reducible apply setFresh_wf
    | with_reducible apply deliverAction_wf
    | split
    | dsimp only
    | (simp only [wf_mk]; with_reducible apply wf_parts)
    | (simp only [wf_mk]; constructor <;> first | rfl | with_reducible exact State.Wf.dram (by with_reducible assumption) | with_reducible exact State.Wf.flash (by with_reducible assumption) | with_reducible exact State.Wf.committed (by with_reducible assumption) | with_reducible exact State.Wf.staging (by with_reducible assumption) | with_reducible exact State.Wf.active (by with_reducible assumption) | with_reducible exact State.Wf.pend (by with_reducible assumption) | with_reducible exact State.Wf.store (by with_reducible assumption) | with_reducible exact State.Wf.log (by with_reducible assumption) | with_reducible exact State.Wf.held (by with_reducible assumption) | (with_reducible refine memWriteN_wf _ ?_ _; first | rfl | with_reducible exact State.Wf.dram (by with_reducible assumption) | with_reducible exact State.Wf.flash (by with_reducible assumption) | with_reducible exact State.Wf.committed (by with_reducible assumption) | with_reducible exact State.Wf.staging (by with_reducible assumption) | with_reducible exact State.Wf.active (by with_reducible assumption) | with_reducible exact State.Wf.pend (by with_reducible assumption)) | (with_reducible refine memPutNat_wf ?_ _ _ _; first | rfl | with_reducible exact State.Wf.dram (by with_reducible assumption) | with_reducible exact State.Wf.flash (by with_reducible assumption) | with_reducible exact State.Wf.committed (by with_reducible assumption) | with_reducible exact State.Wf.staging (by with_reducible assumption) | with_reducible exact State.Wf.active (by with_reducible assumption) | with_reducible exact State.Wf.pend (by with_reducible assumption)) | (with_reducible refine memSplice_wf ?_ _ _; first | rfl | with_reducible exact State.Wf.dram (by with_reducible assumption) | with_reducible exact State.Wf.flash (by with_reducible assumption) | with_reducible exact State.Wf.committed (by with_reducible assumption) | with_reducible exact State.Wf.staging (by with_reducible assumption) | with_reducible exact State.Wf.active (by with_reducible assumption) | with_reducible exact State.Wf.pend (by with_reducible assumption)) | (with_reducible refine memClear_wf ?_ _ _; first | rfl | with_reducible exact State.Wf.dram (by with_reducible assumption) | with_reducible exact State.Wf.flash (by with_reducible assumption) | with_reducible exact State.Wf.committed (by with_reducible assumption) | with_reducible exact State.Wf.staging (by with_reducible assumption) | with_reducible exact State.Wf.active (by with_reducible assumption) | with_reducible exact State.Wf.pend (by with_reducible assumption)))

theorem noteCommit_wf {cp : Copy} {s : State} (hW : s.Wf) : (noteCommit cp s).Wf := by
  unfold noteCommit
  repeat' first
    | with_reducible assumption
    | split
    | dsimp only
    | (simp only [wf_mk]; with_reducible apply wf_parts)

theorem commitHead_wf {st : Side} {s : State} (hW : s.Wf) : (commitHead st s).Wf := by
  unfold commitHead
  repeat' first
    | with_reducible assumption
    | with_reducible apply setStation_wf
    | with_reducible apply statusDelivery_wf
    | with_reducible apply undoPreloads_wf
    | with_reducible apply commitAction_wf
    | with_reducible apply noteCommit_wf
    | with_reducible refine forEach_wf (fun x u hu => ?_) ?_
    | split
    | dsimp only
    | (simp only [wf_mk]; with_reducible apply wf_parts)

theorem dmaFlag_wf {c : Nat} {k : Nat} {s : State} (hW : s.Wf) : (dmaFlag c k s).Wf := by
  unfold dmaFlag
  repeat' first
    | with_reducible assumption
    | split
    | dsimp only
    | (simp only [wf_mk]; with_reducible apply wf_parts)

theorem deadlineCheck_wf {f : Nat} {i : Nat} {c : Nat} {s : State} (hW : s.Wf) : (deadlineCheck f i c s).Wf := by
  unfold deadlineCheck
  repeat' first
    | with_reducible assumption
    | with_reducible apply incCnt_wf
    | with_reducible apply raiseEv_wf
    | with_reducible apply setFresh_wf
    | with_reducible apply releasePairs_wf
    | with_reducible apply dmaFlag_wf
    | with_reducible refine whenS_wf (fun u hu => ?_) ?_
    | split
    | dsimp only
    | (simp only [wf_mk]; with_reducible apply wf_parts)

theorem snapshotAction_wf {c : Nat} {a : Action} {acc : State × Bool × Bool × Bool} (hW : acc.1.Wf) : (snapshotAction c a acc).1.Wf := by
  obtain ⟨s, fenced, any, active⟩ := acc
  replace hW : s.Wf := hW
  unfold snapshotAction
  dsimp only
  have hs := sourceAction_wf (a := a) (c := c) hW
  split
  · next e => rw [e] at hs; exact hs
  · next e => rw [e] at hs; exact hs
  · next e =>
    rw [e] at hs
    split
    · exact hW
    · exact raiseIf_wf (wf_image hs (memWriteN_wf _ hs.committed _) hs.staging)

theorem snapshotAll_wf {c : Nat} : ∀ {as : List Action} {acc : State × Bool × Bool × Bool}, acc.1.Wf →
    (as.foldl (fun acc a => snapshotAction c a acc) acc).1.Wf
  | [], _, h => h
  | a :: as, acc, h => snapshotAll_wf (as := as) (acc := snapshotAction c a acc) (snapshotAction_wf h)

theorem takeSnapshot_wf {t c f : Nat} {s : State} (hW : s.Wf) : (takeSnapshot t c f s).Wf := by
  unfold takeSnapshot
  dsimp only
  refine wf_mk.mpr ?_
  dsimp only
  apply wf_parts
  split
  · exact hW
  · exact snapshotAll_wf hW

theorem treadSnapshot_wf {t : Nat} {s : State} (hW : s.Wf) : (treadSnapshot t s).Wf := by
  unfold treadSnapshot
  split
  · exact hW
  · split
    · exact hW
    · exact pump_wf (pump_wf (takeSnapshot_wf hW))

theorem windowClose_wf {st : Side} {s : State} (hW : s.Wf) : (windowClose st s).Wf := by
  unfold windowClose
  repeat' first
    | with_reducible assumption
    | with_reducible apply completePending_wf
    | split
    | dsimp only
    | (simp only [wf_mk]; with_reducible apply wf_parts)

theorem slotTime_wf {st : Side} {s : State} (hW : s.Wf) : (slotTime st s).Wf := by
  unfold slotTime
  repeat' first
    | with_reducible assumption
    | with_reducible apply completePending_wf
    | split
    | dsimp only
    | (simp only [wf_mk]; with_reducible apply wf_parts)

theorem stationBoundary_wf {c : Nat} {st : Side} {s : State} (hW : s.Wf) : (stationBoundary c st s).Wf := by
  unfold stationBoundary
  repeat' first
    | with_reducible assumption
    | with_reducible apply setRole_wf
    | with_reducible apply originate_wf
    | split
    | dsimp only
    | (simp only [wf_mk]; with_reducible apply wf_parts)

theorem armOpen_wf {st : Side} {s : State} (hW : s.Wf) : (armOpen st s).Wf := by
  unfold armOpen
  repeat' first
    | with_reducible assumption
    | with_reducible apply setFlag_wf
    | with_reducible apply raiseEv_wf
    | split
    | dsimp only
    | (simp only [wf_mk]; with_reducible apply wf_parts)

theorem disarm_wf {st : Side} {s : State} (hW : s.Wf) : (disarm st s).Wf := by
  unfold disarm
  repeat' first
    | with_reducible assumption
    | with_reducible apply setFlag_wf
    | split
    | dsimp only
    | (simp only [wf_mk]; with_reducible apply wf_parts)

theorem quarantineCmd_wf {st : Side} {s : State} (hW : s.Wf) : (quarantineCmd st s).Wf := by
  unfold quarantineCmd
  repeat' first
    | with_reducible assumption
    | with_reducible apply setStation_wf
    | split
    | dsimp only
    | (simp only [wf_mk]; with_reducible apply wf_parts)

theorem openPort_wf {c : Nat} {p : Side} {s : State} (hW : s.Wf) : (openPort c p s).Wf := by
  unfold openPort
  repeat' first
    | with_reducible assumption
    | with_reducible apply setR_wf
    | with_reducible apply setFlag_wf
    | with_reducible apply raiseEv_wf
    | with_reducible apply setStation_wf
    | with_reducible apply setRole_wf
    | with_reducible apply setPortOpen_wf
    | with_reducible apply beginExchange_wf
    | with_reducible refine whenS_wf (fun u hu => ?_) ?_
    | split
    | dsimp only
    | (simp only [wf_mk]; with_reducible apply wf_parts)

theorem openingBoundary_wf {c : Nat} {st : Side} {s : State} (hW : s.Wf) : (openingBoundary c st s).1.Wf := by
  unfold openingBoundary
  repeat' first
    | with_reducible assumption
    | with_reducible apply raiseEv_wf
    | with_reducible apply setStation_wf
    | with_reducible apply quarantinePort_wf
    | with_reducible apply disarm_wf
    | with_reducible apply openPort_wf
    | split
    | dsimp only
    | (simp only [wf_mk]; with_reducible apply wf_parts)

theorem openingBoundary_wfE {c : Nat} {st : Side} {s : State} {x0} {tW : State} (hW : s.Wf) (eW : openingBoundary c st s = (tW, x0)) : tW.Wf := by
  have hw := openingBoundary_wf (c := c) (st := st) (s := s) hW
  rw [eW] at hw
  exact hw

theorem stationCntClear_wf {st : Side} {s : State} (hW : s.Wf) : (stationCntClear st s).Wf := by
  unfold stationCntClear
  repeat' first
    | with_reducible assumption
    | with_reducible apply clearAll_wf
    | split
    | dsimp only
    | (simp only [wf_mk]; with_reducible apply wf_parts)

theorem execTreadSnapshot_wf {tread : BitVec 16} {s : State} (hW : s.Wf) {tW : State} (eW : execTreadSnapshot tread s = .next tW) : tW.Wf := by
  revert eW
  unfold execTreadSnapshot
  repeat' first
    | with_reducible assumption
    | with_reducible apply treadSnapshot_wf
    | (intro (eQ : _ = _); with_reducible refine alive_wf hW ?_ eQ)
    | (intro (eQ : _ = _); with_reducible refine answer_wf ?_ eQ)
    | split
    | dsimp only
    | (simp only [wf_mk]; with_reducible apply wf_parts)
    | (intro (eQ : _ = _); cases eQ)

end Sys2Proof.Machine
end

