-- ==== Sys2Proof/Laws/Wf/Partner.lean ====
section
/-!
SUPPORT. The operations of Machine/Partner.lean keep the invariant State.Wf.
-/

namespace Sys2Proof.Machine

set_option linter.all false

theorem setDesc_wf {p : Nat} {w : Nat} {v : Nat} {s : State} (hW : s.Wf) : (setDesc p w v s).Wf := by
  unfold setDesc
  repeat' first
    | with_reducible assumption
    | split
    | dsimp only
    | (simp only [wf_mk]; with_reducible apply wf_parts)

theorem descWrite_wf {i : Nat} {v : Nat} {s : State} (hW : s.Wf) {tW : State} (eW : descWrite i v s = some tW) : tW.Wf := by
  revert eW
  unfold descWrite
  repeat' first
    | with_reducible assumption
    | with_reducible apply setDesc_wf
    | split
    | dsimp only
    | (simp only [wf_mk]; with_reducible apply wf_parts)
    | (intro (eQ : _ = _); cases eQ)

theorem accRow_wf {who : Option Master} {v : Nat} {s : State} (hW : s.Wf) : (accRow who v s).Wf := by
  unfold accRow
  repeat' first
    | with_reducible assumption
    | with_reducible apply setR_wf
    | with_reducible apply raiseEv_wf
    | with_reducible apply journal_wf
    | with_reducible apply journalRefused_wf
    | with_reducible apply setDesc_wf
    | split
    | dsimp only
    | (simp only [wf_mk]; with_reducible apply wf_parts)

theorem endPartner_wf {t : PartTx} {st : Nat} {data : List Byte} {s : State} (hW : s.Wf) : (endPartner t st data s).Wf := by
  unfold endPartner
  repeat' first
    | with_reducible assumption
    | with_reducible apply endAccess_wf
    | split
    | dsimp only
    | (simp only [wf_mk]; with_reducible apply wf_parts)

theorem retryPartner_wf {acc : List PartTx × List Nat × State} {t : PartTx} (hW : acc.2.2.Wf) : (retryPartner acc t).2.2.Wf := by
  obtain ⟨done, stuck, u⟩ := acc
  replace hW : u.Wf := hW
  unfold retryPartner
  dsimp only
  split
  · exact hW
  · split
    · exact cabProduce_wf (s := u) hW
    · exact hW

theorem retryAllPartners_wf : ∀ {ts : List PartTx} {acc : List PartTx × List Nat × State}, acc.2.2.Wf → (ts.foldl retryPartner acc).2.2.Wf
  | [], _, h => h
  | t :: ts, acc, h => retryAllPartners_wf (ts := ts) (acc := retryPartner acc t) (retryPartner_wf h)

theorem retryPartners_wf {s : State} (hW : s.Wf) : (retryPartners s).Wf := by
  unfold retryPartners
  exact wf_mk.mpr (wf_parts (retryAllPartners_wf (acc := ([], [], s)) hW))

theorem dropPartner_wf {i : Nat} {s : State} (hW : s.Wf) : (dropPartner i s).Wf := by
  unfold dropPartner
  repeat' first
    | with_reducible assumption
    | with_reducible apply dropPacket_wf
    | with_reducible apply retryPartners_wf
    | split
    | dsimp only
    | (simp only [wf_mk]; with_reducible apply wf_parts)

theorem partnerAccess_wf {port : Nat} {w : Waiter} {p : Nat} {off : Nat} {len : Nat} {write : Bool} {data : List Byte} {s : State} (hW : s.Wf) : (partnerAccess port w p off len write data s).Wf := by
  unfold partnerAccess
  repeat' first
    | with_reducible assumption
    | with_reducible apply freeIf_wf
    | with_reducible apply endAccess_wf
    | with_reducible apply splitAccess_wf
    | with_reducible apply retryPartners_wf
    | with_reducible refine forEach_wf (fun x u hu => ?_) ?_
    | with_reducible refine freeIf_wfE ?_ (by with_reducible assumption)
    | with_reducible refine splitAccess_wfE ?_ (by with_reducible assumption)
    | split
    | dsimp only
    | (simp only [wf_mk]; with_reducible apply wf_parts)

theorem setRunning_wf {unit : Nat} {t : Option PartTx} {s : State} (hW : s.Wf) : (setRunning unit t s).Wf := by
  unfold setRunning
  repeat' first
    | with_reducible assumption
    | split
    | dsimp only
    | (simp only [wf_mk]; with_reducible apply wf_parts)

theorem finishPartner_wf {unit : Nat} {st : Nat} {data : List Byte} {s : State} (hW : s.Wf) : (finishPartner unit st data s).Wf := by
  unfold finishPartner
  repeat' first
    | with_reducible assumption
    | with_reducible apply endPartner_wf
    | with_reducible apply setRunning_wf
    | split
    | dsimp only
    | (simp only [wf_mk]; with_reducible apply wf_parts)

theorem pumpCommand_wf {e : Nat} {s : State} (hW : s.Wf) : (pumpCommand e s).Wf := by
  unfold pumpCommand
  repeat' first
    | with_reducible assumption
    | with_reducible apply pushTxf_wf
    | with_reducible apply setRunning_wf
    | with_reducible refine forEach_wf (fun x u hu => ?_) ?_
    | split
    | dsimp only
    | (simp only [wf_mk]; with_reducible apply wf_parts)

theorem canMailDone_wf {n : Nat} {s : State} (hW : s.Wf) : (canMailDone n s).Wf := by
  unfold canMailDone
  repeat' first
    | with_reducible assumption
    | with_reducible apply freeValue_wf
    | with_reducible apply setCan_wf
    | with_reducible apply finishPartner_wf
    | with_reducible refine freeValue_wfE ?_ (by with_reducible assumption)
    | split
    | dsimp only
    | (simp only [wf_mk]; with_reducible apply wf_parts)

theorem canMailAll_wf {s : State} (hW : s.Wf) : (canMailAll s).Wf := by
  unfold canMailAll
  repeat' first
    | with_reducible assumption
    | with_reducible apply canMailDone_wf
    | with_reducible refine forEach_wf (fun x u hu => ?_) ?_
    | split
    | dsimp only
    | (simp only [wf_mk]; with_reducible apply wf_parts)

theorem issueEngine_wf {e : Nat} {t : PartTx} {s : State} (hW : s.Wf) : (issueEngine e t s).Wf := by
  unfold issueEngine
  repeat' first
    | with_reducible assumption
    | with_reducible apply endPartner_wf
    | with_reducible apply setRunning_wf
    | with_reducible apply pumpCommand_wf
    | split
    | dsimp only
    | (simp only [wf_mk]; with_reducible apply wf_parts)

theorem issueCan_wf {n : Nat} {t : PartTx} {s : State} (hW : s.Wf) : (issueCan n t s).Wf := by
  unfold issueCan
  repeat' first
    | with_reducible assumption
    | with_reducible apply setCan_wf
    | with_reducible apply setBufWord_wf
    | with_reducible apply requestBuf_wf
    | with_reducible apply endPartner_wf
    | with_reducible apply setRunning_wf
    | with_reducible apply canMailDone_wf
    | with_reducible refine forEach_wf (fun x u hu => ?_) ?_
    | split
    | dsimp only
    | (simp only [wf_mk]; with_reducible apply wf_parts)

theorem partnerTransaction_wf {p : Nat} {s : State} (hW : s.Wf) : (partnerTransaction p s).Wf := by
  unfold partnerTransaction
  repeat' first
    | with_reducible assumption
    | with_reducible apply retryPartners_wf
    | with_reducible apply ownerErr_wf
    | with_reducible apply dropPartner_wf
    | with_reducible apply pumpCommand_wf
    | with_reducible apply issueEngine_wf
    | with_reducible apply issueCan_wf
    | with_reducible refine ownerErr_wfE ?_ (by with_reducible assumption)
    | split
    | dsimp only
    | (simp only [wf_mk]; with_reducible apply wf_parts)

theorem execPartnerTransaction_wf {p : Fin 2048} {s : State} (hW : s.Wf) {tW : State} (eW : execPartnerTransaction p s = .next tW) : tW.Wf := by
  revert eW
  unfold execPartnerTransaction
  repeat' first
    | with_reducible assumption
    | with_reducible apply partnerTransaction_wf
    | (intro (eQ : _ = _); with_reducible refine alive_wf hW ?_ eQ)
    | (intro (eQ : _ = _); with_reducible refine answer_wf ?_ eQ)
    | split
    | dsimp only
    | (simp only [wf_mk]; with_reducible apply wf_parts)
    | (intro (eQ : _ = _); cases eQ)

theorem takeMail_wf {e : Nat} {s : State} (hW : s.Wf) {x0} {tW : State} (eW : takeMail e s = some (x0, tW)) : tW.Wf := by
  revert eW
  unfold takeMail
  repeat' first
    | with_reducible assumption
    | with_reducible apply setRxf_wf
    | split
    | dsimp only
    | (simp only [wf_mk]; with_reducible apply wf_parts)
    | (intro (eQ : _ = _); cases eQ)

theorem skipMail_wf {e : Nat} {n : Nat} : ∀ {s : State}, s.Wf → (skipMail e n s).Wf := by
  induction n with
  | zero =>
    intro s h
    exact h
  | succ n ih =>
    intro s h
    unfold skipMail
    split
    · split
      · exact h
      · exact ih (raiseEv_wf (incCnt_wf (setRxf_wf h)))
    · exact h

theorem collectMail_wf {e : Nat} {m : Nat × Nat × List Nat} {s : State} (hW : s.Wf) : (collectMail e m s).2.Wf := by
  unfold collectMail
  repeat' first
    | with_reducible assumption
    | with_reducible apply setRxf_wf
    | split
    | dsimp only
    | (simp only [wf_mk]; with_reducible apply wf_parts)

theorem collectMail_wfE {e : Nat} {m : Nat × Nat × List Nat} {s : State} {x0} {tW : State} (hW : s.Wf) (eW : collectMail e m s = (x0, tW)) : tW.Wf := by
  have hw := collectMail_wf (e := e) (m := m) (s := s) hW
  rw [eW] at hw
  exact hw

theorem setMail_wf {e : Nat} {m : Option (Nat × Nat × List Nat)} {s : State} (hW : s.Wf) : (setMail e m s).Wf := by
  unfold setMail
  repeat' first
    | with_reducible assumption
    | split
    | dsimp only
    | (simp only [wf_mk]; with_reducible apply wf_parts)

theorem endMail_wf {e : Nat} {w : Nat} {ws : List Nat} {s : State} (hW : s.Wf) : (endMail e w ws s).Wf := by
  unfold endMail
  repeat' first
    | with_reducible assumption
    | with_reducible apply finishPartner_wf
    | split
    | dsimp only
    | (simp only [wf_mk]; with_reducible apply wf_parts)

theorem mailStatus_wf {e : Nat} {s : State} (hW : s.Wf) : (mailStatus e s).Wf := by
  unfold mailStatus
  repeat' first
    | with_reducible assumption
    | with_reducible apply pumpCommand_wf
    | with_reducible apply skipMail_wf
    | with_reducible apply collectMail_wf
    | with_reducible apply setMail_wf
    | with_reducible apply endMail_wf
    | with_reducible refine takeMail_wf ?_ (by with_reducible assumption)
    | with_reducible refine collectMail_wfE ?_ (by with_reducible assumption)
    | split
    | dsimp only
    | (simp only [wf_mk]; with_reducible apply wf_parts)

theorem execMailboxStatus_wf {e : Fin 128} {s : State} (hW : s.Wf) {tW : State} (eW : execMailboxStatus e s = .next tW) : tW.Wf := by
  revert eW
  unfold execMailboxStatus
  repeat' first
    | with_reducible assumption
    | with_reducible apply mailStatus_wf
    | (intro (eQ : _ = _); with_reducible refine alive_wf hW ?_ eQ)
    | (intro (eQ : _ = _); with_reducible refine answer_wf ?_ eQ)
    | split
    | dsimp only
    | (simp only [wf_mk]; with_reducible apply wf_parts)
    | (intro (eQ : _ = _); cases eQ)

theorem attentionPackets_wf {port q w : Nat} {n : Nat} : ∀ {bs : List Byte} {s t : State}, s.Wf →
    attentionPackets port q w n bs s = some t → t.Wf := by
  induction n with
  | zero =>
    intro bs s t h e
    cases e
    exact h
  | succ n ih =>
    intro bs s t h e
    unfold attentionPackets at e
    dsimp only at e
    split at e
    · cases e
    · split at e
      · cases e
        exact cabProduce_wf h
      · exact ih (cabProduce_wf h) e

theorem endAttention_wf {e : Nat} {m : Nat × Nat × List Nat} {s : State} (hW : s.Wf) : (endAttention e m s).Wf := by
  unfold endAttention
  dsimp only
  split
  · exact setMail_wf hW
  · split
    · next h => exact setMail_wf (attentionPackets_wf (freeValue_wf hW) h)
    · exact setMail_wf hW

theorem mailAttention_wf {e : Nat} {s : State} (hW : s.Wf) : (mailAttention e s).Wf := by
  unfold mailAttention
  repeat' first
    | with_reducible assumption
    | with_reducible apply skipMail_wf
    | with_reducible apply collectMail_wf
    | with_reducible apply setMail_wf
    | with_reducible apply endAttention_wf
    | with_reducible refine takeMail_wf ?_ (by with_reducible assumption)
    | with_reducible refine collectMail_wfE ?_ (by with_reducible assumption)
    | split
    | dsimp only
    | (simp only [wf_mk]; with_reducible apply wf_parts)

theorem execMailboxAttention_wf {e : Fin 128} {s : State} (hW : s.Wf) {tW : State} (eW : execMailboxAttention e s = .next tW) : tW.Wf := by
  revert eW
  unfold execMailboxAttention
  repeat' first
    | with_reducible assumption
    | with_reducible apply mailAttention_wf
    | (intro (eQ : _ = _); with_reducible refine alive_wf hW ?_ eQ)
    | (intro (eQ : _ = _); with_reducible refine answer_wf ?_ eQ)
    | split
    | dsimp only
    | (simp only [wf_mk]; with_reducible apply wf_parts)
    | (intro (eQ : _ = _); cases eQ)

theorem partnerTimeout_wf {p : Nat} {s : State} (hW : s.Wf) : (partnerTimeout p s).Wf := by
  unfold partnerTimeout
  split
  · exact hW
  · refine iteInduction (motive := State.Wf) (fun _ => hW) fun _ => ?_
    exact raiseEv_wf (finishPartner_wf (setMail_wf hW))

theorem execPartnerTimeout_wf {p : Fin 2048} {s : State} (hW : s.Wf) {tW : State} (eW : execPartnerTimeout p s = .next tW) : tW.Wf := by
  revert eW
  unfold execPartnerTimeout
  repeat' first
    | with_reducible assumption
    | with_reducible apply partnerTimeout_wf
    | (intro (eQ : _ = _); with_reducible refine alive_wf hW ?_ eQ)
    | (intro (eQ : _ = _); with_reducible refine answer_wf ?_ eQ)
    | split
    | dsimp only
    | (simp only [wf_mk]; with_reducible apply wf_parts)
    | (intro (eQ : _ = _); cases eQ)

theorem fencePartners_wf {unit : Nat} {s : State} (hW : s.Wf) : (fencePartners unit s).Wf := by
  unfold fencePartners
  repeat' first
    | with_reducible assumption
    | with_reducible apply finishPartner_wf
    | with_reducible apply setMail_wf
    | split
    | dsimp only
    | (simp only [wf_mk]; with_reducible apply wf_parts)

theorem execCanAttemptStart_wf {n : Fin 16} {s : State} (hW : s.Wf) {tW : State} (eW : execCanAttemptStart n s = .next tW) : tW.Wf := by
  revert eW
  unfold execCanAttemptStart
  repeat' first
    | with_reducible assumption
    | with_reducible apply attemptStart_wf
    | with_reducible apply canMailDone_wf
    | (intro (eQ : _ = _); with_reducible refine alive_wf hW ?_ eQ)
    | (intro (eQ : _ = _); with_reducible refine answer_wf ?_ eQ)
    | split
    | dsimp only
    | (simp only [wf_mk]; with_reducible apply wf_parts)
    | (intro (eQ : _ = _); cases eQ)

theorem execCanAttemptEnd_wf {n : Fin 16} {outcome : CanOutcome} {s : State} (hW : s.Wf) {tW : State} (eW : execCanAttemptEnd n outcome s = .next tW) : tW.Wf := by
  revert eW
  unfold execCanAttemptEnd
  repeat' first
    | with_reducible assumption
    | with_reducible apply attemptEnd_wf
    | with_reducible apply canMailDone_wf
    | (intro (eQ : _ = _); with_reducible refine alive_wf hW ?_ eQ)
    | (intro (eQ : _ = _); with_reducible refine answer_wf ?_ eQ)
    | split
    | dsimp only
    | (simp only [wf_mk]; with_reducible apply wf_parts)
    | (intro (eQ : _ = _); cases eQ)

end Sys2Proof.Machine
end

