-- ==== Sys2Proof/Laws/Wf/Dma.lean ====
section
/-!
SUPPORT. The operations of Machine/Dma.lean keep the invariant State.Wf.
-/

namespace Sys2Proof.Machine

set_option linter.all false

theorem setDma_wf {c : Nat} {r : DmaRun} {s : State} (hW : s.Wf) : (setDma c r s).Wf := by
  unfold setDma
  repeat' first
    | with_reducible assumption
    | split
    | dsimp only
    | (simp only [wf_mk]; with_reducible apply wf_parts)

theorem noteHostUnset_wf {s : State} (hW : s.Wf) : (noteHostUnset s).Wf := by
  unfold noteHostUnset
  repeat' first
    | with_reducible assumption
    | with_reducible apply raiseEv_wf
    | split
    | dsimp only
    | (simp only [wf_mk]; with_reducible apply wf_parts)

theorem dmaTrigger_wf {i : Nat} {s : State} (hW : s.Wf) : (dmaTrigger i s).Wf := by
  unfold dmaTrigger
  repeat' first
    | with_reducible assumption
    | with_reducible apply setDma_wf
    | with_reducible apply noteHostUnset_wf
    | split
    | dsimp only
    | (simp only [wf_mk]; with_reducible apply wf_parts)

theorem execDmaTrigger_wf {index : Nat} {s : State} (hW : s.Wf) {tW : State} (eW : execDmaTrigger index s = .next tW) : tW.Wf := by
  revert eW
  unfold execDmaTrigger
  repeat' first
    | with_reducible assumption
    | with_reducible apply dmaTrigger_wf
    | (intro (eQ : _ = _); with_reducible refine alive_wf hW ?_ eQ)
    | (intro (eQ : _ = _); with_reducible refine answer_wf ?_ eQ)
    | split
    | dsimp only
    | (simp only [wf_mk]; with_reducible apply wf_parts)
    | (intro (eQ : _ = _); cases eQ)

theorem dmaDataReturn_wf {c : Nat} {i : Nat} {off : Nat} {data : List Byte} {s : State} (hW : s.Wf) : (dmaDataReturn c i off data s).Wf := by
  unfold dmaDataReturn
  repeat' first
    | with_reducible assumption
    | split
    | dsimp only
    | (simp only [wf_mk]; with_reducible apply wf_parts)
    | (simp only [wf_mk]; constructor <;> first | rfl | with_reducible exact State.Wf.dram (by with_reducible assumption) | with_reducible exact State.Wf.flash (by with_reducible assumption) | with_reducible exact State.Wf.committed (by with_reducible assumption) | with_reducible exact State.Wf.staging (by with_reducible assumption) | with_reducible exact State.Wf.active (by with_reducible assumption) | with_reducible exact State.Wf.pend (by with_reducible assumption) | with_reducible exact State.Wf.store (by with_reducible assumption) | with_reducible exact State.Wf.log (by with_reducible assumption) | with_reducible exact State.Wf.held (by with_reducible assumption) | (with_reducible refine memWriteN_wf _ ?_ _; first | rfl | with_reducible exact State.Wf.dram (by with_reducible assumption) | with_reducible exact State.Wf.flash (by with_reducible assumption) | with_reducible exact State.Wf.committed (by with_reducible assumption) | with_reducible exact State.Wf.staging (by with_reducible assumption) | with_reducible exact State.Wf.active (by with_reducible assumption) | with_reducible exact State.Wf.pend (by with_reducible assumption)) | (with_reducible refine memPutNat_wf ?_ _ _ _; first | rfl | with_reducible exact State.Wf.dram (by with_reducible assumption) | with_reducible exact State.Wf.flash (by with_reducible assumption) | with_reducible exact State.Wf.committed (by with_reducible assumption) | with_reducible exact State.Wf.staging (by with_reducible assumption) | with_reducible exact State.Wf.active (by with_reducible assumption) | with_reducible exact State.Wf.pend (by with_reducible assumption)) | (with_reducible refine memSplice_wf ?_ _ _; first | rfl | with_reducible exact State.Wf.dram (by with_reducible assumption) | with_reducible exact State.Wf.flash (by with_reducible assumption) | with_reducible exact State.Wf.committed (by with_reducible assumption) | with_reducible exact State.Wf.staging (by with_reducible assumption) | with_reducible exact State.Wf.active (by with_reducible assumption) | with_reducible exact State.Wf.pend (by with_reducible assumption)) | (with_reducible refine memClear_wf ?_ _ _; first | rfl | with_reducible exact State.Wf.dram (by with_reducible assumption) | with_reducible exact State.Wf.flash (by with_reducible assumption) | with_reducible exact State.Wf.committed (by with_reducible assumption) | with_reducible exact State.Wf.staging (by with_reducible assumption) | with_reducible exact State.Wf.active (by with_reducible assumption) | with_reducible exact State.Wf.pend (by with_reducible assumption)))

theorem execDmaDataReturn_wf {cycle : BitVec 48} {index : Nat} {off : Nat} {data : List Byte} {s : State} (hW : s.Wf) {tW : State} (eW : execDmaDataReturn cycle index off data s = .next tW) : tW.Wf := by
  revert eW
  unfold execDmaDataReturn
  repeat' first
    | with_reducible assumption
    | with_reducible apply dmaDataReturn_wf
    | (intro (eQ : _ = _); with_reducible refine alive_wf hW ?_ eQ)
    | (intro (eQ : _ = _); with_reducible refine answer_wf ?_ eQ)
    | split
    | dsimp only
    | (simp only [wf_mk]; with_reducible apply wf_parts)
    | (intro (eQ : _ = _); cases eQ)

theorem dmaDone_wf {c : Nat} {s : State} (hW : s.Wf) : (dmaDone c s).Wf := by
  unfold dmaDone
  repeat' first
    | with_reducible assumption
    | with_reducible apply setR_wf
    | with_reducible apply raiseEv_wf
    | split
    | dsimp only
    | (simp only [wf_mk]; with_reducible apply wf_parts)

theorem execDmaDone_wf {cycle : BitVec 48} {s : State} (hW : s.Wf) {tW : State} (eW : execDmaDone cycle s = .next tW) : tW.Wf := by
  revert eW
  unfold execDmaDone
  repeat' first
    | with_reducible assumption
    | with_reducible apply dmaDone_wf
    | (intro (eQ : _ = _); with_reducible refine alive_wf hW ?_ eQ)
    | (intro (eQ : _ = _); with_reducible refine answer_wf ?_ eQ)
    | split
    | dsimp only
    | (simp only [wf_mk]; with_reducible apply wf_parts)
    | (intro (eQ : _ = _); cases eQ)

theorem dmaErr_wf {c : Nat} {i : Nat} {s : State} (hW : s.Wf) : (dmaErr c i s).Wf := by
  unfold dmaErr
  repeat' first
    | with_reducible assumption
    | with_reducible apply incCnt_wf
    | with_reducible apply raiseEv_wf
    | with_reducible apply dmaFlag_wf
    | split
    | dsimp only
    | (simp only [wf_mk]; with_reducible apply wf_parts)

theorem execDmaErr_wf {cycle : BitVec 48} {index : Nat} {s : State} (hW : s.Wf) {tW : State} (eW : execDmaErr cycle index s = .next tW) : tW.Wf := by
  revert eW
  unfold execDmaErr
  repeat' first
    | with_reducible assumption
    | with_reducible apply dmaErr_wf
    | (intro (eQ : _ = _); with_reducible refine alive_wf hW ?_ eQ)
    | (intro (eQ : _ = _); with_reducible refine answer_wf ?_ eQ)
    | split
    | dsimp only
    | (simp only [wf_mk]; with_reducible apply wf_parts)
    | (intro (eQ : _ = _); cases eQ)

theorem dmaBoundary_wf {c : Nat} {s : State} (hW : s.Wf) : (dmaBoundary c s).Wf := by
  unfold dmaBoundary
  repeat' first
    | with_reducible assumption
    | with_reducible apply raiseEv_wf
    | with_reducible apply dmaFlag_wf
    | with_reducible apply setDma_wf
    | with_reducible apply noteHostUnset_wf
    | with_reducible refine whenS_wf (fun u hu => ?_) ?_
    | split
    | dsimp only
    | (simp only [wf_mk]; with_reducible apply wf_parts)

theorem imgCntClear_wf {s : State} (hW : s.Wf) : (imgCntClear s).Wf := by
  unfold imgCntClear
  repeat' first
    | with_reducible assumption
    | with_reducible apply clearAll_wf
    | split
    | dsimp only
    | (simp only [wf_mk]; with_reducible apply wf_parts)

theorem bulkStop_wf {ch : Nat} {s : State} (hW : s.Wf) : (bulkStop ch s).Wf := by
  unfold bulkStop
  repeat' first
    | with_reducible assumption
    | with_reducible apply setFlag_wf
    | with_reducible apply raiseEv_wf
    | split
    | dsimp only
    | (simp only [wf_mk]; with_reducible apply wf_parts)

theorem bulkCopy_wf {ch : Nat} {s : State} (hW : s.Wf) : (bulkCopy ch s).Wf := by
  unfold bulkCopy
  repeat' first
    | with_reducible assumption
    | with_reducible apply setR_wf
    | with_reducible apply ownerErr_wf
    | with_reducible apply noteVerdict_wf
    | with_reducible apply dramWrite_wf
    | with_reducible apply dropPacket_wf
    | with_reducible apply bulkStop_wf
    | with_reducible refine forEach_wf (fun x u hu => ?_) ?_
    | with_reducible refine ownerErr_wfE ?_ (by with_reducible assumption)
    | split
    | dsimp only
    | (simp only [wf_mk]; with_reducible apply wf_parts)

theorem execDramBulkCopy_wf {ch : Fin 4} {s : State} (hW : s.Wf) {tW : State} (eW : execDramBulkCopy ch s = .next tW) : tW.Wf := by
  revert eW
  unfold execDramBulkCopy
  repeat' first
    | with_reducible assumption
    | with_reducible apply bulkCopy_wf
    | (intro (eQ : _ = _); with_reducible refine alive_wf hW ?_ eQ)
    | (intro (eQ : _ = _); with_reducible refine answer_wf ?_ eQ)
    | split
    | dsimp only
    | (simp only [wf_mk]; with_reducible apply wf_parts)
    | (intro (eQ : _ = _); cases eQ)

theorem bulkCtrlWrite_wf {ch : Nat} {queue : Nat} {en : Bool} {s : State} (hW : s.Wf) : (bulkCtrlWrite ch queue en s).Wf := by
  unfold bulkCtrlWrite
  repeat' first
    | with_reducible assumption
    | with_reducible apply setR_wf
    | with_reducible apply setFlag_wf
    | with_reducible apply enableRefused_wf
    | split
    | dsimp only
    | (simp only [wf_mk]; with_reducible apply wf_parts)

end Sys2Proof.Machine
end

