-- ==== Sys2Proof/Laws/Wf/Ingress.lean ====
section
/-!
SUPPORT. The operations of Machine/Ingress.lean keep the invariant State.Wf.
-/

namespace Sys2Proof.Machine

set_option linter.all false

theorem useReserved_wf {m : InMsg} {s : State} (hW : s.Wf) : (useReserved m s).Wf := by
  unfold useReserved
  repeat' first
    | with_reducible assumption
    | split
    | dsimp only
    | (simp only [wf_mk]; with_reducible apply wf_parts)

theorem drainMsg_wf {acc : List InMsg × List Nat × State} {m : InMsg} (hW : acc.2.2.Wf) : (drainMsg acc m).2.2.Wf := by
  obtain ⟨done, stuck, u⟩ := acc
  replace hW : u.Wf := hW
  unfold drainMsg
  dsimp only
  split
  · exact hW
  · split
    · exact whenS_wf (fun v hv => useReserved_wf hv) (cabProduce_wf (s := u) hW)
    · exact hW

theorem drainAll_wf : ∀ {ms : List InMsg} {acc : List InMsg × List Nat × State}, acc.2.2.Wf → (ms.foldl drainMsg acc).2.2.Wf
  | [], _, h => h
  | m :: ms, acc, h => drainAll_wf (ms := ms) (acc := drainMsg acc m) (drainMsg_wf h)

theorem drainIngress_wf {s : State} (hW : s.Wf) : (drainIngress s).Wf := by
  unfold drainIngress
  exact wf_mk.mpr (wf_parts (drainAll_wf (acc := ([], [], s)) hW))

theorem removeIn_wf {i : Nat} {s : State} (hW : s.Wf) : (removeIn i s).Wf := by
  unfold removeIn
  repeat' first
    | with_reducible assumption
    | with_reducible apply dropPacket_wf
    | with_reducible apply drainIngress_wf
    | with_reducible refine whenS_wf (fun u hu => ?_) ?_
    | split
    | dsimp only
    | (simp only [wf_mk]; with_reducible apply wf_parts)

theorem forgetFlushed_wf {q : Nat} {s : State} (hW : s.Wf) : (forgetFlushed q s).Wf := by
  unfold forgetFlushed
  repeat' first
    | with_reducible assumption
    | with_reducible apply syncNotices_wf
    | split
    | dsimp only
    | (simp only [wf_mk]; with_reducible apply wf_parts)

theorem takeMessage_wf {p : Side} {c i : Nat} {msg : Nat × List Nat} {acc : (Nat × Nat) × State} (hW : acc.2.Wf) :
    (takeMessage p c i msg acc).2.Wf := by
  obtain ⟨⟨others, resp⟩, s⟩ := acc
  obtain ⟨h, tail⟩ := msg
  replace hW : s.Wf := hW
  unfold takeMessage
  dsimp only
  repeat' (first | exact hW | exact raiseEv_wf (incCnt_wf hW) | exact drainIngress_wf (wf_mk.mpr (wf_parts hW)) | split)

theorem takeShare_wf {p : Side} {c i : Nat} {damaged : Bool} {blocks : List Nat} {acc : (Nat × Nat) × State} (hW : acc.2.Wf) :
    (takeShare p c i damaged blocks acc).2.Wf := by
  unfold takeShare
  refine whenS_wf (fun u hu => raiseEv_wf (incCnt_wf hu)) ?_
  split
  · exact whenS_wf (fun u hu => raiseEv_wf (addCnt_wf hu)) hW
  · exact foldl_snd_wf (fun a e ha => takeMessage_wf ha) _ _ hW

theorem takeRegion_wf {st : Side} {payload : Nat} {others : Nat} {responses : Nat} {s : State} (hW : s.Wf) : (takeRegion st payload others responses s).Wf := by
  unfold takeRegion
  repeat' first
    | with_reducible assumption
    | with_reducible apply takeShare_wf
    | with_reducible refine foldl_wf (fun u x hu => ?_) _ _ ?_
    | with_reducible refine foldl_snd_wf (fun p x hp => ?_) _ _ ?_
    | with_reducible refine foldl_snd_wfE (fun p x hp => ?_) ?_ (by with_reducible assumption)
    | with_reducible refine takeShare_wfE ?_ (by with_reducible assumption)
    | split
    | dsimp only
    | (simp only [wf_mk]; with_reducible apply wf_parts)

theorem landingEnd_wf {st : Side} {payload : Nat} {others : Nat} {responses : Nat} {s : State} (hW : s.Wf) : (landingEnd st payload others responses s).Wf := by
  unfold landingEnd
  repeat' first
    | with_reducible assumption
    | with_reducible apply landingEndStation_wf
    | with_reducible apply takeRegion_wf
    | split
    | dsimp only
    | (simp only [wf_mk]; with_reducible apply wf_parts)

theorem execLandingEnd_wf {st : Side} {payload : BitVec 64} {others : Fin 65537} {responses : Fin 65537} {s : State} (hW : s.Wf) {tW : State} (eW : execLandingEnd st payload others responses s = .next tW) : tW.Wf := by
  revert eW
  unfold execLandingEnd
  repeat' first
    | with_reducible assumption
    | with_reducible apply landingEnd_wf
    | (intro (eQ : _ = _); with_reducible refine alive_wf hW ?_ eQ)
    | (intro (eQ : _ = _); with_reducible refine answer_wf ?_ eQ)
    | split
    | dsimp only
    | (simp only [wf_mk]; with_reducible apply wf_parts)
    | (intro (eQ : _ = _); cases eQ)

end Sys2Proof.Machine
end

