-- ==== Sys2Proof/Laws/Wf/Lane.lean ====
section
/-!
SUPPORT. The operations of Machine/Lane.lean keep the invariant State.Wf.
-/

namespace Sys2Proof.Machine

set_option linter.all false

theorem takeLinkDown_wf {p : Side} {s : State} (hW : s.Wf) : (takeLinkDown p s).Wf := by
  unfold takeLinkDown
  repeat' first
    | with_reducible assumption
    | with_reducible apply setFlag_wf
    | with_reducible apply raiseEv_wf
    | with_reducible apply setPort_wf
    | with_reducible apply stationLinkDown_wf
    | split
    | dsimp only
    | (simp only [wf_mk]; with_reducible apply wf_parts)

theorem syncRate_wf {p : Side} {s : State} (hW : s.Wf) : (syncRate p s).Wf := by
  unfold syncRate
  repeat' first
    | with_reducible assumption
    | with_reducible apply setLevel_wf
    | split
    | dsimp only
    | (simp only [wf_mk]; with_reducible apply wf_parts)

theorem clearLocks_wf {p : Side} {n : Nat} {s : State} (hW : s.Wf) : (clearLocks p n s).Wf := by
  unfold clearLocks
  repeat' first
    | with_reducible assumption
    | with_reducible apply setFlag_wf
    | split
    | dsimp only
    | (simp only [wf_mk]; with_reducible apply wf_parts)

theorem freshBringup_wf {p : Side} {s : State} (hW : s.Wf) : (freshBringup p s).Wf := by
  unfold freshBringup
  repeat' first
    | with_reducible assumption
    | with_reducible apply setPort_wf
    | split
    | dsimp only
    | (simp only [wf_mk]; with_reducible apply wf_parts)

theorem laneEnable_wf {p : Side} {n : Nat} {s : State} (hW : s.Wf) : (laneEnable p n s).Wf := by
  unfold laneEnable
  repeat' first
    | with_reducible assumption
    | with_reducible apply setR_wf
    | with_reducible apply setPort_wf
    | with_reducible apply setLaneState_wf
    | with_reducible apply syncLaneLevels_wf
    | with_reducible apply takeLinkDown_wf
    | with_reducible apply syncRate_wf
    | with_reducible apply clearLocks_wf
    | with_reducible apply freshBringup_wf
    | with_reducible refine whenS_wf (fun u hu => ?_) ?_
    | split
    | dsimp only
    | (simp only [wf_mk]; with_reducible apply wf_parts)

theorem laneDisable_wf {p : Side} {n : Nat} {s : State} (hW : s.Wf) : (laneDisable p n s).Wf := by
  unfold laneDisable
  repeat' first
    | with_reducible assumption
    | with_reducible apply setFlag_wf
    | with_reducible apply setLaneState_wf
    | with_reducible apply syncLaneLevels_wf
    | with_reducible apply takeLinkDown_wf
    | with_reducible apply clearLocks_wf
    | with_reducible apply freshBringup_wf
    | with_reducible refine whenS_wf (fun u hu => ?_) ?_
    | split
    | dsimp only
    | (simp only [wf_mk]; with_reducible apply wf_parts)

theorem execLaneEnable_wf {p : Side} {n : Fin 4} {s : State} (hW : s.Wf) {tW : State} (eW : execLaneEnable p n s = .next tW) : tW.Wf := by
  revert eW
  unfold execLaneEnable
  repeat' first
    | with_reducible assumption
    | with_reducible apply laneEnable_wf
    | (intro (eQ : _ = _); with_reducible refine alive_wf hW ?_ eQ)
    | (intro (eQ : _ = _); with_reducible refine answer_wf ?_ eQ)
    | split
    | dsimp only
    | (simp only [wf_mk]; with_reducible apply wf_parts)
    | (intro (eQ : _ = _); cases eQ)

theorem pllLock_wf {p : Side} {n : Nat} {s : State} (hW : s.Wf) : (pllLock p n s).Wf := by
  unfold pllLock
  repeat' first
    | with_reducible assumption
    | with_reducible apply setR_wf
    | with_reducible apply setFlag_wf
    | with_reducible apply setLane_wf
    | with_reducible apply setLaneState_wf
    | with_reducible apply syncLaneLevels_wf
    | with_reducible refine whenS_wf (fun u hu => ?_) ?_
    | split
    | dsimp only
    | (simp only [wf_mk]; with_reducible apply wf_parts)

theorem execPllLock_wf {p : Side} {n : Fin 4} {s : State} (hW : s.Wf) {tW : State} (eW : execPllLock p n s = .next tW) : tW.Wf := by
  revert eW
  unfold execPllLock
  repeat' first
    | with_reducible assumption
    | with_reducible apply pllLock_wf
    | (intro (eQ : _ = _); with_reducible refine alive_wf hW ?_ eQ)
    | (intro (eQ : _ = _); with_reducible refine answer_wf ?_ eQ)
    | split
    | dsimp only
    | (simp only [wf_mk]; with_reducible apply wf_parts)
    | (intro (eQ : _ = _); cases eQ)

theorem pllUnlock_wf {p : Side} {n : Nat} {s : State} (hW : s.Wf) : (pllUnlock p n s).Wf := by
  unfold pllUnlock
  repeat' first
    | with_reducible assumption
    | with_reducible apply setFlag_wf
    | with_reducible apply setLane_wf
    | with_reducible apply syncLaneLevels_wf
    | split
    | dsimp only
    | (simp only [wf_mk]; with_reducible apply wf_parts)

theorem execPllUnlock_wf {p : Side} {n : Fin 4} {s : State} (hW : s.Wf) {tW : State} (eW : execPllUnlock p n s = .next tW) : tW.Wf := by
  revert eW
  unfold execPllUnlock
  repeat' first
    | with_reducible assumption
    | with_reducible apply pllUnlock_wf
    | (intro (eQ : _ = _); with_reducible refine alive_wf hW ?_ eQ)
    | (intro (eQ : _ = _); with_reducible refine answer_wf ?_ eQ)
    | split
    | dsimp only
    | (simp only [wf_mk]; with_reducible apply wf_parts)
    | (intro (eQ : _ = _); cases eQ)

theorem syncLos_wf {p : Side} {s : State} (hW : s.Wf) : (syncLos p s).Wf := by
  unfold syncLos
  repeat' first
    | with_reducible assumption
    | with_reducible apply setLevel_wf
    | split
    | dsimp only
    | (simp only [wf_mk]; with_reducible apply wf_parts)

theorem signalDetect_wf {p : Side} {n : Nat} {s : State} (hW : s.Wf) : (signalDetect p n s).Wf := by
  unfold signalDetect
  repeat' first
    | with_reducible assumption
    | with_reducible apply setPort_wf
    | with_reducible apply setLane_wf
    | with_reducible apply requestExit_wf
    | with_reducible apply syncLos_wf
    | with_reducible refine whenS_wf (fun u hu => ?_) ?_
    | split
    | dsimp only
    | (simp only [wf_mk]; with_reducible apply wf_parts)

theorem execSignalDetect_wf {p : Side} {n : Fin 4} {s : State} (hW : s.Wf) {tW : State} (eW : execSignalDetect p n s = .next tW) : tW.Wf := by
  revert eW
  unfold execSignalDetect
  repeat' first
    | with_reducible assumption
    | with_reducible apply signalDetect_wf
    | (intro (eQ : _ = _); with_reducible refine alive_wf hW ?_ eQ)
    | (intro (eQ : _ = _); with_reducible refine answer_wf ?_ eQ)
    | split
    | dsimp only
    | (simp only [wf_mk]; with_reducible apply wf_parts)
    | (intro (eQ : _ = _); cases eQ)

theorem loseSignal_wf {p : Side} {n : Nat} {s : State} (hW : s.Wf) : (loseSignal p n s).Wf := by
  unfold loseSignal
  repeat' first
    | with_reducible assumption
    | with_reducible apply setFlag_wf
    | with_reducible apply setLane_wf
    | with_reducible apply takeLinkDown_wf
    | with_reducible apply freshBringup_wf
    | with_reducible apply syncLos_wf
    | split
    | dsimp only
    | (simp only [wf_mk]; with_reducible apply wf_parts)

theorem execLos_wf {p : Side} {n : Fin 4} {s : State} (hW : s.Wf) {tW : State} (eW : execLos p n s = .next tW) : tW.Wf := by
  revert eW
  unfold execLos
  repeat' first
    | with_reducible assumption
    | with_reducible apply loseSignal_wf
    | (intro (eQ : _ = _); with_reducible refine alive_wf hW ?_ eQ)
    | (intro (eQ : _ = _); with_reducible refine answer_wf ?_ eQ)
    | split
    | dsimp only
    | (simp only [wf_mk]; with_reducible apply wf_parts)
    | (intro (eQ : _ = _); cases eQ)

theorem cdrLock_wf {p : Side} {n : Nat} {ctle : Nat} {s : State} (hW : s.Wf) : (cdrLock p n ctle s).Wf := by
  unfold cdrLock
  repeat' first
    | with_reducible assumption
    | with_reducible apply setR_wf
    | with_reducible apply setFlag_wf
    | with_reducible refine whenS_wf (fun u hu => ?_) ?_
    | split
    | dsimp only
    | (simp only [wf_mk]; with_reducible apply wf_parts)

theorem execCdrLock_wf {p : Side} {n : Fin 4} {ctle : Fin 32} {s : State} (hW : s.Wf) {tW : State} (eW : execCdrLock p n ctle s = .next tW) : tW.Wf := by
  revert eW
  unfold execCdrLock
  repeat' first
    | with_reducible assumption
    | with_reducible apply cdrLock_wf
    | (intro (eQ : _ = _); with_reducible refine alive_wf hW ?_ eQ)
    | (intro (eQ : _ = _); with_reducible refine answer_wf ?_ eQ)
    | split
    | dsimp only
    | (simp only [wf_mk]; with_reducible apply wf_parts)
    | (intro (eQ : _ = _); cases eQ)

theorem blockLock_wf {p : Side} {n : Nat} {s : State} (hW : s.Wf) : (blockLock p n s).Wf := by
  unfold blockLock
  repeat' first
    | with_reducible assumption
    | with_reducible apply setFlag_wf
    | with_reducible apply setLane_wf
    | split
    | dsimp only
    | (simp only [wf_mk]; with_reducible apply wf_parts)

theorem execBlockLock_wf {p : Side} {n : Fin 4} {s : State} (hW : s.Wf) {tW : State} (eW : execBlockLock p n s = .next tW) : tW.Wf := by
  revert eW
  unfold execBlockLock
  repeat' first
    | with_reducible assumption
    | with_reducible apply blockLock_wf
    | (intro (eQ : _ = _); with_reducible refine alive_wf hW ?_ eQ)
    | (intro (eQ : _ = _); with_reducible refine answer_wf ?_ eQ)
    | split
    | dsimp only
    | (simp only [wf_mk]; with_reducible apply wf_parts)
    | (intro (eQ : _ = _); cases eQ)

theorem blockLockLost_wf {p : Side} {n : Nat} {s : State} (hW : s.Wf) : (blockLockLost p n s).Wf := by
  unfold blockLockLost
  repeat' first
    | with_reducible assumption
    | with_reducible apply setFlag_wf
    | with_reducible apply incCnt_wf
    | with_reducible apply raiseEv_wf
    | with_reducible apply takeLinkDown_wf
    | with_reducible refine whenS_wf (fun u hu => ?_) ?_
    | split
    | dsimp only
    | (simp only [wf_mk]; with_reducible apply wf_parts)

theorem execBlockLockLost_wf {p : Side} {n : Fin 4} {s : State} (hW : s.Wf) {tW : State} (eW : execBlockLockLost p n s = .next tW) : tW.Wf := by
  revert eW
  unfold execBlockLockLost
  repeat' first
    | with_reducible assumption
    | with_reducible apply blockLockLost_wf
    | (intro (eQ : _ = _); with_reducible refine alive_wf hW ?_ eQ)
    | (intro (eQ : _ = _); with_reducible refine answer_wf ?_ eQ)
    | split
    | dsimp only
    | (simp only [wf_mk]; with_reducible apply wf_parts)
    | (intro (eQ : _ = _); cases eQ)

theorem hiBer_wf {p : Side} {n : Nat} {s : State} (hW : s.Wf) : (hiBer p n s).Wf := by
  unfold hiBer
  repeat' first
    | with_reducible assumption
    | with_reducible apply setFlag_wf
    | with_reducible apply syncLaneLevels_wf
    | with_reducible apply takeLinkDown_wf
    | with_reducible refine whenS_wf (fun u hu => ?_) ?_
    | split
    | dsimp only
    | (simp only [wf_mk]; with_reducible apply wf_parts)

theorem execHiBer_wf {p : Side} {n : Fin 4} {s : State} (hW : s.Wf) {tW : State} (eW : execHiBer p n s = .next tW) : tW.Wf := by
  revert eW
  unfold execHiBer
  repeat' first
    | with_reducible assumption
    | with_reducible apply hiBer_wf
    | (intro (eQ : _ = _); with_reducible refine alive_wf hW ?_ eQ)
    | (intro (eQ : _ = _); with_reducible refine answer_wf ?_ eQ)
    | split
    | dsimp only
    | (simp only [wf_mk]; with_reducible apply wf_parts)
    | (intro (eQ : _ = _); cases eQ)

theorem execHiBerClear_wf {p : Side} {n : Fin 4} {s : State} (hW : s.Wf) {tW : State} (eW : execHiBerClear p n s = .next tW) : tW.Wf := by
  revert eW
  unfold execHiBerClear
  repeat' first
    | with_reducible assumption
    | with_reducible apply setFlag_wf
    | with_reducible apply syncLaneLevels_wf
    | (intro (eQ : _ = _); with_reducible refine alive_wf hW ?_ eQ)
    | (intro (eQ : _ = _); with_reducible refine answer_wf ?_ eQ)
    | split
    | dsimp only
    | (simp only [wf_mk]; with_reducible apply wf_parts)
    | (intro (eQ : _ = _); cases eQ)

theorem markerLockLost_wf {p : Side} {n : Nat} {s : State} (hW : s.Wf) : (markerLockLost p n s).Wf := by
  unfold markerLockLost
  repeat' first
    | with_reducible assumption
    | with_reducible apply setFlag_wf
    | with_reducible apply incCnt_wf
    | with_reducible apply raiseEv_wf
    | with_reducible apply setLane_wf
    | with_reducible apply takeLinkDown_wf
    | with_reducible refine whenS_wf (fun u hu => ?_) ?_
    | split
    | dsimp only
    | (simp only [wf_mk]; with_reducible apply wf_parts)

theorem execMarkerLockLost_wf {p : Side} {n : Fin 4} {s : State} (hW : s.Wf) {tW : State} (eW : execMarkerLockLost p n s = .next tW) : tW.Wf := by
  revert eW
  unfold execMarkerLockLost
  repeat' first
    | with_reducible assumption
    | with_reducible apply markerLockLost_wf
    | (intro (eQ : _ = _); with_reducible refine alive_wf hW ?_ eQ)
    | (intro (eQ : _ = _); with_reducible refine answer_wf ?_ eQ)
    | split
    | dsimp only
    | (simp only [wf_mk]; with_reducible apply wf_parts)
    | (intro (eQ : _ = _); cases eQ)

theorem restartBip_wf {p : Side} {n : Nat} {s : State} (hW : s.Wf) : (restartBip p n s).Wf := by
  unfold restartBip
  repeat' first
    | with_reducible assumption
    | with_reducible apply setLane_wf
    | split
    | dsimp only
    | (simp only [wf_mk]; with_reducible apply wf_parts)

theorem trackMarker_wf {p : Side} {n : Nat} {w : Nat} {s : State} (hW : s.Wf) : (trackMarker p n w s).Wf := by
  unfold trackMarker
  repeat' first
    | with_reducible assumption
    | with_reducible apply setFlag_wf
    | with_reducible apply setLane_wf
    | with_reducible apply restartBip_wf
    | with_reducible refine whenS_wf (fun u hu => ?_) ?_
    | split
    | dsimp only
    | (simp only [wf_mk]; with_reducible apply wf_parts)

theorem takeMarker_wf {p : Side} {n : Nat} {w : Nat} {s : State} (hW : s.Wf) : (takeMarker p n w s).Wf := by
  unfold takeMarker
  repeat' first
    | with_reducible assumption
    | with_reducible apply setR_wf
    | with_reducible apply setFlag_wf
    | with_reducible apply addPair_wf
    | with_reducible apply raiseEv_wf
    | with_reducible apply raiseIf_wf
    | with_reducible apply markerLockLost_wf
    | with_reducible apply trackMarker_wf
    | with_reducible refine whenS_wf (fun u hu => ?_) ?_
    | split
    | dsimp only
    | (simp only [wf_mk]; with_reducible apply wf_parts)

theorem takeWidth_wf {p : Side} {w : Nat} {s : State} (hW : s.Wf) : (takeWidth p w s).Wf := by
  unfold takeWidth
  repeat' first
    | with_reducible assumption
    | with_reducible apply setFlag_wf
    | with_reducible apply setPort_wf
    | with_reducible apply parkLanes_wf
    | with_reducible apply setTxWidth_wf
    | with_reducible apply syncLos_wf
    | with_reducible refine whenS_wf (fun u hu => ?_) ?_
    | with_reducible refine forEach_wf (fun x u hu => ?_) ?_
    | split
    | dsimp only
    | (simp only [wf_mk]; with_reducible apply wf_parts)

theorem setFill_wf {p : Side} {fill : Nat} {s : State} (hW : s.Wf) : (setFill p fill s).Wf := by
  unfold setFill
  repeat' first
    | with_reducible assumption
    | with_reducible apply setR_wf
    | split
    | dsimp only
    | (simp only [wf_mk]; with_reducible apply wf_parts)

theorem elastic_wf {p : Side} {fill : Nat} {fillers : Nat} {s : State} (hW : s.Wf) : (elastic p fill fillers s).Wf := by
  unfold elastic
  repeat' first
    | with_reducible assumption
    | with_reducible apply setR_wf
    | with_reducible apply addCnt_wf
    | with_reducible apply raiseEv_wf
    | with_reducible apply takeLinkDown_wf
    | with_reducible apply setFill_wf
    | split
    | dsimp only
    | (simp only [wf_mk]; with_reducible apply wf_parts)

theorem bringUp_wf {p : Side} {s : State} (hW : s.Wf) : (bringUp p s).Wf := by
  unfold bringUp
  repeat' first
    | with_reducible assumption
    | with_reducible apply setR_wf
    | with_reducible apply setFlag_wf
    | with_reducible apply incCnt_wf
    | with_reducible apply raiseEv_wf
    | with_reducible apply setPort_wf
    | with_reducible apply setLaneState_wf
    | with_reducible apply setPortOpen_wf
    | with_reducible refine forEach_wf (fun x u hu => ?_) ?_
    | split
    | dsimp only
    | (simp only [wf_mk]; with_reducible apply wf_parts)

theorem mismatchedStripe_wf {p : Side} {ms : List MarkerRx} {s : State} (hW : s.Wf) : (mismatchedStripe p ms s).Wf := by
  unfold mismatchedStripe
  repeat' first
    | with_reducible assumption
    | with_reducible apply raiseEv_wf
    | with_reducible apply setPort_wf
    | with_reducible apply takeLinkDown_wf
    | with_reducible apply restartBip_wf
    | with_reducible apply trackMarker_wf
    | with_reducible apply takeMarker_wf
    | with_reducible apply takeWidth_wf
    | with_reducible refine forEach_wf (fun x u hu => ?_) ?_
    | split
    | dsimp only
    | (simp only [wf_mk]; with_reducible apply wf_parts)

theorem validStripe_wf {p : Side} {good : List MarkerRx} {k0 : MarkerRx} {fill : Nat} {fillers : Nat} {s : State} (hW : s.Wf) : (validStripe p good k0 fill fillers s).Wf := by
  unfold validStripe
  repeat' first
    | with_reducible assumption
    | with_reducible apply setR_wf
    | with_reducible apply raiseEv_wf
    | with_reducible apply stationMarker_wf
    | with_reducible apply takeLinkDown_wf
    | with_reducible apply takeMarker_wf
    | with_reducible apply takeWidth_wf
    | with_reducible apply elastic_wf
    | with_reducible apply bringUp_wf
    | with_reducible refine whenS_wf (fun u hu => ?_) ?_
    | with_reducible refine forEach_wf (fun x u hu => ?_) ?_
    | with_reducible refine foldl_wf (fun u x hu => ?_) _ _ ?_
    | with_reducible refine foldl_snd_wf (fun p x hp => ?_) _ _ ?_
    | with_reducible refine foldl_snd_wfE (fun p x hp => ?_) ?_ (by with_reducible assumption)
    | split
    | dsimp only
    | (simp only [wf_mk]; with_reducible apply wf_parts)

theorem markerStripe_wf {p : Side} {ms : List MarkerRx} {fill : Nat} {fillers : Nat} {s : State} (hW : s.Wf) : (markerStripe p ms fill fillers s).Wf := by
  unfold markerStripe
  repeat' first
    | with_reducible assumption
    | with_reducible apply mismatchedStripe_wf
    | with_reducible apply validStripe_wf
    | split
    | dsimp only
    | (simp only [wf_mk]; with_reducible apply wf_parts)

theorem execMarkerStripeReceived_wf {p : Side} {markers : List MarkerRx} {fill : Fin 17} {fillers : Fin 256} {s : State} (hW : s.Wf) {tW : State} (eW : execMarkerStripeReceived p markers fill fillers s = .next tW) : tW.Wf := by
  revert eW
  unfold execMarkerStripeReceived
  repeat' first
    | with_reducible assumption
    | with_reducible apply markerStripe_wf
    | (intro (eQ : _ = _); with_reducible refine alive_wf hW ?_ eQ)
    | (intro (eQ : _ = _); with_reducible refine answer_wf ?_ eQ)
    | split
    | dsimp only
    | (simp only [wf_mk]; with_reducible apply wf_parts)
    | (intro (eQ : _ = _); cases eQ)

theorem testReceive_wf {p : Side} {n : Nat} {group : Nat} {s : State} (hW : s.Wf) : (testReceive p n group s).Wf := by
  unfold testReceive
  repeat' first
    | with_reducible assumption
    | with_reducible apply sendGroup_wf
    | with_reducible apply prbsReceive_wf
    | split
    | dsimp only
    | (simp only [wf_mk]; with_reducible apply wf_parts)

theorem blockReceived_wf {p : Side} {n : Nat} {sync : Nat} {payload : Nat} {fill : Nat} {s : State} (hW : s.Wf) : (blockReceived p n sync payload fill s).Wf := by
  unfold blockReceived
  repeat' first
    | with_reducible assumption
    | with_reducible apply addPair_wf
    | with_reducible apply raiseEv_wf
    | with_reducible apply setLane_wf
    | with_reducible apply stationBlock_wf
    | with_reducible apply takeLinkDown_wf
    | with_reducible apply setFill_wf
    | with_reducible apply testReceive_wf
    | with_reducible refine whenS_wf (fun u hu => ?_) ?_
    | split
    | dsimp only
    | (simp only [wf_mk]; with_reducible apply wf_parts)

theorem execBlockReceived_wf {p : Side} {n : Fin 4} {sync : BitVec 2} {payload : BitVec 64} {fill : Fin 17} {s : State} (hW : s.Wf) {tW : State} (eW : execBlockReceived p n sync payload fill s = .next tW) : tW.Wf := by
  revert eW
  unfold execBlockReceived
  repeat' first
    | with_reducible assumption
    | with_reducible apply blockReceived_wf
    | (intro (eQ : _ = _); with_reducible refine alive_wf hW ?_ eQ)
    | (intro (eQ : _ = _); with_reducible refine answer_wf ?_ eQ)
    | split
    | dsimp only
    | (simp only [wf_mk]; with_reducible apply wf_parts)
    | (intro (eQ : _ = _); cases eQ)

theorem execPrbsLock_wf {p : Side} {n : Fin 4} {s : State} (hW : s.Wf) {tW : State} (eW : execPrbsLock p n s = .next tW) : tW.Wf := by
  revert eW
  unfold execPrbsLock
  repeat' first
    | with_reducible assumption
    | with_reducible apply setFlag_wf
    | with_reducible apply setLane_wf
    | (intro (eQ : _ = _); with_reducible refine alive_wf hW ?_ eQ)
    | (intro (eQ : _ = _); with_reducible refine answer_wf ?_ eQ)
    | split
    | dsimp only
    | (simp only [wf_mk]; with_reducible apply wf_parts)
    | (intro (eQ : _ = _); cases eQ)

theorem execPrbsLockLost_wf {p : Side} {n : Fin 4} {s : State} (hW : s.Wf) {tW : State} (eW : execPrbsLockLost p n s = .next tW) : tW.Wf := by
  revert eW
  unfold execPrbsLockLost
  repeat' first
    | with_reducible assumption
    | with_reducible apply setFlag_wf
    | (intro (eQ : _ = _); with_reducible refine alive_wf hW ?_ eQ)
    | (intro (eQ : _ = _); with_reducible refine answer_wf ?_ eQ)
    | split
    | dsimp only
    | (simp only [wf_mk]; with_reducible apply wf_parts)
    | (intro (eQ : _ = _); cases eQ)

theorem execParkEntryDone_wf {p : Side} {n : Fin 4} {s : State} (hW : s.Wf) {tW : State} (eW : execParkEntryDone p n s = .next tW) : tW.Wf := by
  revert eW
  unfold execParkEntryDone
  repeat' first
    | with_reducible assumption
    | with_reducible apply finishPark_wf
    | (intro (eQ : _ = _); with_reducible refine alive_wf hW ?_ eQ)
    | (intro (eQ : _ = _); with_reducible refine answer_wf ?_ eQ)
    | split
    | dsimp only
    | (simp only [wf_mk]; with_reducible apply wf_parts)
    | (intro (eQ : _ = _); cases eQ)

theorem laneModeWrite_wf {p : Side} {n : Nat} {v : Nat} {s : State} (hW : s.Wf) : (laneModeWrite p n v s).Wf := by
  unfold laneModeWrite
  repeat' first
    | with_reducible assumption
    | with_reducible apply setR_wf
    | with_reducible apply setFlag_wf
    | with_reducible apply setLane_wf
    | with_reducible apply setLaneState_wf
    | with_reducible apply syncLaneLevels_wf
    | with_reducible apply quarantinePort_wf
    | with_reducible apply takeLinkDown_wf
    | with_reducible apply clearLocks_wf
    | with_reducible refine whenS_wf (fun u hu => ?_) ?_
    | split
    | dsimp only
    | (simp only [wf_mk]; with_reducible apply wf_parts)

theorem execInjectPeriodic_wf {p : Side} {n : Fin 4} {group : BitVec 66} {s : State} (hW : s.Wf) {tW : State} (eW : execInjectPeriodic p n group s = .next tW) : tW.Wf := by
  revert eW
  unfold execInjectPeriodic
  repeat' first
    | with_reducible assumption
    | with_reducible apply sendGroup_wf
    | (intro (eQ : _ = _); with_reducible refine alive_wf hW ?_ eQ)
    | (intro (eQ : _ = _); with_reducible refine answer_wf ?_ eQ)
    | split
    | dsimp only
    | (simp only [wf_mk]; with_reducible apply wf_parts)
    | (intro (eQ : _ = _); cases eQ)

theorem execGalleryStart_wf {st : Side} {payload : BitVec 64} {frac : Fin 16} {s : State} (hW : s.Wf) {tW : State} (eW : execGalleryStart st payload frac s = .next tW) : tW.Wf := by
  revert eW
  unfold execGalleryStart
  repeat' first
    | with_reducible assumption
    | with_reducible apply galleryStart_wf
    | (intro (eQ : _ = _); with_reducible refine alive_wf hW ?_ eQ)
    | (intro (eQ : _ = _); with_reducible refine answer_wf ?_ eQ)
    | split
    | dsimp only
    | (simp only [wf_mk]; with_reducible apply wf_parts)
    | (intro (eQ : _ = _); cases eQ)

theorem execGalleryEnd_wf {st : Side} {payload : BitVec 64} {s : State} (hW : s.Wf) {tW : State} (eW : execGalleryEnd st payload s = .next tW) : tW.Wf := by
  revert eW
  unfold execGalleryEnd
  repeat' first
    | with_reducible assumption
    | with_reducible apply galleryEnd_wf
    | (intro (eQ : _ = _); with_reducible refine alive_wf hW ?_ eQ)
    | (intro (eQ : _ = _); with_reducible refine answer_wf ?_ eQ)
    | split
    | dsimp only
    | (simp only [wf_mk]; with_reducible apply wf_parts)
    | (intro (eQ : _ = _); cases eQ)

theorem execLandingStart_wf {st : Side} {payload : BitVec 64} {s : State} (hW : s.Wf) {tW : State} (eW : execLandingStart st payload s = .next tW) : tW.Wf := by
  revert eW
  unfold execLandingStart
  repeat' first
    | with_reducible assumption
    | with_reducible apply landingStart_wf
    | (intro (eQ : _ = _); with_reducible refine alive_wf hW ?_ eQ)
    | (intro (eQ : _ = _); with_reducible refine answer_wf ?_ eQ)
    | split
    | dsimp only
    | (simp only [wf_mk]; with_reducible apply wf_parts)
    | (intro (eQ : _ = _); cases eQ)

theorem execStagingWrite_wf {st : Side} {tread : BitVec 16} {block : Fin 256} {payload : BitVec 64} {s : State} (hW : s.Wf) {tW : State} (eW : execStagingWrite st tread block payload s = .next tW) : tW.Wf := by
  revert eW
  unfold execStagingWrite
  repeat' first
    | with_reducible assumption
    | with_reducible apply stagingWrite_wf
    | (intro (eQ : _ = _); with_reducible refine alive_wf hW ?_ eQ)
    | (intro (eQ : _ = _); with_reducible refine answer_wf ?_ eQ)
    | split
    | dsimp only
    | (simp only [wf_mk]; with_reducible apply wf_parts)
    | (intro (eQ : _ = _); cases eQ)

theorem execTreadTrailer_wf {st : Side} {tread : BitVec 16} {trailer : BitVec 64} {s : State} (hW : s.Wf) {tW : State} (eW : execTreadTrailer st tread trailer s = .next tW) : tW.Wf := by
  revert eW
  unfold execTreadTrailer
  repeat' first
    | with_reducible assumption
    | with_reducible apply treadTrailer_wf
    | (intro (eQ : _ = _); with_reducible refine alive_wf hW ?_ eQ)
    | (intro (eQ : _ = _); with_reducible refine answer_wf ?_ eQ)
    | split
    | dsimp only
    | (simp only [wf_mk]; with_reducible apply wf_parts)
    | (intro (eQ : _ = _); cases eQ)

theorem execCommit_wf {st : Side} {s : State} (hW : s.Wf) {tW : State} (eW : execCommit st s = .next tW) : tW.Wf := by
  revert eW
  unfold execCommit
  repeat' first
    | with_reducible assumption
    | with_reducible apply commitHead_wf
    | (intro (eQ : _ = _); with_reducible refine alive_wf hW ?_ eQ)
    | (intro (eQ : _ = _); with_reducible refine answer_wf ?_ eQ)
    | split
    | dsimp only
    | (simp only [wf_mk]; with_reducible apply wf_parts)
    | (intro (eQ : _ = _); cases eQ)

theorem execPairDelivery_wf {index : Nat} {cycle : BitVec 48} {s : State} (hW : s.Wf) {tW : State} (eW : execPairDelivery index cycle s = .next tW) : tW.Wf := by
  revert eW
  unfold execPairDelivery
  repeat' first
    | with_reducible assumption
    | with_reducible apply releasePairs_wf
    | (intro (eQ : _ = _); with_reducible refine alive_wf hW ?_ eQ)
    | (intro (eQ : _ = _); with_reducible refine answer_wf ?_ eQ)
    | split
    | dsimp only
    | (simp only [wf_mk]; with_reducible apply wf_parts)
    | (intro (eQ : _ = _); cases eQ)

theorem execDeadlineCheck_wf {flight : Fin 8} {index : Nat} {cycle : BitVec 48} {s : State} (hW : s.Wf) {tW : State} (eW : execDeadlineCheck flight index cycle s = .next tW) : tW.Wf := by
  revert eW
  unfold execDeadlineCheck
  repeat' first
    | with_reducible assumption
    | with_reducible apply deadlineCheck_wf
    | (intro (eQ : _ = _); with_reducible refine alive_wf hW ?_ eQ)
    | (intro (eQ : _ = _); with_reducible refine answer_wf ?_ eQ)
    | split
    | dsimp only
    | (simp only [wf_mk]; with_reducible apply wf_parts)
    | (intro (eQ : _ = _); cases eQ)

theorem execArrivalWindowClose_wf {st : Side} {s : State} (hW : s.Wf) {tW : State} (eW : execArrivalWindowClose st s = .next tW) : tW.Wf := by
  revert eW
  unfold execArrivalWindowClose
  repeat' first
    | with_reducible assumption
    | with_reducible apply windowClose_wf
    | (intro (eQ : _ = _); with_reducible refine alive_wf hW ?_ eQ)
    | (intro (eQ : _ = _); with_reducible refine answer_wf ?_ eQ)
    | split
    | dsimp only
    | (simp only [wf_mk]; with_reducible apply wf_parts)
    | (intro (eQ : _ = _); cases eQ)

theorem execSlotTime_wf {st : Side} {s : State} (hW : s.Wf) {tW : State} (eW : execSlotTime st s = .next tW) : tW.Wf := by
  revert eW
  unfold execSlotTime
  repeat' first
    | with_reducible assumption
    | with_reducible apply slotTime_wf
    | (intro (eQ : _ = _); with_reducible refine alive_wf hW ?_ eQ)
    | (intro (eQ : _ = _); with_reducible refine answer_wf ?_ eQ)
    | split
    | dsimp only
    | (simp only [wf_mk]; with_reducible apply wf_parts)
    | (intro (eQ : _ = _); cases eQ)

end Sys2Proof.Machine
end

