-- ==== Sys2Proof/Laws/Wf/Fault.lean ====
section
/-!
SUPPORT. The operations of Machine/Fault.lean keep the invariant State.Wf.
-/

namespace Sys2Proof.Machine

set_option linter.all false

theorem syncFences_wf {s : State} (hW : s.Wf) : (syncFences s).Wf := by
  unfold syncFences
  repeat' first
    | with_reducible assumption
    | with_reducible apply setR_wf
    | with_reducible apply setFlag_wf
    | with_reducible apply setLevel_wf
    | split
    | dsimp only
    | (simp only [wf_mk]; with_reducible apply wf_parts)

theorem endOutstanding_wf {sel : Waiter → Bool} {st : Nat} {s : State} (hW : s.Wf) : (endOutstanding sel st s).Wf := by
  unfold endOutstanding
  repeat' first
    | with_reducible assumption
    | with_reducible apply endRemote_wf
    | with_reducible apply endPartner_wf
    | with_reducible apply finishPartner_wf
    | with_reducible refine forEach_wf (fun x u hu => ?_) ?_
    | split
    | dsimp only
    | (simp only [wf_mk]; with_reducible apply wf_parts)

theorem fenceUnitTx_wf {unit : Nat} {s : State} (hW : s.Wf) : (fenceUnitTx unit s).Wf := by
  unfold fenceUnitTx
  repeat' first
    | with_reducible assumption
    | with_reducible apply endPartner_wf
    | with_reducible apply fencePartners_wf
    | with_reducible refine forEach_wf (fun x u hu => ?_) ?_
    | split
    | dsimp only
    | (simp only [wf_mk]; with_reducible apply wf_parts)

theorem forgetBar2_wf {s : State} (hW : s.Wf) : (forgetBar2 s).Wf := by
  unfold forgetBar2
  repeat' first
    | with_reducible assumption
    | split
    | dsimp only
    | (simp only [wf_mk]; with_reducible apply wf_parts)

theorem pcieDown_wf {s : State} (hW : s.Wf) : (pcieDown s).Wf := by
  unfold pcieDown
  repeat' first
    | with_reducible assumption
    | with_reducible apply clearAll_wf
    | with_reducible apply raiseIf_wf
    | with_reducible apply syncElig_wf
    | with_reducible apply forgetBar2_wf
    | split
    | dsimp only
    | (simp only [wf_mk]; with_reducible apply wf_parts)

theorem fenceEngine_wf {e : Nat} {s : State} (hW : s.Wf) : (fenceEngine e s).Wf := by
  unfold fenceEngine
  repeat' first
    | with_reducible assumption
    | with_reducible apply setEngFlag_wf
    | with_reducible apply setTxf_wf
    | with_reducible apply setRxf_wf
    | with_reducible apply syncTile_wf
    | with_reducible apply haltEngine_wf
    | with_reducible apply fenceUnitTx_wf
    | with_reducible refine whenS_wf (fun u hu => ?_) ?_
    | split
    | dsimp only
    | (simp only [wf_mk]; with_reducible apply wf_parts)

theorem fenceTile_wf {t : Nat} {cause : Nat} {s : State} (hW : s.Wf) : (fenceTile t cause s).Wf := by
  unfold fenceTile
  repeat' first
    | with_reducible assumption
    | with_reducible apply setR_wf
    | with_reducible apply setFlag_wf
    | with_reducible apply flushConsumers_wf
    | with_reducible apply abortProducer_wf
    | with_reducible apply syncTile_wf
    | with_reducible apply fenceEngine_wf
    | with_reducible refine forEach_wf (fun x u hu => ?_) ?_
    | split
    | dsimp only
    | (simp only [wf_mk]; with_reducible apply wf_parts)

theorem fenceCan_wf {n : Nat} {s : State} (hW : s.Wf) : (fenceCan n s).Wf := by
  unfold fenceCan
  repeat' first
    | with_reducible assumption
    | with_reducible apply setFlag_wf
    | with_reducible apply setCan_wf
    | with_reducible apply dropWaiting_wf
    | with_reducible apply fenceUnitTx_wf
    | split
    | dsimp only
    | (simp only [wf_mk]; with_reducible apply wf_parts)

theorem fenceLanes_wf {p : Side} {s : State} (hW : s.Wf) : (fenceLanes p s).Wf := by
  unfold fenceLanes
  repeat' first
    | with_reducible assumption
    | with_reducible apply setFlag_wf
    | with_reducible apply setLaneState_wf
    | with_reducible apply syncLaneLevels_wf
    | with_reducible apply quarantinePort_wf
    | with_reducible apply takeLinkDown_wf
    | with_reducible apply clearLocks_wf
    | with_reducible refine forEach_wf (fun x u hu => ?_) ?_
    | split
    | dsimp only
    | (simp only [wf_mk]; with_reducible apply wf_parts)

theorem fenceStation_wf {st : Side} {s : State} (hW : s.Wf) : (fenceStation st s).Wf := by
  unfold fenceStation
  repeat' first
    | with_reducible assumption
    | with_reducible apply setStation_wf
    | with_reducible apply dropCopy_wf
    | split
    | dsimp only
    | (simp only [wf_mk]; with_reducible apply wf_parts)

theorem fenceBridge_wf {s : State} (hW : s.Wf) : (fenceBridge s).Wf := by
  unfold fenceBridge
  repeat' first
    | with_reducible assumption
    | with_reducible apply flushConsumers_wf
    | with_reducible apply syncNotices_wf
    | with_reducible apply syncTags_wf
    | with_reducible apply endOutstanding_wf
    | split
    | dsimp only
    | (simp only [wf_mk]; with_reducible apply wf_parts)

theorem fenceTrig_wf {s : State} (hW : s.Wf) : (fenceTrig s).Wf := by
  unfold fenceTrig
  repeat' first
    | with_reducible assumption
    | with_reducible apply endPulse_wf
    | with_reducible apply disarmCmp_wf
    | with_reducible refine forEach_wf (fun x u hu => ?_) ?_
    | split
    | dsimp only
    | (simp only [wf_mk]; with_reducible apply wf_parts)

theorem discardUpdate_wf {s : State} (hW : s.Wf) : (discardUpdate s).Wf := by
  unfold discardUpdate
  repeat' first
    | with_reducible assumption
    | with_reducible apply setR_wf
    | split
    | dsimp only
    | (simp only [wf_mk]; with_reducible apply wf_parts)

theorem fenceEffects_wf {page : Nat} {cause : Nat} {s : State} (hW : s.Wf) : (fenceEffects page cause s).Wf := by
  unfold fenceEffects
  repeat' first
    | with_reducible assumption
    | with_reducible apply setFlag_wf
    | with_reducible apply flushConsumers_wf
    | with_reducible apply abortProducer_wf
    | with_reducible apply fenceBrk_wf
    | with_reducible apply keyDone_wf
    | with_reducible apply endOutstanding_wf
    | with_reducible apply pcieDown_wf
    | with_reducible apply fenceEngine_wf
    | with_reducible apply fenceTile_wf
    | with_reducible apply fenceCan_wf
    | with_reducible apply fenceLanes_wf
    | with_reducible apply fenceStation_wf
    | with_reducible apply fenceBridge_wf
    | with_reducible apply fenceTrig_wf
    | with_reducible apply discardUpdate_wf
    | split
    | dsimp only
    | (simp only [wf_mk]; with_reducible apply wf_parts)

theorem setFence_wf {page : Nat} {cause : Nat} {s : State} (hW : s.Wf) : (setFence page cause s).Wf := by
  unfold setFence
  repeat' first
    | with_reducible assumption
    | with_reducible apply setR_wf
    | with_reducible apply setFlag_wf
    | with_reducible apply syncElig_wf
    | with_reducible apply fenceEffects_wf
    | split
    | dsimp only
    | (simp only [wf_mk]; with_reducible apply wf_parts)

theorem triggerDump_wf {trigger : Nat} {s : State} (hW : s.Wf) : (triggerDump trigger s).Wf := by
  unfold triggerDump
  repeat' first
    | with_reducible assumption
    | with_reducible apply setR_wf
    | with_reducible apply setFlag_wf
    | with_reducible apply incCnt_wf
    | with_reducible apply raiseEv_wf
    | split
    | dsimp only
    | (simp only [wf_mk]; with_reducible apply wf_parts)

theorem faultRecords_wf {page : Nat} {cause : Nat} {at_ : Nat} {s : State} (hW : s.Wf) : (faultRecords page cause at_ s).Wf := by
  unfold faultRecords
  repeat' first
    | with_reducible assumption
    | with_reducible apply setR_wf
    | with_reducible apply setFlag_wf
    | with_reducible refine whenS_wf (fun u hu => ?_) ?_
    | split
    | dsimp only
    | (simp only [wf_mk]; with_reducible apply wf_parts)

theorem startFence_wf {who : Option Master} {page : Nat} {cause : Nat} {s : State} (hW : s.Wf) : (startFence who page cause s).Wf := by
  unfold startFence
  repeat' first
    | with_reducible assumption
    | with_reducible apply journal_wf
    | with_reducible apply syncFences_wf
    | with_reducible apply setFence_wf
    | with_reducible apply triggerDump_wf
    | with_reducible refine whenS_wf (fun u hu => ?_) ?_
    | split
    | dsimp only
    | (simp only [wf_mk]; with_reducible apply wf_parts)

theorem detectFault_wf {who : Option Master} {page : Nat} {cause : Nat} {s : State} (hW : s.Wf) : (detectFault who page cause s).Wf := by
  unfold detectFault
  repeat' first
    | with_reducible assumption
    | with_reducible apply setFlag_wf
    | with_reducible apply incCnt_wf
    | with_reducible apply raiseEv_wf
    | with_reducible apply syncFences_wf
    | with_reducible apply faultRecords_wf
    | with_reducible apply startFence_wf
    | with_reducible refine whenS_wf (fun u hu => ?_) ?_
    | split
    | dsimp only
    | (simp only [wf_mk]; with_reducible apply wf_parts)

theorem execFault_wf {page : Byte} {cause : Byte} {s : State} (hW : s.Wf) {tW : State} (eW : execFault page cause s = .next tW) : tW.Wf := by
  revert eW
  unfold execFault
  repeat' first
    | with_reducible assumption
    | with_reducible apply detectFault_wf
    | (intro (eQ : _ = _); with_reducible refine alive_wf hW ?_ eQ)
    | (intro (eQ : _ = _); with_reducible refine answer_wf ?_ eQ)
    | split
    | dsimp only
    | (simp only [wf_mk]; with_reducible apply wf_parts)
    | (intro (eQ : _ = _); cases eQ)

theorem detectLeft_wf : ∀ {n : Nat} {s : State}, s.Wf → (detectLeft n s).Wf
  | 0, _, h => h
  | n + 1, s, h => by
    unfold detectLeft
    split
    · exact h
    · split
      · exact h
      · exact detectLeft_wf (detectFault_wf (wf_mk.mpr (wf_parts h)))

theorem endFence_wf {gone : List (Nat × Nat)} {s : State} (hW : s.Wf) : (endFence gone s).Wf := by
  unfold endFence
  split
  · exact hW
  · exact detectLeft_wf (syncFences_wf (raiseEv_wf (faultRecords_wf (wf_mk.mpr (wf_parts hW)))))

theorem execFence_wf {gone : List (Byte × Byte)} {s : State} (hW : s.Wf) {tW : State} (eW : execFence gone s = .next tW) : tW.Wf := by
  revert eW
  unfold execFence
  repeat' first
    | with_reducible assumption
    | with_reducible apply endFence_wf
    | (intro (eQ : _ = _); with_reducible refine alive_wf hW ?_ eQ)
    | (intro (eQ : _ = _); with_reducible refine answer_wf ?_ eQ)
    | split
    | dsimp only
    | (simp only [wf_mk]; with_reducible apply wf_parts)
    | (intro (eQ : _ = _); cases eQ)

theorem removeFence_wf {who : Option Master} {code : Nat} {page : Nat} {s : State} (hW : s.Wf) : (removeFence who code page s).Wf := by
  unfold removeFence
  repeat' first
    | with_reducible assumption
    | with_reducible apply setR_wf
    | with_reducible apply setFlag_wf
    | with_reducible apply raiseEv_wf
    | with_reducible apply journal_wf
    | with_reducible apply journalDrain_wf
    | with_reducible apply syncElig_wf
    | with_reducible apply syncFences_wf
    | with_reducible refine whenS_wf (fun u hu => ?_) ?_
    | with_reducible refine forEach_wf (fun x u hu => ?_) ?_
    | split
    | dsimp only
    | (simp only [wf_mk]; with_reducible apply wf_parts)

theorem removeFences_wf {s : State} (hW : s.Wf) : (removeFences s).Wf := by
  unfold removeFences
  repeat' first
    | with_reducible assumption
    | with_reducible apply raiseEv_wf
    | with_reducible apply journal_wf
    | with_reducible apply syncFences_wf
    | with_reducible apply removeFence_wf
    | with_reducible refine forEach_wf (fun x u hu => ?_) ?_
    | split
    | dsimp only
    | (simp only [wf_mk]; with_reducible apply wf_parts)

theorem faultCommand_wf {m : Master} {page : Nat} {cmd : Nat} {s : State} (hW : s.Wf) : (faultCommand m page cmd s).Wf := by
  unfold faultCommand
  repeat' first
    | with_reducible assumption
    | with_reducible apply syncFences_wf
    | with_reducible apply triggerDump_wf
    | with_reducible apply detectFault_wf
    | split
    | dsimp only
    | (simp only [wf_mk]; with_reducible apply wf_parts)

theorem execErrTestEnd_wf {s : State} (hW : s.Wf) {tW : State} (eW : execErrTestEnd s = .next tW) : tW.Wf := by
  revert eW
  unfold execErrTestEnd
  repeat' first
    | with_reducible assumption
    | with_reducible apply syncFences_wf
    | (intro (eQ : _ = _); with_reducible refine alive_wf hW ?_ eQ)
    | (intro (eQ : _ = _); with_reducible refine answer_wf ?_ eQ)
    | split
    | dsimp only
    | (simp only [wf_mk]; with_reducible apply wf_parts)
    | (intro (eQ : _ = _); cases eQ)

theorem endCheckpoint_wf {ok : Bool} {s : State} (hW : s.Wf) : (endCheckpoint ok s).Wf := by
  unfold endCheckpoint
  repeat' first
    | with_reducible assumption
    | with_reducible apply setR_wf
    | with_reducible apply setFlag_wf
    | with_reducible apply incCnt_wf
    | with_reducible apply setPair_wf
    | with_reducible apply raiseEv_wf
    | with_reducible apply startCheckpoint_wf
    | with_reducible apply eraseFlash_wf
    | with_reducible refine whenS_wf (fun u hu => ?_) ?_
    | split
    | dsimp only
    | (simp only [wf_mk]; with_reducible apply wf_parts)

theorem execCkptDone_wf {ok : Bool} {s : State} (hW : s.Wf) {tW : State} (eW : execCkptDone ok s = .next tW) : tW.Wf := by
  revert eW
  unfold execCkptDone
  repeat' first
    | with_reducible assumption
    | with_reducible apply endCheckpoint_wf
    | (intro (eQ : _ = _); with_reducible refine alive_wf hW ?_ eQ)
    | (intro (eQ : _ = _); with_reducible refine answer_wf ?_ eQ)
    | split
    | dsimp only
    | (simp only [wf_mk]; with_reducible apply wf_parts)
    | (intro (eQ : _ = _); cases eQ)

end Sys2Proof.Machine
end

