-- ==== Sys2Proof/Laws/Wf/Saved.lean ====
section
/-!
SUPPORT. The operations of Machine/Saved.lean keep the invariant State.Wf.
-/

namespace Sys2Proof.Machine

set_option linter.all false

theorem writeSettings_wf {i : Nat} {format : Nat} {s : State} (hW : s.Wf) : (writeSettings i format s).Wf := by
  unfold writeSettings
  repeat' first
    | with_reducible assumption
    | split
    | dsimp only
    | (simp only [wf_mk]; with_reducible apply wf_parts)

theorem saveFails_wf {ok : Bool} {s : State} (hW : s.Wf) : (saveFails ok s).Wf := by
  unfold saveFails
  repeat' first
    | with_reducible assumption
    | with_reducible apply raiseEv_wf
    | with_reducible apply raiseIf_wf
    | split
    | dsimp only
    | (simp only [wf_mk]; with_reducible apply wf_parts)

theorem saveNodeRecord_wf {who : Option Master} {ok : Bool} {s : State} (hW : s.Wf) : (saveNodeRecord who ok s).Wf := by
  unfold saveNodeRecord
  repeat' first
    | with_reducible assumption
    | with_reducible apply journal_wf
    | with_reducible apply journalRefused_wf
    | with_reducible apply writeSettings_wf
    | with_reducible apply saveFails_wf
    | split
    | dsimp only
    | (simp only [wf_mk]; with_reducible apply wf_parts)

theorem cfgHalf_wf {s : State} (hW : s.Wf) (i : Nat) : memoryWf (cfgHalf s i).stair = true := by
  unfold cfgHalf
  rw [List.getD_eq_getElem?_getD]
  cases h : s.boot.store[i]? with
  | none => rfl
  | some x => exact hW.store x (List.mem_of_getElem? h)

theorem configImage_wf {s : State} {format seq : Nat} (hW : s.Wf) : memoryWf (configImage s format seq).stair = true := by
  unfold configImage
  dsimp only
  split
  · exact hW.active
  · rfl

theorem eraseHalf_wf {i : Nat} {s : State} (hW : s.Wf) : (eraseHalf i s).Wf := by
  unfold eraseHalf
  repeat' first
    | with_reducible assumption
    | with_reducible apply eraseFlash_wf
    | split
    | dsimp only
    | (simp only [wf_mk]; with_reducible apply wf_parts)

theorem setHalf_wf {i : Nat} {h : CfgHalf} {s : State} (hW : s.Wf) (hh : memoryWf h.stair = true) : (setHalf i h s).Wf := by
  unfold setHalf
  refine eraseHalf_wf (wf_boot hW ?_)
  intro x hx
  dsimp only at hx
  split at hx
  all_goals
    simp only [List.mem_cons, List.not_mem_nil, or_false] at hx
    obtain rfl | rfl := hx <;> first | exact hh | exact cfgHalf_wf hW _

theorem saveConfig_wf {who : Option Master} {ok : Bool} {s : State} (hW : s.Wf) : (saveConfig who ok s).Wf := by
  unfold saveConfig
  split
  · exact hW
  · split
    · exact saveFails_wf hW
    · exact journal_wf (raiseEv_wf (setHalf_wf hW (configImage_wf hW)))

theorem clearConfig_wf {ok : Bool} {s : State} (hW : s.Wf) : (clearConfig ok s).Wf := by
  unfold clearConfig
  split
  · exact saveFails_wf hW
  · exact eraseHalf_wf (eraseHalf_wf (wf_boot hW (fun _ h => absurd h (List.not_mem_nil))))

theorem migrateConfig_wf {h : CfgHalf} {format : Nat} {s : State} (hW : s.Wf) (hh : memoryWf h.stair = true) :
    (migrateConfig h format s).Wf := by
  unfold migrateConfig
  exact journal_wf (setHalf_wf (setHalf_wf hW hh) hh)

theorem restoreConfig_wf {h : CfgHalf} {s : State} (hW : s.Wf) : (restoreConfig h s).Wf := by
  unfold restoreConfig
  repeat' first
    | with_reducible assumption
    | with_reducible apply setQueue_wf
    | with_reducible apply queueEnable_wf
    | with_reducible apply canModeWrite_wf
    | with_reducible apply setEngFlag_wf
    | with_reducible apply pinmapWrite_wf
    | with_reducible apply syncElig_wf
    | with_reducible apply syncGates_wf
    | with_reducible apply access_wf
    | with_reducible refine whenS_wf (fun u hu => ?_) ?_
    | with_reducible refine forEach_wf (fun x u hu => ?_) ?_
    | with_reducible refine foldl_wf (fun u x hu => ?_) _ _ ?_
    | with_reducible refine foldl_snd_wf (fun p x hp => ?_) _ _ ?_
    | with_reducible refine foldl_snd_wfE (fun p x hp => ?_) ?_ (by with_reducible assumption)
    | split
    | dsimp only
    | (simp only [wf_mk]; with_reducible apply wf_parts)

end Sys2Proof.Machine
end

