-- ==== Sys2Proof/Laws/Wf/Boundary.lean ====
section
/-!
SUPPORT. The operations of Machine/Boundary.lean keep the invariant State.Wf.
-/

namespace Sys2Proof.Machine

set_option linter.all false

theorem enterForwarder_wf {s : State} (hW : s.Wf) : (enterForwarder s).Wf := by
  unfold enterForwarder
  repeat' first
    | with_reducible assumption
    | with_reducible apply setRoles_wf
    | with_reducible apply duplexDeactivate_wf
    | split
    | dsimp only
    | (simp only [wf_mk]; with_reducible apply wf_parts)

theorem forwarderWidths_wf {s : State} (hW : s.Wf) : (forwarderWidths s).Wf := by
  unfold forwarderWidths
  repeat' first
    | with_reducible assumption
    | with_reducible apply setTxWidth_wf
    | with_reducible refine forEach_wf (fun x u hu => ?_) ?_
    | split
    | dsimp only
    | (simp only [wf_mk]; with_reducible apply wf_parts)

theorem startStation_wf {c : Nat} {left : Bool} {st : Side} {s : State} (hW : s.Wf) : (startStation c left st s).Wf := by
  unfold startStation
  repeat' first
    | with_reducible assumption
    | with_reducible apply setR_wf
    | with_reducible apply setStation_wf
    | split
    | dsimp only
    | (simp only [wf_mk]; with_reducible apply wf_parts)

theorem takeOpen_wf {c : Nat} {s : State} (hW : s.Wf) : (takeOpen c s).Wf := by
  unfold takeOpen
  repeat' first
    | with_reducible assumption
    | with_reducible apply setFlag_wf
    | with_reducible apply setPortOpen_wf
    | with_reducible apply beginExchange_wf
    | with_reducible refine forEach_wf (fun x u hu => ?_) ?_
    | split
    | dsimp only
    | (simp only [wf_mk]; with_reducible apply wf_parts)

theorem startActing_wf {c : Nat} {alone : Bool} {left : Bool} {s : State} (hW : s.Wf) : (startActing c alone left s).Wf := by
  unfold startActing
  repeat' first
    | with_reducible assumption
    | with_reducible apply setRoles_wf
    | with_reducible apply duplexActivate_wf
    | with_reducible apply startStation_wf
    | with_reducible apply takeOpen_wf
    | with_reducible refine whenS_wf (fun u hu => ?_) ?_
    | split
    | dsimp only
    | (simp only [wf_mk]; with_reducible apply wf_parts)

theorem wakeFlight_wf {s : State} (hW : s.Wf) : (wakeFlight s).Wf := by
  unfold wakeFlight
  repeat' first
    | with_reducible assumption
    | with_reducible apply wakeLanes_wf
    | with_reducible refine forEach_wf (fun x u hu => ?_) ?_
    | split
    | dsimp only
    | (simp only [wf_mk]; with_reducible apply wf_parts)

theorem takeFlight_wf {c : Nat} {f : Nat} {s : State} (hW : s.Wf) : (takeFlight c f s).Wf := by
  unfold takeFlight
  repeat' first
    | with_reducible assumption
    | with_reducible apply syncAnnounced_wf
    | with_reducible apply setFlight_wf
    | with_reducible apply applyCeiling_wf
    | with_reducible apply flightBranches_wf
    | split
    | dsimp only
    | (simp only [wf_mk]; with_reducible apply wf_parts)

theorem flightBoundary_wf {c : Nat} {s : State} (hW : s.Wf) : (flightBoundary c s).Wf := by
  unfold flightBoundary
  repeat' first
    | with_reducible assumption
    | with_reducible apply takeFlight_wf
    | split
    | dsimp only
    | (simp only [wf_mk]; with_reducible apply wf_parts)

theorem syncBindings_wf {s : State} (hW : s.Wf) : (syncBindings s).Wf := by
  unfold syncBindings
  repeat' first
    | with_reducible assumption
    | with_reducible apply setEngFlag_wf
    | with_reducible refine forEach_wf (fun x u hu => ?_) ?_
    | split
    | dsimp only
    | (simp only [wf_mk]; with_reducible apply wf_parts)

theorem reserveLanding_wf {s : State} (hW : s.Wf) : (reserveLanding s).Wf := by
  unfold reserveLanding
  repeat' first
    | with_reducible assumption
    | with_reducible apply setLevel_wf
    | with_reducible apply syncCab_wf
    | split
    | dsimp only
    | (simp only [wf_mk]; with_reducible apply wf_parts)

theorem showBanks_wf {actUsage : Nat} {pendUsage : Nat} {s : State} (hW : s.Wf) : (showBanks actUsage pendUsage s).Wf := by
  unfold showBanks
  repeat' first
    | with_reducible assumption
    | with_reducible apply setR_wf
    | with_reducible apply syncPendHash_wf
    | split
    | dsimp only
    | (simp only [wf_mk]; with_reducible apply wf_parts)

theorem farewell_wf {role : Nat} {s : State} (hW : s.Wf) : (farewell role s).Wf := by
  unfold farewell
  repeat' first
    | with_reducible assumption
    | with_reducible apply sendPairFrame_wf
    | with_reducible refine whenS_wf (fun u hu => ?_) ?_
    | split
    | dsimp only
    | (simp only [wf_mk]; with_reducible apply wf_parts)

theorem clearActive_wf {s : State} (hW : s.Wf) : (clearActive s).Wf := by
  unfold clearActive
  exact ceaseMaster_wf (applyCeiling_wf (clearAll_wf (setLevel_wf (syncAnnounced_wf (setActState_wf (wf_stair hW rfl hW.pend))))))

theorem activateFails_wf {a : Nat} {code : Nat} {s : State} (hW : s.Wf) : (activateFails a code s).Wf := by
  unfold activateFails
  repeat' first
    | with_reducible assumption
    | with_reducible apply raiseEv_wf
    | with_reducible apply journal_wf
    | with_reducible apply stairErr_wf
    | with_reducible apply enterForwarder_wf
    | with_reducible apply forwarderWidths_wf
    | with_reducible apply syncBindings_wf
    | with_reducible apply showBanks_wf
    | with_reducible apply farewell_wf
    | with_reducible apply clearActive_wf
    | split
    | dsimp only
    | (simp only [wf_mk]; with_reducible apply wf_parts)

theorem freshImage_wf {s : State} (hW : s.Wf) : (freshImage s).Wf := by
  unfold freshImage
  repeat' first
    | with_reducible assumption
    | split
    | dsimp only
    | (simp only [wf_mk]; with_reducible apply wf_parts)

theorem swapBanks_wf {a : Nat} {s : State} (hW : s.Wf) : (swapBanks a s).Wf := by
  unfold swapBanks
  refine ⟨hW.dram, hW.flash, hW.committed, hW.staging, hW.pend, ?_, hW.store, hW.log, hW.held⟩
  dsimp only
  split
  · exact hW.active
  · rfl

theorem beginBank_wf {a : Nat} {f : Nat} {usage : Nat} {oldUsage : Nat} {was : Bool} {s : State} (hW : s.Wf) : (beginBank a f usage oldUsage was s).Wf := by
  unfold beginBank
  repeat' first
    | with_reducible assumption
    | with_reducible apply raiseEv_wf
    | with_reducible apply setLevel_wf
    | with_reducible apply journal_wf
    | with_reducible apply setSystemQueues_wf
    | with_reducible apply setPend_wf
    | with_reducible apply setActState_wf
    | with_reducible apply syncAnnounced_wf
    | with_reducible apply setFlight_wf
    | with_reducible apply clearSlots_wf
    | with_reducible apply applyCeiling_wf
    | with_reducible apply flightBranches_wf
    | with_reducible apply creditEpoch_wf
    | with_reducible apply wakeFlight_wf
    | with_reducible apply syncBindings_wf
    | with_reducible apply reserveLanding_wf
    | with_reducible apply showBanks_wf
    | with_reducible apply freshImage_wf
    | with_reducible refine forEach_wf (fun x u hu => ?_) ?_
    | split
    | dsimp only
    | (simp only [wf_mk]; with_reducible apply wf_parts)

theorem activateBank_wf {a : Nat} {f : Nat} {alone : Bool} {s : State} (hW : s.Wf) : (activateBank a f alone s).Wf := by
  unfold activateBank
  repeat' first
    | with_reducible assumption
    | with_reducible apply renumber_wf
    | with_reducible apply saveConfig_wf
    | with_reducible apply enterForwarder_wf
    | with_reducible apply startActing_wf
    | with_reducible apply swapBanks_wf
    | with_reducible apply beginBank_wf
    | split
    | dsimp only
    | (simp only [wf_mk]; with_reducible apply wf_parts)

theorem activate_wf {a : Nat} {f : Nat} {s : State} (hW : s.Wf) : (activate a f s).Wf := by
  unfold activate
  repeat' first
    | with_reducible assumption
    | with_reducible apply setLevel_wf
    | with_reducible apply syncActPending_wf
    | with_reducible apply activateFails_wf
    | with_reducible apply activateBank_wf
    | with_reducible refine forEach_wf (fun x u hu => ?_) ?_
    | split
    | dsimp only
    | (simp only [wf_mk]; with_reducible apply wf_parts)

theorem retireBank_wf {c : Nat} {old : Memory} {s : State} (hW : s.Wf) (ho : memoryWf old = true) : (retireBank c old s).Wf := by
  unfold retireBank
  exact wf_stair hW hW.active ho

theorem deactivate_wf {c : Nat} {s : State} (hW : s.Wf) : (deactivate c s).Wf := by
  unfold deactivate
  exact syncBindings_wf (showBanks_wf (setPend_wf (syncActPending_wf (retireBank_wf
    (forwarderWidths_wf (clearActive_wf (farewell_wf (enterForwarder_wf hW)))) hW.active))))

theorem forwardBoundary_wf {c : Nat} {s : State} (hW : s.Wf) : (forwardBoundary c s).Wf := by
  unfold forwardBoundary
  repeat' first
    | with_reducible assumption
    | with_reducible apply setActState_wf
    | with_reducible apply enterForwarder_wf
    | with_reducible apply startActing_wf
    | split
    | dsimp only
    | (simp only [wf_mk]; with_reducible apply wf_parts)

theorem selfActivate_wf {c : Nat} {s : State} (hW : s.Wf) : (selfActivate c s).Wf := by
  unfold selfActivate
  repeat' first
    | with_reducible assumption
    | with_reducible apply freeValue_wf
    | with_reducible apply syncActPending_wf
    | with_reducible refine freeValue_wfE ?_ (by with_reducible assumption)
    | split
    | dsimp only
    | (simp only [wf_mk]; with_reducible apply wf_parts)

theorem stairBoundary_wf {t : Nat} {s : State} (hW : s.Wf) : (stairBoundary t s).Wf := by
  unfold stairBoundary
  repeat' first
    | with_reducible assumption
    | with_reducible apply setPend_wf
    | with_reducible apply flightBoundary_wf
    | with_reducible apply activate_wf
    | with_reducible apply deactivate_wf
    | with_reducible apply forwardBoundary_wf
    | split
    | dsimp only
    | (simp only [wf_mk]; with_reducible apply wf_parts)

theorem openBoundary_wf {c : Nat} {st : Side} {s : State} (hW : s.Wf) : (openBoundary c st s).Wf := by
  unfold openBoundary
  repeat' first
    | with_reducible assumption
    | with_reducible apply journalJoin_wf
    | with_reducible apply openingBoundary_wf
    | with_reducible refine whenS_wf (fun u hu => ?_) ?_
    | with_reducible refine openingBoundary_wfE ?_ (by with_reducible assumption)
    | split
    | dsimp only
    | (simp only [wf_mk]; with_reducible apply wf_parts)

theorem decideBoundary_wf {c : Nat} {s : State} (hW : s.Wf) : (decideBoundary c s).Wf := by
  unfold decideBoundary
  repeat' first
    | with_reducible assumption
    | with_reducible apply flightDecision_wf
    | split
    | dsimp only
    | (simp only [wf_mk]; with_reducible apply wf_parts)

theorem pruneImage_wf {c : Nat} {s : State} (hW : s.Wf) : (pruneImage c s).Wf := by
  unfold pruneImage
  repeat' first
    | with_reducible assumption
    | split
    | dsimp only
    | (simp only [wf_mk]; with_reducible apply wf_parts)

theorem boundaryEffects_wf {c : Nat} {s : State} (hW : s.Wf) : (boundaryEffects c s).Wf := by
  unfold boundaryEffects
  repeat' first
    | with_reducible assumption
    | with_reducible apply engineBoundary_wf
    | with_reducible apply showSince_wf
    | with_reducible apply ringSwitch_wf
    | with_reducible apply retryOut_wf
    | with_reducible apply creditMessages_wf
    | with_reducible apply timeBoundary_wf
    | with_reducible apply pairLinkBoundary_wf
    | with_reducible apply leaseBoundary_wf
    | with_reducible apply headlessBoundary_wf
    | with_reducible apply memberBoundary_wf
    | with_reducible apply stationBoundary_wf
    | with_reducible apply canMailAll_wf
    | with_reducible apply dmaBoundary_wf
    | with_reducible apply selfActivate_wf
    | with_reducible apply openBoundary_wf
    | with_reducible apply decideBoundary_wf
    | with_reducible apply pruneImage_wf
    | with_reducible refine forEach_wf (fun x u hu => ?_) ?_
    | split
    | dsimp only
    | (simp only [wf_mk]; with_reducible apply wf_parts)

theorem cycleBoundary_wf {s : State} (hW : s.Wf) : (cycleBoundary s).Wf := by
  unfold cycleBoundary
  repeat' first
    | with_reducible assumption
    | with_reducible apply stairBoundary_wf
    | with_reducible apply boundaryEffects_wf
    | split
    | dsimp only
    | (simp only [wf_mk]; with_reducible apply wf_parts)

theorem passTicks_wf {n : Nat} {s : State} (hW : s.Wf) : (passTicks n s).Wf := by
  unfold passTicks
  repeat' first
    | with_reducible assumption
    | with_reducible apply brkMillisecond_wf
    | with_reducible apply countTicks_wf
    | with_reducible refine forEach_wf (fun x u hu => ?_) ?_
    | split
    | dsimp only
    | (simp only [wf_mk]; with_reducible apply wf_parts)

theorem lineTime_wf {before : Nat} {s : State} (hW : s.Wf) : (lineTime before s).Wf := by
  unfold lineTime
  repeat' first
    | with_reducible assumption
    | with_reducible apply portTime_wf
    | with_reducible apply pump_wf
    | split
    | dsimp only
    | (simp only [wf_mk]; with_reducible apply wf_parts)

theorem execCycleBoundary_wf {s : State} (hW : s.Wf) {tW : State} (eW : execCycleBoundary s = .next tW) : tW.Wf := by
  revert eW
  unfold execCycleBoundary
  repeat' first
    | with_reducible assumption
    | with_reducible apply latchAllLinks_wf
    | with_reducible apply cycleBoundary_wf
    | with_reducible apply passTicks_wf
    | with_reducible apply lineTime_wf
    | (intro (eQ : _ = _); with_reducible refine alive_wf hW ?_ eQ)
    | (intro (eQ : _ = _); with_reducible refine answer_wf ?_ eQ)
    | split
    | dsimp only
    | (simp only [wf_mk]; with_reducible apply wf_parts)
    | (intro (eQ : _ = _); cases eQ)

theorem holdTick_wf {s : State} (hW : s.Wf) : (holdTick s).Wf := by
  unfold holdTick
  repeat' first
    | with_reducible assumption
    | with_reducible apply setR_wf
    | with_reducible refine forEach_wf (fun x u hu => ?_) ?_
    | split
    | dsimp only
    | (simp only [wf_mk]; with_reducible apply wf_parts)

theorem baseTick_wf {s : State} (hW : s.Wf) : (baseTick s).Wf := by
  unfold baseTick
  repeat' first
    | with_reducible assumption
    | with_reducible apply latchAllLinks_wf
    | with_reducible apply engineBaseTick_wf
    | with_reducible apply endPulse_wf
    | with_reducible apply fireDue_wf
    | with_reducible apply cycleBoundary_wf
    | with_reducible apply passTicks_wf
    | with_reducible apply lineTime_wf
    | with_reducible apply holdTick_wf
    | with_reducible refine whenS_wf (fun u hu => ?_) ?_
    | with_reducible refine forEach_wf (fun x u hu => ?_) ?_
    | split
    | dsimp only
    | (simp only [wf_mk]; with_reducible apply wf_parts)

theorem execXtbLost_wf {s : State} (hW : s.Wf) {tW : State} (eW : execXtbLost s = .next tW) : tW.Wf := by
  revert eW
  unfold execXtbLost
  repeat' first
    | with_reducible assumption
    | with_reducible apply setFlag_wf
    | with_reducible apply setLevel_wf
    | with_reducible apply takeLinkDown_wf
    | with_reducible apply pllUnlock_wf
    | with_reducible refine forEach_wf (fun x u hu => ?_) ?_
    | (intro (eQ : _ = _); with_reducible refine alive_wf hW ?_ eQ)
    | (intro (eQ : _ = _); with_reducible refine answer_wf ?_ eQ)
    | split
    | dsimp only
    | (simp only [wf_mk]; with_reducible apply wf_parts)
    | (intro (eQ : _ = _); cases eQ)

theorem execXtbReturn_wf {s : State} (hW : s.Wf) {tW : State} (eW : execXtbReturn s = .next tW) : tW.Wf := by
  revert eW
  unfold execXtbReturn
  repeat' first
    | with_reducible assumption
    | with_reducible apply setFlag_wf
    | with_reducible apply setLevel_wf
    | (intro (eQ : _ = _); with_reducible refine alive_wf hW ?_ eQ)
    | (intro (eQ : _ = _); with_reducible refine answer_wf ?_ eQ)
    | split
    | dsimp only
    | (simp only [wf_mk]; with_reducible apply wf_parts)
    | (intro (eQ : _ = _); cases eQ)

end Sys2Proof.Machine
end

