-- ==== Sys2Proof/Laws/Wf/Regfile.lean ====
section
/-!
SUPPORT. The operations of Machine/Regfile.lean keep the invariant State.Wf.
-/

namespace Sys2Proof.Machine

set_option linter.all false

theorem readWord_wf {m : Master} {p : Nat} {off : Nat} {s : State} (hW : s.Wf) : (readWord m p off s).2.Wf := by
  unfold readWord
  repeat' first
    | with_reducible assumption
    | with_reducible apply accGet_wf
    | with_reducible apply pagePop_wf
    | with_reducible apply timeRead_wf
    | with_reducible apply captureRead_wf
    | with_reducible refine accGet_wfE ?_ (by with_reducible assumption)
    | with_reducible refine pagePop_wfE ?_ (by with_reducible assumption)
    | with_reducible refine timeRead_wfE ?_ (by with_reducible assumption)
    | with_reducible refine captureRead_wfE ?_ (by with_reducible assumption)
    | split
    | dsimp only
    | (simp only [wf_mk]; with_reducible apply wf_parts)

theorem readWord_wfE {m : Master} {p : Nat} {off : Nat} {s : State} {x0} {tW : State} (hW : s.Wf) (eW : readWord m p off s = (x0, tW)) : tW.Wf := by
  have hw := readWord_wf (m := m) (p := p) (off := off) (s := s) hW
  rw [eW] at hw
  exact hw

theorem setIndErr_wf {m : Master} {p : Nat} {code : Nat} {s : State} (hW : s.Wf) : (setIndErr m p code s).Wf := by
  unfold setIndErr
  repeat' first
    | with_reducible assumption
    | with_reducible apply setBank_wf
    | split
    | dsimp only
    | (simp only [wf_mk]; with_reducible apply wf_parts)

theorem indStep_wf {m : Master} {p : Nat} {s : State} (hW : s.Wf) : (indStep m p s).Wf := by
  unfold indStep
  repeat' first
    | with_reducible assumption
    | with_reducible apply setBank_wf
    | split
    | dsimp only
    | (simp only [wf_mk]; with_reducible apply wf_parts)

theorem readIndData_wf {m : Master} {p : Nat} {s : State} (hW : s.Wf) : (readIndData m p s).2.Wf := by
  unfold readIndData
  repeat' first
    | with_reducible assumption
    | with_reducible apply setIndErr_wf
    | with_reducible apply indStep_wf
    | split
    | dsimp only
    | (simp only [wf_mk]; with_reducible apply wf_parts)

theorem readIndData_wfE {m : Master} {p : Nat} {s : State} {x0} {tW : State} (hW : s.Wf) (eW : readIndData m p s = (x0, tW)) : tW.Wf := by
  have hw := readIndData_wf (m := m) (p := p) (s := s) hW
  rw [eW] at hw
  exact hw

theorem readRegister_wf {m : Master} {p : Nat} {off : Nat} {s : State} (hW : s.Wf) : (readRegister m p off s).2.Wf := by
  unfold readRegister
  repeat' first
    | with_reducible assumption
    | with_reducible apply readWord_wf
    | with_reducible apply readIndData_wf
    | with_reducible refine readWord_wfE ?_ (by with_reducible assumption)
    | with_reducible refine readIndData_wfE ?_ (by with_reducible assumption)
    | split
    | dsimp only
    | (simp only [wf_mk]; with_reducible apply wf_parts)

theorem readRegister_wfE {m : Master} {p : Nat} {off : Nat} {s : State} {x0} {tW : State} (hW : s.Wf) (eW : readRegister m p off s = (x0, tW)) : tW.Wf := by
  have hw := readRegister_wf (m := m) (p := p) (off := off) (s := s) hW
  rw [eW] at hw
  exact hw

theorem storeRw_wf {m : Master} {p : Nat} {off : Nat} {v : Nat} {mask : Nat} {s : State} (hW : s.Wf) : (storeRw m p off v mask s).Wf := by
  unfold storeRw
  repeat' first
    | with_reducible assumption
    | with_reducible apply setBank_wf
    | with_reducible refine forEach_wf (fun x u hu => ?_) ?_
    | split
    | dsimp only
    | (simp only [wf_mk]; with_reducible apply wf_parts)

theorem storeGuarded_wf {p : Nat} {off : Nat} {v : Nat} {s : State} (hW : s.Wf) : (storeGuarded p off v s).Wf := by
  unfold storeGuarded
  repeat' first
    | with_reducible assumption
    | with_reducible apply setR_wf
    | with_reducible refine forEach_wf (fun x u hu => ?_) ?_
    | split
    | dsimp only
    | (simp only [wf_mk]; with_reducible apply wf_parts)

theorem clearSticky_wf {m : Master} {p : Nat} {off : Nat} {bits_ : Nat} {s : State} (hW : s.Wf) : (clearSticky m p off bits_ s).Wf := by
  unfold clearSticky
  repeat' first
    | with_reducible assumption
    | with_reducible apply setBank_wf
    | with_reducible refine forEach_wf (fun x u hu => ?_) ?_
    | split
    | dsimp only
    | (simp only [wf_mk]; with_reducible apply wf_parts)

end Sys2Proof.Machine
end

