-- ==== Sys2Proof/Laws/Wf/Dump.lean ====
section
/-!
SUPPORT. The operations of Machine/Dump.lean keep the invariant State.Wf.
-/

namespace Sys2Proof.Machine

set_option linter.all false

theorem dumpDone_wf {s : State} (hW : s.Wf) : (dumpDone s).Wf := by
  unfold dumpDone
  split
  · exact hW
  · dsimp only
    split
    · exact setFlag_wf (wf_boot hW hW.store)
    · refine raiseEv_wf (setFlag_wf (setFlag_wf ?_))
      have h2 := freeValue_wf (freeValue_wf (setFlag_wf (page := Page.evt) (f := Reg.evtDumpStatusBusy) (b := false)
        (wf_boot (b := { s.boot with dump := none }) hW hW.store)))
      refine ⟨?_, h2.flash, h2.committed, h2.staging, h2.active, h2.pend, h2.store, h2.log, h2.held⟩
      refine memSplice_wf (memSplice_wf ?_ _ _) _ _
      split
      · exact hW.dram
      · exact memClear_wf hW.dram _ _

theorem dumpSummary_wf {s : State} (hW : s.Wf) : (dumpSummary s).Wf := by
  unfold dumpSummary
  repeat' first
    | with_reducible assumption
    | with_reducible apply eraseFlash_wf
    | split
    | dsimp only
    | (simp only [wf_mk]; with_reducible apply wf_parts)
    | (simp only [wf_mk]; constructor <;> first | rfl | with_reducible exact State.Wf.dram (by with_reducible assumption) | with_reducible exact State.Wf.flash (by with_reducible assumption) | with_reducible exact State.Wf.committed (by with_reducible assumption) | with_reducible exact State.Wf.staging (by with_reducible assumption) | with_reducible exact State.Wf.active (by with_reducible assumption) | with_reducible exact State.Wf.pend (by with_reducible assumption) | with_reducible exact State.Wf.store (by with_reducible assumption) | with_reducible exact State.Wf.log (by with_reducible assumption) | with_reducible exact State.Wf.held (by with_reducible assumption) | (with_reducible refine memWriteN_wf _ ?_ _; first | rfl | with_reducible exact State.Wf.dram (by with_reducible assumption) | with_reducible exact State.Wf.flash (by with_reducible assumption) | with_reducible exact State.Wf.committed (by with_reducible assumption) | with_reducible exact State.Wf.staging (by with_reducible assumption) | with_reducible exact State.Wf.active (by with_reducible assumption) | with_reducible exact State.Wf.pend (by with_reducible assumption)) | (with_reducible refine memPutNat_wf ?_ _ _ _; first | rfl | with_reducible exact State.Wf.dram (by with_reducible assumption) | with_reducible exact State.Wf.flash (by with_reducible assumption) | with_reducible exact State.Wf.committed (by with_reducible assumption) | with_reducible exact State.Wf.staging (by with_reducible assumption) | with_reducible exact State.Wf.active (by with_reducible assumption) | with_reducible exact State.Wf.pend (by with_reducible assumption)) | (with_reducible refine memSplice_wf ?_ _ _; first | rfl | with_reducible exact State.Wf.dram (by with_reducible assumption) | with_reducible exact State.Wf.flash (by with_reducible assumption) | with_reducible exact State.Wf.committed (by with_reducible assumption) | with_reducible exact State.Wf.staging (by with_reducible assumption) | with_reducible exact State.Wf.active (by with_reducible assumption) | with_reducible exact State.Wf.pend (by with_reducible assumption)) | (with_reducible refine memClear_wf ?_ _ _; first | rfl | with_reducible exact State.Wf.dram (by with_reducible assumption) | with_reducible exact State.Wf.flash (by with_reducible assumption) | with_reducible exact State.Wf.committed (by with_reducible assumption) | with_reducible exact State.Wf.staging (by with_reducible assumption) | with_reducible exact State.Wf.active (by with_reducible assumption) | with_reducible exact State.Wf.pend (by with_reducible assumption)))

theorem execDumpDone_wf {s : State} (hW : s.Wf) {tW : State} (eW : execDumpDone s = .next tW) : tW.Wf := by
  revert eW
  unfold execDumpDone
  repeat' first
    | with_reducible assumption
    | with_reducible apply dumpDone_wf
    | (intro (eQ : _ = _); with_reducible refine alive_wf hW ?_ eQ)
    | (intro (eQ : _ = _); with_reducible refine answer_wf ?_ eQ)
    | split
    | dsimp only
    | (simp only [wf_mk]; with_reducible apply wf_parts)
    | (intro (eQ : _ = _); cases eQ)

theorem execDumpSummary_wf {s : State} (hW : s.Wf) {tW : State} (eW : execDumpSummary s = .next tW) : tW.Wf := by
  revert eW
  unfold execDumpSummary
  repeat' first
    | with_reducible assumption
    | with_reducible apply dumpSummary_wf
    | (intro (eQ : _ = _); with_reducible refine alive_wf hW ?_ eQ)
    | (intro (eQ : _ = _); with_reducible refine answer_wf ?_ eQ)
    | split
    | dsimp only
    | (simp only [wf_mk]; with_reducible apply wf_parts)
    | (intro (eQ : _ = _); cases eQ)

end Sys2Proof.Machine
end

