-- ==== Sys2Proof/Laws/Wf/Boot.lean ====
section
/-!
SUPPORT. The operations of Machine/Boot.lean keep the invariant State.Wf.
-/

namespace Sys2Proof.Machine

set_option linter.all false

theorem setArea_wf {i : Nat} {v : Nat} {s : State} (hW : s.Wf) : (setArea i v s).Wf := by
  unfold setArea
  repeat' first
    | with_reducible assumption
    | split
    | dsimp only
    | (simp only [wf_mk]; with_reducible apply wf_parts)

theorem spoilSigner_wf {m : Memory} {b : Nat} {s : State} (hW : s.Wf) : (spoilSigner m b s).Wf := by
  unfold spoilSigner
  repeat' first
    | with_reducible assumption
    | with_reducible apply spoilDrawer_wf
    | with_reducible apply syncKey_wf
    | with_reducible refine whenS_wf (fun u hu => ?_) ?_
    | split
    | dsimp only
    | (simp only [wf_mk]; with_reducible apply wf_parts)

theorem verifyArea_wf {i : Nat} {s : State} (hW : s.Wf) : (verifyArea i s).2.Wf := by
  unfold verifyArea
  repeat' first
    | with_reducible assumption
    | with_reducible apply setArea_wf
    | with_reducible apply spoilSigner_wf
    | split
    | dsimp only
    | (simp only [wf_mk]; with_reducible apply wf_parts)

theorem verifyArea_wfE {i : Nat} {s : State} {x0} {tW : State} (hW : s.Wf) (eW : verifyArea i s = (x0, tW)) : tW.Wf := by
  have hw := verifyArea_wf (i := i) (s := s) hW
  rw [eW] at hw
  exact hw

theorem tryPair_wf {p : Nat × Nat} {acc : Option (Nat × Nat) × State} (hW : acc.2.Wf) : (tryPair p acc).2.Wf := by
  obtain ⟨chosen, s⟩ := acc
  replace hW : s.Wf := hW
  unfold tryPair
  repeat' first
    | with_reducible assumption
    | with_reducible apply verifyArea_wf
    | with_reducible refine verifyArea_wfE ?_ (by with_reducible assumption)
    | split
    | dsimp only
  rename_i heq _
  cases heq
  exact hW

theorem choosePair_wf {bootsel : Nat} {s : State} (hW : s.Wf) : (choosePair bootsel s).2.Wf := by
  unfold choosePair
  repeat' first
    | with_reducible assumption
    | with_reducible apply freeValue_wf
    | with_reducible apply tryPair_wf
    | with_reducible refine foldl_wf (fun u x hu => ?_) _ _ ?_
    | with_reducible refine foldl_snd_wf (fun p x hp => ?_) _ _ ?_
    | with_reducible refine foldl_snd_wfE (fun p x hp => ?_) ?_ (by with_reducible assumption)
    | with_reducible refine freeValue_wfE ?_ (by with_reducible assumption)
    | with_reducible refine tryPair_wfE ?_ (by with_reducible assumption)
    | split
    | dsimp only
    | (simp only [wf_mk]; with_reducible apply wf_parts)

theorem choosePair_wfE {bootsel : Nat} {s : State} {x0} {tW : State} (hW : s.Wf) (eW : choosePair bootsel s = (x0, tW)) : tW.Wf := by
  have hw := choosePair_wf (bootsel := bootsel) (s := s) hW
  rw [eW] at hw
  exact hw

theorem fallBack_wf {s : State} (hW : s.Wf) : (fallBack s).Wf := by
  unfold fallBack
  repeat' first
    | with_reducible assumption
    | with_reducible apply raiseEv_wf
    | with_reducible apply journal_wf
    | with_reducible apply setArea_wf
    | with_reducible refine forEach_wf (fun x u hu => ?_) ?_
    | split
    | dsimp only
    | (simp only [wf_mk]; with_reducible apply wf_parts)

theorem enterSafeMode_wf {s : State} (hW : s.Wf) : (enterSafeMode s).Wf := by
  unfold enterSafeMode
  repeat' first
    | with_reducible assumption
    | with_reducible apply setR_wf
    | with_reducible apply setFlag_wf
    | with_reducible apply setLevel_wf
    | with_reducible apply journal_wf
    | with_reducible apply setActState_wf
    | with_reducible apply enterForwarder_wf
    | split
    | dsimp only
    | (simp only [wf_mk]; with_reducible apply wf_parts)

theorem applySetting_wf {c : SettingsCopy} {p : Nat} {f : Fld} {s : State} (hW : s.Wf) : (applySetting c p f s).Wf := by
  unfold applySetting
  repeat' first
    | with_reducible assumption
    | with_reducible apply setR_wf
    | split
    | dsimp only
    | (simp only [wf_mk]; with_reducible apply wf_parts)

theorem applySettings_wf {newel : Option Nat} {s : State} (hW : s.Wf) : (applySettings newel s).Wf := by
  unfold applySettings
  repeat' first
    | with_reducible assumption
    | with_reducible apply raiseIf_wf
    | with_reducible apply syncTile_wf
    | with_reducible apply applySetting_wf
    | with_reducible refine forEach_wf (fun x u hu => ?_) ?_
    | with_reducible refine foldl_wf (fun u x hu => ?_) _ _ ?_
    | with_reducible refine foldl_snd_wf (fun p x hp => ?_) _ _ ?_
    | with_reducible refine foldl_snd_wfE (fun p x hp => ?_) ?_ (by with_reducible assumption)
    | split
    | dsimp only
    | (simp only [wf_mk]; with_reducible apply wf_parts)

theorem startPair_wf {p : Nat × Nat} {s : State} (hW : s.Wf) : (startPair p s).Wf := by
  unfold startPair
  repeat' first
    | with_reducible assumption
    | with_reducible apply setR_wf
    | with_reducible refine whenS_wf (fun u hu => ?_) ?_
    | split
    | dsimp only
    | (simp only [wf_mk]; with_reducible apply wf_parts)

theorem bootSettings_wf {large : Bool} {newel : Option Nat} {s : State} (hW : s.Wf) : (bootSettings large newel s).Wf := by
  unfold bootSettings
  repeat' first
    | with_reducible assumption
    | with_reducible apply setR_wf
    | with_reducible apply applySettings_wf
    | with_reducible refine whenS_wf (fun u hu => ?_) ?_
    | split
    | dsimp only
    | (simp only [wf_mk]; with_reducible apply wf_parts)

theorem plinthBoot_wf {kind : Nat} {s : State} (hW : s.Wf) : (plinthBoot kind s).Wf := by
  unfold plinthBoot
  repeat' first
    | with_reducible assumption
    | with_reducible apply syncKey_wf
    | with_reducible apply wipeDrawers_wf
    | with_reducible apply choosePair_wf
    | with_reducible apply fallBack_wf
    | with_reducible apply enterSafeMode_wf
    | with_reducible apply startPair_wf
    | with_reducible apply bootSettings_wf
    | with_reducible refine choosePair_wfE ?_ (by with_reducible assumption)
    | split
    | dsimp only
    | (simp only [wf_mk]; with_reducible apply wf_parts)

theorem newelSettings_wf {s : State} (hW : s.Wf) : (newelSettings s).Wf := by
  unfold newelSettings
  repeat' first
    | with_reducible assumption
    | with_reducible apply writeSettings_wf
    | with_reducible apply saveFails_wf
    | split
    | dsimp only
    | (simp only [wf_mk]; with_reducible apply wf_parts)

theorem readConfig_wf {s : State} (hW : s.Wf) : (readConfig s).2.Wf := by
  unfold readConfig
  dsimp only
  split
  · exact raiseEv_wf hW
  · split
    · exact raiseEv_wf hW
    · split
      · exact journal_wf (raiseEv_wf (setR_wf hW))
      · split
        · exact raiseEv_wf (setR_wf hW)
        · exact whenS_wf (fun u hu => migrateConfig_wf hu (cfgHalf_wf hW _)) (setR_wf hW)

theorem readConfig_half {s t : State} {h : CfgHalf} (hW : s.Wf) (e : readConfig s = (some h, t)) : memoryWf h.stair = true := by
  unfold readConfig at e
  dsimp only at e
  split at e
  · cases e
  · split at e
    · cases e
    · split at e
      · cases e
      · split at e
        · cases e
        · cases e
          exact cfgHalf_wf hW _

theorem readConfig_wfE {s : State} {x0} {tW : State} (hW : s.Wf) (eW : readConfig s = (x0, tW)) : tW.Wf := by
  have hw := readConfig_wf hW
  rw [eW] at hw
  exact hw

theorem restoreStair_wf {m : Memory} {s : State} (hW : s.Wf) (hm : memoryWf m = true) : (restoreStair m s).Wf := by
  unfold restoreStair
  split
  · exact hW
  · exact prepareEnds_wf (setPend_wf (wf_stair hW hW.active hm))

theorem configRestored_wf {kind : Nat} {s : State} (hW : s.Wf) : (configRestored kind s).Wf := by
  unfold configRestored
  dsimp only
  split
  · next h e =>
    split
    · exact restoreStair_wf (restoreConfig_wf (readConfig_wf hW)) (readConfig_half hW (Prod.ext e rfl))
    · exact readConfig_wf hW
  · exact readConfig_wf hW

theorem bootDone_wf {s : State} (hW : s.Wf) : (bootDone s).Wf := by
  unfold bootDone
  split
  · exact hW
  · refine raiseEv_wf (whenS_wf (fun u hu => setLevel_wf (setFlag_wf (wf_boot hu hu.store))) (configRestored_wf (newelSettings_wf ?_)))
    exact wf_boot hW hW.store

theorem execBootDone_wf {s : State} (hW : s.Wf) {tW : State} (eW : execBootDone s = .next tW) : tW.Wf := by
  revert eW
  unfold execBootDone
  repeat' first
    | with_reducible assumption
    | with_reducible apply bootDone_wf
    | (intro (eQ : _ = _); with_reducible refine alive_wf hW ?_ eQ)
    | (intro (eQ : _ = _); with_reducible refine answer_wf ?_ eQ)
    | split
    | dsimp only
    | (simp only [wf_mk]; with_reducible apply wf_parts)
    | (intro (eQ : _ = _); cases eQ)

end Sys2Proof.Machine
end

