-- ==== Sys2Proof/Laws/Wf/Update.lean ====
section
/-!
SUPPORT. The operations of Machine/Update.lean keep the invariant State.Wf.
-/

namespace Sys2Proof.Machine

set_option linter.all false

theorem setUpdState_wf {v : Nat} {s : State} (hW : s.Wf) : (setUpdState v s).Wf := by
  unfold setUpdState
  repeat' first
    | with_reducible assumption
    | with_reducible apply setR_wf
    | split
    | dsimp only
    | (simp only [wf_mk]; with_reducible apply wf_parts)

theorem setUpdErr_wf {code : Nat} {block : Nat} {s : State} (hW : s.Wf) : (setUpdErr code block s).Wf := by
  unfold setUpdErr
  repeat' first
    | with_reducible assumption
    | with_reducible apply setR_wf
    | split
    | dsimp only
    | (simp only [wf_mk]; with_reducible apply wf_parts)

theorem updRefuse_wf {who : Option Master} {code : Nat} {block : Nat} {s : State} (hW : s.Wf) : (updRefuse who code block s).Wf := by
  unfold updRefuse
  repeat' first
    | with_reducible assumption
    | with_reducible apply raiseEv_wf
    | with_reducible apply journal_wf
    | with_reducible apply setUpdErr_wf
    | split
    | dsimp only
    | (simp only [wf_mk]; with_reducible apply wf_parts)

theorem headerDone_wf {who : Option Master} {block : Nat} {s : State} (hW : s.Wf) : (headerDone who block s).Wf := by
  unfold headerDone
  repeat' first
    | with_reducible assumption
    | with_reducible apply setR_wf
    | with_reducible apply raiseEv_wf
    | with_reducible apply journal_wf
    | with_reducible apply discardUpdate_wf
    | with_reducible apply spoilSigner_wf
    | with_reducible apply setUpdState_wf
    | with_reducible apply updRefuse_wf
    | split
    | dsimp only
    | (simp only [wf_mk]; with_reducible apply wf_parts)

theorem headerBlock_wf {who : Option Master} {k : Nat} {bs : List Byte} {s : State} (hW : s.Wf) : (headerBlock who k bs s).Wf := by
  unfold headerBlock
  repeat' first
    | with_reducible assumption
    | with_reducible apply healDram_wf
    | with_reducible apply discardUpdate_wf
    | with_reducible apply updRefuse_wf
    | with_reducible apply headerDone_wf
    | split
    | dsimp only
    | (simp only [wf_mk]; with_reducible apply wf_parts)
    | (simp only [wf_mk]; constructor <;> first | rfl | with_reducible exact State.Wf.dram (by with_reducible assumption) | with_reducible exact State.Wf.flash (by with_reducible assumption) | with_reducible exact State.Wf.committed (by with_reducible assumption) | with_reducible exact State.Wf.staging (by with_reducible assumption) | with_reducible exact State.Wf.active (by with_reducible assumption) | with_reducible exact State.Wf.pend (by with_reducible assumption) | with_reducible exact State.Wf.store (by with_reducible assumption) | with_reducible exact State.Wf.log (by with_reducible assumption) | with_reducible exact State.Wf.held (by with_reducible assumption) | (with_reducible refine memWriteN_wf _ ?_ _; first | rfl | with_reducible exact State.Wf.dram (by with_reducible assumption) | with_reducible exact State.Wf.flash (by with_reducible assumption) | with_reducible exact State.Wf.committed (by with_reducible assumption) | with_reducible exact State.Wf.staging (by with_reducible assumption) | with_reducible exact State.Wf.active (by with_reducible assumption) | with_reducible exact State.Wf.pend (by with_reducible assumption)) | (with_reducible refine memPutNat_wf ?_ _ _ _; first | rfl | with_reducible exact State.Wf.dram (by with_reducible assumption) | with_reducible exact State.Wf.flash (by with_reducible assumption) | with_reducible exact State.Wf.committed (by with_reducible assumption) | with_reducible exact State.Wf.staging (by with_reducible assumption) | with_reducible exact State.Wf.active (by with_reducible assumption) | with_reducible exact State.Wf.pend (by with_reducible assumption)) | (with_reducible refine memSplice_wf ?_ _ _; first | rfl | with_reducible exact State.Wf.dram (by with_reducible assumption) | with_reducible exact State.Wf.flash (by with_reducible assumption) | with_reducible exact State.Wf.committed (by with_reducible assumption) | with_reducible exact State.Wf.staging (by with_reducible assumption) | with_reducible exact State.Wf.active (by with_reducible assumption) | with_reducible exact State.Wf.pend (by with_reducible assumption)) | (with_reducible refine memClear_wf ?_ _ _; first | rfl | with_reducible exact State.Wf.dram (by with_reducible assumption) | with_reducible exact State.Wf.flash (by with_reducible assumption) | with_reducible exact State.Wf.committed (by with_reducible assumption) | with_reducible exact State.Wf.staging (by with_reducible assumption) | with_reducible exact State.Wf.active (by with_reducible assumption) | with_reducible exact State.Wf.pend (by with_reducible assumption)))

theorem bodyBlock_wf {who : Option Master} {k : Nat} {bs : List Byte} {s : State} (hW : s.Wf) : (bodyBlock who k bs s).Wf := by
  unfold bodyBlock
  repeat' first
    | with_reducible assumption
    | with_reducible apply setR_wf
    | with_reducible apply raiseEv_wf
    | with_reducible apply healDram_wf
    | with_reducible apply setUpdState_wf
    | with_reducible apply setUpdErr_wf
    | with_reducible apply updRefuse_wf
    | with_reducible refine whenS_wf (fun u hu => ?_) ?_
    | split
    | dsimp only
    | (simp only [wf_mk]; with_reducible apply wf_parts)
    | (simp only [wf_mk]; constructor <;> first | rfl | with_reducible exact State.Wf.dram (by with_reducible assumption) | with_reducible exact State.Wf.flash (by with_reducible assumption) | with_reducible exact State.Wf.committed (by with_reducible assumption) | with_reducible exact State.Wf.staging (by with_reducible assumption) | with_reducible exact State.Wf.active (by with_reducible assumption) | with_reducible exact State.Wf.pend (by with_reducible assumption) | with_reducible exact State.Wf.store (by with_reducible assumption) | with_reducible exact State.Wf.log (by with_reducible assumption) | with_reducible exact State.Wf.held (by with_reducible assumption) | (with_reducible refine memWriteN_wf _ ?_ _; first | rfl | with_reducible exact State.Wf.dram (by with_reducible assumption) | with_reducible exact State.Wf.flash (by with_reducible assumption) | with_reducible exact State.Wf.committed (by with_reducible assumption) | with_reducible exact State.Wf.staging (by with_reducible assumption) | with_reducible exact State.Wf.active (by with_reducible assumption) | with_reducible exact State.Wf.pend (by with_reducible assumption)) | (with_reducible refine memPutNat_wf ?_ _ _ _; first | rfl | with_reducible exact State.Wf.dram (by with_reducible assumption) | with_reducible exact State.Wf.flash (by with_reducible assumption) | with_reducible exact State.Wf.committed (by with_reducible assumption) | with_reducible exact State.Wf.staging (by with_reducible assumption) | with_reducible exact State.Wf.active (by with_reducible assumption) | with_reducible exact State.Wf.pend (by with_reducible assumption)) | (with_reducible refine memSplice_wf ?_ _ _; first | rfl | with_reducible exact State.Wf.dram (by with_reducible assumption) | with_reducible exact State.Wf.flash (by with_reducible assumption) | with_reducible exact State.Wf.committed (by with_reducible assumption) | with_reducible exact State.Wf.staging (by with_reducible assumption) | with_reducible exact State.Wf.active (by with_reducible assumption) | with_reducible exact State.Wf.pend (by with_reducible assumption)) | (with_reducible refine memClear_wf ?_ _ _; first | rfl | with_reducible exact State.Wf.dram (by with_reducible assumption) | with_reducible exact State.Wf.flash (by with_reducible assumption) | with_reducible exact State.Wf.committed (by with_reducible assumption) | with_reducible exact State.Wf.staging (by with_reducible assumption) | with_reducible exact State.Wf.active (by with_reducible assumption) | with_reducible exact State.Wf.pend (by with_reducible assumption)))

theorem deliverBlock_wf {who : Option Master} {k : Nat} {bs : List Byte} {s : State} (hW : s.Wf) : (deliverBlock who k bs s).Wf := by
  unfold deliverBlock
  repeat' first
    | with_reducible assumption
    | with_reducible apply updRefuse_wf
    | with_reducible apply headerBlock_wf
    | with_reducible apply bodyBlock_wf
    | split
    | dsimp only
    | (simp only [wf_mk]; with_reducible apply wf_parts)

theorem updWord_wf {who : Option Master} {w : Nat} {v : Nat} {s : State} (hW : s.Wf) : (updWord who w v s).Wf := by
  unfold updWord
  repeat' first
    | with_reducible assumption
    | with_reducible apply updRefuse_wf
    | with_reducible apply deliverBlock_wf
    | split
    | dsimp only
    | (simp only [wf_mk]; with_reducible apply wf_parts)

theorem blockFromDram_wf {m : Master} {k : Nat} {s : State} (hW : s.Wf) : (blockFromDram m k s).Wf := by
  unfold blockFromDram
  repeat' first
    | with_reducible assumption
    | with_reducible apply updRefuse_wf
    | with_reducible apply deliverBlock_wf
    | split
    | dsimp only
    | (simp only [wf_mk]; with_reducible apply wf_parts)

theorem updBegin_wf {m : Master} {type : Nat} {defer : Bool} {s : State} (hW : s.Wf) : (updBegin m type defer s).Wf := by
  unfold updBegin
  repeat' first
    | with_reducible assumption
    | with_reducible apply setR_wf
    | with_reducible apply setFlag_wf
    | with_reducible apply journal_wf
    | with_reducible apply discardUpdate_wf
    | with_reducible apply setUpdState_wf
    | with_reducible apply updRefuse_wf
    | split
    | dsimp only
    | (simp only [wf_mk]; with_reducible apply wf_parts)

theorem updAbort_wf {m : Master} {s : State} (hW : s.Wf) : (updAbort m s).Wf := by
  unfold updAbort
  repeat' first
    | with_reducible assumption
    | with_reducible apply journal_wf
    | with_reducible apply discardUpdate_wf
    | with_reducible apply updRefuse_wf
    | split
    | dsimp only
    | (simp only [wf_mk]; with_reducible apply wf_parts)

theorem commitFails_wf {who : Option Master} {s : State} (hW : s.Wf) : (commitFails who s).Wf := by
  unfold commitFails
  repeat' first
    | with_reducible assumption
    | with_reducible apply raiseEv_wf
    | with_reducible apply journal_wf
    | with_reducible apply discardUpdate_wf
    | with_reducible apply setArea_wf
    | with_reducible apply setUpdErr_wf
    | split
    | dsimp only
    | (simp only [wf_mk]; with_reducible apply wf_parts)

theorem updCommit_wf {m : Master} {s : State} (hW : s.Wf) : (updCommit m s).Wf := by
  unfold updCommit
  split
  · exact updRefuse_wf hW
  · split
    · exact updRefuse_wf hW
    · split
      · exact updRefuse_wf hW
      · split
        · exact commitFails_wf hW
        · exact journal_wf (setFlag_wf (setUpdState_wf (eraseFlash_wf (wf_flash (setArea_wf hW) (memClear_wf hW.flash _ _)))))

theorem commitDone_wf {ok : Bool} {s : State} (hW : s.Wf) : (commitDone ok s).Wf := by
  unfold commitDone
  dsimp only
  split
  · exact hW
  · split
    · exact commitFails_wf (raiseIf_wf (setFlag_wf hW))
    · exact journal_wf (raiseEv_wf (discardUpdate_wf (setArea_wf (wf_flash (setFlag_wf hW) (memSplice_wf hW.flash _ _)))))

theorem updConfirm_wf {m : Master} {s : State} (hW : s.Wf) : (updConfirm m s).Wf := by
  unfold updConfirm
  repeat' first
    | with_reducible assumption
    | with_reducible apply setFlag_wf
    | with_reducible apply setLevel_wf
    | with_reducible apply journal_wf
    | with_reducible apply setArea_wf
    | with_reducible refine forEach_wf (fun x u hu => ?_) ?_
    | split
    | dsimp only
    | (simp only [wf_mk]; with_reducible apply wf_parts)

theorem updCommand_wf {m : Master} {cmd : Nat} {type : Nat} {block : Nat} {defer : Bool} {s : State} (hW : s.Wf) : (updCommand m cmd type block defer s).Wf := by
  unfold updCommand
  repeat' first
    | with_reducible assumption
    | with_reducible apply journal_wf
    | with_reducible apply blockFromDram_wf
    | with_reducible apply updBegin_wf
    | with_reducible apply updAbort_wf
    | with_reducible apply updCommit_wf
    | with_reducible apply updConfirm_wf
    | split
    | dsimp only
    | (simp only [wf_mk]; with_reducible apply wf_parts)

theorem execCommitDone_wf {ok : Bool} {s : State} (hW : s.Wf) {tW : State} (eW : execCommitDone ok s = .next tW) : tW.Wf := by
  revert eW
  unfold execCommitDone
  repeat' first
    | with_reducible assumption
    | with_reducible apply commitDone_wf
    | (intro (eQ : _ = _); with_reducible refine alive_wf hW ?_ eQ)
    | (intro (eQ : _ = _); with_reducible refine answer_wf ?_ eQ)
    | split
    | dsimp only
    | (simp only [wf_mk]; with_reducible apply wf_parts)
    | (intro (eQ : _ = _); cases eQ)

theorem dramScrub_wf {corrected : Nat} {bad : List Nat} {s : State} (hW : s.Wf) : (dramScrub corrected bad s).Wf := by
  unfold dramScrub
  repeat' first
    | with_reducible assumption
    | with_reducible apply addCnt_wf
    | with_reducible apply raiseEv_wf
    | with_reducible apply raiseIf_wf
    | with_reducible apply noteDramWord_wf
    | with_reducible refine forEach_wf (fun x u hu => ?_) ?_
    | split
    | dsimp only
    | (simp only [wf_mk]; with_reducible apply wf_parts)

theorem execDramScrub_wf {corrected : Word} {bad : List (BitVec 27)} {s : State} (hW : s.Wf) {tW : State} (eW : execDramScrub corrected bad s = .next tW) : tW.Wf := by
  revert eW
  unfold execDramScrub
  repeat' first
    | with_reducible assumption
    | with_reducible apply dramScrub_wf
    | (intro (eQ : _ = _); with_reducible refine alive_wf hW ?_ eQ)
    | (intro (eQ : _ = _); with_reducible refine answer_wf ?_ eQ)
    | split
    | dsimp only
    | (simp only [wf_mk]; with_reducible apply wf_parts)
    | (intro (eQ : _ = _); cases eQ)

end Sys2Proof.Machine
end

