-- ==== Sys2Proof/Laws/Wf/Reset.lean ====
section
/-!
SUPPORT. The operations of Machine/Reset.lean keep the invariant State.Wf.
-/

namespace Sys2Proof.Machine

set_option linter.all false

theorem restoredRecords_wf : ∀ (rs : List (Nat × List Byte)) {m : Memory}, memoryWf m = true →
    memoryWf (rs.foldl (fun m e => memWriteN m (journalBase + 32 * (e.1 % 65536)) e.2) m) = true
  | [], _, h => h
  | e :: rs, m, h => restoredRecords_wf rs (memWriteN_wf _ h _)

theorem clearPage_wf {page : Nat} {s : State} (hW : s.Wf) : (clearPage page s).Wf := by
  unfold clearPage
  repeat' first
    | with_reducible assumption
    | with_reducible apply access_wf
    | split
    | dsimp only
    | (simp only [wf_mk]; with_reducible apply wf_parts)

theorem noteReset_wf {kind : Nat} {s : State} (hW : s.Wf) : (noteReset kind s).Wf := by
  unfold noteReset
  repeat' first
    | with_reducible assumption
    | with_reducible apply setR_wf
    | with_reducible apply incCnt_wf
    | split
    | dsimp only
    | (simp only [wf_mk]; with_reducible apply wf_parts)

theorem journalReset_wf {who : Option Master} {kind : Nat} {head : Nat} {s : State} (hW : s.Wf) : (journalReset who kind head s).Wf := by
  unfold journalReset
  repeat' first
    | with_reducible assumption
    | with_reducible apply journal_wf
    | split
    | dsimp only
    | (simp only [wf_mk]; with_reducible apply wf_parts)

theorem bridgeClear_wf {s : State} (hW : s.Wf) : (bridgeClear s).Wf := by
  unfold bridgeClear
  repeat' first
    | with_reducible assumption
    | with_reducible apply syncNotices_wf
    | with_reducible apply syncTags_wf
    | split
    | dsimp only
    | (simp only [wf_mk]; with_reducible apply wf_parts)

theorem forgetInCab_wf {s : State} (hW : s.Wf) : (forgetInCab s).Wf := by
  unfold forgetInCab
  repeat' first
    | with_reducible assumption
    | split
    | dsimp only
    | (simp only [wf_mk]; with_reducible apply wf_parts)

theorem govClear_wf {s : State} (hW : s.Wf) : (govClear s).Wf := by
  unfold govClear
  repeat' first
    | with_reducible assumption
    | with_reducible apply syncForced_wf
    | split
    | dsimp only
    | (simp only [wf_mk]; with_reducible apply wf_parts)

theorem lanesRestart_wf {p : Side} {s : State} (hW : s.Wf) : (lanesRestart p s).Wf := by
  unfold lanesRestart
  repeat' first
    | with_reducible assumption
    | with_reducible apply setLaneState_wf
    | with_reducible apply syncLaneLevels_wf
    | with_reducible apply laneEnable_wf
    | with_reducible apply fenceLanes_wf
    | with_reducible apply clearPage_wf
    | with_reducible refine forEach_wf (fun x u hu => ?_) ?_
    | split
    | dsimp only
    | (simp only [wf_mk]; with_reducible apply wf_parts)

theorem unitEffects_wf {page : Nat} {s : State} (hW : s.Wf) : (unitEffects page s).Wf := by
  unfold unitEffects
  repeat' first
    | with_reducible assumption
    | with_reducible apply syncCab_wf
    | with_reducible apply cabRebuild_wf
    | with_reducible apply setCan_wf
    | with_reducible apply dropWaiting_wf
    | with_reducible apply syncTile_wf
    | with_reducible apply setStation_wf
    | with_reducible apply syncElig_wf
    | with_reducible apply bridgeClear_wf
    | with_reducible apply forgetInCab_wf
    | with_reducible apply govClear_wf
    | with_reducible apply lanesRestart_wf
    | split
    | dsimp only
    | (simp only [wf_mk]; with_reducible apply wf_parts)

theorem unitReset_wf {m : Master} {page : Nat} {s : State} (hW : s.Wf) : (unitReset m page s).Wf := by
  unfold unitReset
  repeat' first
    | with_reducible assumption
    | with_reducible apply syncElig_wf
    | with_reducible apply removeFence_wf
    | with_reducible apply clearPage_wf
    | with_reducible apply noteReset_wf
    | with_reducible apply journalReset_wf
    | with_reducible apply unitEffects_wf
    | split
    | dsimp only
    | (simp only [wf_mk]; with_reducible apply wf_parts)

theorem pcieReset_wf {s : State} (hW : s.Wf) : (pcieReset s).Wf := by
  unfold pcieReset
  repeat' first
    | with_reducible assumption
    | with_reducible apply syncElig_wf
    | with_reducible apply pcieDown_wf
    | with_reducible apply clearPage_wf
    | with_reducible apply noteReset_wf
    | split
    | dsimp only
    | (simp only [wf_mk]; with_reducible apply wf_parts)

theorem execPerst_wf {s : State} (hW : s.Wf) {tW : State} (eW : execPerst s = .next tW) : tW.Wf := by
  revert eW
  unfold execPerst
  repeat' first
    | with_reducible assumption
    | with_reducible apply setLevel_wf
    | with_reducible apply pcieReset_wf
    | (intro (eQ : _ = _); with_reducible refine alive_wf hW ?_ eQ)
    | (intro (eQ : _ = _); with_reducible refine answer_wf ?_ eQ)
    | split
    | dsimp only
    | (simp only [wf_mk]; with_reducible apply wf_parts)
    | (intro (eQ : _ = _); cases eQ)

theorem execPerstRelease_wf {s : State} (hW : s.Wf) {tW : State} (eW : execPerstRelease s = .next tW) : tW.Wf := by
  revert eW
  unfold execPerstRelease
  repeat' first
    | with_reducible assumption
    | with_reducible apply setLevel_wf
    | (intro (eQ : _ = _); with_reducible refine alive_wf hW ?_ eQ)
    | (intro (eQ : _ = _); with_reducible refine answer_wf ?_ eQ)
    | split
    | dsimp only
    | (simp only [wf_mk]; with_reducible apply wf_parts)
    | (intro (eQ : _ = _); cases eQ)

theorem execPcieHotReset_wf {s : State} (hW : s.Wf) {tW : State} (eW : execPcieHotReset s = .next tW) : tW.Wf := by
  revert eW
  unfold execPcieHotReset
  repeat' first
    | with_reducible assumption
    | with_reducible apply pcieReset_wf
    | (intro (eQ : _ = _); with_reducible refine alive_wf hW ?_ eQ)
    | (intro (eQ : _ = _); with_reducible refine answer_wf ?_ eQ)
    | split
    | dsimp only
    | (simp only [wf_mk]; with_reducible apply wf_parts)
    | (intro (eQ : _ = _); cases eQ)

theorem lanesResume_wf {ps : List Side} {s : State} (hW : s.Wf) : (lanesResume ps s).Wf := by
  unfold lanesResume
  repeat' first
    | with_reducible assumption
    | with_reducible apply laneEnable_wf
    | with_reducible refine forEach_wf (fun x u hu => ?_) ?_
    | split
    | dsimp only
    | (simp only [wf_mk]; with_reducible apply wf_parts)

theorem warmReset_wf {who : Option Master} {src : Nat} {s : State} (hW : s.Wf) : (warmReset who src s).Wf := by
  unfold warmReset
  repeat' first
    | with_reducible assumption
    | with_reducible apply setR_wf
    | with_reducible apply setFlag_wf
    | with_reducible apply setLevel_wf
    | with_reducible apply cabRebuild_wf
    | with_reducible apply syncKey_wf
    | with_reducible apply syncElig_wf
    | with_reducible apply syncFences_wf
    | with_reducible apply discardUpdate_wf
    | with_reducible apply removeFences_wf
    | with_reducible apply plinthBoot_wf
    | with_reducible apply noteReset_wf
    | with_reducible apply journalReset_wf
    | with_reducible apply bridgeClear_wf
    | with_reducible apply forgetInCab_wf
    | with_reducible apply govClear_wf
    | with_reducible apply lanesResume_wf
    | with_reducible apply access_wf
    | split
    | dsimp only
    | (simp only [wf_mk]; with_reducible apply wf_parts)

theorem takeWarm_wf {lc : Nat} {s : State} (hW : s.Wf) : (takeWarm lc s).Wf := by
  unfold takeWarm
  repeat' first
    | with_reducible assumption
    | with_reducible apply warmReset_wf
    | split
    | dsimp only
    | (simp only [wf_mk]; with_reducible apply wf_parts)

theorem execCmdDone_wf {s : State} (hW : s.Wf) {tW : State} (eW : execCmdDone s = .next tW) : tW.Wf := by
  revert eW
  unfold execCmdDone
  repeat' first
    | with_reducible assumption
    | with_reducible apply keyDone_wf
    | with_reducible apply takeWarm_wf
    | (intro (eQ : _ = _); with_reducible refine alive_wf hW ?_ eQ)
    | (intro (eQ : _ = _); with_reducible refine answer_wf ?_ eQ)
    | split
    | dsimp only
    | (simp only [wf_mk]; with_reducible apply wf_parts)
    | (intro (eQ : _ = _); cases eQ)

theorem execKeyService_wf {s : State} (hW : s.Wf) {tW : State} (eW : execKeyService s = .next tW) : tW.Wf := by
  revert eW
  unfold execKeyService
  repeat' first
    | with_reducible assumption
    | with_reducible apply keyService_wf
    | with_reducible apply takeWarm_wf
    | (intro (eQ : _ = _); with_reducible refine alive_wf hW ?_ eQ)
    | (intro (eQ : _ = _); with_reducible refine answer_wf ?_ eQ)
    | split
    | dsimp only
    | (simp only [wf_mk]; with_reducible apply wf_parts)
    | (intro (eQ : _ = _); cases eQ)

theorem execConfirmWindowExpiry_wf {s : State} (hW : s.Wf) {tW : State} (eW : execConfirmWindowExpiry s = .next tW) : tW.Wf := by
  revert eW
  unfold execConfirmWindowExpiry
  repeat' first
    | with_reducible assumption
    | with_reducible apply warmReset_wf
    | (intro (eQ : _ = _); with_reducible refine alive_wf hW ?_ eQ)
    | (intro (eQ : _ = _); with_reducible refine answer_wf ?_ eQ)
    | split
    | dsimp only
    | (simp only [wf_mk]; with_reducible apply wf_parts)
    | (intro (eQ : _ = _); cases eQ)

theorem assertReset_wf {kind : Nat} {s : State} (hW : s.Wf) : (assertReset kind s).Wf := by
  unfold assertReset
  dsimp only
  refine rebuildChannels_wf ?_
  exact ⟨rfl, hW.flash, rfl, rfl, rfl, rfl, hW.store, Nat.zero_le _, Nat.zero_le _⟩

theorem restoreJournal_wf {kind : Nat} {s : State} (hW : s.Wf) : (restoreJournal kind s).Wf := by
  unfold restoreJournal
  dsimp only
  refine raiseEv_wf (journalReset_wf (journal_wf (setPair_wf (setPair_wf ?_))))
  refine ⟨?_, hW.flash, hW.committed, hW.staging, hW.active, hW.pend, hW.store, hW.log, hW.held⟩
  exact restoredRecords_wf _ hW.dram

theorem bootRoot_wf {xta : Bool} {s : State} (hW : s.Wf) : (bootRoot xta s).Wf := by
  unfold bootRoot
  repeat' first
    | with_reducible assumption
    | with_reducible apply setFlag_wf
    | with_reducible apply setLevel_wf
    | split
    | dsimp only
    | (simp only [wf_mk]; with_reducible apply wf_parts)

theorem releaseReset_wf {kind : Nat} {s : State} (hW : s.Wf) : (releaseReset kind s).Wf := by
  unfold releaseReset
  repeat' first
    | with_reducible assumption
    | with_reducible apply setR_wf
    | with_reducible apply setFlag_wf
    | with_reducible apply freeValue_wf
    | with_reducible apply raiseEv_wf
    | with_reducible apply syncWear_wf
    | with_reducible apply syncCab_wf
    | with_reducible apply entryAutoOn_wf
    | with_reducible apply rebuildChannels_wf
    | with_reducible apply coldStart_wf
    | with_reducible apply syncKey_wf
    | with_reducible apply syncDebug_wf
    | with_reducible apply syncElig_wf
    | with_reducible apply setRoles_wf
    | with_reducible apply laneEnable_wf
    | with_reducible apply plinthBoot_wf
    | with_reducible apply noteReset_wf
    | with_reducible apply restoreJournal_wf
    | with_reducible apply bootRoot_wf
    | with_reducible refine whenS_wf (fun u hu => ?_) ?_
    | with_reducible refine forEach_wf (fun x u hu => ?_) ?_
    | with_reducible refine freeValue_wfE ?_ (by with_reducible assumption)
    | split
    | dsimp only
    | (simp only [wf_mk]; with_reducible apply wf_parts)

theorem setBootsel_wf {v : Nat} {s : State} (hW : s.Wf) : (setBootsel v s).Wf := by
  unfold setBootsel
  repeat' first
    | with_reducible assumption
    | split
    | dsimp only
    | (simp only [wf_mk]; with_reducible apply wf_parts)

theorem execVrst_wf {s : State} (hW : s.Wf) {tW : State} (eW : execVrst s = .next tW) : tW.Wf := by
  revert eW
  unfold execVrst
  repeat' first
    | with_reducible assumption
    | with_reducible apply gatesDown_wf
    | with_reducible apply assertReset_wf
    | (intro (eQ : _ = _); with_reducible refine alive_wf hW ?_ eQ)
    | (intro (eQ : _ = _); with_reducible refine answer_wf ?_ eQ)
    | split
    | dsimp only
    | (simp only [wf_mk]; with_reducible apply wf_parts)
    | (intro (eQ : _ = _); cases eQ)

theorem execVholdFall_wf {s : State} (hW : s.Wf) {tW : State} (eW : execVholdFall s = .next tW) : tW.Wf := by
  revert eW
  unfold execVholdFall
  repeat' first
    | with_reducible assumption
    | (intro (eQ : _ = _); with_reducible refine alive_wf hW ?_ eQ)
    | (intro (eQ : _ = _); with_reducible refine answer_wf ?_ eQ)
    | split
    | dsimp only
    | (simp only [wf_mk]; with_reducible apply wf_parts)
    | (intro (eQ : _ = _); cases eQ)

theorem execBor_wf {bootsel : Fin 4} {s : State} (hW : s.Wf) {tW : State} (eW : execBor bootsel s = .next tW) : tW.Wf := by
  revert eW
  unfold execBor
  repeat' first
    | with_reducible assumption
    | with_reducible apply releaseReset_wf
    | with_reducible apply setBootsel_wf
    | (intro (eQ : _ = _); with_reducible refine alive_wf hW ?_ eQ)
    | (intro (eQ : _ = _); with_reducible refine answer_wf ?_ eQ)
    | split
    | dsimp only
    | (simp only [wf_mk]; with_reducible apply wf_parts)
    | (intro (eQ : _ = _); cases eQ)

theorem execPor_wf {bootsel : Fin 4} {s : State} (hW : s.Wf) {tW : State} (eW : execPor bootsel s = .next tW) : tW.Wf := by
  revert eW
  unfold execPor
  repeat' first
    | with_reducible assumption
    | with_reducible apply assertReset_wf
    | with_reducible apply releaseReset_wf
    | with_reducible apply setBootsel_wf
    | (intro (eQ : _ = _); with_reducible refine alive_wf hW ?_ eQ)
    | (intro (eQ : _ = _); with_reducible refine answer_wf ?_ eQ)
    | split
    | dsimp only
    | (simp only [wf_mk]; with_reducible apply wf_parts)
    | (intro (eQ : _ = _); cases eQ)

theorem execPinReset_wf {s : State} (hW : s.Wf) {tW : State} (eW : execPinReset s = .next tW) : tW.Wf := by
  revert eW
  unfold execPinReset
  repeat' first
    | with_reducible assumption
    | with_reducible apply assertReset_wf
    | (intro (eQ : _ = _); with_reducible refine alive_wf hW ?_ eQ)
    | (intro (eQ : _ = _); with_reducible refine answer_wf ?_ eQ)
    | split
    | dsimp only
    | (simp only [wf_mk]; with_reducible apply wf_parts)
    | (intro (eQ : _ = _); cases eQ)

theorem execResetRelease_wf {bootsel : Fin 4} {s : State} (hW : s.Wf) {tW : State} (eW : execResetRelease bootsel s = .next tW) : tW.Wf := by
  revert eW
  unfold execResetRelease
  repeat' first
    | with_reducible assumption
    | with_reducible apply releaseReset_wf
    | with_reducible apply setBootsel_wf
    | (intro (eQ : _ = _); with_reducible refine alive_wf hW ?_ eQ)
    | (intro (eQ : _ = _); with_reducible refine answer_wf ?_ eQ)
    | split
    | dsimp only
    | (simp only [wf_mk]; with_reducible apply wf_parts)
    | (intro (eQ : _ = _); cases eQ)

theorem standbyEnter_wf {m : Master} {s : State} (hW : s.Wf) : (standbyEnter m s).Wf := by
  unfold standbyEnter
  repeat' first
    | with_reducible assumption
    | with_reducible apply journal_wf
    | with_reducible apply updRefuse_wf
    | split
    | dsimp only
    | (simp only [wf_mk]; with_reducible apply wf_parts)

theorem standbyCan_wf {n : Nat} {s : State} (hW : s.Wf) : (standbyCan n s).Wf := by
  unfold standbyCan
  repeat' first
    | with_reducible assumption
    | with_reducible apply setFlag_wf
    | with_reducible apply setCan_wf
    | with_reducible apply dropWaiting_wf
    | split
    | dsimp only
    | (simp only [wf_mk]; with_reducible apply wf_parts)

theorem standbyEngine_wf {e : Nat} {s : State} (hW : s.Wf) : (standbyEngine e s).Wf := by
  unfold standbyEngine
  repeat' first
    | with_reducible assumption
    | with_reducible apply setTxf_wf
    | with_reducible apply setRxf_wf
    | split
    | dsimp only
    | (simp only [wf_mk]; with_reducible apply wf_parts)

theorem standbyDone_wf {s : State} (hW : s.Wf) : (standbyDone s).Wf := by
  unfold standbyDone
  repeat' first
    | with_reducible assumption
    | with_reducible apply setFlag_wf
    | with_reducible apply setLevel_wf
    | with_reducible apply flushConsumers_wf
    | with_reducible apply syncTile_wf
    | with_reducible apply setGate_wf
    | with_reducible apply standbyCan_wf
    | with_reducible apply standbyEngine_wf
    | with_reducible refine forEach_wf (fun x u hu => ?_) ?_
    | split
    | dsimp only
    | (simp only [wf_mk]; with_reducible apply wf_parts)

theorem standbyExit_wf {m : Master} {s : State} (hW : s.Wf) : (standbyExit m s).Wf := by
  unfold standbyExit
  repeat' first
    | with_reducible assumption
    | with_reducible apply setFlag_wf
    | with_reducible apply setLevel_wf
    | with_reducible apply journal_wf
    | with_reducible apply setEngFlag_wf
    | with_reducible apply syncTile_wf
    | with_reducible apply setGate_wf
    | with_reducible refine whenS_wf (fun u hu => ?_) ?_
    | with_reducible refine forEach_wf (fun x u hu => ?_) ?_
    | split
    | dsimp only
    | (simp only [wf_mk]; with_reducible apply wf_parts)

theorem execStandby_wf {s : State} (hW : s.Wf) {tW : State} (eW : execStandby s = .next tW) : tW.Wf := by
  revert eW
  unfold execStandby
  repeat' first
    | with_reducible assumption
    | with_reducible apply standbyDone_wf
    | (intro (eQ : _ = _); with_reducible refine alive_wf hW ?_ eQ)
    | (intro (eQ : _ = _); with_reducible refine answer_wf ?_ eQ)
    | split
    | dsimp only
    | (simp only [wf_mk]; with_reducible apply wf_parts)
    | (intro (eQ : _ = _); cases eQ)

theorem ringReset_wf {m : Master} {s : State} (hW : s.Wf) : (ringReset m s).Wf := by
  unfold ringReset
  repeat' first
    | with_reducible assumption
    | with_reducible apply journalRefused_wf
    | with_reducible apply assertReset_wf
    | with_reducible apply releaseReset_wf
    | split
    | dsimp only
    | (simp only [wf_mk]; with_reducible apply wf_parts)

theorem resetCommand_wf {m : Master} {cmd : Nat} {s : State} (hW : s.Wf) : (resetCommand m cmd s).Wf := by
  unfold resetCommand
  repeat' first
    | with_reducible assumption
    | with_reducible apply warmReset_wf
    | with_reducible apply standbyEnter_wf
    | with_reducible apply standbyExit_wf
    | with_reducible apply ringReset_wf
    | split
    | dsimp only
    | (simp only [wf_mk]; with_reducible apply wf_parts)

theorem configCommand_wf {m : Master} {cmd : Nat} {ok : Bool} {s : State} (hW : s.Wf) : (configCommand m cmd ok s).Wf := by
  unfold configCommand
  repeat' first
    | with_reducible assumption
    | with_reducible apply journal_wf
    | with_reducible apply saveNodeRecord_wf
    | with_reducible apply saveConfig_wf
    | with_reducible apply clearConfig_wf
    | with_reducible refine whenS_wf (fun u hu => ?_) ?_
    | split
    | dsimp only
    | (simp only [wf_mk]; with_reducible apply wf_parts)

end Sys2Proof.Machine
end

