-- ==== Sys2Proof/Laws/Wf/Effects.lean ====
section
/-!
SUPPORT. The operations of Machine/Effects.lean keep the invariant State.Wf.
-/

namespace Sys2Proof.Machine

set_option linter.all false

theorem portWord_wf {v : Nat} {mask : Nat} {s : State} (hW : s.Wf) : (portWord v mask s).2.Wf := by
  unfold portWord
  repeat' first
    | with_reducible assumption
    | with_reducible apply freeValue_wf
    | with_reducible refine freeValue_wfE ?_ (by with_reducible assumption)
    | split
    | dsimp only
    | (simp only [wf_mk]; with_reducible apply wf_parts)

theorem portWord_wfE {v : Nat} {mask : Nat} {s : State} {x0} {tW : State} (hW : s.Wf) (eW : portWord v mask s = (x0, tW)) : tW.Wf := by
  have hw := portWord_wf (v := v) (mask := mask) (s := s) hW
  rw [eW] at hw
  exact hw

theorem disableLanes_wf {p : Side} {before : State} {s : State} (hW : before.Wf) (hW_s : s.Wf) : (disableLanes p before s).Wf := by
  unfold disableLanes
  repeat' first
    | with_reducible assumption
    | with_reducible apply laneDisable_wf
    | with_reducible refine whenS_wf (fun u hu => ?_) ?_
    | with_reducible refine forEach_wf (fun x u hu => ?_) ?_
    | split
    | dsimp only
    | (simp only [wf_mk]; with_reducible apply wf_parts)

theorem injectWrite_wf {p : Side} {n : Nat} {act : Nat} {s : State} (hW : s.Wf) : (injectWrite p n act s).Wf := by
  unfold injectWrite
  repeat' first
    | with_reducible assumption
    | with_reducible apply setR_wf
    | with_reducible apply setLane_wf
    | with_reducible refine whenS_wf (fun u hu => ?_) ?_
    | split
    | dsimp only
    | (simp only [wf_mk]; with_reducible apply wf_parts)

theorem laneEffect_wf {p : Side} {off : Nat} {act : Nat} {before : State} {s : State} (hW : before.Wf) (hW_s : s.Wf) : (laneEffect p off act before s).Wf := by
  unfold laneEffect
  repeat' first
    | with_reducible assumption
    | with_reducible apply laneCntClear_wf
    | with_reducible apply syncRate_wf
    | with_reducible apply disableLanes_wf
    | with_reducible apply injectWrite_wf
    | with_reducible refine whenS_wf (fun u hu => ?_) ?_
    | split
    | dsimp only
    | (simp only [wf_mk]; with_reducible apply wf_parts)

theorem duplexEffect_wf {m : Master} {off : Nat} {v : Nat} {mask : Nat} {act : Nat} {s : State} (hW : s.Wf) : (duplexEffect m off v mask act s).Wf := by
  unfold duplexEffect
  repeat' first
    | with_reducible assumption
    | with_reducible apply setR_wf
    | with_reducible apply takeRingKey_wf
    | with_reducible apply syncElig_wf
    | with_reducible apply hostKick_wf
    | with_reducible apply syncGates_wf
    | with_reducible apply joinNonceHi_wf
    | with_reducible refine whenS_wf (fun u hu => ?_) ?_
    | split
    | dsimp only
    | (simp only [wf_mk]; with_reducible apply wf_parts)

theorem i2cGo_wf {s : State} (hW : s.Wf) : (i2cGo s).Wf := by
  unfold i2cGo
  repeat' first
    | with_reducible assumption
    | with_reducible apply setFlag_wf
    | with_reducible apply emit_wf
    | split
    | dsimp only
    | (simp only [wf_mk]; with_reducible apply wf_parts)

theorem cabEffect_wf {m : Master} {off : Nat} {v : Nat} {mask : Nat} {act : Nat} {word : Nat} {s : State} (hW : s.Wf) : (cabEffect m off v mask act word s).Wf := by
  unfold cabEffect
  repeat' first
    | with_reducible assumption
    | with_reducible apply accCommand_wf
    | with_reducible apply accPut_wf
    | with_reducible apply cabCntClear_wf
    | with_reducible apply bulkCtrlWrite_wf
    | with_reducible apply portWord_wf
    | with_reducible refine whenS_wf (fun u hu => ?_) ?_
    | with_reducible refine portWord_wfE ?_ (by with_reducible assumption)
    | split
    | dsimp only
    | (simp only [wf_mk]; with_reducible apply wf_parts)

theorem engEffect_wf {e : Nat} {off : Nat} {v : Nat} {mask : Nat} {act : Nat} {word : Nat} {s : State} (hW : s.Wf) : (engEffect e off v mask act word s).Wf := by
  unfold engEffect
  repeat' first
    | with_reducible assumption
    | with_reducible apply setEng_wf
    | with_reducible apply setTxf_wf
    | with_reducible apply setRxf_wf
    | with_reducible apply pagePush_wf
    | with_reducible apply pinmapWrite_wf
    | with_reducible apply swapWrite_wf
    | with_reducible apply engCntClear_wf
    | with_reducible apply portWord_wf
    | with_reducible refine whenS_wf (fun u hu => ?_) ?_
    | with_reducible refine portWord_wfE ?_ (by with_reducible assumption)
    | split
    | dsimp only
    | (simp only [wf_mk]; with_reducible apply wf_parts)

theorem canEffect_wf {n : Nat} {off : Nat} {act : Nat} {word : Nat} {s : State} (hW : s.Wf) : (canEffect n off act word s).Wf := by
  unfold canEffect
  repeat' first
    | with_reducible assumption
    | with_reducible apply txbRequest_wf
    | with_reducible apply txbCancel_wf
    | with_reducible apply txbUnpark_wf
    | with_reducible apply canRecover_wf
    | with_reducible apply canModeWrite_wf
    | with_reducible apply canCntClear_wf
    | with_reducible refine whenS_wf (fun u hu => ?_) ?_
    | split
    | dsimp only
    | (simp only [wf_mk]; with_reducible apply wf_parts)

theorem timeEffect_wf {m : Master} {off : Nat} {act : Nat} {s : State} (hW : s.Wf) : (timeEffect m off act s).Wf := by
  unfold timeEffect
  repeat' first
    | with_reducible assumption
    | with_reducible apply stepTb3_wf
    | with_reducible apply tb1Set_wf
    | with_reducible apply todArm_wf
    | with_reducible refine whenS_wf (fun u hu => ?_) ?_
    | split
    | dsimp only
    | (simp only [wf_mk]; with_reducible apply wf_parts)

theorem trigEffect_wf {off : Nat} {act : Nat} {word : Nat} {s : State} (hW : s.Wf) : (trigEffect off act word s).Wf := by
  unfold trigEffect
  repeat' first
    | with_reducible assumption
    | with_reducible apply captureUnit_wf
    | with_reducible apply cmpCfgWrite_wf
    | with_reducible refine whenS_wf (fun u hu => ?_) ?_
    | split
    | dsimp only
    | (simp only [wf_mk]; with_reducible apply wf_parts)

theorem keyEffect_wf {off : Nat} {before : State} {s : State} (hW : before.Wf) (hW_s : s.Wf) : (keyEffect off before s).Wf := by
  unfold keyEffect
  repeat' first
    | with_reducible assumption
    | split
    | dsimp only
    | (simp only [wf_mk]; with_reducible apply wf_parts)

theorem ownEffect_wf {m : Master} {p : Nat} {off : Nat} {v : Nat} {mask : Nat} {act : Nat} {word : Nat} {before : State} {s : State} (hW : before.Wf) (hW_s : s.Wf) : (ownEffect m p off v mask act word before s).Wf := by
  unfold ownEffect
  repeat' first
    | with_reducible assumption
    | with_reducible apply clearAll_wf
    | with_reducible apply mirrorCntClear_wf
    | with_reducible apply syncTile_wf
    | with_reducible apply tileCfgWrite_wf
    | with_reducible apply gateCommand_wf
    | with_reducible apply govCntClear_wf
    | with_reducible apply denyPop_wf
    | with_reducible apply syncDebug_wf
    | with_reducible apply pwePop_wf
    | with_reducible apply noticePop_wf
    | with_reducible apply bridgeCntClear_wf
    | with_reducible apply syncElig_wf
    | with_reducible apply stationCntClear_wf
    | with_reducible apply imgCntClear_wf
    | with_reducible apply laneEffect_wf
    | with_reducible apply duplexEffect_wf
    | with_reducible apply i2cGo_wf
    | with_reducible apply cabEffect_wf
    | with_reducible apply engEffect_wf
    | with_reducible apply canEffect_wf
    | with_reducible apply timeEffect_wf
    | with_reducible apply trigEffect_wf
    | with_reducible apply keyEffect_wf
    | with_reducible refine whenS_wf (fun u hu => ?_) ?_
    | split
    | dsimp only
    | (simp only [wf_mk]; with_reducible apply wf_parts)

theorem commonEffect_wf {p : Nat} {off : Nat} {act : Nat} {before : State} {s : State} (hW : before.Wf) (hW_s : s.Wf) : (commonEffect p off act before s).Wf := by
  unfold commonEffect
  repeat' first
    | with_reducible assumption
    | with_reducible apply raiseChanged_wf
    | with_reducible apply setSticky_wf
    | split
    | dsimp only
    | (simp only [wf_mk]; with_reducible apply wf_parts)

theorem writeWord_wf {m : Master} {p : Nat} {off : Nat} {v : Nat} {mask : Nat} {s : State} (hW : s.Wf) : (writeWord m p off v mask s).Wf := by
  unfold writeWord
  repeat' first
    | with_reducible assumption
    | with_reducible apply storeRw_wf
    | with_reducible apply ownEffect_wf
    | with_reducible apply commonEffect_wf
    | split
    | dsimp only
    | (simp only [wf_mk]; with_reducible apply wf_parts)

theorem indStore_wf {m : Master} {p : Nat} {addr : Nat} {v : Nat} {s : State} (hW : s.Wf) : (indStore m p addr v s).1.Wf := by
  unfold indStore
  repeat' first
    | with_reducible assumption
    | with_reducible apply raiseEv_wf
    | with_reducible apply cabIndWrite_wf
    | with_reducible apply loadWord_wf
    | with_reducible apply canIndWrite_wf
    | with_reducible apply updWord_wf
    | with_reducible refine engIndWrite_wf ?_ (by with_reducible assumption)
    | with_reducible refine brkIndWrite_wf ?_ (by with_reducible assumption)
    | with_reducible refine descWrite_wf ?_ (by with_reducible assumption)
    | split
    | dsimp only
    | (simp only [wf_mk]; with_reducible apply wf_parts)

theorem indStore_wfE {m : Master} {p : Nat} {addr : Nat} {v : Nat} {s : State} {x0} {tW : State} (hW : s.Wf) (eW : indStore m p addr v s = (tW, x0)) : tW.Wf := by
  have hw := indStore_wf (m := m) (p := p) (addr := addr) (v := v) (s := s) hW
  rw [eW] at hw
  exact hw

theorem writeIndData_wf {m : Master} {p : Nat} {v : Nat} {mask : Nat} {s : State} (hW : s.Wf) : (writeIndData m p v mask s).Wf := by
  unfold writeIndData
  repeat' first
    | with_reducible assumption
    | with_reducible apply setIndErr_wf
    | with_reducible apply indStep_wf
    | with_reducible apply indStore_wf
    | with_reducible refine indStore_wfE ?_ (by with_reducible assumption)
    | split
    | dsimp only
    | (simp only [wf_mk]; with_reducible apply wf_parts)

theorem clearEvents_wf {ps : List (Nat × Nat)} {s : State} (hW : s.Wf) : (clearEvents ps s).Wf := by
  unfold clearEvents
  repeat' first
    | with_reducible assumption
    | with_reducible apply setR_wf
    | with_reducible apply raiseGroup_wf
    | with_reducible apply setSticky_wf
    | with_reducible refine forEach_wf (fun x u hu => ?_) ?_
    | split
    | dsimp only
    | (simp only [wf_mk]; with_reducible apply wf_parts)

theorem clearSt_wf {m : Master} {p : Nat} {off : Nat} {v : Nat} {s : State} (hW : s.Wf) : (clearSt m p off v s).Wf := by
  unfold clearSt
  repeat' first
    | with_reducible assumption
    | with_reducible apply setFlag_wf
    | with_reducible apply clearSticky_wf
    | with_reducible apply clearEvents_wf
    | with_reducible refine whenS_wf (fun u hu => ?_) ?_
    | split
    | dsimp only
    | (simp only [wf_mk]; with_reducible apply wf_parts)

theorem aliasWrite_wf {m : Master} {k : Nat} {p : Nat} {off : Nat} {v : Nat} {mask : Nat} {s : State} (hW : s.Wf) : (aliasWrite m k p off v mask s).Wf := by
  unfold aliasWrite
  repeat' first
    | with_reducible assumption
    | with_reducible apply setIndErr_wf
    | with_reducible apply writeWord_wf
    | with_reducible apply clearSt_wf
    | split
    | dsimp only
    | (simp only [wf_mk]; with_reducible apply wf_parts)

theorem stationCommand_wf {st : Side} {cmd : Nat} {s : State} (hW : s.Wf) : (stationCommand st cmd s).1.Wf := by
  unfold stationCommand
  repeat' first
    | with_reducible assumption
    | with_reducible apply armOpen_wf
    | with_reducible apply disarm_wf
    | with_reducible apply quarantineCmd_wf
    | split
    | dsimp only
    | (simp only [wf_mk]; with_reducible apply wf_parts)

theorem stationCommand_wfE {st : Side} {cmd : Nat} {s : State} {x0} {tW : State} (hW : s.Wf) (eW : stationCommand st cmd s = (tW, x0)) : tW.Wf := by
  have hw := stationCommand_wf (st := st) (cmd := cmd) (s := s) hW
  rw [eW] at hw
  exact hw

theorem cabCommand_wf {q : Nat} {cmd : Nat} {s : State} (hW : s.Wf) : (cabCommand q cmd s).1.Wf := by
  unfold cabCommand
  repeat' first
    | with_reducible assumption
    | with_reducible apply forgetFlushed_wf
    | with_reducible apply queueCommand_wf
    | with_reducible refine whenS_wf (fun u hu => ?_) ?_
    | split
    | dsimp only
    | (simp only [wf_mk]; with_reducible apply wf_parts)

theorem cabCommand_wfE {q : Nat} {cmd : Nat} {s : State} {x0} {tW : State} (hW : s.Wf) (eW : cabCommand q cmd s = (tW, x0)) : tW.Wf := by
  have hw := cabCommand_wf (q := q) (cmd := cmd) (s := s) hW
  rw [eW] at hw
  exact hw

theorem faultWrite_wf {m : Master} {page : Nat} {cmd : Nat} {s : State} (hW : s.Wf) : (faultWrite m page cmd s).1.Wf := by
  unfold faultWrite
  repeat' first
    | with_reducible assumption
    | with_reducible apply faultCommand_wf
    | split
    | dsimp only
    | (simp only [wf_mk]; with_reducible apply wf_parts)

theorem faultWrite_wfE {m : Master} {page : Nat} {cmd : Nat} {s : State} {x0} {tW : State} (hW : s.Wf) (eW : faultWrite m page cmd s = (tW, x0)) : tW.Wf := by
  have hw := faultWrite_wf (m := m) (page := page) (cmd := cmd) (s := s) hW
  rw [eW] at hw
  exact hw

theorem guardedEffect_wf {m : Master} {p : Nat} {off : Nat} {v : Nat} {s : State} (hW : s.Wf) : (guardedEffect m p off v s).1.Wf := by
  unfold guardedEffect
  repeat' first
    | with_reducible assumption
    | with_reducible apply startCheckpoint_wf
    | with_reducible apply auditCommand_wf
    | with_reducible apply stairCommand_wf
    | with_reducible apply breakerCommand_wf
    | with_reducible apply rowVal_wf
    | with_reducible apply keyCommand_wf
    | with_reducible apply exchangeNow_wf
    | with_reducible apply yieldCommand_wf
    | with_reducible apply joinCommand_wf
    | with_reducible apply accRow_wf
    | with_reducible apply laneModeWrite_wf
    | with_reducible apply updCommand_wf
    | with_reducible apply unitReset_wf
    | with_reducible apply resetCommand_wf
    | with_reducible apply configCommand_wf
    | with_reducible apply stationCommand_wf
    | with_reducible apply cabCommand_wf
    | with_reducible apply faultWrite_wf
    | with_reducible refine whenS_wf (fun u hu => ?_) ?_
    | with_reducible refine xtaSelect_wf ?_ (by with_reducible assumption)
    | with_reducible refine resync_wf ?_ (by with_reducible assumption)
    | with_reducible refine yieldCommand_wfE ?_ (by with_reducible assumption)
    | with_reducible refine stationCommand_wfE ?_ (by with_reducible assumption)
    | with_reducible refine cabCommand_wfE ?_ (by with_reducible assumption)
    | with_reducible refine faultWrite_wfE ?_ (by with_reducible assumption)
    | split
    | dsimp only
    | (simp only [wf_mk]; with_reducible apply wf_parts)

theorem guardedEffect_wfE {m : Master} {p : Nat} {off : Nat} {v : Nat} {s : State} {x0} {tW : State} (hW : s.Wf) (eW : guardedEffect m p off v s = (tW, x0)) : tW.Wf := by
  have hw := guardedEffect_wf (m := m) (p := p) (off := off) (v := v) (s := s) hW
  rw [eW] at hw
  exact hw

theorem guardedWrite_wf {m : Master} {p : Nat} {off : Nat} {v : Nat} {s : State} (hW : s.Wf) : (guardedWrite m p off v s).Wf := by
  unfold guardedWrite
  repeat' first
    | with_reducible assumption
    | with_reducible apply journal_wf
    | with_reducible apply journalRefused_wf
    | with_reducible apply storeGuarded_wf
    | with_reducible apply guardedEffect_wf
    | with_reducible refine guardedEffect_wfE ?_ (by with_reducible assumption)
    | split
    | dsimp only
    | (simp only [wf_mk]; with_reducible apply wf_parts)

theorem setGuard_wf {p : Nat} {cls : Nat} {g : Option GuardPend} {s : State} (hW : s.Wf) : (setGuard p cls g s).Wf := by
  unfold setGuard
  repeat' first
    | with_reducible assumption
    | with_reducible apply access_wf
    | split
    | dsimp only
    | (simp only [wf_mk]; with_reducible apply wf_parts)

theorem guardTimeoutDue_wf {p : Nat} {cls : Nat} {s : State} (hW : s.Wf) : (guardTimeoutDue p cls s).Wf := by
  unfold guardTimeoutDue
  repeat' first
    | with_reducible assumption
    | with_reducible apply guardFail_wf
    | with_reducible apply setGuard_wf
    | split
    | dsimp only
    | (simp only [wf_mk]; with_reducible apply wf_parts)

theorem guardValue_wf {m : Master} {p : Nat} {n : Nat} {v : Nat} {s : State} (hW : s.Wf) : (guardValue m p n v s).Wf := by
  unfold guardValue
  repeat' first
    | with_reducible assumption
    | with_reducible apply guardFail_wf
    | with_reducible apply setGuard_wf
    | split
    | dsimp only
    | (simp only [wf_mk]; with_reducible apply wf_parts)

theorem guardComplement_wf {m : Master} {p : Nat} {n : Nat} {v : Nat} {s : State} (hW : s.Wf) : (guardComplement m p n v s).Wf := by
  unfold guardComplement
  repeat' first
    | with_reducible assumption
    | with_reducible apply guardFail_wf
    | with_reducible apply guardedWrite_wf
    | with_reducible apply setGuard_wf
    | split
    | dsimp only
    | (simp only [wf_mk]; with_reducible apply wf_parts)

theorem guardInterrupt_wf {m : Master} {p : Nat} {s : State} (hW : s.Wf) : (guardInterrupt m p s).Wf := by
  unfold guardInterrupt
  repeat' first
    | with_reducible assumption
    | with_reducible apply guardFail_wf
    | with_reducible apply setGuard_wf
    | split
    | dsimp only
    | (simp only [wf_mk]; with_reducible apply wf_parts)

theorem guardNarrow_wf {m : Master} {p : Nat} {n : Nat} {s : State} (hW : s.Wf) : (guardNarrow m p n s).Wf := by
  unfold guardNarrow
  repeat' first
    | with_reducible assumption
    | with_reducible apply guardFail_wf
    | with_reducible apply setGuard_wf
    | split
    | dsimp only
    | (simp only [wf_mk]; with_reducible apply wf_parts)

theorem pageWrite_wf {m : Master} {p : Nat} {off : Nat} {v : Nat} {mask : Nat} {s : State} (hW : s.Wf) : (pageWrite m p off v mask s).Wf := by
  unfold pageWrite
  repeat' first
    | with_reducible assumption
    | with_reducible apply guardFail_wf
    | with_reducible apply writeWord_wf
    | with_reducible apply writeIndData_wf
    | with_reducible apply aliasWrite_wf
    | with_reducible apply guardTimeoutDue_wf
    | with_reducible apply guardValue_wf
    | with_reducible apply guardComplement_wf
    | with_reducible apply guardInterrupt_wf
    | with_reducible apply guardNarrow_wf
    | split
    | dsimp only
    | (simp only [wf_mk]; with_reducible apply wf_parts)

end Sys2Proof.Machine
end

