-- ==== Sys2Proof/Laws/Wf/Bus.lean ====
section
/-!
SUPPORT. The operations of Machine/Bus.lean keep the invariant State.Wf.
-/

namespace Sys2Proof.Machine

set_option linter.all false

theorem msixWrite_wf {p : Nat} {off : Nat} {v : Nat} {mask : Nat} {s : State} (hW : s.Wf) : (msixWrite p off v mask s).Wf := by
  unfold msixWrite
  repeat' first
    | with_reducible assumption
    | with_reducible apply emit_wf
    | split
    | dsimp only
    | (simp only [wf_mk]; with_reducible apply wf_parts)

theorem readPage_wf {m : Master} {p : Nat} {off : Nat} {s : State} (hW : s.Wf) : (readPage m p off s).2.Wf := by
  unfold readPage
  repeat' first
    | with_reducible assumption
    | with_reducible apply readRegister_wf
    | with_reducible refine readRegister_wfE ?_ (by with_reducible assumption)
    | split
    | dsimp only
    | (simp only [wf_mk]; with_reducible apply wf_parts)

theorem readPage_wfE {m : Master} {p : Nat} {off : Nat} {s : State} {x0} {tW : State} (hW : s.Wf) (eW : readPage m p off s = (x0, tW)) : tW.Wf := by
  have hw := readPage_wf (m := m) (p := p) (off := off) (s := s) hW
  rw [eW] at hw
  exact hw

theorem readPageBytes_wf {m : Master} {p : Nat} {off : Nat} {n : Nat} {s : State} (hW : s.Wf) : (readPageBytes m p off n s).2.Wf := by
  unfold readPageBytes
  repeat' first
    | with_reducible assumption
    | with_reducible apply readPage_wf
    | with_reducible refine readPage_wfE ?_ (by with_reducible assumption)
    | split
    | dsimp only
    | (simp only [wf_mk]; with_reducible apply wf_parts)

theorem readPageBytes_wfE {m : Master} {p : Nat} {off : Nat} {n : Nat} {s : State} {x0} {tW : State} (hW : s.Wf) (eW : readPageBytes m p off n s = (x0, tW)) : tW.Wf := by
  have hw := readPageBytes_wf (m := m) (p := p) (off := off) (n := n) (s := s) hW
  rw [eW] at hw
  exact hw

theorem noteFlashWord_wf {w : Nat} {s : State} (hW : s.Wf) : (noteFlashWord w s).Wf := by
  unfold noteFlashWord
  repeat' first
    | with_reducible assumption
    | with_reducible apply setR_wf
    | with_reducible apply incCnt_wf
    | with_reducible apply raiseEv_wf
    | split
    | dsimp only
    | (simp only [wf_mk]; with_reducible apply wf_parts)

theorem readRegion_wf {m : Master} {r : MapRegion} {n : Nat} {s : State} (hW : s.Wf) : (readRegion m r n s).2.2.Wf := by
  unfold readRegion
  repeat' first
    | with_reducible assumption
    | with_reducible apply noteDramWord_wf
    | with_reducible apply readPageBytes_wf
    | with_reducible apply noteFlashWord_wf
    | with_reducible refine readPageBytes_wfE ?_ (by with_reducible assumption)
    | split
    | dsimp only
    | (simp only [wf_mk]; with_reducible apply wf_parts)

theorem readRegion_wfE {m : Master} {r : MapRegion} {n : Nat} {s : State} {x0 x1} {tW : State} (hW : s.Wf) (eW : readRegion m r n s = (x0, x1, tW)) : tW.Wf := by
  have hw := readRegion_wf (m := m) (r := r) (n := n) (s := s) hW
  rw [eW] at hw
  exact hw

theorem writeRegion_wf {m : Master} {r : MapRegion} {bs : List Byte} {s : State} (hW : s.Wf) : (writeRegion m r bs s).Wf := by
  unfold writeRegion
  repeat' first
    | with_reducible assumption
    | with_reducible apply dramWrite_wf
    | with_reducible apply pageWrite_wf
    | with_reducible apply msixWrite_wf
    | split
    | dsimp only
    | (simp only [wf_mk]; with_reducible apply wf_parts)
    | (simp only [wf_mk]; constructor <;> first | rfl | with_reducible exact State.Wf.dram (by with_reducible assumption) | with_reducible exact State.Wf.flash (by with_reducible assumption) | with_reducible exact State.Wf.committed (by with_reducible assumption) | with_reducible exact State.Wf.staging (by with_reducible assumption) | with_reducible exact State.Wf.active (by with_reducible assumption) | with_reducible exact State.Wf.pend (by with_reducible assumption) | with_reducible exact State.Wf.store (by with_reducible assumption) | with_reducible exact State.Wf.log (by with_reducible assumption) | with_reducible exact State.Wf.held (by with_reducible assumption) | (with_reducible refine memWriteN_wf _ ?_ _; first | rfl | with_reducible exact State.Wf.dram (by with_reducible assumption) | with_reducible exact State.Wf.flash (by with_reducible assumption) | with_reducible exact State.Wf.committed (by with_reducible assumption) | with_reducible exact State.Wf.staging (by with_reducible assumption) | with_reducible exact State.Wf.active (by with_reducible assumption) | with_reducible exact State.Wf.pend (by with_reducible assumption)) | (with_reducible refine memPutNat_wf ?_ _ _ _; first | rfl | with_reducible exact State.Wf.dram (by with_reducible assumption) | with_reducible exact State.Wf.flash (by with_reducible assumption) | with_reducible exact State.Wf.committed (by with_reducible assumption) | with_reducible exact State.Wf.staging (by with_reducible assumption) | with_reducible exact State.Wf.active (by with_reducible assumption) | with_reducible exact State.Wf.pend (by with_reducible assumption)) | (with_reducible refine memSplice_wf ?_ _ _; first | rfl | with_reducible exact State.Wf.dram (by with_reducible assumption) | with_reducible exact State.Wf.flash (by with_reducible assumption) | with_reducible exact State.Wf.committed (by with_reducible assumption) | with_reducible exact State.Wf.staging (by with_reducible assumption) | with_reducible exact State.Wf.active (by with_reducible assumption) | with_reducible exact State.Wf.pend (by with_reducible assumption)) | (with_reducible refine memClear_wf ?_ _ _; first | rfl | with_reducible exact State.Wf.dram (by with_reducible assumption) | with_reducible exact State.Wf.flash (by with_reducible assumption) | with_reducible exact State.Wf.committed (by with_reducible assumption) | with_reducible exact State.Wf.staging (by with_reducible assumption) | with_reducible exact State.Wf.active (by with_reducible assumption) | with_reducible exact State.Wf.pend (by with_reducible assumption)))

theorem accessOnce_wf {m : Master} {write : Bool} {a : Nat} {n : Nat} {bs : List Byte} {s : State} (hW : s.Wf) : (accessOnce m write a n bs s).2.2.Wf := by
  unfold accessOnce
  repeat' first
    | with_reducible assumption
    | with_reducible apply noteVerdict_wf
    | with_reducible apply readRegion_wf
    | with_reducible apply writeRegion_wf
    | with_reducible refine readRegion_wfE ?_ (by with_reducible assumption)
    | split
    | dsimp only
    | (simp only [wf_mk]; with_reducible apply wf_parts)

theorem accessOnce_wfE {m : Master} {write : Bool} {a : Nat} {n : Nat} {bs : List Byte} {s : State} {x0 x1} {tW : State} (hW : s.Wf) (eW : accessOnce m write a n bs s = (x0, x1, tW)) : tW.Wf := by
  have hw := accessOnce_wf (m := m) (write := write) (a := a) (n := n) (bs := bs) (s := s) hW
  rw [eW] at hw
  exact hw

theorem accessHere_wf {m : Master} {write : Bool} {a : Nat} {n : Nat} {bs : List Byte} {s : State} (hW : s.Wf) : (accessHere m write a n bs s).2.2.Wf := by
  unfold accessHere
  repeat' first
    | with_reducible assumption
    | with_reducible apply accessOnce_wf
    | with_reducible refine accessOnce_wfE ?_ (by with_reducible assumption)
    | split
    | dsimp only
    | (simp only [wf_mk]; with_reducible apply wf_parts)

theorem accessHere_wfE {m : Master} {write : Bool} {a : Nat} {n : Nat} {bs : List Byte} {s : State} {x0 x1} {tW : State} (hW : s.Wf) (eW : accessHere m write a n bs s = (x0, x1, tW)) : tW.Wf := by
  have hw := accessHere_wf (m := m) (write := write) (a := a) (n := n) (bs := bs) (s := s) hW
  rw [eW] at hw
  exact hw

theorem holdAccess_wf {x : HeldAccess} {s : State} (hW : s.Wf) : (holdAccess x s).Wf := by
  unfold holdAccess
  repeat' first
    | with_reducible assumption
    | split
    | dsimp only
    | (simp only [wf_mk]; with_reducible apply wf_parts)

theorem access_wf {w : Waiter} {port : Nat} {m : Master} {write : Bool} {a : Nat} {n : Nat} {bs : List Byte} {s : State} (hW : s.Wf) : (access w port m write a n bs s).Wf := by
  unfold access
  repeat' first
    | with_reducible assumption
    | with_reducible apply dapDenied_wf
    | with_reducible apply endAccess_wf
    | with_reducible apply partnerAccess_wf
    | with_reducible apply accessHere_wf
    | with_reducible apply holdAccess_wf
    | with_reducible refine accessHere_wfE ?_ (by with_reducible assumption)
    | split
    | dsimp only
    | (simp only [wf_mk]; with_reducible apply wf_parts)

theorem releaseHeld_wf {s : State} (hW : s.Wf) : (releaseHeld s).Wf := by
  unfold releaseHeld
  repeat' first
    | with_reducible assumption
    | with_reducible apply access_wf
    | with_reducible refine forEach_wf (fun x u hu => ?_) ?_
    | split
    | dsimp only
    | (simp only [wf_mk]; with_reducible apply wf_parts)

theorem execGateDone_wf {s : State} (hW : s.Wf) {tW : State} (eW : execGateDone s = .next tW) : tW.Wf := by
  revert eW
  unfold execGateDone
  repeat' first
    | with_reducible assumption
    | with_reducible apply gateDone_wf
    | with_reducible apply releaseHeld_wf
    | (intro (eQ : _ = _); with_reducible refine alive_wf hW ?_ eQ)
    | (intro (eQ : _ = _); with_reducible refine answer_wf ?_ eQ)
    | split
    | dsimp only
    | (simp only [wf_mk]; with_reducible apply wf_parts)
    | (intro (eQ : _ = _); cases eQ)

theorem execGateBusy_wf {s : State} (hW : s.Wf) {tW : State} (eW : execGateBusy s = .next tW) : tW.Wf := by
  revert eW
  unfold execGateBusy
  repeat' first
    | with_reducible assumption
    | with_reducible apply gateStillBusy_wf
    | with_reducible apply releaseHeld_wf
    | (intro (eQ : _ = _); with_reducible refine alive_wf hW ?_ eQ)
    | (intro (eQ : _ = _); with_reducible refine answer_wf ?_ eQ)
    | split
    | dsimp only
    | (simp only [wf_mk]; with_reducible apply wf_parts)
    | (intro (eQ : _ = _); cases eQ)

theorem busWrite_wf {m : Master} {a : Nat} {bs : List Byte} {s : State} (hW : s.Wf) : (busWrite m a bs s).Wf := by
  unfold busWrite
  repeat' first
    | with_reducible assumption
    | with_reducible apply access_wf
    | split
    | dsimp only
    | (simp only [wf_mk]; with_reducible apply wf_parts)

theorem busRead_wf {m : Master} {a : Nat} {n : Nat} {s : State} (hW : s.Wf) : (busRead m a n s).Wf := by
  unfold busRead
  repeat' first
    | with_reducible assumption
    | with_reducible apply access_wf
    | split
    | dsimp only
    | (simp only [wf_mk]; with_reducible apply wf_parts)

theorem regWrite_wf {m : Master} {p : Nat} {off : Nat} {v : Nat} {s : State} (hW : s.Wf) : (regWrite m p off v s).Wf := by
  unfold regWrite
  repeat' first
    | with_reducible assumption
    | with_reducible apply busWrite_wf
    | split
    | dsimp only
    | (simp only [wf_mk]; with_reducible apply wf_parts)

theorem regSet_wf {m : Master} {p : Nat} {off : Nat} {v : Nat} {s : State} (hW : s.Wf) : (regSet m p off v s).Wf := by
  unfold regSet
  repeat' first
    | with_reducible assumption
    | with_reducible apply regWrite_wf
    | split
    | dsimp only
    | (simp only [wf_mk]; with_reducible apply wf_parts)

theorem regRead_wf {m : Master} {p : Nat} {off : Nat} {s : State} (hW : s.Wf) : (regRead m p off s).Wf := by
  unfold regRead
  repeat' first
    | with_reducible assumption
    | with_reducible apply busRead_wf
    | split
    | dsimp only
    | (simp only [wf_mk]; with_reducible apply wf_parts)

theorem regGuarded_wf {m : Master} {p : Nat} {off : Nat} {v : Nat} {s : State} (hW : s.Wf) : (regGuarded m p off v s).Wf := by
  unfold regGuarded
  repeat' first
    | with_reducible assumption
    | with_reducible apply regWrite_wf
    | split
    | dsimp only
    | (simp only [wf_mk]; with_reducible apply wf_parts)

theorem execSetAliasWrite_wf {m : Master} {page : Byte} {reg : Fin 256} {value : Word} {s : State} (hW : s.Wf) {tW : State} (eW : execSetAliasWrite m page reg value s = .next tW) : tW.Wf := by
  revert eW
  unfold execSetAliasWrite
  repeat' first
    | with_reducible assumption
    | with_reducible apply regWrite_wf
    | (intro (eQ : _ = _); with_reducible refine alive_wf hW ?_ eQ)
    | (intro (eQ : _ = _); with_reducible refine answer_wf ?_ eQ)
    | split
    | dsimp only
    | (simp only [wf_mk]; with_reducible apply wf_parts)
    | (intro (eQ : _ = _); cases eQ)

theorem execClrAliasWrite_wf {m : Master} {page : Byte} {reg : Fin 256} {value : Word} {s : State} (hW : s.Wf) {tW : State} (eW : execClrAliasWrite m page reg value s = .next tW) : tW.Wf := by
  revert eW
  unfold execClrAliasWrite
  repeat' first
    | with_reducible assumption
    | with_reducible apply regWrite_wf
    | (intro (eQ : _ = _); with_reducible refine alive_wf hW ?_ eQ)
    | (intro (eQ : _ = _); with_reducible refine answer_wf ?_ eQ)
    | split
    | dsimp only
    | (simp only [wf_mk]; with_reducible apply wf_parts)
    | (intro (eQ : _ = _); cases eQ)

theorem execTglAliasWrite_wf {m : Master} {page : Byte} {reg : Fin 256} {value : Word} {s : State} (hW : s.Wf) {tW : State} (eW : execTglAliasWrite m page reg value s = .next tW) : tW.Wf := by
  revert eW
  unfold execTglAliasWrite
  repeat' first
    | with_reducible assumption
    | with_reducible apply regWrite_wf
    | (intro (eQ : _ = _); with_reducible refine alive_wf hW ?_ eQ)
    | (intro (eQ : _ = _); with_reducible refine answer_wf ?_ eQ)
    | split
    | dsimp only
    | (simp only [wf_mk]; with_reducible apply wf_parts)
    | (intro (eQ : _ = _); cases eQ)

theorem execUnitReset_wf {m : Master} {page : Byte} {s : State} (hW : s.Wf) {tW : State} (eW : execUnitReset m page s = .next tW) : tW.Wf := by
  revert eW
  unfold execUnitReset
  repeat' first
    | with_reducible assumption
    | with_reducible apply regGuarded_wf
    | (intro (eQ : _ = _); with_reducible refine alive_wf hW ?_ eQ)
    | (intro (eQ : _ = _); with_reducible refine answer_wf ?_ eQ)
    | split
    | dsimp only
    | (simp only [wf_mk]; with_reducible apply wf_parts)
    | (intro (eQ : _ = _); cases eQ)

theorem execEvtForce_wf {m : Master} {page : Byte} {bits_ : BitVec 16} {s : State} (hW : s.Wf) {tW : State} (eW : execEvtForce m page bits_ s = .next tW) : tW.Wf := by
  revert eW
  unfold execEvtForce
  repeat' first
    | with_reducible assumption
    | with_reducible apply regWrite_wf
    | (intro (eQ : _ = _); with_reducible refine alive_wf hW ?_ eQ)
    | (intro (eQ : _ = _); with_reducible refine answer_wf ?_ eQ)
    | split
    | dsimp only
    | (simp only [wf_mk]; with_reducible apply wf_parts)
    | (intro (eQ : _ = _); cases eQ)

theorem execGuardedValueWrite_wf {m : Master} {page : Byte} {reg : Fin 32} {value : Word} {s : State} (hW : s.Wf) {tW : State} (eW : execGuardedValueWrite m page reg value s = .next tW) : tW.Wf := by
  revert eW
  unfold execGuardedValueWrite
  repeat' first
    | with_reducible assumption
    | with_reducible apply regWrite_wf
    | (intro (eQ : _ = _); with_reducible refine alive_wf hW ?_ eQ)
    | (intro (eQ : _ = _); with_reducible refine answer_wf ?_ eQ)
    | split
    | dsimp only
    | (simp only [wf_mk]; with_reducible apply wf_parts)
    | (intro (eQ : _ = _); cases eQ)

theorem execGuardTimeout_wf {cls : Fin 15} {page : Byte} {s : State} (hW : s.Wf) {tW : State} (eW : execGuardTimeout cls page s = .next tW) : tW.Wf := by
  revert eW
  unfold execGuardTimeout
  repeat' first
    | with_reducible assumption
    | with_reducible apply guardTimeoutDue_wf
    | (intro (eQ : _ = _); with_reducible refine alive_wf hW ?_ eQ)
    | (intro (eQ : _ = _); with_reducible refine answer_wf ?_ eQ)
    | split
    | dsimp only
    | (simp only [wf_mk]; with_reducible apply wf_parts)
    | (intro (eQ : _ = _); cases eQ)

theorem execIndDataRead_wf {m : Master} {page : Byte} {s : State} (hW : s.Wf) {tW : State} (eW : execIndDataRead m page s = .next tW) : tW.Wf := by
  revert eW
  unfold execIndDataRead
  repeat' first
    | with_reducible assumption
    | with_reducible apply regRead_wf
    | (intro (eQ : _ = _); with_reducible refine alive_wf hW ?_ eQ)
    | (intro (eQ : _ = _); with_reducible refine answer_wf ?_ eQ)
    | split
    | dsimp only
    | (simp only [wf_mk]; with_reducible apply wf_parts)
    | (intro (eQ : _ = _); cases eQ)

theorem execIndDataWrite_wf {m : Master} {page : Byte} {value : Word} {s : State} (hW : s.Wf) {tW : State} (eW : execIndDataWrite m page value s = .next tW) : tW.Wf := by
  revert eW
  unfold execIndDataWrite
  repeat' first
    | with_reducible assumption
    | with_reducible apply regWrite_wf
    | (intro (eQ : _ = _); with_reducible refine alive_wf hW ?_ eQ)
    | (intro (eQ : _ = _); with_reducible refine answer_wf ?_ eQ)
    | split
    | dsimp only
    | (simp only [wf_mk]; with_reducible apply wf_parts)
    | (intro (eQ : _ = _); cases eQ)

theorem execDenyPop_wf {m : Master} {s : State} (hW : s.Wf) {tW : State} (eW : execDenyPop m s = .next tW) : tW.Wf := by
  revert eW
  unfold execDenyPop
  repeat' first
    | with_reducible assumption
    | with_reducible apply regWrite_wf
    | (intro (eQ : _ = _); with_reducible refine alive_wf hW ?_ eQ)
    | (intro (eQ : _ = _); with_reducible refine answer_wf ?_ eQ)
    | split
    | dsimp only
    | (simp only [wf_mk]; with_reducible apply wf_parts)
    | (intro (eQ : _ = _); cases eQ)

theorem execRowSel_wf {m : Master} {value : Word} {s : State} (hW : s.Wf) {tW : State} (eW : execRowSel m value s = .next tW) : tW.Wf := by
  revert eW
  unfold execRowSel
  repeat' first
    | with_reducible assumption
    | with_reducible apply regGuarded_wf
    | (intro (eQ : _ = _); with_reducible refine alive_wf hW ?_ eQ)
    | (intro (eQ : _ = _); with_reducible refine answer_wf ?_ eQ)
    | split
    | dsimp only
    | (simp only [wf_mk]; with_reducible apply wf_parts)
    | (intro (eQ : _ = _); cases eQ)

theorem execRowVal_wf {m : Master} {value : Word} {s : State} (hW : s.Wf) {tW : State} (eW : execRowVal m value s = .next tW) : tW.Wf := by
  revert eW
  unfold execRowVal
  repeat' first
    | with_reducible assumption
    | with_reducible apply regGuarded_wf
    | (intro (eQ : _ = _); with_reducible refine alive_wf hW ?_ eQ)
    | (intro (eQ : _ = _); with_reducible refine answer_wf ?_ eQ)
    | split
    | dsimp only
    | (simp only [wf_mk]; with_reducible apply wf_parts)
    | (intro (eQ : _ = _); cases eQ)

theorem execUidLoRead_wf {m : Master} {s : State} (hW : s.Wf) {tW : State} (eW : execUidLoRead m s = .next tW) : tW.Wf := by
  revert eW
  unfold execUidLoRead
  repeat' first
    | with_reducible assumption
    | with_reducible apply regRead_wf
    | (intro (eQ : _ = _); with_reducible refine alive_wf hW ?_ eQ)
    | (intro (eQ : _ = _); with_reducible refine answer_wf ?_ eQ)
    | split
    | dsimp only
    | (simp only [wf_mk]; with_reducible apply wf_parts)
    | (intro (eQ : _ = _); cases eQ)

theorem execLaneMode_wf {m : Master} {p : Side} {n : Fin 4} {mode : Fin 4} {s : State} (hW : s.Wf) {tW : State} (eW : execLaneMode m p n mode s = .next tW) : tW.Wf := by
  revert eW
  unfold execLaneMode
  repeat' first
    | with_reducible assumption
    | with_reducible apply regGuarded_wf
    | (intro (eQ : _ = _); with_reducible refine alive_wf hW ?_ eQ)
    | (intro (eQ : _ = _); with_reducible refine answer_wf ?_ eQ)
    | split
    | dsimp only
    | (simp only [wf_mk]; with_reducible apply wf_parts)
    | (intro (eQ : _ = _); cases eQ)

theorem execInjectSingle_wf {m : Master} {p : Side} {n : Fin 4} {group : BitVec 66} {s : State} (hW : s.Wf) {tW : State} (eW : execInjectSingle m p n group s = .next tW) : tW.Wf := by
  revert eW
  unfold execInjectSingle
  repeat' first
    | with_reducible assumption
    | with_reducible apply sendGroup_wf
    | with_reducible apply regSet_wf
    | (intro (eQ : _ = _); with_reducible refine alive_wf hW ?_ eQ)
    | (intro (eQ : _ = _); with_reducible refine answer_wf ?_ eQ)
    | split
    | dsimp only
    | (simp only [wf_mk]; with_reducible apply wf_parts)
    | (intro (eQ : _ = _); cases eQ)

theorem execInjectBurst_wf {m : Master} {p : Side} {n : Fin 4} {group : BitVec 66} {next : BitVec 66} {s : State} (hW : s.Wf) {tW : State} (eW : execInjectBurst m p n group next s = .next tW) : tW.Wf := by
  revert eW
  unfold execInjectBurst
  repeat' first
    | with_reducible assumption
    | with_reducible apply sendGroup_wf
    | with_reducible apply regSet_wf
    | (intro (eQ : _ = _); with_reducible refine alive_wf hW ?_ eQ)
    | (intro (eQ : _ = _); with_reducible refine answer_wf ?_ eQ)
    | split
    | dsimp only
    | (simp only [wf_mk]; with_reducible apply wf_parts)
    | (intro (eQ : _ = _); cases eQ)

theorem execLaneCntClr_wf {m : Master} {p : Side} {s : State} (hW : s.Wf) {tW : State} (eW : execLaneCntClr m p s = .next tW) : tW.Wf := by
  revert eW
  unfold execLaneCntClr
  repeat' first
    | with_reducible assumption
    | with_reducible apply regSet_wf
    | (intro (eQ : _ = _); with_reducible refine alive_wf hW ?_ eQ)
    | (intro (eQ : _ = _); with_reducible refine answer_wf ?_ eQ)
    | split
    | dsimp only
    | (simp only [wf_mk]; with_reducible apply wf_parts)
    | (intro (eQ : _ = _); cases eQ)

theorem execLaneCounterLoRead_wf {m : Master} {p : Side} {n : Fin 4} {k : LaneCounter} {s : State} (hW : s.Wf) {tW : State} (eW : execLaneCounterLoRead m p n k s = .next tW) : tW.Wf := by
  revert eW
  unfold execLaneCounterLoRead
  repeat' first
    | with_reducible assumption
    | with_reducible apply regRead_wf
    | (intro (eQ : _ = _); with_reducible refine alive_wf hW ?_ eQ)
    | (intro (eQ : _ = _); with_reducible refine answer_wf ?_ eQ)
    | split
    | dsimp only
    | (simp only [wf_mk]; with_reducible apply wf_parts)
    | (intro (eQ : _ = _); cases eQ)

theorem execLoadBegin_wf {m : Master} {s : State} (hW : s.Wf) {tW : State} (eW : execLoadBegin m s = .next tW) : tW.Wf := by
  revert eW
  unfold execLoadBegin
  repeat' first
    | with_reducible assumption
    | with_reducible apply regGuarded_wf
    | (intro (eQ : _ = _); with_reducible refine alive_wf hW ?_ eQ)
    | (intro (eQ : _ = _); with_reducible refine answer_wf ?_ eQ)
    | split
    | dsimp only
    | (simp only [wf_mk]; with_reducible apply wf_parts)
    | (intro (eQ : _ = _); cases eQ)

theorem execStairIndDataWrite_wf {m : Master} {value : Word} {s : State} (hW : s.Wf) {tW : State} (eW : execStairIndDataWrite m value s = .next tW) : tW.Wf := by
  revert eW
  unfold execStairIndDataWrite
  repeat' first
    | with_reducible assumption
    | with_reducible apply regWrite_wf
    | (intro (eQ : _ = _); with_reducible refine alive_wf hW ?_ eQ)
    | (intro (eQ : _ = _); with_reducible refine answer_wf ?_ eQ)
    | split
    | dsimp only
    | (simp only [wf_mk]; with_reducible apply wf_parts)
    | (intro (eQ : _ = _); cases eQ)

theorem execStairIndDataRead_wf {m : Master} {s : State} (hW : s.Wf) {tW : State} (eW : execStairIndDataRead m s = .next tW) : tW.Wf := by
  revert eW
  unfold execStairIndDataRead
  repeat' first
    | with_reducible assumption
    | with_reducible apply regRead_wf
    | (intro (eQ : _ = _); with_reducible refine alive_wf hW ?_ eQ)
    | (intro (eQ : _ = _); with_reducible refine answer_wf ?_ eQ)
    | split
    | dsimp only
    | (simp only [wf_mk]; with_reducible apply wf_parts)
    | (intro (eQ : _ = _); cases eQ)

theorem execPrepare_wf {m : Master} {s : State} (hW : s.Wf) {tW : State} (eW : execPrepare m s = .next tW) : tW.Wf := by
  revert eW
  unfold execPrepare
  repeat' first
    | with_reducible assumption
    | with_reducible apply regGuarded_wf
    | (intro (eQ : _ = _); with_reducible refine alive_wf hW ?_ eQ)
    | (intro (eQ : _ = _); with_reducible refine answer_wf ?_ eQ)
    | split
    | dsimp only
    | (simp only [wf_mk]; with_reducible apply wf_parts)
    | (intro (eQ : _ = _); cases eQ)

theorem execStairAbort_wf {m : Master} {s : State} (hW : s.Wf) {tW : State} (eW : execStairAbort m s = .next tW) : tW.Wf := by
  revert eW
  unfold execStairAbort
  repeat' first
    | with_reducible assumption
    | with_reducible apply regGuarded_wf
    | (intro (eQ : _ = _); with_reducible refine alive_wf hW ?_ eQ)
    | (intro (eQ : _ = _); with_reducible refine answer_wf ?_ eQ)
    | split
    | dsimp only
    | (simp only [wf_mk]; with_reducible apply wf_parts)
    | (intro (eQ : _ = _); cases eQ)

theorem execActivate_wf {m : Master} {s : State} (hW : s.Wf) {tW : State} (eW : execActivate m s = .next tW) : tW.Wf := by
  revert eW
  unfold execActivate
  repeat' first
    | with_reducible assumption
    | with_reducible apply regGuarded_wf
    | (intro (eQ : _ = _); with_reducible refine alive_wf hW ?_ eQ)
    | (intro (eQ : _ = _); with_reducible refine answer_wf ?_ eQ)
    | split
    | dsimp only
    | (simp only [wf_mk]; with_reducible apply wf_parts)
    | (intro (eQ : _ = _); cases eQ)

theorem execCancel_wf {m : Master} {s : State} (hW : s.Wf) {tW : State} (eW : execCancel m s = .next tW) : tW.Wf := by
  revert eW
  unfold execCancel
  repeat' first
    | with_reducible assumption
    | with_reducible apply regGuarded_wf
    | (intro (eQ : _ = _); with_reducible refine alive_wf hW ?_ eQ)
    | (intro (eQ : _ = _); with_reducible refine answer_wf ?_ eQ)
    | split
    | dsimp only
    | (simp only [wf_mk]; with_reducible apply wf_parts)
    | (intro (eQ : _ = _); cases eQ)

theorem execDeactivate_wf {m : Master} {s : State} (hW : s.Wf) {tW : State} (eW : execDeactivate m s = .next tW) : tW.Wf := by
  revert eW
  unfold execDeactivate
  repeat' first
    | with_reducible assumption
    | with_reducible apply regGuarded_wf
    | (intro (eQ : _ = _); with_reducible refine alive_wf hW ?_ eQ)
    | (intro (eQ : _ = _); with_reducible refine answer_wf ?_ eQ)
    | split
    | dsimp only
    | (simp only [wf_mk]; with_reducible apply wf_parts)
    | (intro (eQ : _ = _); cases eQ)

theorem execCycleLoRead_wf {m : Master} {s : State} (hW : s.Wf) {tW : State} (eW : execCycleLoRead m s = .next tW) : tW.Wf := by
  revert eW
  unfold execCycleLoRead
  repeat' first
    | with_reducible assumption
    | with_reducible apply regRead_wf
    | (intro (eQ : _ = _); with_reducible refine alive_wf hW ?_ eQ)
    | (intro (eQ : _ = _); with_reducible refine answer_wf ?_ eQ)
    | split
    | dsimp only
    | (simp only [wf_mk]; with_reducible apply wf_parts)
    | (intro (eQ : _ = _); cases eQ)

theorem execImgCntClr_wf {m : Master} {s : State} (hW : s.Wf) {tW : State} (eW : execImgCntClr m s = .next tW) : tW.Wf := by
  revert eW
  unfold execImgCntClr
  repeat' first
    | with_reducible assumption
    | with_reducible apply regWrite_wf
    | (intro (eQ : _ = _); with_reducible refine alive_wf hW ?_ eQ)
    | (intro (eQ : _ = _); with_reducible refine answer_wf ?_ eQ)
    | split
    | dsimp only
    | (simp only [wf_mk]; with_reducible apply wf_parts)
    | (intro (eQ : _ = _); cases eQ)

theorem execQuarantine_wf {m : Master} {st : Side} {s : State} (hW : s.Wf) {tW : State} (eW : execQuarantine m st s = .next tW) : tW.Wf := by
  revert eW
  unfold execQuarantine
  repeat' first
    | with_reducible assumption
    | with_reducible apply regGuarded_wf
    | (intro (eQ : _ = _); with_reducible refine alive_wf hW ?_ eQ)
    | (intro (eQ : _ = _); with_reducible refine answer_wf ?_ eQ)
    | split
    | dsimp only
    | (simp only [wf_mk]; with_reducible apply wf_parts)
    | (intro (eQ : _ = _); cases eQ)

theorem execArmOpen_wf {m : Master} {st : Side} {s : State} (hW : s.Wf) {tW : State} (eW : execArmOpen m st s = .next tW) : tW.Wf := by
  revert eW
  unfold execArmOpen
  repeat' first
    | with_reducible assumption
    | with_reducible apply regGuarded_wf
    | (intro (eQ : _ = _); with_reducible refine alive_wf hW ?_ eQ)
    | (intro (eQ : _ = _); with_reducible refine answer_wf ?_ eQ)
    | split
    | dsimp only
    | (simp only [wf_mk]; with_reducible apply wf_parts)
    | (intro (eQ : _ = _); cases eQ)

theorem execDisarm_wf {m : Master} {st : Side} {s : State} (hW : s.Wf) {tW : State} (eW : execDisarm m st s = .next tW) : tW.Wf := by
  revert eW
  unfold execDisarm
  repeat' first
    | with_reducible assumption
    | with_reducible apply regGuarded_wf
    | (intro (eQ : _ = _); with_reducible refine alive_wf hW ?_ eQ)
    | (intro (eQ : _ = _); with_reducible refine answer_wf ?_ eQ)
    | split
    | dsimp only
    | (simp only [wf_mk]; with_reducible apply wf_parts)
    | (intro (eQ : _ = _); cases eQ)

theorem execStnCntClr_wf {m : Master} {st : Side} {s : State} (hW : s.Wf) {tW : State} (eW : execStnCntClr m st s = .next tW) : tW.Wf := by
  revert eW
  unfold execStnCntClr
  repeat' first
    | with_reducible assumption
    | with_reducible apply regSet_wf
    | (intro (eQ : _ = _); with_reducible refine alive_wf hW ?_ eQ)
    | (intro (eQ : _ = _); with_reducible refine answer_wf ?_ eQ)
    | split
    | dsimp only
    | (simp only [wf_mk]; with_reducible apply wf_parts)
    | (intro (eQ : _ = _); cases eQ)

theorem execYield_wf {m : Master} {s : State} (hW : s.Wf) {tW : State} (eW : execYield m s = .next tW) : tW.Wf := by
  revert eW
  unfold execYield
  repeat' first
    | with_reducible assumption
    | with_reducible apply regGuarded_wf
    | (intro (eQ : _ = _); with_reducible refine alive_wf hW ?_ eQ)
    | (intro (eQ : _ = _); with_reducible refine answer_wf ?_ eQ)
    | split
    | dsimp only
    | (simp only [wf_mk]; with_reducible apply wf_parts)
    | (intro (eQ : _ = _); cases eQ)

theorem execHostAliveKick_wf {m : Master} {s : State} (hW : s.Wf) {tW : State} (eW : execHostAliveKick m s = .next tW) : tW.Wf := by
  revert eW
  unfold execHostAliveKick
  repeat' first
    | with_reducible assumption
    | with_reducible apply regWrite_wf
    | (intro (eQ : _ = _); with_reducible refine alive_wf hW ?_ eQ)
    | (intro (eQ : _ = _); with_reducible refine answer_wf ?_ eQ)
    | split
    | dsimp only
    | (simp only [wf_mk]; with_reducible apply wf_parts)
    | (intro (eQ : _ = _); cases eQ)

theorem execJoinNonceHi_wf {m : Master} {value : Word} {s : State} (hW : s.Wf) {tW : State} (eW : execJoinNonceHi m value s = .next tW) : tW.Wf := by
  revert eW
  unfold execJoinNonceHi
  repeat' first
    | with_reducible assumption
    | with_reducible apply regWrite_wf
    | (intro (eQ : _ = _); with_reducible refine alive_wf hW ?_ eQ)
    | (intro (eQ : _ = _); with_reducible refine answer_wf ?_ eQ)
    | split
    | dsimp only
    | (simp only [wf_mk]; with_reducible apply wf_parts)
    | (intro (eQ : _ = _); cases eQ)

theorem execJoinAdmit_wf {m : Master} {node : Byte} {s : State} (hW : s.Wf) {tW : State} (eW : execJoinAdmit m node s = .next tW) : tW.Wf := by
  revert eW
  unfold execJoinAdmit
  repeat' first
    | with_reducible assumption
    | with_reducible apply regGuarded_wf
    | (intro (eQ : _ = _); with_reducible refine alive_wf hW ?_ eQ)
    | (intro (eQ : _ = _); with_reducible refine answer_wf ?_ eQ)
    | split
    | dsimp only
    | (simp only [wf_mk]; with_reducible apply wf_parts)
    | (intro (eQ : _ = _); cases eQ)

theorem execRefuse_wf {m : Master} {node : Byte} {s : State} (hW : s.Wf) {tW : State} (eW : execRefuse m node s = .next tW) : tW.Wf := by
  revert eW
  unfold execRefuse
  repeat' first
    | with_reducible assumption
    | with_reducible apply regGuarded_wf
    | (intro (eQ : _ = _); with_reducible refine alive_wf hW ?_ eQ)
    | (intro (eQ : _ = _); with_reducible refine answer_wf ?_ eQ)
    | split
    | dsimp only
    | (simp only [wf_mk]; with_reducible apply wf_parts)
    | (intro (eQ : _ = _); cases eQ)

theorem execExpiryLoRead_wf {m : Master} {s : State} (hW : s.Wf) {tW : State} (eW : execExpiryLoRead m s = .next tW) : tW.Wf := by
  revert eW
  unfold execExpiryLoRead
  repeat' first
    | with_reducible assumption
    | with_reducible apply regRead_wf
    | (intro (eQ : _ = _); with_reducible refine alive_wf hW ?_ eQ)
    | (intro (eQ : _ = _); with_reducible refine answer_wf ?_ eQ)
    | split
    | dsimp only
    | (simp only [wf_mk]; with_reducible apply wf_parts)
    | (intro (eQ : _ = _); cases eQ)

theorem execPwePop_wf {m : Master} {s : State} (hW : s.Wf) {tW : State} (eW : execPwePop m s = .next tW) : tW.Wf := by
  revert eW
  unfold execPwePop
  repeat' first
    | with_reducible assumption
    | with_reducible apply regWrite_wf
    | (intro (eQ : _ = _); with_reducible refine alive_wf hW ?_ eQ)
    | (intro (eQ : _ = _); with_reducible refine answer_wf ?_ eQ)
    | split
    | dsimp only
    | (simp only [wf_mk]; with_reducible apply wf_parts)
    | (intro (eQ : _ = _); cases eQ)

theorem execNoticePop_wf {m : Master} {s : State} (hW : s.Wf) {tW : State} (eW : execNoticePop m s = .next tW) : tW.Wf := by
  revert eW
  unfold execNoticePop
  repeat' first
    | with_reducible assumption
    | with_reducible apply regWrite_wf
    | (intro (eQ : _ = _); with_reducible refine alive_wf hW ?_ eQ)
    | (intro (eQ : _ = _); with_reducible refine answer_wf ?_ eQ)
    | split
    | dsimp only
    | (simp only [wf_mk]; with_reducible apply wf_parts)
    | (intro (eQ : _ = _); cases eQ)

theorem execPwseqLoRead_wf {m : Master} {s : State} (hW : s.Wf) {tW : State} (eW : execPwseqLoRead m s = .next tW) : tW.Wf := by
  revert eW
  unfold execPwseqLoRead
  repeat' first
    | with_reducible assumption
    | with_reducible apply regRead_wf
    | (intro (eQ : _ = _); with_reducible refine alive_wf hW ?_ eQ)
    | (intro (eQ : _ = _); with_reducible refine answer_wf ?_ eQ)
    | split
    | dsimp only
    | (simp only [wf_mk]; with_reducible apply wf_parts)
    | (intro (eQ : _ = _); cases eQ)

theorem execBridgeCntClr_wf {m : Master} {s : State} (hW : s.Wf) {tW : State} (eW : execBridgeCntClr m s = .next tW) : tW.Wf := by
  revert eW
  unfold execBridgeCntClr
  repeat' first
    | with_reducible assumption
    | with_reducible apply regWrite_wf
    | (intro (eQ : _ = _); with_reducible refine alive_wf hW ?_ eQ)
    | (intro (eQ : _ = _); with_reducible refine answer_wf ?_ eQ)
    | split
    | dsimp only
    | (simp only [wf_mk]; with_reducible apply wf_parts)
    | (intro (eQ : _ = _); cases eQ)

theorem execAccRow_wf {m : Master} {value : Word} {s : State} (hW : s.Wf) {tW : State} (eW : execAccRow m value s = .next tW) : tW.Wf := by
  revert eW
  unfold execAccRow
  repeat' first
    | with_reducible assumption
    | with_reducible apply regGuarded_wf
    | (intro (eQ : _ = _); with_reducible refine alive_wf hW ?_ eQ)
    | (intro (eQ : _ = _); with_reducible refine answer_wf ?_ eQ)
    | split
    | dsimp only
    | (simp only [wf_mk]; with_reducible apply wf_parts)
    | (intro (eQ : _ = _); cases eQ)

theorem execI2cGo_wf {m : Master} {s : State} (hW : s.Wf) {tW : State} (eW : execI2cGo m s = .next tW) : tW.Wf := by
  revert eW
  unfold execI2cGo
  repeat' first
    | with_reducible assumption
    | with_reducible apply regSet_wf
    | (intro (eQ : _ = _); with_reducible refine alive_wf hW ?_ eQ)
    | (intro (eQ : _ = _); with_reducible refine answer_wf ?_ eQ)
    | split
    | dsimp only
    | (simp only [wf_mk]; with_reducible apply wf_parts)
    | (intro (eQ : _ = _); cases eQ)

theorem i2cStore_wf {bs : List Byte} {s : State} (hW : s.Wf) : (i2cStore bs s).Wf := by
  unfold i2cStore
  repeat' first
    | with_reducible assumption
    | with_reducible apply setR_wf
    | with_reducible refine forEach_wf (fun x u hu => ?_) ?_
    | split
    | dsimp only
    | (simp only [wf_mk]; with_reducible apply wf_parts)

theorem execI2cDone_wf {result : Fin 6} {count : Fin 64} {data : List Byte} {s : State} (hW : s.Wf) {tW : State} (eW : execI2cDone result count data s = .next tW) : tW.Wf := by
  revert eW
  unfold execI2cDone
  repeat' first
    | with_reducible assumption
    | with_reducible apply setR_wf
    | with_reducible apply setFlag_wf
    | with_reducible apply raiseEv_wf
    | with_reducible apply raiseIf_wf
    | with_reducible apply i2cStore_wf
    | (intro (eQ : _ = _); with_reducible refine alive_wf hW ?_ eQ)
    | (intro (eQ : _ = _); with_reducible refine answer_wf ?_ eQ)
    | split
    | dsimp only
    | (simp only [wf_mk]; with_reducible apply wf_parts)
    | (intro (eQ : _ = _); cases eQ)

theorem execPcieLinkUp_wf {width : Fin 3} {speed : Fin 4} {bme : Bool} {s : State} (hW : s.Wf) {tW : State} (eW : execPcieLinkUp width speed bme s = .next tW) : tW.Wf := by
  revert eW
  unfold execPcieLinkUp
  repeat' first
    | with_reducible assumption
    | with_reducible apply setR_wf
    | with_reducible apply setFlag_wf
    | with_reducible apply raiseEv_wf
    | with_reducible apply syncElig_wf
    | (intro (eQ : _ = _); with_reducible refine alive_wf hW ?_ eQ)
    | (intro (eQ : _ = _); with_reducible refine answer_wf ?_ eQ)
    | split
    | dsimp only
    | (simp only [wf_mk]; with_reducible apply wf_parts)
    | (intro (eQ : _ = _); cases eQ)

theorem execPcieLinkDown_wf {s : State} (hW : s.Wf) {tW : State} (eW : execPcieLinkDown s = .next tW) : tW.Wf := by
  revert eW
  unfold execPcieLinkDown
  repeat' first
    | with_reducible assumption
    | with_reducible apply pcieDown_wf
    | (intro (eQ : _ = _); with_reducible refine alive_wf hW ?_ eQ)
    | (intro (eQ : _ = _); with_reducible refine answer_wf ?_ eQ)
    | split
    | dsimp only
    | (simp only [wf_mk]; with_reducible apply wf_parts)
    | (intro (eQ : _ = _); cases eQ)

theorem execMsixUnmask_wf {v : Fin 128} {s : State} (hW : s.Wf) {tW : State} (eW : execMsixUnmask v s = .next tW) : tW.Wf := by
  revert eW
  unfold execMsixUnmask
  repeat' first
    | with_reducible assumption
    | with_reducible apply busWrite_wf
    | (intro (eQ : _ = _); with_reducible refine alive_wf hW ?_ eQ)
    | (intro (eQ : _ = _); with_reducible refine answer_wf ?_ eQ)
    | split
    | dsimp only
    | (simp only [wf_mk]; with_reducible apply wf_parts)
    | (intro (eQ : _ = _); cases eQ)

theorem cabCommandWrite_wf {m : Master} {v : Nat} {s : State} (hW : s.Wf) : (cabCommandWrite m v s).Wf := by
  unfold cabCommandWrite
  repeat' first
    | with_reducible assumption
    | with_reducible apply regWrite_wf
    | split
    | dsimp only
    | (simp only [wf_mk]; with_reducible apply wf_parts)

theorem execCabOpen_wf {m : Master} {declare : Fin 1024} {s : State} (hW : s.Wf) {tW : State} (eW : execCabOpen m declare s = .next tW) : tW.Wf := by
  revert eW
  unfold execCabOpen
  repeat' first
    | with_reducible assumption
    | with_reducible apply cabCommandWrite_wf
    | (intro (eQ : _ = _); with_reducible refine alive_wf hW ?_ eQ)
    | (intro (eQ : _ = _); with_reducible refine answer_wf ?_ eQ)
    | split
    | dsimp only
    | (simp only [wf_mk]; with_reducible apply wf_parts)
    | (intro (eQ : _ = _); cases eQ)

theorem execCabPut_wf {m : Master} {word : Word} {s : State} (hW : s.Wf) {tW : State} (eW : execCabPut m word s = .next tW) : tW.Wf := by
  revert eW
  unfold execCabPut
  repeat' first
    | with_reducible assumption
    | with_reducible apply regWrite_wf
    | (intro (eQ : _ = _); with_reducible refine alive_wf hW ?_ eQ)
    | (intro (eQ : _ = _); with_reducible refine answer_wf ?_ eQ)
    | split
    | dsimp only
    | (simp only [wf_mk]; with_reducible apply wf_parts)
    | (intro (eQ : _ = _); cases eQ)

theorem execCabClose_wf {m : Master} {trim : Fin 4} {s : State} (hW : s.Wf) {tW : State} (eW : execCabClose m trim s = .next tW) : tW.Wf := by
  revert eW
  unfold execCabClose
  repeat' first
    | with_reducible assumption
    | with_reducible apply cabCommandWrite_wf
    | (intro (eQ : _ = _); with_reducible refine alive_wf hW ?_ eQ)
    | (intro (eQ : _ = _); with_reducible refine answer_wf ?_ eQ)
    | split
    | dsimp only
    | (simp only [wf_mk]; with_reducible apply wf_parts)
    | (intro (eQ : _ = _); cases eQ)

theorem execCabAbort_wf {m : Master} {s : State} (hW : s.Wf) {tW : State} (eW : execCabAbort m s = .next tW) : tW.Wf := by
  revert eW
  unfold execCabAbort
  repeat' first
    | with_reducible assumption
    | with_reducible apply cabCommandWrite_wf
    | (intro (eQ : _ = _); with_reducible refine alive_wf hW ?_ eQ)
    | (intro (eQ : _ = _); with_reducible refine answer_wf ?_ eQ)
    | split
    | dsimp only
    | (simp only [wf_mk]; with_reducible apply wf_parts)
    | (intro (eQ : _ = _); cases eQ)

theorem execCabGet_wf {m : Master} {link : Fin 3} {s : State} (hW : s.Wf) {tW : State} (eW : execCabGet m link s = .next tW) : tW.Wf := by
  revert eW
  unfold execCabGet
  repeat' first
    | with_reducible assumption
    | with_reducible apply regRead_wf
    | (intro (eQ : _ = _); with_reducible refine alive_wf hW ?_ eQ)
    | (intro (eQ : _ = _); with_reducible refine answer_wf ?_ eQ)
    | split
    | dsimp only
    | (simp only [wf_mk]; with_reducible apply wf_parts)
    | (intro (eQ : _ = _); cases eQ)

theorem execCabMark_wf {m : Master} {s : State} (hW : s.Wf) {tW : State} (eW : execCabMark m s = .next tW) : tW.Wf := by
  revert eW
  unfold execCabMark
  repeat' first
    | with_reducible assumption
    | with_reducible apply cabCommandWrite_wf
    | (intro (eQ : _ = _); with_reducible refine alive_wf hW ?_ eQ)
    | (intro (eQ : _ = _); with_reducible refine answer_wf ?_ eQ)
    | split
    | dsimp only
    | (simp only [wf_mk]; with_reducible apply wf_parts)
    | (intro (eQ : _ = _); cases eQ)

theorem execCabRewind_wf {m : Master} {s : State} (hW : s.Wf) {tW : State} (eW : execCabRewind m s = .next tW) : tW.Wf := by
  revert eW
  unfold execCabRewind
  repeat' first
    | with_reducible assumption
    | with_reducible apply cabCommandWrite_wf
    | (intro (eQ : _ = _); with_reducible refine alive_wf hW ?_ eQ)
    | (intro (eQ : _ = _); with_reducible refine answer_wf ?_ eQ)
    | split
    | dsimp only
    | (simp only [wf_mk]; with_reducible apply wf_parts)
    | (intro (eQ : _ = _); cases eQ)

theorem execCabRelease_wf {m : Master} {s : State} (hW : s.Wf) {tW : State} (eW : execCabRelease m s = .next tW) : tW.Wf := by
  revert eW
  unfold execCabRelease
  repeat' first
    | with_reducible assumption
    | with_reducible apply cabCommandWrite_wf
    | (intro (eQ : _ = _); with_reducible refine alive_wf hW ?_ eQ)
    | (intro (eQ : _ = _); with_reducible refine answer_wf ?_ eQ)
    | split
    | dsimp only
    | (simp only [wf_mk]; with_reducible apply wf_parts)
    | (intro (eQ : _ = _); cases eQ)

theorem execQueueEnable_wf {m : Master} {q : BitVec 12} {s : State} (hW : s.Wf) {tW : State} (eW : execQueueEnable m q s = .next tW) : tW.Wf := by
  revert eW
  unfold execQueueEnable
  repeat' first
    | with_reducible assumption
    | with_reducible apply regGuarded_wf
    | (intro (eQ : _ = _); with_reducible refine alive_wf hW ?_ eQ)
    | (intro (eQ : _ = _); with_reducible refine answer_wf ?_ eQ)
    | split
    | dsimp only
    | (simp only [wf_mk]; with_reducible apply wf_parts)
    | (intro (eQ : _ = _); cases eQ)

theorem execQueueDisable_wf {m : Master} {q : BitVec 12} {s : State} (hW : s.Wf) {tW : State} (eW : execQueueDisable m q s = .next tW) : tW.Wf := by
  revert eW
  unfold execQueueDisable
  repeat' first
    | with_reducible assumption
    | with_reducible apply regGuarded_wf
    | (intro (eQ : _ = _); with_reducible refine alive_wf hW ?_ eQ)
    | (intro (eQ : _ = _); with_reducible refine answer_wf ?_ eQ)
    | split
    | dsimp only
    | (simp only [wf_mk]; with_reducible apply wf_parts)
    | (intro (eQ : _ = _); cases eQ)

theorem execQueueFlush_wf {m : Master} {q : BitVec 12} {s : State} (hW : s.Wf) {tW : State} (eW : execQueueFlush m q s = .next tW) : tW.Wf := by
  revert eW
  unfold execQueueFlush
  repeat' first
    | with_reducible assumption
    | with_reducible apply regGuarded_wf
    | (intro (eQ : _ = _); with_reducible refine alive_wf hW ?_ eQ)
    | (intro (eQ : _ = _); with_reducible refine answer_wf ?_ eQ)
    | split
    | dsimp only
    | (simp only [wf_mk]; with_reducible apply wf_parts)
    | (intro (eQ : _ = _); cases eQ)

theorem execClearBroken_wf {m : Master} {q : BitVec 12} {s : State} (hW : s.Wf) {tW : State} (eW : execClearBroken m q s = .next tW) : tW.Wf := by
  revert eW
  unfold execClearBroken
  repeat' first
    | with_reducible assumption
    | with_reducible apply regGuarded_wf
    | (intro (eQ : _ = _); with_reducible refine alive_wf hW ?_ eQ)
    | (intro (eQ : _ = _); with_reducible refine answer_wf ?_ eQ)
    | split
    | dsimp only
    | (simp only [wf_mk]; with_reducible apply wf_parts)
    | (intro (eQ : _ = _); cases eQ)

theorem execWalkNow_wf {m : Master} {s : State} (hW : s.Wf) {tW : State} (eW : execWalkNow m s = .next tW) : tW.Wf := by
  revert eW
  unfold execWalkNow
  repeat' first
    | with_reducible assumption
    | with_reducible apply regGuarded_wf
    | (intro (eQ : _ = _); with_reducible refine alive_wf hW ?_ eQ)
    | (intro (eQ : _ = _); with_reducible refine answer_wf ?_ eQ)
    | split
    | dsimp only
    | (simp only [wf_mk]; with_reducible apply wf_parts)
    | (intro (eQ : _ = _); cases eQ)

theorem execReclaim_wf {m : Master} {s : State} (hW : s.Wf) {tW : State} (eW : execReclaim m s = .next tW) : tW.Wf := by
  revert eW
  unfold execReclaim
  repeat' first
    | with_reducible assumption
    | with_reducible apply regGuarded_wf
    | (intro (eQ : _ = _); with_reducible refine alive_wf hW ?_ eQ)
    | (intro (eQ : _ = _); with_reducible refine answer_wf ?_ eQ)
    | split
    | dsimp only
    | (simp only [wf_mk]; with_reducible apply wf_parts)
    | (intro (eQ : _ = _); cases eQ)

theorem execMirrorCntClr_wf {m : Master} {s : State} (hW : s.Wf) {tW : State} (eW : execMirrorCntClr m s = .next tW) : tW.Wf := by
  revert eW
  unfold execMirrorCntClr
  repeat' first
    | with_reducible assumption
    | with_reducible apply regWrite_wf
    | (intro (eQ : _ = _); with_reducible refine alive_wf hW ?_ eQ)
    | (intro (eQ : _ = _); with_reducible refine answer_wf ?_ eQ)
    | split
    | dsimp only
    | (simp only [wf_mk]; with_reducible apply wf_parts)
    | (intro (eQ : _ = _); cases eQ)

theorem execCabCntClr_wf {m : Master} {s : State} (hW : s.Wf) {tW : State} (eW : execCabCntClr m s = .next tW) : tW.Wf := by
  revert eW
  unfold execCabCntClr
  repeat' first
    | with_reducible assumption
    | with_reducible apply regWrite_wf
    | (intro (eQ : _ = _); with_reducible refine alive_wf hW ?_ eQ)
    | (intro (eQ : _ = _); with_reducible refine answer_wf ?_ eQ)
    | split
    | dsimp only
    | (simp only [wf_mk]; with_reducible apply wf_parts)
    | (intro (eQ : _ = _); cases eQ)

theorem execSwapReq_wf {m : Master} {e : Fin 128} {mode : Fin 4} {restart : Bool} {s : State} (hW : s.Wf) {tW : State} (eW : execSwapReq m e mode restart s = .next tW) : tW.Wf := by
  revert eW
  unfold execSwapReq
  repeat' first
    | with_reducible assumption
    | with_reducible apply regWrite_wf
    | (intro (eQ : _ = _); with_reducible refine alive_wf hW ?_ eQ)
    | (intro (eQ : _ = _); with_reducible refine answer_wf ?_ eQ)
    | split
    | dsimp only
    | (simp only [wf_mk]; with_reducible apply wf_parts)
    | (intro (eQ : _ = _); cases eQ)

theorem execSwapCancel_wf {m : Master} {e : Fin 128} {s : State} (hW : s.Wf) {tW : State} (eW : execSwapCancel m e s = .next tW) : tW.Wf := by
  revert eW
  unfold execSwapCancel
  repeat' first
    | with_reducible assumption
    | with_reducible apply regSet_wf
    | (intro (eQ : _ = _); with_reducible refine alive_wf hW ?_ eQ)
    | (intro (eQ : _ = _); with_reducible refine answer_wf ?_ eQ)
    | split
    | dsimp only
    | (simp only [wf_mk]; with_reducible apply wf_parts)
    | (intro (eQ : _ = _); cases eQ)

theorem execTxfData_wf {m : Master} {e : Fin 128} {value : Word} {s : State} (hW : s.Wf) {tW : State} (eW : execTxfData m e value s = .next tW) : tW.Wf := by
  revert eW
  unfold execTxfData
  repeat' first
    | with_reducible assumption
    | with_reducible apply regWrite_wf
    | (intro (eQ : _ = _); with_reducible refine alive_wf hW ?_ eQ)
    | (intro (eQ : _ = _); with_reducible refine answer_wf ?_ eQ)
    | split
    | dsimp only
    | (simp only [wf_mk]; with_reducible apply wf_parts)
    | (intro (eQ : _ = _); cases eQ)

theorem execRxfData_wf {m : Master} {e : Fin 128} {s : State} (hW : s.Wf) {tW : State} (eW : execRxfData m e s = .next tW) : tW.Wf := by
  revert eW
  unfold execRxfData
  repeat' first
    | with_reducible assumption
    | with_reducible apply regRead_wf
    | (intro (eQ : _ = _); with_reducible refine alive_wf hW ?_ eQ)
    | (intro (eQ : _ = _); with_reducible refine answer_wf ?_ eQ)
    | split
    | dsimp only
    | (simp only [wf_mk]; with_reducible apply wf_parts)
    | (intro (eQ : _ = _); cases eQ)

theorem execTxfFlush_wf {m : Master} {e : Fin 128} {s : State} (hW : s.Wf) {tW : State} (eW : execTxfFlush m e s = .next tW) : tW.Wf := by
  revert eW
  unfold execTxfFlush
  repeat' first
    | with_reducible assumption
    | with_reducible apply regWrite_wf
    | (intro (eQ : _ = _); with_reducible refine alive_wf hW ?_ eQ)
    | (intro (eQ : _ = _); with_reducible refine answer_wf ?_ eQ)
    | split
    | dsimp only
    | (simp only [wf_mk]; with_reducible apply wf_parts)
    | (intro (eQ : _ = _); cases eQ)

theorem execRxfFlush_wf {m : Master} {e : Fin 128} {s : State} (hW : s.Wf) {tW : State} (eW : execRxfFlush m e s = .next tW) : tW.Wf := by
  revert eW
  unfold execRxfFlush
  repeat' first
    | with_reducible assumption
    | with_reducible apply regWrite_wf
    | (intro (eQ : _ = _); with_reducible refine alive_wf hW ?_ eQ)
    | (intro (eQ : _ = _); with_reducible refine answer_wf ?_ eQ)
    | split
    | dsimp only
    | (simp only [wf_mk]; with_reducible apply wf_parts)
    | (intro (eQ : _ = _); cases eQ)

theorem execEngCntClr_wf {m : Master} {e : Fin 128} {s : State} (hW : s.Wf) {tW : State} (eW : execEngCntClr m e s = .next tW) : tW.Wf := by
  revert eW
  unfold execEngCntClr
  repeat' first
    | with_reducible assumption
    | with_reducible apply regWrite_wf
    | (intro (eQ : _ = _); with_reducible refine alive_wf hW ?_ eQ)
    | (intro (eQ : _ = _); with_reducible refine answer_wf ?_ eQ)
    | split
    | dsimp only
    | (simp only [wf_mk]; with_reducible apply wf_parts)
    | (intro (eQ : _ = _); cases eQ)

theorem execPinmapWrite_wf {m : Master} {e : Fin 128} {value : Word} {s : State} (hW : s.Wf) {tW : State} (eW : execPinmapWrite m e value s = .next tW) : tW.Wf := by
  revert eW
  unfold execPinmapWrite
  repeat' first
    | with_reducible assumption
    | with_reducible apply regWrite_wf
    | (intro (eQ : _ = _); with_reducible refine alive_wf hW ?_ eQ)
    | (intro (eQ : _ = _); with_reducible refine answer_wf ?_ eQ)
    | split
    | dsimp only
    | (simp only [wf_mk]; with_reducible apply wf_parts)
    | (intro (eQ : _ = _); cases eQ)

theorem execCanModeChange_wf {m : Master} {n : Fin 16} {mode : Fin 8} {s : State} (hW : s.Wf) {tW : State} (eW : execCanModeChange m n mode s = .next tW) : tW.Wf := by
  revert eW
  unfold execCanModeChange
  repeat' first
    | with_reducible assumption
    | with_reducible apply regWrite_wf
    | (intro (eQ : _ = _); with_reducible refine alive_wf hW ?_ eQ)
    | (intro (eQ : _ = _); with_reducible refine answer_wf ?_ eQ)
    | split
    | dsimp only
    | (simp only [wf_mk]; with_reducible apply wf_parts)
    | (intro (eQ : _ = _); cases eQ)

theorem execTxbReq_wf {m : Master} {n : Fin 16} {map : Word} {s : State} (hW : s.Wf) {tW : State} (eW : execTxbReq m n map s = .next tW) : tW.Wf := by
  revert eW
  unfold execTxbReq
  repeat' first
    | with_reducible assumption
    | with_reducible apply regWrite_wf
    | (intro (eQ : _ = _); with_reducible refine alive_wf hW ?_ eQ)
    | (intro (eQ : _ = _); with_reducible refine answer_wf ?_ eQ)
    | split
    | dsimp only
    | (simp only [wf_mk]; with_reducible apply wf_parts)
    | (intro (eQ : _ = _); cases eQ)

theorem execTxbCancel_wf {m : Master} {n : Fin 16} {map : Word} {s : State} (hW : s.Wf) {tW : State} (eW : execTxbCancel m n map s = .next tW) : tW.Wf := by
  revert eW
  unfold execTxbCancel
  repeat' first
    | with_reducible assumption
    | with_reducible apply regWrite_wf
    | (intro (eQ : _ = _); with_reducible refine alive_wf hW ?_ eQ)
    | (intro (eQ : _ = _); with_reducible refine answer_wf ?_ eQ)
    | split
    | dsimp only
    | (simp only [wf_mk]; with_reducible apply wf_parts)
    | (intro (eQ : _ = _); cases eQ)

theorem execTxbUnpark_wf {m : Master} {n : Fin 16} {map : Word} {s : State} (hW : s.Wf) {tW : State} (eW : execTxbUnpark m n map s = .next tW) : tW.Wf := by
  revert eW
  unfold execTxbUnpark
  repeat' first
    | with_reducible assumption
    | with_reducible apply regWrite_wf
    | (intro (eQ : _ = _); with_reducible refine alive_wf hW ?_ eQ)
    | (intro (eQ : _ = _); with_reducible refine answer_wf ?_ eQ)
    | split
    | dsimp only
    | (simp only [wf_mk]; with_reducible apply wf_parts)
    | (intro (eQ : _ = _); cases eQ)

theorem execRecover_wf {m : Master} {n : Fin 16} {s : State} (hW : s.Wf) {tW : State} (eW : execRecover m n s = .next tW) : tW.Wf := by
  revert eW
  unfold execRecover
  repeat' first
    | with_reducible assumption
    | with_reducible apply regWrite_wf
    | (intro (eQ : _ = _); with_reducible refine alive_wf hW ?_ eQ)
    | (intro (eQ : _ = _); with_reducible refine answer_wf ?_ eQ)
    | split
    | dsimp only
    | (simp only [wf_mk]; with_reducible apply wf_parts)
    | (intro (eQ : _ = _); cases eQ)

theorem execCanCntClr_wf {m : Master} {n : Fin 16} {s : State} (hW : s.Wf) {tW : State} (eW : execCanCntClr m n s = .next tW) : tW.Wf := by
  revert eW
  unfold execCanCntClr
  repeat' first
    | with_reducible assumption
    | with_reducible apply regWrite_wf
    | (intro (eQ : _ = _); with_reducible refine alive_wf hW ?_ eQ)
    | (intro (eQ : _ = _); with_reducible refine answer_wf ?_ eQ)
    | split
    | dsimp only
    | (simp only [wf_mk]; with_reducible apply wf_parts)
    | (intro (eQ : _ = _); cases eQ)

theorem execExchangeNow_wf {m : Master} {s : State} (hW : s.Wf) {tW : State} (eW : execExchangeNow m s = .next tW) : tW.Wf := by
  revert eW
  unfold execExchangeNow
  repeat' first
    | with_reducible assumption
    | with_reducible apply regGuarded_wf
    | (intro (eQ : _ = _); with_reducible refine alive_wf hW ?_ eQ)
    | (intro (eQ : _ = _); with_reducible refine answer_wf ?_ eQ)
    | split
    | dsimp only
    | (simp only [wf_mk]; with_reducible apply wf_parts)
    | (intro (eQ : _ = _); cases eQ)

theorem execResync_wf {m : Master} {s : State} (hW : s.Wf) {tW : State} (eW : execResync m s = .next tW) : tW.Wf := by
  revert eW
  unfold execResync
  repeat' first
    | with_reducible assumption
    | with_reducible apply regGuarded_wf
    | (intro (eQ : _ = _); with_reducible refine alive_wf hW ?_ eQ)
    | (intro (eQ : _ = _); with_reducible refine answer_wf ?_ eQ)
    | split
    | dsimp only
    | (simp only [wf_mk]; with_reducible apply wf_parts)
    | (intro (eQ : _ = _); cases eQ)

theorem execTb1Set_wf {m : Master} {s : State} (hW : s.Wf) {tW : State} (eW : execTb1Set m s = .next tW) : tW.Wf := by
  revert eW
  unfold execTb1Set
  repeat' first
    | with_reducible assumption
    | with_reducible apply regWrite_wf
    | (intro (eQ : _ = _); with_reducible refine alive_wf hW ?_ eQ)
    | (intro (eQ : _ = _); with_reducible refine answer_wf ?_ eQ)
    | split
    | dsimp only
    | (simp only [wf_mk]; with_reducible apply wf_parts)
    | (intro (eQ : _ = _); cases eQ)

theorem execTodArm_wf {m : Master} {s : State} (hW : s.Wf) {tW : State} (eW : execTodArm m s = .next tW) : tW.Wf := by
  revert eW
  unfold execTodArm
  repeat' first
    | with_reducible assumption
    | with_reducible apply regWrite_wf
    | (intro (eQ : _ = _); with_reducible refine alive_wf hW ?_ eQ)
    | (intro (eQ : _ = _); with_reducible refine answer_wf ?_ eQ)
    | split
    | dsimp only
    | (simp only [wf_mk]; with_reducible apply wf_parts)
    | (intro (eQ : _ = _); cases eQ)

theorem execTb3Step_wf {m : Master} {s : State} (hW : s.Wf) {tW : State} (eW : execTb3Step m s = .next tW) : tW.Wf := by
  revert eW
  unfold execTb3Step
  repeat' first
    | with_reducible assumption
    | with_reducible apply regWrite_wf
    | (intro (eQ : _ = _); with_reducible refine alive_wf hW ?_ eQ)
    | (intro (eQ : _ = _); with_reducible refine answer_wf ?_ eQ)
    | split
    | dsimp only
    | (simp only [wf_mk]; with_reducible apply wf_parts)
    | (intro (eQ : _ = _); cases eQ)

theorem execCompareArm_wf {m : Master} {n : Fin 32} {s : State} (hW : s.Wf) {tW : State} (eW : execCompareArm m n s = .next tW) : tW.Wf := by
  revert eW
  unfold execCompareArm
  repeat' first
    | with_reducible assumption
    | with_reducible apply regSet_wf
    | (intro (eQ : _ = _); with_reducible refine alive_wf hW ?_ eQ)
    | (intro (eQ : _ = _); with_reducible refine answer_wf ?_ eQ)
    | split
    | dsimp only
    | (simp only [wf_mk]; with_reducible apply wf_parts)
    | (intro (eQ : _ = _); cases eQ)

theorem execSwTrig_wf {m : Master} {n : Fin 32} {s : State} (hW : s.Wf) {tW : State} (eW : execSwTrig m n s = .next tW) : tW.Wf := by
  revert eW
  unfold execSwTrig
  repeat' first
    | with_reducible assumption
    | with_reducible apply regSet_wf
    | (intro (eQ : _ = _); with_reducible refine alive_wf hW ?_ eQ)
    | (intro (eQ : _ = _); with_reducible refine answer_wf ?_ eQ)
    | split
    | dsimp only
    | (simp only [wf_mk]; with_reducible apply wf_parts)
    | (intro (eQ : _ = _); cases eQ)

theorem execCapStampRead_wf {m : Master} {n : Fin 32} {s : State} (hW : s.Wf) {tW : State} (eW : execCapStampRead m n s = .next tW) : tW.Wf := by
  revert eW
  unfold execCapStampRead
  repeat' first
    | with_reducible assumption
    | with_reducible apply regRead_wf
    | (intro (eQ : _ = _); with_reducible refine alive_wf hW ?_ eQ)
    | (intro (eQ : _ = _); with_reducible refine answer_wf ?_ eQ)
    | split
    | dsimp only
    | (simp only [wf_mk]; with_reducible apply wf_parts)
    | (intro (eQ : _ = _); cases eQ)

theorem execTb0LoRead_wf {m : Master} {s : State} (hW : s.Wf) {tW : State} (eW : execTb0LoRead m s = .next tW) : tW.Wf := by
  revert eW
  unfold execTb0LoRead
  repeat' first
    | with_reducible assumption
    | with_reducible apply regRead_wf
    | (intro (eQ : _ = _); with_reducible refine alive_wf hW ?_ eQ)
    | (intro (eQ : _ = _); with_reducible refine answer_wf ?_ eQ)
    | split
    | dsimp only
    | (simp only [wf_mk]; with_reducible apply wf_parts)
    | (intro (eQ : _ = _); cases eQ)

theorem execTbLoRead_wf {m : Master} {base : Fin 3} {s : State} (hW : s.Wf) {tW : State} (eW : execTbLoRead m base s = .next tW) : tW.Wf := by
  revert eW
  unfold execTbLoRead
  repeat' first
    | with_reducible assumption
    | with_reducible apply regRead_wf
    | (intro (eQ : _ = _); with_reducible refine alive_wf hW ?_ eQ)
    | (intro (eQ : _ = _); with_reducible refine answer_wf ?_ eQ)
    | split
    | dsimp only
    | (simp only [wf_mk]; with_reducible apply wf_parts)
    | (intro (eQ : _ = _); cases eQ)

theorem execBreakerOn_wf {m : Master} {ch : Fin 16} {s : State} (hW : s.Wf) {tW : State} (eW : execBreakerOn m ch s = .next tW) : tW.Wf := by
  revert eW
  unfold execBreakerOn
  repeat' first
    | with_reducible assumption
    | with_reducible apply regGuarded_wf
    | (intro (eQ : _ = _); with_reducible refine alive_wf hW ?_ eQ)
    | (intro (eQ : _ = _); with_reducible refine answer_wf ?_ eQ)
    | split
    | dsimp only
    | (simp only [wf_mk]; with_reducible apply wf_parts)
    | (intro (eQ : _ = _); cases eQ)

theorem execBreakerOff_wf {m : Master} {ch : Fin 16} {s : State} (hW : s.Wf) {tW : State} (eW : execBreakerOff m ch s = .next tW) : tW.Wf := by
  revert eW
  unfold execBreakerOff
  repeat' first
    | with_reducible assumption
    | with_reducible apply regGuarded_wf
    | (intro (eQ : _ = _); with_reducible refine alive_wf hW ?_ eQ)
    | (intro (eQ : _ = _); with_reducible refine answer_wf ?_ eQ)
    | split
    | dsimp only
    | (simp only [wf_mk]; with_reducible apply wf_parts)
    | (intro (eQ : _ = _); cases eQ)

theorem execBreakerClear_wf {m : Master} {ch : Fin 16} {s : State} (hW : s.Wf) {tW : State} (eW : execBreakerClear m ch s = .next tW) : tW.Wf := by
  revert eW
  unfold execBreakerClear
  repeat' first
    | with_reducible assumption
    | with_reducible apply regGuarded_wf
    | (intro (eQ : _ = _); with_reducible refine alive_wf hW ?_ eQ)
    | (intro (eQ : _ = _); with_reducible refine answer_wf ?_ eQ)
    | split
    | dsimp only
    | (simp only [wf_mk]; with_reducible apply wf_parts)
    | (intro (eQ : _ = _); cases eQ)

theorem execApplyCurve_wf {m : Master} {ch : Fin 16} {s : State} (hW : s.Wf) {tW : State} (eW : execApplyCurve m ch s = .next tW) : tW.Wf := by
  revert eW
  unfold execApplyCurve
  repeat' first
    | with_reducible assumption
    | with_reducible apply regGuarded_wf
    | (intro (eQ : _ = _); with_reducible refine alive_wf hW ?_ eQ)
    | (intro (eQ : _ = _); with_reducible refine answer_wf ?_ eQ)
    | split
    | dsimp only
    | (simp only [wf_mk]; with_reducible apply wf_parts)
    | (intro (eQ : _ = _); cases eQ)

theorem execXtaSelect_wf {m : Master} {s : State} (hW : s.Wf) {tW : State} (eW : execXtaSelect m s = .next tW) : tW.Wf := by
  revert eW
  unfold execXtaSelect
  repeat' first
    | with_reducible assumption
    | with_reducible apply regGuarded_wf
    | (intro (eQ : _ = _); with_reducible refine alive_wf hW ?_ eQ)
    | (intro (eQ : _ = _); with_reducible refine answer_wf ?_ eQ)
    | split
    | dsimp only
    | (simp only [wf_mk]; with_reducible apply wf_parts)
    | (intro (eQ : _ = _); cases eQ)

theorem execGateOff_wf {m : Master} {target : Byte} {s : State} (hW : s.Wf) {tW : State} (eW : execGateOff m target s = .next tW) : tW.Wf := by
  revert eW
  unfold execGateOff
  repeat' first
    | with_reducible assumption
    | with_reducible apply regWrite_wf
    | (intro (eQ : _ = _); with_reducible refine alive_wf hW ?_ eQ)
    | (intro (eQ : _ = _); with_reducible refine answer_wf ?_ eQ)
    | split
    | dsimp only
    | (simp only [wf_mk]; with_reducible apply wf_parts)
    | (intro (eQ : _ = _); cases eQ)

theorem execGateOn_wf {m : Master} {target : Byte} {s : State} (hW : s.Wf) {tW : State} (eW : execGateOn m target s = .next tW) : tW.Wf := by
  revert eW
  unfold execGateOn
  repeat' first
    | with_reducible assumption
    | with_reducible apply regWrite_wf
    | (intro (eQ : _ = _); with_reducible refine alive_wf hW ?_ eQ)
    | (intro (eQ : _ = _); with_reducible refine answer_wf ?_ eQ)
    | split
    | dsimp only
    | (simp only [wf_mk]; with_reducible apply wf_parts)
    | (intro (eQ : _ = _); cases eQ)

theorem execGovCntClr_wf {m : Master} {s : State} (hW : s.Wf) {tW : State} (eW : execGovCntClr m s = .next tW) : tW.Wf := by
  revert eW
  unfold execGovCntClr
  repeat' first
    | with_reducible assumption
    | with_reducible apply regWrite_wf
    | (intro (eQ : _ = _); with_reducible refine alive_wf hW ?_ eQ)
    | (intro (eQ : _ = _); with_reducible refine answer_wf ?_ eQ)
    | split
    | dsimp only
    | (simp only [wf_mk]; with_reducible apply wf_parts)
    | (intro (eQ : _ = _); cases eQ)

theorem keyWrite_wf {m : Master} {code : Nat} {s : State} (hW : s.Wf) {tW : State} (eW : keyWrite m code s = .next tW) : tW.Wf := by
  revert eW
  unfold keyWrite
  repeat' first
    | with_reducible assumption
    | with_reducible apply regGuarded_wf
    | (intro (eQ : _ = _); with_reducible refine alive_wf hW ?_ eQ)
    | (intro (eQ : _ = _); with_reducible refine answer_wf ?_ eQ)
    | split
    | dsimp only
    | (simp only [wf_mk]; with_reducible apply wf_parts)
    | (intro (eQ : _ = _); cases eQ)

theorem execKeyLoad_wf {m : Master} {s : State} (hW : s.Wf) {tW : State} (eW : execKeyLoad m s = .next tW) : tW.Wf := by
  revert eW
  unfold execKeyLoad
  repeat' first
    | with_reducible assumption
    | (intro (eQ : _ = _); with_reducible refine alive_wf hW ?_ eQ)
    | (intro (eQ : _ = _); with_reducible refine answer_wf ?_ eQ)
    | split
    | dsimp only
    | (simp only [wf_mk]; with_reducible apply wf_parts)
    | (intro (eQ : _ = _); cases eQ)
    | (intro (eQ : _ = _); with_reducible refine keyWrite_wf ?_ eQ)

theorem execUnwrap_wf {m : Master} {s : State} (hW : s.Wf) {tW : State} (eW : execUnwrap m s = .next tW) : tW.Wf := by
  revert eW
  unfold execUnwrap
  repeat' first
    | with_reducible assumption
    | (intro (eQ : _ = _); with_reducible refine alive_wf hW ?_ eQ)
    | (intro (eQ : _ = _); with_reducible refine answer_wf ?_ eQ)
    | split
    | dsimp only
    | (simp only [wf_mk]; with_reducible apply wf_parts)
    | (intro (eQ : _ = _); cases eQ)
    | (intro (eQ : _ = _); with_reducible refine keyWrite_wf ?_ eQ)

theorem execDerive_wf {m : Master} {s : State} (hW : s.Wf) {tW : State} (eW : execDerive m s = .next tW) : tW.Wf := by
  revert eW
  unfold execDerive
  repeat' first
    | with_reducible assumption
    | (intro (eQ : _ = _); with_reducible refine alive_wf hW ?_ eQ)
    | (intro (eQ : _ = _); with_reducible refine answer_wf ?_ eQ)
    | split
    | dsimp only
    | (simp only [wf_mk]; with_reducible apply wf_parts)
    | (intro (eQ : _ = _); cases eQ)
    | (intro (eQ : _ = _); with_reducible refine keyWrite_wf ?_ eQ)

theorem execKeyErase_wf {m : Master} {s : State} (hW : s.Wf) {tW : State} (eW : execKeyErase m s = .next tW) : tW.Wf := by
  revert eW
  unfold execKeyErase
  repeat' first
    | with_reducible assumption
    | (intro (eQ : _ = _); with_reducible refine alive_wf hW ?_ eQ)
    | (intro (eQ : _ = _); with_reducible refine answer_wf ?_ eQ)
    | split
    | dsimp only
    | (simp only [wf_mk]; with_reducible apply wf_parts)
    | (intro (eQ : _ = _); cases eQ)
    | (intro (eQ : _ = _); with_reducible refine keyWrite_wf ?_ eQ)

theorem execKeyLock_wf {m : Master} {s : State} (hW : s.Wf) {tW : State} (eW : execKeyLock m s = .next tW) : tW.Wf := by
  revert eW
  unfold execKeyLock
  repeat' first
    | with_reducible assumption
    | (intro (eQ : _ = _); with_reducible refine alive_wf hW ?_ eQ)
    | (intro (eQ : _ = _); with_reducible refine answer_wf ?_ eQ)
    | split
    | dsimp only
    | (simp only [wf_mk]; with_reducible apply wf_parts)
    | (intro (eQ : _ = _); cases eQ)
    | (intro (eQ : _ = _); with_reducible refine keyWrite_wf ?_ eQ)

theorem execReadPub_wf {m : Master} {s : State} (hW : s.Wf) {tW : State} (eW : execReadPub m s = .next tW) : tW.Wf := by
  revert eW
  unfold execReadPub
  repeat' first
    | with_reducible assumption
    | (intro (eQ : _ = _); with_reducible refine alive_wf hW ?_ eQ)
    | (intro (eQ : _ = _); with_reducible refine answer_wf ?_ eQ)
    | split
    | dsimp only
    | (simp only [wf_mk]; with_reducible apply wf_parts)
    | (intro (eQ : _ = _); cases eQ)
    | (intro (eQ : _ = _); with_reducible refine keyWrite_wf ?_ eQ)

theorem execVerify_wf {m : Master} {s : State} (hW : s.Wf) {tW : State} (eW : execVerify m s = .next tW) : tW.Wf := by
  revert eW
  unfold execVerify
  repeat' first
    | with_reducible assumption
    | (intro (eQ : _ = _); with_reducible refine alive_wf hW ?_ eQ)
    | (intro (eQ : _ = _); with_reducible refine answer_wf ?_ eQ)
    | split
    | dsimp only
    | (simp only [wf_mk]; with_reducible apply wf_parts)
    | (intro (eQ : _ = _); cases eQ)
    | (intro (eQ : _ = _); with_reducible refine keyWrite_wf ?_ eQ)

theorem execCmac_wf {m : Master} {s : State} (hW : s.Wf) {tW : State} (eW : execCmac m s = .next tW) : tW.Wf := by
  revert eW
  unfold execCmac
  repeat' first
    | with_reducible assumption
    | (intro (eQ : _ = _); with_reducible refine alive_wf hW ?_ eQ)
    | (intro (eQ : _ = _); with_reducible refine answer_wf ?_ eQ)
    | split
    | dsimp only
    | (simp only [wf_mk]; with_reducible apply wf_parts)
    | (intro (eQ : _ = _); cases eQ)
    | (intro (eQ : _ = _); with_reducible refine keyWrite_wf ?_ eQ)

theorem execGcmEnc_wf {m : Master} {s : State} (hW : s.Wf) {tW : State} (eW : execGcmEnc m s = .next tW) : tW.Wf := by
  revert eW
  unfold execGcmEnc
  repeat' first
    | with_reducible assumption
    | (intro (eQ : _ = _); with_reducible refine alive_wf hW ?_ eQ)
    | (intro (eQ : _ = _); with_reducible refine answer_wf ?_ eQ)
    | split
    | dsimp only
    | (simp only [wf_mk]; with_reducible apply wf_parts)
    | (intro (eQ : _ = _); cases eQ)
    | (intro (eQ : _ = _); with_reducible refine keyWrite_wf ?_ eQ)

theorem execGcmDec_wf {m : Master} {s : State} (hW : s.Wf) {tW : State} (eW : execGcmDec m s = .next tW) : tW.Wf := by
  revert eW
  unfold execGcmDec
  repeat' first
    | with_reducible assumption
    | (intro (eQ : _ = _); with_reducible refine alive_wf hW ?_ eQ)
    | (intro (eQ : _ = _); with_reducible refine answer_wf ?_ eQ)
    | split
    | dsimp only
    | (simp only [wf_mk]; with_reducible apply wf_parts)
    | (intro (eQ : _ = _); cases eQ)
    | (intro (eQ : _ = _); with_reducible refine keyWrite_wf ?_ eQ)

theorem execHash_wf {m : Master} {s : State} (hW : s.Wf) {tW : State} (eW : execHash m s = .next tW) : tW.Wf := by
  revert eW
  unfold execHash
  repeat' first
    | with_reducible assumption
    | (intro (eQ : _ = _); with_reducible refine alive_wf hW ?_ eQ)
    | (intro (eQ : _ = _); with_reducible refine answer_wf ?_ eQ)
    | split
    | dsimp only
    | (simp only [wf_mk]; with_reducible apply wf_parts)
    | (intro (eQ : _ = _); cases eQ)
    | (intro (eQ : _ = _); with_reducible refine keyWrite_wf ?_ eQ)

theorem execRandom_wf {m : Master} {s : State} (hW : s.Wf) {tW : State} (eW : execRandom m s = .next tW) : tW.Wf := by
  revert eW
  unfold execRandom
  repeat' first
    | with_reducible assumption
    | (intro (eQ : _ = _); with_reducible refine alive_wf hW ?_ eQ)
    | (intro (eQ : _ = _); with_reducible refine answer_wf ?_ eQ)
    | split
    | dsimp only
    | (simp only [wf_mk]; with_reducible apply wf_parts)
    | (intro (eQ : _ = _); cases eQ)
    | (intro (eQ : _ = _); with_reducible refine keyWrite_wf ?_ eQ)

theorem execLcNonce_wf {m : Master} {s : State} (hW : s.Wf) {tW : State} (eW : execLcNonce m s = .next tW) : tW.Wf := by
  revert eW
  unfold execLcNonce
  repeat' first
    | with_reducible assumption
    | (intro (eQ : _ = _); with_reducible refine alive_wf hW ?_ eQ)
    | (intro (eQ : _ = _); with_reducible refine answer_wf ?_ eQ)
    | split
    | dsimp only
    | (simp only [wf_mk]; with_reducible apply wf_parts)
    | (intro (eQ : _ = _); cases eQ)
    | (intro (eQ : _ = _); with_reducible refine keyWrite_wf ?_ eQ)

theorem execLcTransition_wf {m : Master} {s : State} (hW : s.Wf) {tW : State} (eW : execLcTransition m s = .next tW) : tW.Wf := by
  revert eW
  unfold execLcTransition
  repeat' first
    | with_reducible assumption
    | (intro (eQ : _ = _); with_reducible refine alive_wf hW ?_ eQ)
    | (intro (eQ : _ = _); with_reducible refine answer_wf ?_ eQ)
    | split
    | dsimp only
    | (simp only [wf_mk]; with_reducible apply wf_parts)
    | (intro (eQ : _ = _); cases eQ)
    | (intro (eQ : _ = _); with_reducible refine keyWrite_wf ?_ eQ)

theorem execSetRingKey_wf {m : Master} {s : State} (hW : s.Wf) {tW : State} (eW : execSetRingKey m s = .next tW) : tW.Wf := by
  revert eW
  unfold execSetRingKey
  repeat' first
    | with_reducible assumption
    | (intro (eQ : _ = _); with_reducible refine alive_wf hW ?_ eQ)
    | (intro (eQ : _ = _); with_reducible refine answer_wf ?_ eQ)
    | split
    | dsimp only
    | (simp only [wf_mk]; with_reducible apply wf_parts)
    | (intro (eQ : _ = _); cases eQ)
    | (intro (eQ : _ = _); with_reducible refine keyWrite_wf ?_ eQ)

theorem execFenceCmd_wf {m : Master} {page : Byte} {s : State} (hW : s.Wf) {tW : State} (eW : execFenceCmd m page s = .next tW) : tW.Wf := by
  revert eW
  unfold execFenceCmd
  repeat' first
    | with_reducible assumption
    | with_reducible apply regGuarded_wf
    | (intro (eQ : _ = _); with_reducible refine alive_wf hW ?_ eQ)
    | (intro (eQ : _ = _); with_reducible refine answer_wf ?_ eQ)
    | split
    | dsimp only
    | (simp only [wf_mk]; with_reducible apply wf_parts)
    | (intro (eQ : _ = _); cases eQ)

theorem execErrTest_wf {m : Master} {s : State} (hW : s.Wf) {tW : State} (eW : execErrTest m s = .next tW) : tW.Wf := by
  revert eW
  unfold execErrTest
  repeat' first
    | with_reducible assumption
    | with_reducible apply regGuarded_wf
    | (intro (eQ : _ = _); with_reducible refine alive_wf hW ?_ eQ)
    | (intro (eQ : _ = _); with_reducible refine answer_wf ?_ eQ)
    | split
    | dsimp only
    | (simp only [wf_mk]; with_reducible apply wf_parts)
    | (intro (eQ : _ = _); cases eQ)

theorem execDumpNow_wf {m : Master} {s : State} (hW : s.Wf) {tW : State} (eW : execDumpNow m s = .next tW) : tW.Wf := by
  revert eW
  unfold execDumpNow
  repeat' first
    | with_reducible assumption
    | with_reducible apply regGuarded_wf
    | (intro (eQ : _ = _); with_reducible refine alive_wf hW ?_ eQ)
    | (intro (eQ : _ = _); with_reducible refine answer_wf ?_ eQ)
    | split
    | dsimp only
    | (simp only [wf_mk]; with_reducible apply wf_parts)
    | (intro (eQ : _ = _); cases eQ)

theorem execCheckpoint_wf {m : Master} {s : State} (hW : s.Wf) {tW : State} (eW : execCheckpoint m s = .next tW) : tW.Wf := by
  revert eW
  unfold execCheckpoint
  repeat' first
    | with_reducible assumption
    | with_reducible apply regGuarded_wf
    | (intro (eQ : _ = _); with_reducible refine alive_wf hW ?_ eQ)
    | (intro (eQ : _ = _); with_reducible refine answer_wf ?_ eQ)
    | split
    | dsimp only
    | (simp only [wf_mk]; with_reducible apply wf_parts)
    | (intro (eQ : _ = _); cases eQ)

theorem execHeadLoRead_wf {m : Master} {s : State} (hW : s.Wf) {tW : State} (eW : execHeadLoRead m s = .next tW) : tW.Wf := by
  revert eW
  unfold execHeadLoRead
  repeat' first
    | with_reducible assumption
    | with_reducible apply regRead_wf
    | (intro (eQ : _ = _); with_reducible refine alive_wf hW ?_ eQ)
    | (intro (eQ : _ = _); with_reducible refine answer_wf ?_ eQ)
    | split
    | dsimp only
    | (simp only [wf_mk]; with_reducible apply wf_parts)
    | (intro (eQ : _ = _); cases eQ)

theorem execCkptLoRead_wf {m : Master} {s : State} (hW : s.Wf) {tW : State} (eW : execCkptLoRead m s = .next tW) : tW.Wf := by
  revert eW
  unfold execCkptLoRead
  repeat' first
    | with_reducible assumption
    | with_reducible apply regRead_wf
    | (intro (eQ : _ = _); with_reducible refine alive_wf hW ?_ eQ)
    | (intro (eQ : _ = _); with_reducible refine answer_wf ?_ eQ)
    | split
    | dsimp only
    | (simp only [wf_mk]; with_reducible apply wf_parts)
    | (intro (eQ : _ = _); cases eQ)

theorem execWarmReset_wf {m : Option Master} {s : State} (hW : s.Wf) {tW : State} (eW : execWarmReset m s = .next tW) : tW.Wf := by
  revert eW
  unfold execWarmReset
  repeat' first
    | with_reducible assumption
    | with_reducible apply warmReset_wf
    | with_reducible apply regGuarded_wf
    | (intro (eQ : _ = _); with_reducible refine alive_wf hW ?_ eQ)
    | (intro (eQ : _ = _); with_reducible refine answer_wf ?_ eQ)
    | split
    | dsimp only
    | (simp only [wf_mk]; with_reducible apply wf_parts)
    | (intro (eQ : _ = _); cases eQ)

theorem execRingReset_wf {m : Master} {bootsel : Fin 4} {s : State} (hW : s.Wf) {tW : State} (eW : execRingReset m bootsel s = .next tW) : tW.Wf := by
  revert eW
  unfold execRingReset
  repeat' first
    | with_reducible assumption
    | with_reducible apply setBootsel_wf
    | with_reducible apply regGuarded_wf
    | (intro (eQ : _ = _); with_reducible refine alive_wf hW ?_ eQ)
    | (intro (eQ : _ = _); with_reducible refine answer_wf ?_ eQ)
    | split
    | dsimp only
    | (simp only [wf_mk]; with_reducible apply wf_parts)
    | (intro (eQ : _ = _); cases eQ)

theorem execStandbyEnter_wf {m : Master} {s : State} (hW : s.Wf) {tW : State} (eW : execStandbyEnter m s = .next tW) : tW.Wf := by
  revert eW
  unfold execStandbyEnter
  repeat' first
    | with_reducible assumption
    | with_reducible apply regGuarded_wf
    | (intro (eQ : _ = _); with_reducible refine alive_wf hW ?_ eQ)
    | (intro (eQ : _ = _); with_reducible refine answer_wf ?_ eQ)
    | split
    | dsimp only
    | (simp only [wf_mk]; with_reducible apply wf_parts)
    | (intro (eQ : _ = _); cases eQ)

theorem execStandbyExit_wf {m : Master} {s : State} (hW : s.Wf) {tW : State} (eW : execStandbyExit m s = .next tW) : tW.Wf := by
  revert eW
  unfold execStandbyExit
  repeat' first
    | with_reducible assumption
    | with_reducible apply regGuarded_wf
    | (intro (eQ : _ = _); with_reducible refine alive_wf hW ?_ eQ)
    | (intro (eQ : _ = _); with_reducible refine answer_wf ?_ eQ)
    | split
    | dsimp only
    | (simp only [wf_mk]; with_reducible apply wf_parts)
    | (intro (eQ : _ = _); cases eQ)

theorem execBeginUpdate_wf {m : Master} {type : Fin 2} {defer_ : Bool} {s : State} (hW : s.Wf) {tW : State} (eW : execBeginUpdate m type defer_ s = .next tW) : tW.Wf := by
  revert eW
  unfold execBeginUpdate
  repeat' first
    | with_reducible assumption
    | with_reducible apply regGuarded_wf
    | (intro (eQ : _ = _); with_reducible refine alive_wf hW ?_ eQ)
    | (intro (eQ : _ = _); with_reducible refine answer_wf ?_ eQ)
    | split
    | dsimp only
    | (simp only [wf_mk]; with_reducible apply wf_parts)
    | (intro (eQ : _ = _); cases eQ)

theorem execUpdIndDataWrite_wf {m : Master} {value : Word} {s : State} (hW : s.Wf) {tW : State} (eW : execUpdIndDataWrite m value s = .next tW) : tW.Wf := by
  revert eW
  unfold execUpdIndDataWrite
  repeat' first
    | with_reducible assumption
    | with_reducible apply regWrite_wf
    | (intro (eQ : _ = _); with_reducible refine alive_wf hW ?_ eQ)
    | (intro (eQ : _ = _); with_reducible refine answer_wf ?_ eQ)
    | split
    | dsimp only
    | (simp only [wf_mk]; with_reducible apply wf_parts)
    | (intro (eQ : _ = _); cases eQ)

theorem execBlockFromDram_wf {m : Master} {block : BitVec 16} {s : State} (hW : s.Wf) {tW : State} (eW : execBlockFromDram m block s = .next tW) : tW.Wf := by
  revert eW
  unfold execBlockFromDram
  repeat' first
    | with_reducible assumption
    | with_reducible apply regGuarded_wf
    | (intro (eQ : _ = _); with_reducible refine alive_wf hW ?_ eQ)
    | (intro (eQ : _ = _); with_reducible refine answer_wf ?_ eQ)
    | split
    | dsimp only
    | (simp only [wf_mk]; with_reducible apply wf_parts)
    | (intro (eQ : _ = _); cases eQ)

theorem execUpdAbort_wf {m : Master} {s : State} (hW : s.Wf) {tW : State} (eW : execUpdAbort m s = .next tW) : tW.Wf := by
  revert eW
  unfold execUpdAbort
  repeat' first
    | with_reducible assumption
    | with_reducible apply regGuarded_wf
    | (intro (eQ : _ = _); with_reducible refine alive_wf hW ?_ eQ)
    | (intro (eQ : _ = _); with_reducible refine answer_wf ?_ eQ)
    | split
    | dsimp only
    | (simp only [wf_mk]; with_reducible apply wf_parts)
    | (intro (eQ : _ = _); cases eQ)

theorem execUpdCommit_wf {m : Master} {s : State} (hW : s.Wf) {tW : State} (eW : execUpdCommit m s = .next tW) : tW.Wf := by
  revert eW
  unfold execUpdCommit
  repeat' first
    | with_reducible assumption
    | with_reducible apply regGuarded_wf
    | (intro (eQ : _ = _); with_reducible refine alive_wf hW ?_ eQ)
    | (intro (eQ : _ = _); with_reducible refine answer_wf ?_ eQ)
    | split
    | dsimp only
    | (simp only [wf_mk]; with_reducible apply wf_parts)
    | (intro (eQ : _ = _); cases eQ)

theorem execConfirm_wf {m : Master} {s : State} (hW : s.Wf) {tW : State} (eW : execConfirm m s = .next tW) : tW.Wf := by
  revert eW
  unfold execConfirm
  repeat' first
    | with_reducible assumption
    | with_reducible apply regGuarded_wf
    | (intro (eQ : _ = _); with_reducible refine alive_wf hW ?_ eQ)
    | (intro (eQ : _ = _); with_reducible refine answer_wf ?_ eQ)
    | split
    | dsimp only
    | (simp only [wf_mk]; with_reducible apply wf_parts)
    | (intro (eQ : _ = _); cases eQ)

theorem configWrite_wf {m : Master} {cmd : Nat} {ok : Bool} {s : State} (hW : s.Wf) : (configWrite m cmd ok s).Wf := by
  unfold configWrite
  repeat' first
    | with_reducible assumption
    | with_reducible apply regGuarded_wf
    | split
    | dsimp only
    | (simp only [wf_mk]; with_reducible apply wf_parts)

theorem execSaveConfig_wf {m : Master} {ok : Bool} {s : State} (hW : s.Wf) {tW : State} (eW : execSaveConfig m ok s = .next tW) : tW.Wf := by
  revert eW
  unfold execSaveConfig
  repeat' first
    | with_reducible assumption
    | with_reducible apply configWrite_wf
    | (intro (eQ : _ = _); with_reducible refine alive_wf hW ?_ eQ)
    | (intro (eQ : _ = _); with_reducible refine answer_wf ?_ eQ)
    | split
    | dsimp only
    | (simp only [wf_mk]; with_reducible apply wf_parts)
    | (intro (eQ : _ = _); cases eQ)

theorem execSaveNodeRecord_wf {m : Master} {ok : Bool} {s : State} (hW : s.Wf) {tW : State} (eW : execSaveNodeRecord m ok s = .next tW) : tW.Wf := by
  revert eW
  unfold execSaveNodeRecord
  repeat' first
    | with_reducible assumption
    | with_reducible apply configWrite_wf
    | (intro (eQ : _ = _); with_reducible refine alive_wf hW ?_ eQ)
    | (intro (eQ : _ = _); with_reducible refine answer_wf ?_ eQ)
    | split
    | dsimp only
    | (simp only [wf_mk]; with_reducible apply wf_parts)
    | (intro (eQ : _ = _); cases eQ)

theorem execClearConfig_wf {m : Master} {ok : Bool} {s : State} (hW : s.Wf) {tW : State} (eW : execClearConfig m ok s = .next tW) : tW.Wf := by
  revert eW
  unfold execClearConfig
  repeat' first
    | with_reducible assumption
    | with_reducible apply configWrite_wf
    | (intro (eQ : _ = _); with_reducible refine alive_wf hW ?_ eQ)
    | (intro (eQ : _ = _); with_reducible refine answer_wf ?_ eQ)
    | split
    | dsimp only
    | (simp only [wf_mk]; with_reducible apply wf_parts)
    | (intro (eQ : _ = _); cases eQ)

theorem execDramCntClr_wf {m : Master} {s : State} (hW : s.Wf) {tW : State} (eW : execDramCntClr m s = .next tW) : tW.Wf := by
  revert eW
  unfold execDramCntClr
  repeat' first
    | with_reducible assumption
    | with_reducible apply regWrite_wf
    | (intro (eQ : _ = _); with_reducible refine alive_wf hW ?_ eQ)
    | (intro (eQ : _ = _); with_reducible refine answer_wf ?_ eQ)
    | split
    | dsimp only
    | (simp only [wf_mk]; with_reducible apply wf_parts)
    | (intro (eQ : _ = _); cases eQ)

theorem execFlashCntClr_wf {m : Master} {s : State} (hW : s.Wf) {tW : State} (eW : execFlashCntClr m s = .next tW) : tW.Wf := by
  revert eW
  unfold execFlashCntClr
  repeat' first
    | with_reducible assumption
    | with_reducible apply regWrite_wf
    | (intro (eQ : _ = _); with_reducible refine alive_wf hW ?_ eQ)
    | (intro (eQ : _ = _); with_reducible refine answer_wf ?_ eQ)
    | split
    | dsimp only
    | (simp only [wf_mk]; with_reducible apply wf_parts)
    | (intro (eQ : _ = _); cases eQ)

end Sys2Proof.Machine
end

