-- ==== Sys2Proof/Laws/Wf/Remote.lean ====
section
/-!
SUPPORT. The operations of Machine/Remote.lean keep the invariant State.Wf.
-/

namespace Sys2Proof.Machine

set_option linter.all false

theorem getD_wf {o : Option State} {s : State} (hW : s.Wf) (h : ∀ t, o = some t → t.Wf) : (o.getD s).Wf := by
  cases o with
  | none => exact hW
  | some t => exact h t rfl

theorem guardedPair_wf {w : Waiter} {m : Master} {a : Nat} {value : Nat} {complement : Nat} {s : State} (hW : s.Wf) : (guardedPair w m a value complement s).Wf := by
  unfold guardedPair
  repeat' first
    | with_reducible assumption
    | with_reducible apply noteVerdict_wf
    | with_reducible apply endAccess_wf
    | with_reducible apply pageWrite_wf
    | split
    | dsimp only
    | (simp only [wf_mk]; with_reducible apply wf_parts)

theorem notePw_wf {m : InMsg} {s : State} (hW : s.Wf) : (notePw m s).Wf := by
  unfold notePw
  repeat' first
    | with_reducible assumption
    | split
    | dsimp only
    | (simp only [wf_mk]; with_reducible apply wf_parts)

theorem noteGap_wf {h : Nat} {s : State} (hW : s.Wf) : (noteGap h s).Wf := by
  unfold noteGap
  repeat' first
    | with_reducible assumption
    | with_reducible apply incCnt_wf
    | with_reducible apply raiseEv_wf
    | with_reducible apply sendNotice_wf
    | split
    | dsimp only
    | (simp only [wf_mk]; with_reducible apply wf_parts)

theorem acceptSeq_wf {m : InMsg} {s : State} (hW : s.Wf) {tW : State} (eW : acceptSeq m s = some tW) : tW.Wf := by
  revert eW
  unfold acceptSeq
  repeat' first
    | with_reducible assumption
    | with_reducible apply notePw_wf
    | with_reducible apply noteGap_wf
    | with_reducible refine whenS_wf (fun u hu => ?_) ?_
    | split
    | dsimp only
    | (simp only [wf_mk]; with_reducible apply wf_parts)
    | (intro (eQ : _ = _); cases eQ)

theorem noteDuplicate_wf {s : State} (hW : s.Wf) : (noteDuplicate s).Wf := by
  unfold noteDuplicate
  repeat' first
    | with_reducible assumption
    | with_reducible apply incCnt_wf
    | split
    | dsimp only
    | (simp only [wf_mk]; with_reducible apply wf_parts)

theorem noteExecuted_wf {h : Nat} {s : State} (hW : s.Wf) : (noteExecuted h s).Wf := by
  unfold noteExecuted
  repeat' first
    | with_reducible assumption
    | split
    | dsimp only
    | (simp only [wf_mk]; with_reducible apply wf_parts)

theorem carryOut_wf {i : Nat} {m : InMsg} {f : State → State} {s : State} (hf : ∀ u : State, u.Wf → (f u).Wf) (hW : s.Wf) :
    (carryOut i m f s).Wf := by
  unfold carryOut
  split
  · exact removeIn_wf (noteDuplicate_wf hW)
  · next e => exact hf _ (removeIn_wf (noteExecuted_wf (acceptSeq_wf hW e)))

theorem doRequest_wf {m : InMsg} {s : State} (hW : s.Wf) : (doRequest m s).Wf := by
  unfold doRequest
  repeat' first
    | with_reducible assumption
    | with_reducible apply endAccess_wf
    | with_reducible apply access_wf
    | with_reducible apply guardedPair_wf
    | split
    | dsimp only
    | (simp only [wf_mk]; with_reducible apply wf_parts)

theorem doPosted_wf {m : InMsg} {s : State} (hW : s.Wf) : (doPosted m s).Wf := by
  unfold doPosted
  repeat' first
    | with_reducible assumption
    | with_reducible apply endAccess_wf
    | with_reducible apply access_wf
    | with_reducible apply guardedPair_wf
    | split
    | dsimp only
    | (simp only [wf_mk]; with_reducible apply wf_parts)

theorem execRequest_wf {stream : Fin 16} {s : State} (hW : s.Wf) {tW : State} (eW : execRequest stream s = .next tW) : tW.Wf := by
  revert eW
  unfold execRequest
  repeat' first
    | with_reducible assumption
    | with_reducible refine carryOut_wf (fun u hu => ?_) ?_
    | with_reducible apply doRequest_wf
    | (intro (eQ : _ = _); with_reducible refine alive_wf hW ?_ eQ)
    | (intro (eQ : _ = _); with_reducible refine answer_wf ?_ eQ)
    | split
    | dsimp only
    | (simp only [wf_mk]; with_reducible apply wf_parts)
    | (intro (eQ : _ = _); cases eQ)

theorem execPosted_wf {stream : Fin 16} {s : State} (hW : s.Wf) {tW : State} (eW : execPosted stream s = .next tW) : tW.Wf := by
  revert eW
  unfold execPosted
  repeat' first
    | with_reducible assumption
    | with_reducible refine carryOut_wf (fun u hu => ?_) ?_
    | with_reducible apply doPosted_wf
    | (intro (eQ : _ = _); with_reducible refine alive_wf hW ?_ eQ)
    | (intro (eQ : _ = _); with_reducible refine answer_wf ?_ eQ)
    | split
    | dsimp only
    | (simp only [wf_mk]; with_reducible apply wf_parts)
    | (intro (eQ : _ = _); cases eQ)

theorem execBroadcast_wf {s : State} (hW : s.Wf) {tW : State} (eW : execBroadcast s = .next tW) : tW.Wf := by
  revert eW
  unfold execBroadcast
  repeat' first
    | with_reducible assumption
    | with_reducible refine carryOut_wf (fun u hu => ?_) ?_
    | with_reducible apply doPosted_wf
    | (intro (eQ : _ = _); with_reducible refine alive_wf hW ?_ eQ)
    | (intro (eQ : _ = _); with_reducible refine answer_wf ?_ eQ)
    | split
    | dsimp only
    | (simp only [wf_mk]; with_reducible apply wf_parts)
    | (intro (eQ : _ = _); cases eQ)

theorem execCredit_wf {s : State} (hW : s.Wf) {tW : State} (eW : execCredit s = .next tW) : tW.Wf := by
  revert eW
  unfold execCredit
  repeat' first
    | with_reducible assumption
    | with_reducible apply takeCredits_wf
    | with_reducible apply removeIn_wf
    | (intro (eQ : _ = _); with_reducible refine alive_wf hW ?_ eQ)
    | (intro (eQ : _ = _); with_reducible refine answer_wf ?_ eQ)
    | split
    | dsimp only
    | (simp only [wf_mk]; with_reducible apply wf_parts)
    | (intro (eQ : _ = _); cases eQ)

theorem takeResponse_wf {s : State} (hW : s.Wf) : (takeResponse s).Wf := by
  unfold takeResponse
  repeat' first
    | with_reducible assumption
    | with_reducible apply incCnt_wf
    | with_reducible apply raiseEv_wf
    | with_reducible apply endRemote_wf
    | with_reducible apply removeIn_wf
    | split
    | dsimp only
    | (simp only [wf_mk]; with_reducible apply wf_parts)

theorem execResponse_wf {s : State} (hW : s.Wf) {tW : State} (eW : execResponse s = .next tW) : tW.Wf := by
  revert eW
  unfold execResponse
  repeat' first
    | with_reducible assumption
    | with_reducible apply takeResponse_wf
    | (intro (eQ : _ = _); with_reducible refine alive_wf hW ?_ eQ)
    | (intro (eQ : _ = _); with_reducible refine answer_wf ?_ eQ)
    | split
    | dsimp only
    | (simp only [wf_mk]; with_reducible apply wf_parts)
    | (intro (eQ : _ = _); cases eQ)

theorem doNotice_wf {m : InMsg} {s : State} (hW : s.Wf) {tW : State} (eW : doNotice m s = some tW) : tW.Wf := by
  revert eW
  unfold doNotice
  repeat' first
    | with_reducible assumption
    | with_reducible apply logPwe_wf
    | with_reducible apply linkReport_wf
    | with_reducible refine enterNotice_wf ?_ (by with_reducible assumption)
    | split
    | dsimp only
    | (simp only [wf_mk]; with_reducible apply wf_parts)
    | (intro (eQ : _ = _); cases eQ)
    | (intro (eQ : _ = _); with_reducible refine enterNotice_wf ?_ eQ)

theorem takeNotice_wf {stream : Nat} {s : State} (hW : s.Wf) : (takeNotice stream s).Wf := by
  unfold takeNotice
  split
  · exact hW
  · split
    · exact removeIn_wf (noteDuplicate_wf hW)
    · next i m _ _ t e =>
      have h := removeIn_wf (i := i) (noteExecuted_wf (h := m.header) (acceptSeq_wf hW e))
      cases d : doNotice _ _ with
      | none => exact hW
      | some t => exact doNotice_wf h d

theorem execNotice_wf {stream : Fin 16} {s : State} (hW : s.Wf) {tW : State} (eW : execNotice stream s = .next tW) : tW.Wf := by
  revert eW
  unfold execNotice
  repeat' first
    | with_reducible assumption
    | with_reducible apply takeNotice_wf
    | (intro (eQ : _ = _); with_reducible refine alive_wf hW ?_ eQ)
    | (intro (eQ : _ = _); with_reducible refine answer_wf ?_ eQ)
    | split
    | dsimp only
    | (simp only [wf_mk]; with_reducible apply wf_parts)
    | (intro (eQ : _ = _); cases eQ)

theorem dropRemoteGuard_wf {g : RemoteGuard} {s : State} (hW : s.Wf) : (dropRemoteGuard g s).Wf := by
  unfold dropRemoteGuard
  repeat' first
    | with_reducible assumption
    | split
    | dsimp only
    | (simp only [wf_mk]; with_reducible apply wf_parts)

theorem failRemoteGuard_wf {g : RemoteGuard} {cause : Nat} {s : State} (hW : s.Wf) : (failRemoteGuard g cause s).Wf := by
  unfold failRemoteGuard
  repeat' first
    | with_reducible assumption
    | with_reducible apply guardFail_wf
    | with_reducible apply dropRemoteGuard_wf
    | split
    | dsimp only
    | (simp only [wf_mk]; with_reducible apply wf_parts)

theorem remoteGuardTimeout_wf {s : State} (hW : s.Wf) : (remoteGuardTimeout s).Wf := by
  unfold remoteGuardTimeout
  repeat' first
    | with_reducible assumption
    | with_reducible apply failRemoteGuard_wf
    | split
    | dsimp only
    | (simp only [wf_mk]; with_reducible apply wf_parts)

theorem execRemoteGuardTimeout_wf {s : State} (hW : s.Wf) {tW : State} (eW : execRemoteGuardTimeout s = .next tW) : tW.Wf := by
  revert eW
  unfold execRemoteGuardTimeout
  repeat' first
    | with_reducible assumption
    | with_reducible apply remoteGuardTimeout_wf
    | (intro (eQ : _ = _); with_reducible refine alive_wf hW ?_ eQ)
    | (intro (eQ : _ = _); with_reducible refine answer_wf ?_ eQ)
    | split
    | dsimp only
    | (simp only [wf_mk]; with_reducible apply wf_parts)
    | (intro (eQ : _ = _); cases eQ)

theorem remoteWrite_wf {m : Master} {node a : Nat} {bs : List Byte} {send : Nat → Nat → List Byte → State → State} {held : State → State}
    {s : State} (hs : ∀ (o a : Nat) (bs : List Byte) (u : State), u.Wf → (send o a bs u).Wf) (hh : ∀ u : State, u.Wf → (held u).Wf)
    (hW : s.Wf) : (remoteWrite m node a bs send held s).Wf := by
  unfold remoteWrite
  dsimp only
  repeat' first
    | with_reducible assumption
    | with_reducible apply hs
    | with_reducible apply hh
    | with_reducible apply failRemoteGuard_wf
    | with_reducible apply dropRemoteGuard_wf
    | with_reducible apply guardFail_wf
    | split
    | (simp only [wf_mk]; with_reducible apply wf_parts)

theorem postedWrite_wf {port : Nat} {m : Master} {stream node a : Nat} {bs : List Byte} {s : State} (hW : s.Wf) :
    (postedWrite port m stream node a bs s).Wf := by
  unfold postedWrite
  split
  · exact access_wf hW
  · exact forEach_wf (fun _ u hu => remoteWrite_wf (fun _ _ _ _ h => sendPosted_wf h) (fun _ h => h) hu) hW

theorem fabricWrite_wf {m : Master} {addr : Nat} {bs : List Byte} {s : State} (hW : s.Wf) : (fabricWrite m addr bs s).Wf := by
  unfold fabricWrite
  repeat' first
    | with_reducible assumption
    | with_reducible apply endAccess_wf
    | with_reducible apply busWrite_wf
    | with_reducible apply postedWrite_wf
    | split
    | dsimp only
    | (simp only [wf_mk]; with_reducible apply wf_parts)

theorem fabricRead_wf {m : Master} {addr : Nat} {n : Nat} {s : State} (hW : s.Wf) : (fabricRead m addr n s).Wf := by
  unfold fabricRead
  repeat' first
    | with_reducible assumption
    | with_reducible apply endAccess_wf
    | with_reducible apply splitAccess_wf
    | with_reducible apply sendRequest_wf
    | with_reducible apply busRead_wf
    | with_reducible refine forEach_wf (fun x u hu => ?_) ?_
    | with_reducible refine splitAccess_wfE ?_ (by with_reducible assumption)
    | split
    | dsimp only
    | (simp only [wf_mk]; with_reducible apply wf_parts)

theorem execRegisterWrite_wf {m : Master} {addr : BitVec 48} {data : List Byte} {s : State} (hW : s.Wf) {tW : State} (eW : execRegisterWrite m addr data s = .next tW) : tW.Wf := by
  revert eW
  unfold execRegisterWrite
  repeat' first
    | with_reducible assumption
    | with_reducible apply fabricWrite_wf
    | (intro (eQ : _ = _); with_reducible refine alive_wf hW ?_ eQ)
    | (intro (eQ : _ = _); with_reducible refine answer_wf ?_ eQ)
    | split
    | dsimp only
    | (simp only [wf_mk]; with_reducible apply wf_parts)
    | (intro (eQ : _ = _); cases eQ)

theorem execRegisterRead_wf {m : Master} {addr : BitVec 48} {len : Fin 4097} {s : State} (hW : s.Wf) {tW : State} (eW : execRegisterRead m addr len s = .next tW) : tW.Wf := by
  revert eW
  unfold execRegisterRead
  repeat' first
    | with_reducible assumption
    | with_reducible apply fabricRead_wf
    | (intro (eQ : _ = _); with_reducible refine alive_wf hW ?_ eQ)
    | (intro (eQ : _ = _); with_reducible refine answer_wf ?_ eQ)
    | split
    | dsimp only
    | (simp only [wf_mk]; with_reducible apply wf_parts)
    | (intro (eQ : _ = _); cases eQ)

theorem unsupported_wf {tag : Nat} {s : State} (hW : s.Wf) : (unsupported tag s).Wf := by
  unfold unsupported
  repeat' first
    | with_reducible assumption
    | with_reducible apply incCnt_wf
    | with_reducible apply emit_wf
    | with_reducible apply raiseEv_wf
    | with_reducible apply aerReport_wf
    | split
    | dsimp only
    | (simp only [wf_mk]; with_reducible apply wf_parts)

theorem bar2Read_wf {o : Nat} {len : Nat} {tag : Nat} {s : State} (hW : s.Wf) : (bar2Read o len tag s).Wf := by
  unfold bar2Read
  repeat' first
    | with_reducible assumption
    | with_reducible apply splitAccess_wf
    | with_reducible apply sendRequest_wf
    | with_reducible apply access_wf
    | with_reducible apply unsupported_wf
    | with_reducible refine forEach_wf (fun x u hu => ?_) ?_
    | with_reducible refine splitAccess_wfE ?_ (by with_reducible assumption)
    | split
    | dsimp only
    | (simp only [wf_mk]; with_reducible apply wf_parts)

theorem execPcieBar2Read_wf {offset : Word} {lenM1 : Fin 512} {tag : BitVec 10} {s : State} (hW : s.Wf) {tW : State} (eW : execPcieBar2Read offset lenM1 tag s = .next tW) : tW.Wf := by
  revert eW
  unfold execPcieBar2Read
  repeat' first
    | with_reducible assumption
    | with_reducible apply bar2Read_wf
    | (intro (eQ : _ = _); with_reducible refine alive_wf hW ?_ eQ)
    | (intro (eQ : _ = _); with_reducible refine answer_wf ?_ eQ)
    | split
    | dsimp only
    | (simp only [wf_mk]; with_reducible apply wf_parts)
    | (intro (eQ : _ = _); cases eQ)

theorem bar2Write_wf {o : Nat} {bs : List Byte} {s : State} (hW : s.Wf) : (bar2Write o bs s).Wf := by
  unfold bar2Write
  repeat' first
    | with_reducible assumption
    | with_reducible apply incCnt_wf
    | with_reducible apply freeValue_wf
    | with_reducible apply raiseEv_wf
    | with_reducible apply logPwe_wf
    | with_reducible apply aerReport_wf
    | with_reducible apply postedWrite_wf
    | with_reducible refine freeValue_wfE ?_ (by with_reducible assumption)
    | split
    | dsimp only
    | (simp only [wf_mk]; with_reducible apply wf_parts)

theorem execPcieBar2Write_wf {offset : Word} {data : List Byte} {s : State} (hW : s.Wf) {tW : State} (eW : execPcieBar2Write offset data s = .next tW) : tW.Wf := by
  revert eW
  unfold execPcieBar2Write
  repeat' first
    | with_reducible assumption
    | with_reducible apply bar2Write_wf
    | (intro (eQ : _ = _); with_reducible refine alive_wf hW ?_ eQ)
    | (intro (eQ : _ = _); with_reducible refine answer_wf ?_ eQ)
    | split
    | dsimp only
    | (simp only [wf_mk]; with_reducible apply wf_parts)
    | (intro (eQ : _ = _); cases eQ)

theorem lhDrive_wf {bs : List Byte} {s : State} (hW : s.Wf) : (lhDrive bs s).Wf := by
  unfold lhDrive
  repeat' first
    | with_reducible assumption
    | with_reducible apply emit_wf
    | split
    | dsimp only
    | (simp only [wf_mk]; with_reducible apply wf_parts)

theorem lhCrcErr_wf {s : State} (hW : s.Wf) : (lhCrcErr s).Wf := by
  unfold lhCrcErr
  repeat' first
    | with_reducible assumption
    | with_reducible apply incCnt_wf
    | with_reducible apply raiseEv_wf
    | split
    | dsimp only
    | (simp only [wf_mk]; with_reducible apply wf_parts)

theorem lhFrame_wf {cmd : Nat} {body : List Byte} {crc : BitVec 16} {answered : Bool} {f : State → State} {s : State}
    (hf : ∀ u : State, u.Wf → (f u).Wf) (hW : s.Wf) : (lhFrame cmd body crc answered f s).Wf := by
  unfold lhFrame
  split
  · exact hW
  · split
    · exact hf s hW
    · exact whenS_wf (fun u hu => lhDrive_wf hu) (lhCrcErr_wf hW)

theorem freeTicket_wf {s : State} (hW : s.Wf) : (freeTicket s).2.Wf := by
  unfold freeTicket
  repeat' first
    | with_reducible assumption
    | with_reducible apply freeValue_wf
    | with_reducible refine freeValue_wfE ?_ (by with_reducible assumption)
    | split
    | dsimp only
    | (simp only [wf_mk]; with_reducible apply wf_parts)

theorem freeTicket_wfE {s : State} {x0} {tW : State} (hW : s.Wf) (eW : freeTicket s = (x0, tW)) : tW.Wf := by
  have hw := freeTicket_wf (s := s) hW
  rw [eW] at hw
  exact hw

theorem withTicket_wf {f : Waiter → State → State} {s : State} (hf : ∀ (w : Waiter) (u : State), u.Wf → (f w u).Wf) (hW : s.Wf) :
    (withTicket f s).Wf := by
  unfold withTicket
  split
  · exact lhDrive_wf (raiseEv_wf (incCnt_wf hW))
  · next e => exact lhDrive_wf (hf _ _ (syncTickets_wf (wf_mk.mpr (wf_parts (freeTicket_wfE hW e)))))

theorem lhHere_wf {write : Bool} {a : Nat} {n : Nat} {bs : List Byte} {s : State} (hW : s.Wf) : (lhHere write a n bs s).Wf := by
  unfold lhHere
  repeat' first
    | with_reducible assumption
    | with_reducible apply accessHere_wf
    | with_reducible apply access_wf
    | with_reducible apply lhDrive_wf
    | with_reducible refine withTicket_wf (fun w u hu => ?_) ?_
    | with_reducible refine accessHere_wfE ?_ (by with_reducible assumption)
    | split
    | dsimp only
    | (simp only [wf_mk]; with_reducible apply wf_parts)

theorem execLhWrite_wf {addr : BitVec 48} {data : List Byte} {crc : BitVec 16} {s : State} (hW : s.Wf) {tW : State} (eW : execLhWrite addr data crc s = .next tW) : tW.Wf := by
  revert eW
  unfold execLhWrite
  repeat' first
    | with_reducible assumption
    | with_reducible apply postedWrite_wf
    | with_reducible refine lhFrame_wf (fun u hu => ?_) ?_
    | (intro (eQ : _ = _); with_reducible refine alive_wf hW ?_ eQ)
    | (intro (eQ : _ = _); with_reducible refine answer_wf ?_ eQ)
    | split
    | dsimp only
    | (simp only [wf_mk]; with_reducible apply wf_parts)
    | (intro (eQ : _ = _); cases eQ)

theorem lhRemoteRead_wf {addr : BitVec 48} {n : Nat} {w : Waiter} {s : State} (hW : s.Wf) : (lhRemoteRead addr n w s).Wf := by
  unfold lhRemoteRead
  repeat' first
    | with_reducible assumption
    | with_reducible apply splitAccess_wf
    | with_reducible apply sendRequest_wf
    | with_reducible refine forEach_wf (fun x u hu => ?_) ?_
    | with_reducible refine splitAccess_wfE ?_ (by with_reducible assumption)
    | split
    | dsimp only
    | (simp only [wf_mk]; with_reducible apply wf_parts)

theorem lhRemoteWrite_wf {addr : BitVec 48} {data : List Byte} {w : Waiter} {s : State} (hW : s.Wf) : (lhRemoteWrite addr data w s).Wf := by
  unfold lhRemoteWrite
  repeat' first
    | with_reducible assumption
    | with_reducible apply endAccess_wf
    | with_reducible apply splitAccess_wf
    | with_reducible apply sendRequest_wf
    | with_reducible refine remoteWrite_wf (fun o a bs u hu => ?_) (fun u hu => ?_) ?_
    | with_reducible refine forEach_wf (fun x u hu => ?_) ?_
    | with_reducible refine splitAccess_wfE ?_ (by with_reducible assumption)
    | split
    | dsimp only
    | (simp only [wf_mk]; with_reducible apply wf_parts)

theorem execLhWriteNp_wf {addr : BitVec 48} {data : List Byte} {crc : BitVec 16} {s : State} (hW : s.Wf) {tW : State} (eW : execLhWriteNp addr data crc s = .next tW) : tW.Wf := by
  revert eW
  unfold execLhWriteNp
  repeat' first
    | with_reducible assumption
    | with_reducible apply lhDrive_wf
    | with_reducible refine lhFrame_wf (fun u hu => ?_) ?_
    | with_reducible refine withTicket_wf (fun w u hu => ?_) ?_
    | with_reducible apply lhHere_wf
    | with_reducible apply lhRemoteWrite_wf
    | (intro (eQ : _ = _); with_reducible refine alive_wf hW ?_ eQ)
    | (intro (eQ : _ = _); with_reducible refine answer_wf ?_ eQ)
    | split
    | dsimp only
    | (simp only [wf_mk]; with_reducible apply wf_parts)
    | (intro (eQ : _ = _); cases eQ)

theorem execLhRead_wf {addr : BitVec 48} {lenM1 : Byte} {crc : BitVec 16} {s : State} (hW : s.Wf) {tW : State} (eW : execLhRead addr lenM1 crc s = .next tW) : tW.Wf := by
  revert eW
  unfold execLhRead
  repeat' first
    | with_reducible assumption
    | with_reducible apply lhDrive_wf
    | with_reducible refine lhFrame_wf (fun u hu => ?_) ?_
    | with_reducible refine withTicket_wf (fun w u hu => ?_) ?_
    | with_reducible apply lhHere_wf
    | with_reducible apply lhRemoteRead_wf
    | (intro (eQ : _ = _); with_reducible refine alive_wf hW ?_ eQ)
    | (intro (eQ : _ = _); with_reducible refine answer_wf ?_ eQ)
    | split
    | dsimp only
    | (simp only [wf_mk]; with_reducible apply wf_parts)
    | (intro (eQ : _ = _); cases eQ)

theorem lhFetch_wf {ticket : Nat} {s : State} (hW : s.Wf) : (lhFetch ticket s).Wf := by
  unfold lhFetch
  repeat' first
    | with_reducible assumption
    | with_reducible apply syncTickets_wf
    | with_reducible apply lhDrive_wf
    | split
    | dsimp only
    | (simp only [wf_mk]; with_reducible apply wf_parts)

theorem execFetch_wf {ticket : BitVec 16} {crc : BitVec 16} {s : State} (hW : s.Wf) {tW : State} (eW : execFetch ticket crc s = .next tW) : tW.Wf := by
  revert eW
  unfold execFetch
  repeat' first
    | with_reducible assumption
    | with_reducible refine lhFrame_wf (fun u hu => ?_) ?_
    | with_reducible apply lhFetch_wf
    | (intro (eQ : _ = _); with_reducible refine alive_wf hW ?_ eQ)
    | (intro (eQ : _ = _); with_reducible refine answer_wf ?_ eQ)
    | split
    | dsimp only
    | (simp only [wf_mk]; with_reducible apply wf_parts)
    | (intro (eQ : _ = _); cases eQ)

theorem lhGuarded_wf {addr : BitVec 48} {value : Nat} {complement : Nat} {s : State} (hW : s.Wf) : (lhGuarded addr value complement s).Wf := by
  unfold lhGuarded
  repeat' first
    | with_reducible assumption
    | with_reducible apply sendPosted_wf
    | with_reducible apply guardedPair_wf
    | with_reducible apply failRemoteGuard_wf
    | with_reducible apply lhDrive_wf
    | split
    | dsimp only
    | (simp only [wf_mk]; with_reducible apply wf_parts)

theorem execLhGuarded_wf {addr : BitVec 48} {value : Word} {complement : Word} {crc : BitVec 16} {s : State} (hW : s.Wf) {tW : State} (eW : execLhGuarded addr value complement crc s = .next tW) : tW.Wf := by
  revert eW
  unfold execLhGuarded
  repeat' first
    | with_reducible assumption
    | with_reducible refine lhFrame_wf (fun u hu => ?_) ?_
    | with_reducible apply lhGuarded_wf
    | (intro (eQ : _ = _); with_reducible refine alive_wf hW ?_ eQ)
    | (intro (eQ : _ = _); with_reducible refine answer_wf ?_ eQ)
    | split
    | dsimp only
    | (simp only [wf_mk]; with_reducible apply wf_parts)
    | (intro (eQ : _ = _); cases eQ)

theorem execLhstat_wf {crc : BitVec 16} {s : State} (hW : s.Wf) {tW : State} (eW : execLhstat crc s = .next tW) : tW.Wf := by
  revert eW
  unfold execLhstat
  repeat' first
    | with_reducible assumption
    | with_reducible apply lhDrive_wf
    | with_reducible refine lhFrame_wf (fun u hu => ?_) ?_
    | (intro (eQ : _ = _); with_reducible refine alive_wf hW ?_ eQ)
    | (intro (eQ : _ = _); with_reducible refine answer_wf ?_ eQ)
    | split
    | dsimp only
    | (simp only [wf_mk]; with_reducible apply wf_parts)
    | (intro (eQ : _ = _); cases eQ)

theorem execFrameErr_wf {s : State} (hW : s.Wf) {tW : State} (eW : execFrameErr s = .next tW) : tW.Wf := by
  revert eW
  unfold execFrameErr
  repeat' first
    | with_reducible assumption
    | with_reducible apply raiseEv_wf
    | with_reducible refine whenS_wf (fun u hu => ?_) ?_
    | (intro (eQ : _ = _); with_reducible refine alive_wf hW ?_ eQ)
    | (intro (eQ : _ = _); with_reducible refine answer_wf ?_ eQ)
    | split
    | dsimp only
    | (simp only [wf_mk]; with_reducible apply wf_parts)
    | (intro (eQ : _ = _); cases eQ)

theorem deliverWrites_wf {p : Nat} {bs : List Byte} {s : State} (hW : s.Wf) : (deliverWrites p bs s).Wf := by
  unfold deliverWrites
  repeat' first
    | with_reducible assumption
    | with_reducible apply freeValue_wf
    | with_reducible apply postedWrite_wf
    | with_reducible refine forEach_wf (fun x u hu => ?_) ?_
    | with_reducible refine freeValue_wfE ?_ (by with_reducible assumption)
    | split
    | dsimp only
    | (simp only [wf_mk]; with_reducible apply wf_parts)

theorem deliverNotice_wf {p : Nat} {reason : Nat} {total : Nat} {s : State} (hW : s.Wf) {tW : State} (eW : deliverNotice p reason total s = some tW) : tW.Wf := by
  revert eW
  unfold deliverNotice
  repeat' first
    | with_reducible assumption
    | with_reducible apply sendNotice_wf
    | with_reducible refine enterNotice_wf ?_ (by with_reducible assumption)
    | split
    | dsimp only
    | (simp only [wf_mk]; with_reducible apply wf_parts)
    | (intro (eQ : _ = _); cases eQ)
    | (intro (eQ : _ = _); with_reducible refine enterNotice_wf ?_ eQ)

theorem partnerDelivery_wf {p : Nat} {s : State} (hW : s.Wf) : (partnerDelivery p s).Wf := by
  unfold partnerDelivery
  dsimp only
  split
  · exact hW
  · split
    · exact hW
    · split
      · exact ownerErr_wf hW
      · split
        · exact hW
        · refine getD_wf hW (fun t e => deliverNotice_wf (wf_mk.mpr (wf_parts (whenS_wf (fun u hu => deliverWrites_wf hu) (dropPacket_wf hW)))) e)

theorem execPartnerDelivery_wf {p : Fin 2048} {s : State} (hW : s.Wf) {tW : State} (eW : execPartnerDelivery p s = .next tW) : tW.Wf := by
  revert eW
  unfold execPartnerDelivery
  repeat' first
    | with_reducible assumption
    | with_reducible apply partnerDelivery_wf
    | (intro (eQ : _ = _); with_reducible refine alive_wf hW ?_ eQ)
    | (intro (eQ : _ = _); with_reducible refine answer_wf ?_ eQ)
    | split
    | dsimp only
    | (simp only [wf_mk]; with_reducible apply wf_parts)
    | (intro (eQ : _ = _); cases eQ)

end Sys2Proof.Machine
end

