-- ==== Sys2Proof/WellFormed.lean ====
section
/-!
DEFINITION. When a command is well formed: its lists have the lengths that the rules give what they stand for. Every other operand is bounded by its
type. A step runs any command; a command that is not well formed stands for nothing that can happen.
-/

namespace Sys2Proof

/-- The data bytes of a received frame: those of its DLC (R286), none for a classical remote frame. -/
def CanFrame.dataLength (f : CanFrame) : Nat :=
  if !f.fdf && f.id.getLsbD 30 then 0
  else if f.dlc.val ≤ 8 then f.dlc.val
  else if f.fdf then ([12, 16, 20, 24, 32, 48, 64] : List Nat).getD (f.dlc.val - 9) 64
  else 8

/-- A received frame has the data that its DLC states, and an 11-bit identifier has bits [28:11] 0 (R286). -/
def CanFrame.wellFormed (f : CanFrame) : Bool :=
  decide (f.data.length = f.dataLength) && (f.id.getLsbD 29 || decide (f.id.toNat / 2 ^ 11 % 2 ^ 18 = 0))

/-- Measurements name every channel of the power die (R333). -/
def PowerMeas.wellFormed (m : PowerMeas) : Bool := decide (m.chans.length = 9)

/-- Measurements name every sensor (R371). -/
def Sense.wellFormed (m : Sense) : Bool := decide (m.temps.length = 9)

/-- Whether a command is well formed: a marker stripe has one marker for each of one to four lanes (R36), a pair link frame its 26 bytes (R153),
a BAR2 write 1 to 512 bytes (R211), a local host write 1 to 256 (R213), an I²C answer the bytes it counts (R216), a register or memory write 1 to
4,096, a DMA return at least one byte within the 4 MB image (R103). -/
def Instr.wellFormed : Instr → Bool
  | .markerStripeReceived _ ms _ _ => !ms.isEmpty && decide (ms.map (·.lane)).Nodup
  | .dmaDataReturn _ _ off data => !data.isEmpty && decide (off + data.length ≤ 2 ^ 22)
  | .pairLinkFrame bytes => bytes.length = 26
  | .pcieBar2Write _ data => !data.isEmpty && decide (data.length ≤ 512)
  | .lhWrite _ data _ => !data.isEmpty && decide (data.length ≤ 256)
  | .lhWriteNp _ data _ => !data.isEmpty && decide (data.length ≤ 256)
  | .i2cDone _ count data => data.length = count.val
  | .canFrameReceived _ frame _ _ => frame.wellFormed
  | .admission meas => meas.wellFormed
  | .bow meas => meas.wellFormed
  | .shed meas => meas.wellFormed
  | .restoration meas => meas.wellFormed
  | .governorDecision sense => sense.wellFormed
  | .registerWrite _ _ data => !data.isEmpty && decide (data.length ≤ 4096)
  | .laneEnable .. | .pllLock .. | .pllUnlock .. | .signalDetect .. | .los .. | .cdrLock .. | .blockReceived .. | .blockLock .. | .blockLockLost ..
  | .hiBer .. | .hiBerClear .. | .markerLockLost .. | .laneMode .. | .prbsLock .. | .prbsLockLost .. | .injectSingle .. | .injectBurst ..
  | .laneCntClr .. | .laneCounterLoRead .. | .cycleBoundary | .galleryStart .. | .galleryEnd .. | .landingStart .. | .landingEnd ..
  | .stagingWrite .. | .treadTrailer .. | .commit .. | .pairDelivery .. | .deadlineCheck .. | .treadSnapshot .. | .dmaTrigger .. | .dmaDone ..
  | .dmaErr .. | .loadBegin .. | .stairIndDataWrite .. | .stairIndDataRead .. | .prepare .. | .prepareDone | .stairAbort .. | .activate ..
  | .cancel .. | .deactivate .. | .cycleLoRead .. | .imgCntClr .. | .arrivalWindowClose .. | .slotTime .. | .quarantine .. | .armOpen .. | .disarm ..
  | .stnCntClr .. | .yield .. | .hostAliveKick .. | .headlessArm .. | .linkReportSend .. | .joinNonceHi .. | .joinResponse | .joinTimeout
  | .joinAdmit .. | .refuse .. | .pcieBar2Read .. | .landingShareSend .. | .request .. | .posted .. | .broadcast | .response | .notice .. | .credit
  | .remoteGuardTimeout | .remoteTimeout .. | .unreachable | .pwePop .. | .noticePop .. | .pwseqLoRead .. | .bridgeCntClr .. | .accRow ..
  | .partnerTransaction .. | .mailboxStatus .. | .mailboxAttention .. | .partnerTimeout .. | .partnerDelivery .. | .lhRead .. | .fetch ..
  | .lhGuarded .. | .lhstat .. | .frameErr | .i2cGo .. | .perst | .pcieHotReset | .pcieLinkUp .. | .pcieLinkDown | .cabOpen .. | .cabPut ..
  | .cabClose .. | .cabAbort .. | .cabGet .. | .cabMark .. | .cabRewind .. | .cabRelease .. | .queueEnable .. | .queueDisable .. | .queueFlush ..
  | .clearBroken .. | .auditWalk | .walkDone | .walkNow .. | .reclaim .. | .mirrorCopy .. | .mirrorCntClr .. | .dramBulkCopy .. | .cabCntClr ..
  | .engineTick .. | .forceSwap .. | .swapReq .. | .swapCancel .. | .engineStart .. | .engineStop .. | .txfData .. | .rxfData .. | .txfFlush ..
  | .rxfFlush .. | .engCntClr .. | .pinmapWrite .. | .vioFault .. | .vioFaultClear .. | .readback .. | .canModeChange .. | .canSync .. | .canStore ..
  | .txbReq .. | .txbCancel .. | .txbUnpark .. | .canAttemptStart .. | .canAttemptEnd .. | .canTtRequest .. | .recover .. | .recoveryDone ..
  | .canCntClr .. | .exchangeNow .. | .resync .. | .tb1Set .. | .todArm .. | .ppsEdge .. | .ppsLost | .tb3Step .. | .compareArm .. | .compareFire ..
  | .ppsOutEnd | .capture .. | .swTrig .. | .capStampRead .. | .tb0LoRead .. | .tbLoRead .. | .fastTrip .. | .curveTrip .. | .soaTrip ..
  | .rampFast .. | .rampDone .. | .rampTimeout .. | .breakerOn .. | .breakerOff .. | .breakerClear .. | .applyCurve .. | .offTimerExpiry ..
  | .autoClear .. | .tripRecord .. | .vrst | .ov .. | .vholdLow .. | .xtaLost | .xtaOk | .xtaSelect .. | .foscTrim .. | .xtbLost | .mainPllUnlock
  | .gateOff .. | .gateOn .. | .gateDone | .gateBusy | .powerGood | .vrailFail | .govCntClr .. | .setAliasWrite .. | .clrAliasWrite ..
  | .tglAliasWrite .. | .unitReset .. | .evtForce .. | .guardedValueWrite .. | .guardTimeout .. | .indDataRead .. | .indDataWrite .. | .denyPop ..
  | .rowSel .. | .rowVal .. | .uidLoRead .. | .keyLoad .. | .unwrap .. | .derive .. | .keyErase .. | .keyLock .. | .readPub .. | .verify ..
  | .cmac .. | .gcmEnc .. | .gcmDec .. | .hash .. | .random .. | .lcNonce .. | .lcTransition .. | .setRingKey .. | .cmdDone | .scrub | .keyService
  | .entropyFail | .entropyOk | .dapAttach | .dapDenied | .fault .. | .fence .. | .fenceCmd .. | .errTest .. | .errTestEnd | .dumpNow .. | .dumpDone
  | .dumpSummary | .msixUnmask .. | .checkpoint .. | .ckptDone .. | .headLoRead .. | .ckptLoRead .. | .expiryLoRead .. | .warmReset ..
  | .ringReset .. | .pinReset | .bor .. | .por .. | .bootDone | .standbyEnter .. | .standby | .standbyExit .. | .beginUpdate .. | .updIndDataWrite ..
  | .blockFromDram .. | .updAbort .. | .updCommit .. | .commitDone .. | .confirm .. | .confirmWindowExpiry | .saveConfig .. | .saveNodeRecord ..
  | .clearConfig .. | .dramScrub .. | .dramCntClr .. | .flashCntClr .. | .parkEntryDone .. | .injectPeriodic .. | .canRxError .. | .xtbReturn
  | .mainPllLock | .vholdFall | .resetRelease .. | .perstRelease | .registerRead .. | .dapDetach => true

end Sys2Proof
end

