-- ==== Sys2Proof/Tests/Slice0.lean ====
section
/-!
SUPPORT. Tests: the checks of well-formedness refuse an ill-formed term each, and for every statement's hypotheses a concrete state and
operands that meet them.
-/

namespace Sys2Proof.Tests

open Sys2Proof Sys2Proof.Machine

/- Each theorem in turn: evaluations by the kernel would otherwise all wait at once. -/
set_option Elab.async false

/-! ### Small states -/

/-- Software on the host's PCIe link. -/
def host : Master := { cls := 0, ifc := 2, node := 0 }

/-- What makes an access permitted, as one decidable condition. -/
def allowed (s : State) (m : Master) (k : AccessKind) (p off : Nat) : Bool :=
  decide (s.boot.holding = none ∧ dapBlocked s m = false ∧ decide_ s m k (p * 4096 + off) 4 = .ok ∧ guardOf s p m.cls.val = none ∧
    gateHolds s m (decide (k ≠ .read)) (p * 4096 + off) 4 = false)

theorem granted {s : State} {m : Master} {k : AccessKind} {p off : Nat} (h : allowed s m k p off = true) : Granted s m k p off :=
  have h := of_decide_eq_true h
  ⟨h.1, h.2.1, h.2.2.1, h.2.2.2.1, h.2.2.2.2⟩

/-- That no larger reset is asserted, as a decidable condition. -/
theorem running {s : State} (h : s.boot.holding = none) : Running s := h

/-- Memory with the given bytes at the given addresses. -/
def cells (xs : List (Nat × Nat)) : Memory := xs.map fun e => (e.1, BitVec.ofNat 8 e.2)

/-- A Staircase of one flight and two treads of 8 bytes: tread 0 of node 3, tread 1 of node 1. -/
def bank : Memory := cells ([
  (0x28, 4), (0x29, 4), (0x2A, 1), (0x2B, 1), (0x2C, 3), (0x34, 208), (0x35, 40), (0x39, 4), (0x20E1, 48), (0x20E5, 4), (0x28D0, 6),
  (0x28E0, 129), (0x28E5, 1), (0x28E8, 32), (0x28EC, 1), (0x28F0, 130), (0x28F4, 32), (0x28F5, 1), (0x28F8, 20), (0x28FC, 5),
  (0x2900, 131), (0x2904, 32), (0x2905, 1), (0x2908, 20), (0x290C, 5), (0x2910, 132), (0x2914, 64), (0x2915, 1), (0x2918, 4),
  (0x291C, 2), (0x2920, 133), (0x2924, 80), (0x2925, 1), (0x2928, 8), (0x292C, 2), (0x2930, 134), (0x2932, 255), (0x2934, 88), (0x2935, 1), (0x2938, 4), (0x293C, 4),
  (0x29D2, 2), (0x29F0, 25), (0x29F9, 8),
  (0x29FC, 2), (0x29FE, 16), (0x2A00, 7), (0x2A10, 3), (0x2A12, 1), (0x2A20, 3), (0x2A21, 4), (0x2A24, 1), (0x2A25, 4), (0x2A28, 1), (0x2A29, 2),
  (0x2A2A, 3), (0x2A2B, 4), (0x3002, 1)] ++ [
  (0x3004, 5), (0x3020, 1), (0x3025, 1), (0x3028, 32), (0x302C, 1), (0x3030, 2), (0x3034, 32), (0x3035, 1), (0x3038, 32),
  (0x303C, 2), (0x3040, 3), (0x3044, 64), (0x3045, 1), (0x3048, 16), (0x304C, 2), (0x3050, 6), (0x3054, 96), (0x3055, 1),
  (0x3058, 64), (0x305C, 2), (0x3060, 7), (0x3064, 160), (0x3065, 1), (0x3068, 8), (0x306C, 1),
  (0x3125, 56), (0x3129, 1), (0x312C, 64), (0x312D, 156), (0x3130, 1), (0x3132, 1), (0x3135, 56),
  (0x3139, 2), (0x3140, 32), (0x3141, 78), (0x3144, 232), (0x3145, 3), (0x3146, 232), (0x3147, 3), (0x3148, 32), (0x3149, 78),
  (0x314C, 232), (0x314D, 3), (0x314E, 232), (0x314F, 3), (0x3165, 1), (0x3168, 16), (0x316C, 64), (0x3170, 100), (0x3180, 1),
  (0x3185, 3), (0x3188, 16), (0x318C, 128), (0x3190, 200), (0x31A0, 100), (0x31A4, 255), (0x31A5, 1)])

/-- A port open and up. -/
def portUp (p : Side) (s : State) : State := setFlag (Page.lane p) Reg.lanePortStatusLinkUp true (setPortOpen p true s)

/-- Node 1 in the data path of the ring under the Staircase above, 20 µs after the boundary of cycle 1,000. -/
def ring : State :=
  let s := { State.reset with
    key := { State.reset.key with lc := 3 }, stair := { State.reset.stair with active := bank }
    time := { State.reset.time with tb0 := 125020000 } }
  s |> setR Page.hub Reg.hubNodeId 1 |> setR Page.stair Reg.stairStatusActState 1 |> portUp .east |> portUp .west
    |> setR (Page.stn .east) Reg.stnStatusRole roleForward |> setR (Page.stn .west) Reg.stnStatusRole roleForward

/-- A landing message header (R183): class, destination, source, tag, data blocks, stream and OP. -/
def header (cls dest src tag len stream op : Nat) : Nat :=
  cls + dest * 2 ^ 4 + src * 2 ^ 12 + tag * 2 ^ 24 + len * 2 ^ 34 + stream * 2 ^ 40 + op * 2 ^ 44

/-- DRAM open to every class. -/
def openDram (s : State) : State := setR Page.acc Reg.accDramDefault 0x3FFFFFFF s

/-- An AES key that every class may use, in a slot. -/
def keyed (n : Nat) (s : State) : State := setDrawer n { material := List.replicate 64 0, attr := 0x7FFFEF32, tag := [], st := slotValid } s

def laneIn (st : Nat) : State := setLaneState .east 3 st State.reset

/-- The hypotheses of LaneLocksFollowTheReceiver are met. -/
theorem test_lane_locks_follow_the_receiver_is_met :
    (Running (laneIn laneTraining) ∧ laneStateOf (laneIn laneTraining) .east 3 ≠ laneDisabled) ∧
    (Running (laneIn laneDisabled) ∧ laneStateOf (laneIn laneDisabled) .east 3 = laneDisabled) := by
  and_intros <;> first | decide +kernel | exact running (by decide +kernel)

def laneOn (st : Nat) : State :=
  State.reset |> setFlag (Page.lane .west) Reg.lanePortCfgEnable true |> setFlag (Page.lane .west) (Reg.laneLLctrlTxEn 3) true
    |> setLaneState .west 3 st |> setLevel Page.clk Ev.clkXtbLost false

/-- The hypotheses of LanePllAndEnable are met. -/
theorem test_lane_pll_and_enable_is_met :
    (Running (laneOn laneActive) ∧ laneEnabled (laneOn laneActive) .west 3 = true) ∧
    laneEnabled (setFlag (Page.lane .west) Reg.lanePortCfgEnable false (laneOn laneActive)) .west 3 = false ∧
    (laneStateOf (laneOn laneTest) .west 3 ≠ laneDisabled ∧ laneStateOf (laneOn laneTest) .west 3 ≤ laneTest ∧ (laneStateOf (laneOn laneTest) .west 3 = laneDeep → (laneOf (laneOn laneTest) .west 3).exitReq = true) ∧ levelOn (laneOn laneTest) Page.clk Ev.clkXtbLost = false) ∧
    laneStateOf (laneOn laneDisabled) .west 3 = laneDisabled ∧
    (laneStateOf (laneOn laneDeep) .west 3 = laneDeep ∧ (laneOf (laneOn laneDeep) .west 3).exitReq = false) ∧
    levelOn (setLevel Page.clk Ev.clkXtbLost true (laneOn laneActive)) Page.clk Ev.clkXtbLost = true ∧
    (linkUp (laneOn laneActive) .west = false ∧ (portOf (laneOn laneActive) .west).lateDown = false ∧ (portOf (laneOn laneActive) .west).bringupFrom = none) := by
  and_intros <;> first | decide +kernel | exact running (by decide +kernel)

def laneUsed : State := setFlag (Page.lane .east) (Reg.laneLLstatusInWidth 3) true State.reset

/-- The hypotheses of LaneLossTakesTheLinkDown are met. -/
theorem test_lane_loss_takes_the_link_down_is_met :
    (Running laneUsed ∧ inWidth laneUsed .east 3 = true) ∧
    inWidth State.reset .west 3 = false := by
  and_intros <;> first | decide +kernel | exact running (by decide +kernel)

def laneParks (st : Nat) : State := setLane .west 3 { laneReset with parkTo := some st } State.reset
def laneInjects (period : Nat) : State :=
  State.reset |> setR (Page.lane .east) (Reg.laneLInjCtrlPos 3) 65 |> setR (Page.lane .east) (Reg.laneLInjPeriodN 3) period

/-- The hypotheses of LaneParkAndInjection are met. -/
theorem test_lane_park_and_injection_is_met :
    (laneOf State.reset .west 3).parkTo = none ∧
    (Running (laneParks laneQuiet) ∧ (laneOf (laneParks laneQuiet) .west 3).parkTo = some laneQuiet) ∧
    (Running (laneParks laneDeep) ∧ (laneOf (laneParks laneDeep) .west 3).parkTo = some laneDeep) ∧
    (Running (laneInjects 1) ∧ (laneOf (laneInjects 1) .east 3).single = none ∧ (laneOf (laneInjects 1) .east 3).burst = none ∧ getR (laneInjects 1) (Page.lane .east) (Reg.laneLInjCtrlPos 3) ≤ 65 ∧ getR (laneInjects 1) (Page.lane .east) (Reg.laneLInjPeriodN 3) = 1) ∧
    (Granted (laneInjects 0) host .write (Page.lane .east) (0x94 + 0x40 * 3) ∧ getR (laneInjects 0) (Page.lane .east) (Reg.laneLInjPeriodN 3) = 0 ∧ (laneOf (laneInjects 0) .east 3).single = none ∧ (laneOf (laneInjects 0) .east 3).burst = none) := by
  and_intros <;> first | decide +kernel | exact granted (by decide +kernel) | exact running (by decide +kernel)

/-- The hypotheses of LaneRegisterCommands are met. -/
theorem test_lane_register_commands_is_met :
    (Granted State.reset host .guarded (Page.lane .west) (0x300 + 4 * 3) ∧ (3 : Fin 4) ≠ 0) ∧
    Granted State.reset host .write (Page.lane .west) 0x40 ∧
    Granted State.reset host .read (Page.lane .west) (LaneCounter.off .bipErr + 0x40 * 3) := by
  and_intros <;> first | decide +kernel | exact granted (by decide +kernel)

def laneLocked : State :=
  State.reset |> setFlag (Page.lane .east) (Reg.laneLLstatusBlockLock 0) true |> setLaneState .east 0 laneActive
def laneRuns : State :=
  laneLocked |> setFlag (Page.lane .east) Reg.lanePortStatusLinkUp true |> setFlag (Page.lane .east) (Reg.laneLLstatusInWidth 0) true
def laneTests (mode pat : Nat) : State :=
  State.reset |> setLaneState .east 0 laneTest |> setR (Page.lane .east) (Reg.laneLLctrlMode 0) mode
    |> setR (Page.lane .east) (Reg.laneLPrbsCtrlRxPat 0) pat |> setFlag (Page.lane .east) (Reg.laneLLstatusPrbsLock 0) true
def marker (payload : BitVec 64) : MarkerRx := { lane := 0, payload := payload, delay := 0 }
def laneWaits : State := setLane .east 0 { laneOf laneLocked .east 0 with lastSeq := some 0 } laneLocked

/-- The hypotheses of LaneReception are met. -/
theorem test_lane_reception_is_met :
    (Running (laneIn laneDisabled) ∧ laneStateOf (laneIn laneDisabled) .east 3 = laneDisabled) ∧
    (Running laneLocked ∧ laneStateOf laneLocked .east 0 ≠ laneDisabled ∧ laneStateOf laneLocked .east 0 ≠ laneTest ∧ (linkUp laneLocked .east && inWidth laneLocked .east 0) = false) ∧
    (laneStateOf laneRuns .east 0 ≠ laneDisabled ∧ laneStateOf laneRuns .east 0 ≠ laneTest ∧ linkUp laneRuns .east = true ∧ inWidth laneRuns .east 0 = true) ∧
    (laneStateOf (laneTests modePrbs 1) .east 0 = laneTest ∧ getR (laneTests modePrbs 1) (Page.lane .east) (Reg.laneLLctrlMode 0) = modePrbs ∧ (prbsTaps (getR (laneTests modePrbs 1) (Page.lane .east) (Reg.laneLPrbsCtrlRxPat 0))).isSome = true ∧ laneFlag (laneTests modePrbs 1) .east (Reg.laneLLstatusPrbsLock 0) = true) ∧
    (laneStateOf (laneTests modeFarLb 0) .east 0 = laneTest ∧ getR (laneTests modeFarLb 0) (Page.lane .east) (Reg.laneLLctrlMode 0) = modeFarLb ∧ (laneOf (laneTests modeFarLb 0) .east 0).single = none ∧ (laneOf (laneTests modeFarLb 0) .east 0).burst = none ∧ getR (laneTests modeFarLb 0) (Page.lane .east) (Reg.laneLInjPeriodN 0) = 0) ∧
    (laneStateOf (laneTests modeNearLb 0) .east 0 = laneTest ∧ getR (laneTests modeNearLb 0) (Page.lane .east) (Reg.laneLLctrlMode 0) = modeNearLb) ∧
    (Running laneLocked ∧ stripeMarkers laneLocked .east [marker 0x10C3] = [marker 0x10C3] ∧ mismatched laneLocked .east (marker 0x10C3) = false) ∧
    stripeMarkers State.reset .east [marker 0x10C3] = [] ∧
    (marker 0x00C3 ∈ stripeMarkers laneRuns .east [marker 0x00C3] ∧ mismatched laneRuns .east (marker 0x00C3) = true ∧ linkUp laneRuns .east = true) ∧
    (stripeMarkers laneWaits .east [marker 0x110C3] = [marker 0x110C3] ∧ (marker 0x110C3).lane = 0 ∧ mismatched laneWaits .east (marker 0x110C3) = false ∧ markerWidth (marker 0x110C3).payload.toNat = 0 ∧ markerInSeq (laneOf laneWaits .east 0) (marker 0x110C3).payload.toNat = true ∧ laneFlag laneWaits .east (Reg.laneLLstatusHiBer 0) = false ∧ linkUp laneWaits .east = false ∧ pageFenced laneWaits (Page.lane .east) = false) := by
  and_intros <;> first | decide +kernel | exact running (by decide +kernel)

def pendingIn (st : Nat) : State := { setPend st State.reset with stair := { State.reset.stair with pend := bank, highOff := some 0x3190 } }

/-- The hypotheses of StaircaseLoading are met. -/
theorem test_staircase_loading_is_met :
    (Granted (pendingIn pendFailed) host .guarded Page.stair 0x300 ∧ (pendingIn pendFailed).stair.deact = false ∧ pendState (pendingIn pendFailed) = pendFailed) ∧
    (Granted (pendingIn pendLoading) host .guarded Page.stair 0x300 ∧ (pendingIn pendLoading).stair.deact = false ∧ pendState (pendingIn pendLoading) = pendLoading) ∧
    (Granted (pendingIn pendPreparing) host .guarded Page.stair 0x300 ∧ (pendingIn pendPreparing).stair.deact = false ∧ pendState (pendingIn pendPreparing) = pendPreparing) ∧
    (Granted (setR Page.stair Reg.comIndAddr 0x3194 (pendingIn pendLoading)) host .write Page.stair 0x34 ∧ indAddr (setR Page.stair Reg.comIndAddr 0x3194 (pendingIn pendLoading)) host Page.stair = (0x3194 : Word).toNat ∧ pendState (setR Page.stair Reg.comIndAddr 0x3194 (pendingIn pendLoading)) = pendLoading ∧ (0x3194 : Word).toNat % 4 = 0 ∧ (∀ h, (pendingIn pendLoading).stair.highOff = some h → h < (0x3194 : Word).toNat)) ∧
    (Granted (setR Page.stair Reg.comIndAddr 0x3192 (pendingIn pendReady)) host .read Page.stair 0x34 ∧ indAddr (setR Page.stair Reg.comIndAddr 0x3192 (pendingIn pendReady)) host Page.stair = (0x3192 : Word).toNat) ∧
    (Granted (pendingIn pendEmpty) host .guarded Page.stair 0x300 ∧ pendState (pendingIn pendEmpty) ≠ pendLoading ∧ pendState (pendingIn pendEmpty) ≠ pendPreparing) ∧
    (Granted (setR Page.stair Reg.comIndAddr 0x3190 (pendingIn pendLoading)) host .write Page.stair 0x34 ∧ indAddr (setR Page.stair Reg.comIndAddr 0x3190 (pendingIn pendLoading)) host Page.stair = (0x3190 : Word).toNat ∧ (pendingIn pendLoading).stair.highOff = some 0x3190 ∧ (0x3190 : Word).toNat ≤ 0x3190) ∧
    (Running (pendingIn pendPreparing) ∧ pendState (pendingIn pendPreparing) = pendPreparing ∧ prepareCheck (pendingIn pendPreparing).stair.pend (nodeId (pendingIn pendPreparing)) ≠ none) ∧
    pendState (pendingIn pendReady) ≠ pendPreparing := by
  and_intros <;> first | decide +kernel | exact fun _ e => by cases e; decide | exact granted (by decide +kernel) | exact running (by decide +kernel)

def deactivating : State := { ring with stair := { ring.stair with deact := true } }
def scheduling (cycle : Nat) : State :=
  { ring with stair := { ring.stair with pend := bank } } |> setPend pendReady |> setR Page.stair Reg.stairActCycleLo cycle
    |> setR Page.stair Reg.stairActHashChk (imgHash bank)

/-- The hypotheses of StaircaseScheduling are met. -/
theorem test_staircase_scheduling_is_met :
    (Granted (scheduling 1002) host .guarded Page.stair 0x300 ∧ (scheduling 1002).stair.deact = false ∧ activateRefusal (scheduling 1002) = none ∧ pendState (scheduling 1002) = pendReady ∧ staircaseActive (scheduling 1002) = true ∧ (scheduling 1002).stair.sched = none) ∧
    (Granted (scheduling 1001) host .guarded Page.stair 0x300 ∧ (scheduling 1001).stair.deact = false ∧ activateRefusal (scheduling 1001) = some errLate) ∧
    deactivating.stair.deact = true ∧
    ((pendingIn pendLoading).stair.deact = false ∧ pendState (pendingIn pendLoading) ≠ pendReady ∧ staircaseActive (pendingIn pendLoading) = false) := by
  and_intros <;> first | decide +kernel | exact granted (by decide +kernel)

def gallery (mode : RxMode) : RxGallery :=
  { cycle := 1000, flight := 0, mode := mode, pos := 15, run := 0, failed := [], regionFailed := false, ended := false, region := [], writes := none }
def inGallery (g : RxGallery) : State := setStation .east { ring.stnE with rx := some g, pendingCycle := 1001, sending := true, sendCycle := 1000 } ring
def receiving (mode : RxMode) : State := inGallery (gallery mode)
def receivingAt (pos : Nat) : State := inGallery { gallery .forward with pos := pos }
def starting : State := setStation .east { ring.stnE with pendingCycle := 1000 } ring

/-- The hypotheses of StationReception are met. -/
theorem test_station_reception_is_met :
    (Running State.reset ∧ staircaseActs State.reset = false ∧ State.reset.stair.actCycle ≤ nearestCycle (cycleNow State.reset) (gsCycle24 (5 : BitVec 64).toNat) ∧ pageFenced State.reset (Page.stn .west) = false) ∧
    (Running starting ∧ staircaseActs starting = true ∧ gsWest (0x3E8000 : BitVec 64).toNat = dirWest .east ∧ (stationOf starting .east).pendingCycle = nearestCycle (cycleNow starting) (gsCycle24 (0x3E8000 : BitVec 64).toNat) ∧ (stationOf starting .east).rxFrom ≤ (stationOf starting .east).pendingCycle ∧ starting.stair.actCycle ≤ (stationOf starting .east).pendingCycle ∧ forwardsRole (roleOf starting .east) = true ∧ portOpenUp starting (rxPort .east) = true ∧ sendsCycle starting .east 1000 = true ∧ sinceBoundary starting (stationOf starting .east).pendingCycle ≤ (expectNs starting .east (stationOf starting .east).pendingCycle + lateNs starting .east (stationOf starting .east).pendingCycle : Nat)) ∧
    gsWest (0x3E8000 : BitVec 64).toNat ≠ dirWest .west ∧
    (nearestCycle (cycleNow starting) (gsCycle24 (0x3E7000 : BitVec 64).toNat) < (stationOf starting .east).pendingCycle ∧ starting.stair.actCycle ≤ nearestCycle (cycleNow starting) (gsCycle24 (0x3E7000 : BitVec 64).toNat)) ∧
    (Running (receivingAt 16) ∧ (stationOf (receivingAt 16) .east).rx = some { gallery .forward with pos := 16 } ∧ hasLayout (receivingAt 16) { gallery .forward with pos := 16 } = true ∧ relaysOn (receivingAt 16) .east { gallery .forward with pos := 16 } = true ∧ .idleStream ∉ (stationOf (receivingAt 16) .east).out ∧ ((layoutPositions (bankFor (receivingAt 16) 1000) 0 (dirWest .east)).find? fun pe => pe.2 = .fin).map (·.1 + 1) = some 16) ∧
    (readBank (receivingAt 6) { gallery .forward with pos := 6 } = some bank ∧ regionStart bank 0 (dirWest .east) 6 = some (0, 2)) ∧
    readBank (inGallery { gallery .unread with pos := 6 }) { gallery .unread with pos := 6 } = none ∧
    (hasLayout (receiving .forward) (gallery .forward) = true ∧ regionStart (bankFor (receiving .forward) 1000) 0 (dirWest .east) (gallery .forward).pos = none ∧ relaysOn (receiving .forward) .east (gallery .forward) = true ∧ regionLast (bankFor (receiving .forward) 1000) 0 (dirWest .east) (gallery .forward).pos = some 0) ∧
    regionLast (bankFor (receivingAt 16) 1000) 0 (dirWest .east) 16 = none ∧
    (stationOf ring .east).rx = none := by
  and_intros <;> first | decide +kernel | exact running (by decide +kernel)

def trailerOf (crc : Nat) : BitVec 64 := BitVec.ofNat 64 (crc * 2 ^ 32 + 1000 * 2 ^ 12 + 3 * 2 ^ 4)
def oneByte : List Byte := [0xA5, 0, 0, 0, 0, 0, 0, 0]
def copied : State :=
  setStation .east { (receiving .forward).stnE with copy := some { tread := 0, payload := oneByte, staging := true, preloads := [] } } (receiving .forward)
def tagged : State := { copied with image := { copied.image with tags := [(tagKey copied 1000 0, 1000)] } }
def retained : State := { receiving .forward with image := { (receiving .forward).image with stagingBy := [0] } }
def gated : State := setStation .west { ring.stnW with gate := [{ tread := 0, flight := 0, cycle := 1000, tag := 1000, crc := 0, payload := oneByte, preloads := [], prev := none }] } ring

/-- The hypotheses of StationTreads are met. -/
theorem test_station_treads_is_met :
    (Running (receiving .forward) ∧ (stationOf (receiving .forward) .east).rx = some (gallery .forward) ∧ hasLayout (receiving .forward) (gallery .forward) = true ∧ committedSince (receiving .forward) (0 : BitVec 16).toNat (gallery .forward).cycle = false ∧ (0 : BitVec 16).toNat ∉ (receiving .forward).image.stagingBy) ∧
    (Running copied ∧ (stationOf copied .east).rx = some (gallery .forward) ∧ hasLayout copied (gallery .forward) = true ∧ pageFenced copied (Page.stn .east) = false ∧ receivedCopy copied .east (0 : BitVec 16).toNat (treadBytes (bankFor copied (gallery .forward).cycle) (gallery .forward).flight (0 : BitVec 16).toNat) = (oneByte, []) ∧ classifyTrailer ((gallery .forward).failed.contains (0 : BitVec 16).toNat) oneByte (trailerOf (crc32c oneByte)).toNat = .good ∧ trailerWriter (trailerOf (crc32c oneByte)).toNat = treadWriter (bankFor copied (gallery .forward).cycle) (gallery .forward).flight (0 : BitVec 16).toNat ∧ tagOk (trailerThrough (trailerOf (crc32c oneByte)).toNat) (trailerTag (trailerOf (crc32c oneByte)).toNat) (gallery .forward).cycle = true ∧ trailerVoid (trailerOf (crc32c oneByte)).toNat = false ∧ tagNewer (tagDistance copied (gallery .forward).cycle (0 : BitVec 16).toNat (trailerTag (trailerOf (crc32c oneByte)).toNat)) = true ∧ (stationOf copied .east).gate.length < 2 ∧ readsOf (flightActions (bankFor copied (gallery .forward).cycle) (nodeId copied) (gallery .forward).flight) (0 : BitVec 16).toNat ≠ [] ∧ classifyTrailer ((gallery .forward).failed.contains (0 : BitVec 16).toNat) oneByte (trailerOf (stomp (crc32c oneByte))).toNat = .stomped) ∧
    tagDistance tagged (gallery .forward).cycle (0 : BitVec 16).toNat (trailerTag (trailerOf (crc32c oneByte)).toNat) = some 0 ∧
    classifyTrailer (({ gallery .forward with failed := [0] } : RxGallery).failed.contains (0 : BitVec 16).toNat) oneByte (trailerOf (crc32c oneByte)).toNat = .localErr ∧
    ((0 : BitVec 16).toNat ∈ retained.image.stagingBy ∧ (stationOf retained .east).copy = none) ∧
    ((stationOf copied .east).copy = some { tread := 0, payload := oneByte, staging := true, preloads := [] } ∧ (255 : Fin 256) ≠ 0) ∧
    (stationOf ring .west).gate = [] ∧
    (Running gated ∧ (stationOf gated .west).gate ≠ [] ∧ executes gated 1000 = true ∧ commitFenced gated = false) ∧
    commitFenced (setFlag Page.img Reg.comFenceFenced true gated) = true := by
  and_intros <;> first | decide +kernel | exact running (by decide +kernel)

def waiting : PairWait := { index := 0, flight := 0, cycle := 1000, tag := 1000, data := oneByte }
def delivering : State := { ring with image := { ring.image with pairWaits := [waiting] } }
def atDeadline : State := { ring with time := { ring.time with tb0 := 125041000 } }
def snapped : State := 
  { ring with image := { ring.image with snaps := [(snapKey 1 1000, { cycle := 1000, payload := oneByte, void := false })] } }

/-- The hypotheses of TreadTiming are met. -/
theorem test_tread_timing_is_met :
    (Running ring ∧ dueGallery ring (1 : BitVec 16).toNat = some (1000, 0) ∧ executes ring 1000 = true ∧ ownsTread (bankFor ring 1000) (nodeId ring) 0 (1 : BitVec 16).toNat = true) ∧
    dueGallery snapped (1 : BitVec 16).toNat = none ∧
    (dueGallery ring (0 : BitVec 16).toNat = some (1000, 0) ∧ ownsTread (bankFor ring 1000) (nodeId ring) 0 (0 : BitVec 16).toNat = false) ∧
    (Running (setFlag Page.img Reg.comFenceFenced true ring) ∧ commitFenced (setFlag Page.img Reg.comFenceFenced true ring) = true) ∧
    (Running atDeadline ∧ (flightActions (bankFor atDeadline (1000 : BitVec 48).toNat) (nodeId atDeadline) (0 : Fin 8))[0]? = some (actionAt bank 0x3120) ∧ executes atDeadline (1000 : BitVec 48).toNat = true ∧ checksFlight atDeadline (1000 : BitVec 48).toNat (0 : Fin 8) = true ∧ (actionAt bank 0x3120).write = false ∧ (actionAt bank 0x3120).deadline ≠ 0 ∧ (actionAt bank 0x3120).activeIn (1000 : BitVec 48).toNat = true ∧ commitFenced atDeadline = false ∧ atDeadline.image.pairWaits = [] ∧ ((actionAt bank 0x3120).tread, (1000 : BitVec 48).toNat) ∉ atDeadline.image.commits ∧ ((actionAt bank 0x3120).tread, (1000 : BitVec 48).toNat) ∉ atDeadline.image.voids ∧ atDeadline.stair.actCycle ≤ (1000 : BitVec 48).toNat) ∧
    ((flightActions (bankFor ring (1000 : BitVec 48).toNat) (nodeId ring) (0 : Fin 8))[1]? = some (actionAt bank 0x3130) ∧ (actionAt bank 0x3130).write = true) ∧
    (delivering.image.pairWaits.filter (fun w => w.index = 0 && w.cycle = (1000 : BitVec 48).toNat) = [waiting] ∧ (flightActions (bankFor delivering waiting.cycle) (nodeId delivering) waiting.flight)[0]? = some (actionAt bank 0x3120)) ∧
    ring.image.pairWaits.filter (fun w => w.index = 0 && w.cycle = (1000 : BitVec 48).toNat) = [] := by
  and_intros <;> first | decide +kernel | exact running (by decide +kernel)

def deaf : State := setFlag (Page.lane .east) Reg.lanePortStatusLinkUp false ring
def completing : State := setR (Page.stn .west) Reg.stnStatusRole roleCompleter ring

/-- The hypotheses of StationCompletions are met. -/
theorem test_station_completions_is_met :
    (Running ring ∧ staircaseActs ring = true ∧ forwardsRole (roleOf ring .west) = true ∧ portOpenUp ring (rxPort .west) = true ∧ sendsCycle ring .west (stationOf ring .west).pendingCycle = true) ∧
    (Running deaf ∧ staircaseActs deaf = true ∧ forwardsRole (roleOf deaf .west) = true ∧ portOpenUp deaf (rxPort .west) = false) ∧
    (Running completing ∧ staircaseActs completing = true ∧ roleOf completing .west = roleCompleter) ∧
    staircaseActs State.reset = false := by
  and_intros <;> first | decide +kernel | exact running (by decide +kernel)

/-- The hypotheses of StationRegisterCommands are met. -/
theorem test_station_register_commands_is_met :
    (Granted (setR (Page.stn .west) Reg.stnOpenCycleLo 1002 ring) host .guarded (Page.stn .west) 0x308 ∧ cycleNow (setR (Page.stn .west) Reg.stnOpenCycleLo 1002 ring) + 2 ≤ openCycle (setR (Page.stn .west) Reg.stnOpenCycleLo 1002 ring) .west) ∧
    (Granted (setR (Page.stn .west) Reg.stnOpenCycleLo 1001 ring) host .guarded (Page.stn .west) 0x308 ∧ openCycle (setR (Page.stn .west) Reg.stnOpenCycleLo 1001 ring) .west < cycleNow (setR (Page.stn .west) Reg.stnOpenCycleLo 1001 ring) + 2) := by
  and_intros <;> first | decide +kernel | exact granted (by decide +kernel)

def headHub : State :=
  { ring with image := { ring.image with dma := [(1000, { flight := 0, started := [1], flags := 0, recorded := false })] } }
    |> setR Page.img Reg.imgHostBaseALo 0x1000 |> setR Page.img Reg.imgHostBaseBLo 0x2000
    |> setFlag Page.img Reg.imgCfgDmaEn true |> setFlag Page.pcie Reg.pcieLinkUp true |> setFlag Page.pcie Reg.pcieLinkBme true
def nextCycle : State := { headHub with time := { headHub.time with tb0 := 125130000 } }

/-- The hypotheses of HostImageDma are met. -/
theorem test_host_image_dma_is_met :
    (Running headHub ∧ dmaEnabled headHub = true ∧ hostUnset headHub = false ∧ (dmaDescs headHub (cycleNow headHub) (dmaRun headHub (cycleNow headHub)).flight).find? (fun e => e.1 = 0) = some (0, { fromHost := false, img := 0x100, len := 16, hostOff := 0x40, trigger := 100, div := 0, phase := 0 }) ∧ 0 ∉ (dmaRun headHub (cycleNow headHub)).started ∧ positionPassed headHub (cycleNow headHub) (dmaRun headHub (cycleNow headHub)).flight 100 = true) ∧
    (Running headHub ∧ (dmaDescs headHub 1000 (dmaRun headHub 1000).flight).find? (fun e => e.1 = 1) = some (1, { fromHost := true, img := 0x300, len := 16, hostOff := 0x80, trigger := 200, div := 0, phase := 0 }) ∧ 1 ∈ (dmaRun headHub 1000).started ∧ dmaEnabled headHub = true ∧ hostUnset headHub = false) ∧
    (Running nextCycle ∧ storeFind 1000 nextCycle.image.dma = some { flight := 0, started := [1], flags := 0, recorded := false } ∧ dmaEnabled nextCycle = true ∧ hostUnset nextCycle = false ∧ dmaComplete nextCycle 1000 { flight := 0, started := [1], flags := 0, recorded := false } = true ∧ 1 ∈ ({ flight := 0, started := [1], flags := 0, recorded := false } : DmaRun).started) ∧
    dmaEnabled ring = false ∧
    (Running { headHub with stair := { headHub.stair with hostBufRaised := false } } ∧ hostUnset (setR Page.img Reg.imgHostBaseALo 0 headHub) = true ∧ dmaEnabled (setR Page.img Reg.imgHostBaseALo 0 headHub) = true) := by
  and_intros <;> first | decide +kernel | exact running (by decide +kernel)

def pairBank : Memory := memPutNat (memPutNat bank 0x2C 1 1) 0x2D 1 3
def pairHub : State :=
  { ring with stair := { ring.stair with active := pairBank } } |> setR Page.duplex Reg.duplexStatusPairRole pairHolder
    |> setFlag Page.duplex Reg.duplexStatusPartnerEligible true
def frameBody : List Byte := [0x51, 3, 0, 0, 0xE8, 3, 0, 0] ++ List.replicate 16 0
def viewFrame : List Byte := frameBody ++ leBytes 2 (crc16 frameBody)
def spoilt : List Byte := frameBody ++ leBytes 2 (crc16 frameBody ^^^ 1)

/-- The hypotheses of PairLink are met. -/
theorem test_pair_link_is_met :
    (Running pairHub ∧ viewFrame.length = 26 ∧ leNat (viewFrame.drop 24) = crc16 (viewFrame.take 24) ∧ ownBank pairHub = some pairBank ∧ pairIn pairBank (nodeId pairHub) = true ∧ (viewFrame.getD 1 0).toNat = partnerIn pairBank (nodeId pairHub) ∧ leNat ((viewFrame.drop 4).take 3) = cycleNow pairHub % 2 ^ 24 ∧ (parseView (leNat ((viewFrame.drop 8).take 16))).hash16 = ownHash16 pairHub) ∧
    (Running pairHub ∧ leNat (spoilt.drop 24) ≠ crc16 (spoilt.take 24)) ∧
    (Granted pairHub host .guarded Page.duplex 0x300 ∧ flag pairHub Page.duplex Reg.duplexStatusPartnerEligible = true ∧ pairRole pairHub = pairHolder) ∧
    (Granted ring host .guarded Page.duplex 0x300 ∧ flag ring Page.duplex Reg.duplexStatusPartnerEligible = false) ∧
    Granted pairHub host .write Page.duplex 0x68 := by
  and_intros <;> first | decide +kernel | exact granted (by decide +kernel) | exact running (by decide +kernel)

def ripe : State :=
  let s := { ring with portW := { ring.portW with upSince := some 5000000 }, time := { ring.time with tb2 := 15000000 } }
  setR Page.duplex Reg.comEvtRaw (2 ^ Ev.duplexHeadless) (setFlag (Page.stn (rxStation .west)) Reg.stnStatusRxOpen false s)
def reporting : State := ripe |> setR Page.hub Reg.hubNodeId 3 |> setR Page.duplex Reg.duplexStatusPairRole pairSingle |> setR (Page.lane .west) Reg.lanePortStatusNeighbour 2

/-- The hypotheses of LinksOfMembers are met. -/
theorem test_links_of_members_is_met :
    (Running ripe ∧ headless ripe = true ∧ staircaseActive ripe = true ∧ quarantineRipe ripe .west = true ∧ flag ripe (Page.stn (rxStation .west)) Reg.stnStatusArmed = false) ∧
    headless ring = false ∧
    (staircaseActs ripe = true ∧ quarantineRipe ripe .west = true ∧ masterNode ripe ≠ 0 ∧ (portOf ripe .west).reported = none) ∧
    (masterNode reporting = nodeId reporting ∧ actsMaster reporting = true ∧ getR reporting (Page.lane .west) Reg.lanePortStatusNeighbour ≠ 0 ∧ ringNeighbour reporting.stair.active (nodeId reporting) (isEast .west) = some (getR reporting (Page.lane .west) Reg.lanePortStatusNeighbour)) ∧
    quarantineRipe ring .west = false := by
  and_intros <;> first | decide +kernel | exact running (by decide +kernel)

def candidate : State :=
  let s := { State.reset with
    key := { State.reset.key with lc := 3 }, stair := { State.reset.stair with pend := bank }
    duplex := { State.reset.duplex with candFrom := 3 } }
  let s := { s with stair := { s.stair with lastIdent := some (imgHash16 bank) } }
  s |> setPend pendReady |> setFlag Page.stair Reg.stairMasterHashValid true |> keyed 8

/-- The hypotheses of JoinCandidate are met. -/
theorem test_join_candidate_is_met :
    (Granted candidate host .write Page.duplex 0xD0 ∧ isCandidate candidate = true ∧ candidate.duplex.candFrom ≠ 0 ∧ ringUsable candidate (ringSlot candidate) = true) ∧
    (Granted ring host .write Page.duplex 0xD0 ∧ isCandidate ring = false) := by
  and_intros <;> first | decide +kernel | exact granted (by decide +kernel)

def joining (step : Nat) : State :=
  { ring with time := { ring.time with tb2 := 15000000 } }
    |> setR Page.duplex Reg.duplexJoinStateStep step |> setR Page.duplex Reg.duplexJoinStateNode 4 |> setR Page.duplex Reg.duplexStatusPairRole pairSingle

/-- The hypotheses of JoinHolder are met. -/
theorem test_join_holder_is_met :
    (Running (joining joinChallenged) ∧ joinStep (joining joinChallenged) = joinChallenged ∧ (joining joinChallenged).duplex.nonceCycle + 64 ≤ cycleNow (joining joinChallenged) ∧ (joining joinChallenged).duplex.nonceTime + 10000000 ≤ (joining joinChallenged).time.tb2) ∧
    joinStep (joining joinSeen) ≠ joinChallenged ∧
    (Granted (joining joinAwaiting) host .guarded Page.duplex 0x304 ∧ joinStep (joining joinAwaiting) = joinAwaiting ∧ joinNode (joining joinAwaiting) = (4 : Byte).toNat ∧ actsMaster (joining joinAwaiting) = true ∧ headless (joining joinAwaiting) = false) ∧
    (Granted ring host .guarded Page.duplex 0x304 ∧ actsMaster ring = false) := by
  and_intros <;> first | decide +kernel | exact granted (by decide +kernel) | exact running (by decide +kernel)

def posted (dest : Nat) : OutMsg :=
  { cls := lmPosted, mgmt := false, dest := dest, mclass := 0, tag := 0, stream := 1, op := 1, arg := 0, addr := some 0x100000000
    data := [0xA5, 0, 0, 0, 0, 0, 0, 0], entered := 0, port := 0, inCab := true, copies := [], placed := 0 }
def sendsShares : State :=
  let s := { ring with bridge := { ring.bridge with out := [posted 3], limit := [(classKey 3 lmPosted, 16)] } }
  setStation .east { s.stnE with rx := some { gallery .forward with pos := 9 }, sending := true, sendCycle := 1000, sendFlight := 0 } s
def strayReq : OutReq := { dest := 3, addr := 0, len := 4, waiter := .nobody, entered := 0, cells := 1 }
def strayGuard : RemoteGuard := { m := host, node := 3, page := 0, off := 0x300, value := 7, at_ := 0 }
def strays : State :=
  let b := { ring.bridge with out := [posted 9], reqs := [(1023, strayReq)], guards := [strayGuard] }
  let s := { ring with bridge := b, time := { ring.time with tb2 := 16000000 } }
  setR Page.bridge Reg.bridgeCfgTimeoutM1 15 s

/-- The hypotheses of LandingSends are met. -/
theorem test_landing_sends_is_met :
    (Running sendsShares ∧ sendingGallery sendsShares .east = some (1000, 0) ∧ staircaseActs sendsShares = true ∧ pageFenced sendsShares Page.bridge = false ∧ pageFenced sendsShares Page.cab = false ∧ pageFenced sendsShares (Page.stn .east) = false ∧ shareOwner (bankFor sendsShares 1000) 0 (1 : BitVec 16).toNat = nodeId sendsShares ∧ sendsShares.bridge.quietUntil ≤ 1000 ∧ shareAhead sendsShares .east (bankFor sendsShares 1000) 0 (1 : BitVec 16).toNat = true ∧ sendsShares.bridge.out = [posted 3] ∧ (posted 3).dest ≠ 0xFF ∧ (posted 3).cls ≠ lmRequest ∧ routeOf sendsShares (posted 3).dest = some .east ∧ storeFind (streamKey (posted 3).dest (posted 3).stream) sendsShares.bridge.dirHold = none ∧ messageReady sendsShares .east 1000 (1 : BitVec 16).toNat (shareLen (bankFor sendsShares 1000) 0 (1 : BitVec 16).toNat) (posted 3) = true) ∧
    (Running strays ∧ strays.bridge.out = [posted 9] ∧ (posted 9).cls = lmPosted ∧ (posted 9).dest ≠ 0xFF ∧ (posted 9).entered + remoteTimeout strays ≤ strays.time.tb2 ∧ routeOf strays (posted 9).dest = none ∧ strays.bridge.pwe.length < 16) ∧
    sendingGallery State.reset .east = none ∧
    State.reset.bridge.out.find? (fun m => m.dest ≠ 0xFF && decide (m.entered + remoteTimeout State.reset ≤ State.reset.time.tb2) && routeOf State.reset m.dest = none) = none ∧
    storeFind 1023 State.reset.bridge.reqs = none ∧
    State.reset.bridge.guards.find? (fun x => remoteGuardExpired State.reset x) = none ∧
    (Running strays ∧ storeFind 1023 strays.bridge.reqs = some strayReq ∧ strayReq.entered + remoteTimeout strays ≤ strays.time.tb2) ∧
    (Running strays ∧ strays.bridge.guards.find? (fun x => remoteGuardExpired strays x) = some strayGuard) := by
  and_intros <;> first | decide +kernel | exact running (by decide +kernel)

def arrived (h addr : Nat) (data : List Byte) : InMsg := { port := .west, cycle := 1000, header := h, addr := addr, data := data, inCab := true, share := 0 }
def executing (m : InMsg) : State := openDram { ring with bridge := { ring.bridge with ingress := [m] } }
def readMsg : InMsg := arrived (header lmRequest 1 3 1023 0 15 opRead) (0xFF * 2 ^ 40 + 0x107FFFF00) []
def writeMsg : InMsg := arrived (header lmPosted 1 3 0 1 15 opWrite) 0x107FFFFFC [1, 2, 3, 4]
def castMsg : InMsg := arrived (header lmPosted 0xFF 3 0 1 0 opWrite) 0x13FFFFC [1, 2, 3, 4]
def holeMsg : InMsg := arrived (header lmRequest 1 3 1023 0 15 opRead) 0xFFFFFFFFFF []
def putMsg : InMsg := arrived (header lmRequest 1 3 5 1 15 opWrite) 0x107FFFFFC [1, 2, 3, 4]
def lostMsg : InMsg := arrived (header lmPosted 1 3 0 1 15 opWrite) 0xFFFFFFFFF0 [1, 2, 3, 4]
def halfMsg : InMsg := arrived (header lmRequest 1 3 5 1 15 opGuarded) 0x10300 [1, 2, 3, 4]
def guardMsg : InMsg := arrived (header lmRequest 1 3 5 1 15 opGuarded) 0x10300 [1, 2, 3, 4, 5, 6, 7, 8]
def closed : State := executing holeMsg
def laneFenced : State := setFlag (Page.lane .east) Reg.comFenceFenced true (executing guardMsg)
def seenBefore : State :=
  { executing writeMsg with bridge := { (executing writeMsg).bridge with seqRx := storePut (seqKey writeMsg.header) 1 [] } }

/-- The hypotheses of LandingExecution are met. -/
theorem test_landing_execution_is_met :
    (Running (executing readMsg) ∧ badWords (executing readMsg).boot.dramBad 0x7FFFF00 256 = [] ∧ (acceptSeq readMsg (executing readMsg)).isSome = true ∧ headOf (executing readMsg) (15 : Fin 16) lmRequest = some (0, readMsg) ∧ hdOp readMsg.header = opRead ∧ readMsg.addr % 2 ^ 40 = 0x100000000 + 0x7FFFF00 ∧ 0x7FFFF00 + (bits readMsg.addr 47 40 + 1) ≤ 0x8000000 ∧ decide_ (executing readMsg) (remoteMaster (executing readMsg) (hdSrc readMsg.header)) .read (readMsg.addr % 2 ^ 40) (bits readMsg.addr 47 40 + 1) = .ok) ∧
    (Running (executing writeMsg) ∧ (acceptSeq writeMsg (executing writeMsg)).isSome = true ∧ headOf (executing writeMsg) (15 : Fin 16) lmPosted = some (0, writeMsg) ∧ hdOp writeMsg.header = opWrite ∧ writeMsg.data ≠ [] ∧ writeMsg.addr % 2 ^ 40 = 0x100000000 + 0x7FFFFFC ∧ 0x7FFFFFC + writeMsg.data.length ≤ 0x8000000 ∧ decide_ (executing writeMsg) (remoteMaster (executing writeMsg) (hdSrc writeMsg.header)) .write (writeMsg.addr % 2 ^ 40) writeMsg.data.length = .ok) ∧
    (Running (executing castMsg) ∧ (acceptSeq castMsg (executing castMsg)).isSome = true ∧ directHead (executing castMsg) (fun h => hdCls h = lmPosted) = some (0, castMsg) ∧ hdOp castMsg.header = opWrite ∧ castMsg.data ≠ [] ∧ castMsg.addr % 2 ^ 40 = 0x1000000 + 0x3FFFFC ∧ 0x3FFFFC + castMsg.data.length ≤ 0x400000 ∧ decide_ (executing castMsg) (remoteMaster (executing castMsg) (hdSrc castMsg.header)) .write (castMsg.addr % 2 ^ 40) castMsg.data.length = .ok) ∧
    (Running closed ∧ headOf closed (15 : Fin 16) lmRequest = some (0, holeMsg) ∧ hdOp holeMsg.header = opRead ∧ (acceptSeq holeMsg closed).isSome = true ∧ pagePair (holeMsg.addr % 2 ^ 40) (bits holeMsg.addr 47 40 + 1) = false ∧ decide_ closed (remoteMaster closed (hdSrc holeMsg.header)) .read (holeMsg.addr % 2 ^ 40) (bits holeMsg.addr 47 40 + 1) = .decode) ∧
    (headOf (executing putMsg) (15 : Fin 16) lmRequest = some (0, putMsg) ∧ hdOp putMsg.header = opWrite ∧ (acceptSeq putMsg (executing putMsg)).isSome = true ∧ putMsg.addr % 2 ^ 40 = 0x100000000 + 0x7FFFFFC ∧ 0x7FFFFFC + putMsg.data.length ≤ 0x8000000 ∧ decide_ (executing putMsg) (remoteMaster (executing putMsg) (hdSrc putMsg.header)) .write (putMsg.addr % 2 ^ 40) putMsg.data.length = .ok) ∧
    (headOf (executing lostMsg) (15 : Fin 16) lmPosted = some (0, lostMsg) ∧ pagePair (lostMsg.addr % 2 ^ 40) lostMsg.data.length = false ∧ hdSrc lostMsg.header ≠ nodeId (executing lostMsg) ∧ (acceptSeq lostMsg (executing lostMsg)).isSome = true ∧ decide_ (executing lostMsg) (remoteMaster (executing lostMsg) (hdSrc lostMsg.header)) (writeKind (lostMsg.addr % 2 ^ 40) lostMsg.data.length) (lostMsg.addr % 2 ^ 40) lostMsg.data.length = .decode) ∧
    (headOf (executing halfMsg) (15 : Fin 16) lmRequest = some (0, halfMsg) ∧ hdOp halfMsg.header = opGuarded ∧ halfMsg.data.length ≠ 8) ∧
    (headOf laneFenced (15 : Fin 16) lmRequest = some (0, guardMsg) ∧ hdOp guardMsg.header = opGuarded ∧ guardMsg.data.length = 8 ∧ guardedTarget (guardMsg.addr % 2 ^ 40) = true ∧ (acceptSeq guardMsg laneFenced).isSome = true ∧ decide_ laneFenced (remoteMaster laneFenced (hdSrc guardMsg.header)) .guarded (guardMsg.addr % 2 ^ 40) 4 = .fenced) ∧
    (acceptSeq writeMsg seenBefore = none ∧ headOf seenBefore (15 : Fin 16) lmPosted = some (0, writeMsg)) := by
  and_intros <;> first | decide +kernel | exact running (by decide +kernel)

def answerMsg : InMsg := arrived (header lmResponse 1 3 7 1 0 0) 0 [1, 2, 3, 4]
def failMsg : InMsg := arrived (header lmNotice 1 3 0 1 15 noticePwe) 0 [1, 2, 3, 4, 5, 6, 7, 8]
def creditWord : BitVec 64 := 0x5A007F100801
def creditMsg : InMsg := arrived (header lmCredit 0xFF 3 0 1 0 0) 0 (leBytes 8 creditWord.toNat)
def crediting : State := { executing creditMsg with bridge := { (executing creditMsg).bridge with epoch := [(3, 0x5A00)] } }
def restarted : State := { crediting with bridge := { crediting.bridge with epoch := [(3, 7)] } }
def fullLog : State := { executing failMsg with bridge := { (executing failMsg).bridge with pwe := List.replicate 16 [1, 2] } }
def hostReq : OutReq := { strayReq with waiter := .master host }
def awaiting : State := { executing answerMsg with bridge := { (executing answerMsg).bridge with reqs := [(7, hostReq)] } }

/-- The hypotheses of LandingReplies are met. -/
theorem test_landing_replies_is_met :
    (Running (executing answerMsg) ∧ pageFenced (executing answerMsg) Page.bridge = false ∧ (executing answerMsg).bridge.ingress.findIdx? (fun x => hdCls x.header = lmResponse) = some 0 ∧ (executing answerMsg).bridge.ingress[0]? = some answerMsg ∧ answerMsg.inCab = true ∧ storeFind (hdTag answerMsg.header) (executing answerMsg).bridge.reqs = none) ∧
    (Running (executing failMsg) ∧ headOf (executing failMsg) (15 : Fin 16) lmNotice = some (0, failMsg) ∧ (acceptSeq failMsg (executing failMsg)).isSome = true ∧ hdOp failMsg.header = noticePwe ∧ (executing failMsg).bridge.pwe.length < 16) ∧
    (Running crediting ∧ directHead crediting (fun h => hdCls h = lmCredit) = some (0, creditMsg) ∧ creditMsg.data = leBytes 8 creditWord.toNat ∧ bits creditWord.toNat 7 0 = nodeId crediting ∧ nodeId crediting ≠ 0 ∧ storeFind (hdSrc creditMsg.header) crediting.bridge.epoch = some (bits creditWord.toNat 47 32)) ∧
    (storeFind (hdSrc creditMsg.header) restarted.bridge.epoch = some 7 ∧ 7 ≠ bits creditWord.toNat 47 32 ∧ directHead restarted (fun h => hdCls h = lmCredit) = some (0, creditMsg)) ∧
    pageFenced (setFlag Page.bridge Reg.comFenceFenced true ring) Page.bridge = true ∧
    (16 ≤ fullLog.bridge.pwe.length ∧ headOf fullLog (15 : Fin 16) lmNotice = some (0, failMsg) ∧ hdOp failMsg.header = noticePwe) ∧
    (storeFind (hdTag answerMsg.header) awaiting.bridge.reqs = some hostReq ∧ hostReq.waiter = .master host ∧ hdArg answerMsg.header % 16 = stOk ∧ awaiting.bridge.ingress[0]? = some answerMsg) := by
  and_intros <;> first | decide +kernel | exact running (by decide +kernel)

def noticed : State := { State.reset with bridge := { State.reset.bridge with notices := [[1]] } }

/-- The hypotheses of BridgeRegisterCommands are met. -/
theorem test_bridge_register_commands_is_met :
    Granted noticed host .write Page.bridge 0x58 ∧
    (Granted noticed host .write Page.bridge 0x78 ∧ noticed.bridge.notices ≠ []) ∧
    (Granted noticed host .guarded Page.bridge 0x304 ∧ descEnabled noticed (getR noticed Page.bridge Reg.bridgeAccSel) = false) ∧
    descEnabled (setDesc 0 0 1 noticed) (getR noticed Page.bridge Reg.bridgeAccSel) = true := by
  and_intros <;> first | decide +kernel | exact granted (by decide +kernel)

def partTx (wr : Bool) (words : List Nat) (queued : Bool) : PartTx :=
  { partner := 2047, write := wr, off := 0x20, data := [1, 2, 3, 4], len := 4, waiter := .nobody, port := 0, queued := queued, issued := 0, words := words }
def partnerOn (s : State) : State :=
  s |> setDesc 2047 0 (1 + 127 * 8) |> setDesc 2047 2 (0x40 + 0x41 * 2 ^ 16) |> setDesc 2047 7 1 |> setDesc 2047 4 3 |> setDesc 2047 6 0x300
    |> setQueue 0x40 { queueReset with word0 := queueWord0 1 (portTile 15) 0, en := true, pkts := [{ word := 8, data := [0x50000020, 0x4030201], cells := [0] }] }
    |> setQueue 0x41 { queueReset with word0 := queueWord0 1 (portTile 15) 0, en := true, pkts := [{ word := 8, data := [0x44000004, 0x4030201], cells := [1] }] }
def partnerWaits : State := partnerOn { State.reset with bridge := { State.reset.bridge with partTx := [partTx true [0x50000020, 0x4030201] true] } }
def partnerRuns (w : Nat) : State :=
  partnerOn { State.reset with
    bridge := { State.reset.bridge with running := [(127, partTx true [] false)] }, time := { State.reset.time with tb2 := 10000 }
    engines := [(127, { engReset with rxf := [w] })] }
def unitDead : State := setFlag (Page.tile 15) Reg.comFenceFenced true partnerWaits
def canWaits : State :=
  partnerWaits |> setDesc 2047 0 (1 + 2 ^ 1 + 5 * 8) |> setQueue 0x40 { queueOf partnerWaits 0x40 with word0 := queueWord0 1 portCan 0 }

/-- The hypotheses of PartnerTransactions are met. -/
theorem test_partner_transactions_is_met :
    (Running partnerWaits ∧ pageFenced partnerWaits Page.bridge = false ∧ unitFree partnerWaits 2047 = true ∧ canPartner partnerWaits 2047 = false ∧ partnerWaits.bridge.partTx = [partTx true [0x50000020, 0x4030201] true] ∧ (partnerPacket partnerWaits (partTx true [0x50000020, 0x4030201] true)).isSome = true ∧ (queueOf partnerWaits (descOutQ partnerWaits 2047)).consumer = partnerPort partnerWaits 2047 ∧ engDead partnerWaits (descEngine partnerWaits 2047) = false ∧ engFlag partnerWaits (descEngine partnerWaits 2047) Reg.engFifoStatusTxfBound = false ∧ (engOf partnerWaits (descEngine partnerWaits 2047)).txf = []) ∧
    (canPartner unitDead 2047 = false ∧ engDead unitDead (descEngine unitDead 2047) = true) ∧
    (canPartner canWaits 2047 = true ∧ canDead canWaits (descCan canWaits 2047) = false ∧ unitFree canWaits 2047 = true ∧ (queueOf canWaits (descOutQ canWaits 2047)).consumer = partnerPort canWaits 2047 ∧ (partnerPacket canWaits (partTx true [0x50000020, 0x4030201] true)).isSome = true) ∧
    (canPartner (setFlag (Page.can 5) Reg.comFenceFenced true canWaits) 2047 = true ∧ canDead (setFlag (Page.can 5) Reg.comFenceFenced true canWaits) 5 = true) ∧
    mailReads ring (127 : Fin 128) = false ∧
    (Running (partnerRuns 0xD0000020) ∧ mailReads (partnerRuns 0xD0000020) 127 = true ∧ storeFind 127 (partnerRuns 0xD0000020).bridge.mail = none ∧ (engOf (partnerRuns 0xD0000020) 127).rxf = [0xD0000020] ∧ bits 0xD0000020 31 30 = 3 ∧ runningTx (partnerRuns 0xD0000020) 127 = some (partTx true [] false) ∧ statusMatches 0xD0000020 (partTx true [] false) = true) ∧
    (Running (partnerRuns 0x44000004) ∧ mailReads (partnerRuns 0x44000004) 127 = true ∧ storeFind 127 (partnerRuns 0x44000004).bridge.mail = none ∧ (engOf (partnerRuns 0x44000004) 127).rxf = [0x44000004] ∧ bits 0x44000004 31 30 = 1 ∧ ([] : List Nat).length < (bits 0x44000004 15 0 + 3) / 4) ∧
    (Running (partnerRuns 0) ∧ runningTx (partnerRuns 0) (partnerUnit (partnerRuns 0) 2047) = some (partTx true [] false) ∧ storeFind (partnerUnit (partnerRuns 0) 2047) (partnerRuns 0).bridge.mail = none ∧ (partTx true [] false).partner = 2047 ∧ (partTx true [] false).issued + descTimeout (partnerRuns 0) 2047 ≤ (partnerRuns 0).time.tb2) ∧
    (Running partnerWaits ∧ descEnabled partnerWaits 2047 = true ∧ pageFenced partnerWaits Page.bridge = false ∧ pageFenced partnerWaits Page.cab = false ∧ (queueOf partnerWaits (descInQ partnerWaits 2047)).pkts.head? = some { word := 8, data := [0x44000004, 0x4030201], cells := [1] } ∧ (queueOf partnerWaits (descInQ partnerWaits 2047)).consumer = partnerPort partnerWaits 2047 ∧ ownNode partnerWaits (descDeliver partnerWaits 2047 / 2 ^ 40) = false ∧ wholePacket { word := 8, data := [0x44000004, 0x4030201], cells := [1] } = true ∧ ownNode partnerWaits (descNotify partnerWaits 2047) = false) ∧
    (runningTx ring (partnerUnit ring 2047) = none ∧ descEnabled ring (2047 : Fin 2048) = false) := by
  and_intros <;> first | decide +kernel | exact running (by decide +kernel)

def lhOpen : State :=
  openDram { State.reset with bridge := { State.reset.bridge with tickets := [(63, { gen := 2, held := true, result := some (stOk, [9]) })] } }
def lhBusy : State := { lhOpen with bridge := { lhOpen.bridge with tickets := (List.range 64).map fun n => (n, { gen := 0, held := true, result := none }) } }
def crcOf (cmd : Nat) (body : List Byte) : BitVec 16 := BitVec.ofNat 16 (crc16 (leBytes 1 cmd ++ body))

/-- The hypotheses of LocalHostPort are met. -/
theorem test_local_host_port_is_met :
    (Running lhOpen ∧ pageFenced lhOpen Page.lh = false ∧ ownNode lhOpen (lhNode 0x107FFFFFC#48) = true ∧ lhAddr 0x107FFFFFC#48 = 0x100000000 + 0x7FFFFFC ∧ decide_ lhOpen localMaster .write (lhAddr 0x107FFFFFC#48) 4 = .ok ∧ lhCrcOk 0x01 (lhHead 0x107FFFFFC#48 4 ++ [1, 2, 3, 4]) (crcOf 1 (lhHead 0x107FFFFFC#48 4 ++ [1, 2, 3, 4])) = true ∧ lhCrcOk 0x02 (lhHead 0x107FFFFFC#48 4 ++ [1, 2, 3, 4]) (crcOf 2 (lhHead 0x107FFFFFC#48 4 ++ [1, 2, 3, 4])) = true) ∧
    (Running lhOpen ∧ decide_ lhOpen localMaster .read (lhAddr 0x107FFFF00#48) ((0xFF : Byte).toNat + 1) = .ok ∧ lhCrcOk 0x03 (lhHead 0x107FFFF00#48 256) (crcOf 3 (lhHead 0x107FFFF00#48 256)) = true ∧ lhCrcOk 0x03 (lhHead 0x107FFFF00#48 256) (crcOf 3 (lhHead 0x107FFFF00#48 256) ^^^ 1) = false ∧ ownNode lhOpen (lhNode 0x107FFFF00#48) = true ∧ lhAddr 0x107FFFF00#48 = 0x100000000 + 0x7FFFF00 ∧ badWords lhOpen.boot.dramBad 0x7FFFF00 256 = []) ∧
    pageFenced (setFlag Page.lh Reg.comFenceFenced true lhOpen) Page.lh = true ∧
    (ownNode lhOpen (lhNode 0xFFFFFFF000#48) = true ∧ mapRegion (lhAddr 0xFFFFFFF000#48) 256 = .nothing) ∧
    (ownNode lhOpen (lhNode 0xFF0000000000#48) = false ∧ lhNode 0xFF0000000000#48 = 0xFF ∧ nodeId lhOpen ≠ 0xFF) ∧
    (ownNode lhOpen (lhNode 0x070000000000#48) = false ∧ lhNode 0x070000000000#48 ≠ 0xFF ∧ storeFind 0 lhOpen.bridge.tickets = none) ∧
    (∀ n < 64, (storeFind n lhBusy.bridge.tickets).map (·.held) = some true) ∧
    (Running lhOpen ∧ lhCrcOk 0x04 (leBytes 2 (191 : BitVec 16).toNat) (crcOf 4 (leBytes 2 191)) = true ∧ storeFind ((191 : BitVec 16).toNat % 64) lhOpen.bridge.tickets = some { gen := (191 : BitVec 16).toNat / 64, held := true, result := some (stOk, [9]) }) ∧
    storeFind 0 lhBusy.bridge.tickets = some { gen := 0, held := true, result := none } ∧
    decide_ (setFlag Page.upd Reg.updStatusSafeMode true lhOpen) localMaster .guarded 0x17300 4 = .denied none ∧
    (Granted lhOpen localMaster .guarded Page.bridge 0x300 ∧ lhCrcOk 0x05 (leBytes 6 0x17300 ++ leBytes 4 (0x7FF : Word).toNat ++ leBytes 4 (~~~ (0x7FF : Word)).toNat) (crcOf 5 (leBytes 6 0x17300 ++ leBytes 4 (0x7FF : Word).toNat ++ leBytes 4 (~~~ (0x7FF : Word)).toNat)) = true ∧ lhCrcOk 0x06 [] (crcOf 6 []) = true) := by
  and_intros <;> first | decide +kernel | exact granted (by decide +kernel) | exact running (by decide +kernel)

def pcieOpen (en : Bool) : State :=
  openDram State.reset |> setFlag Page.pcie Reg.pcieLinkUp true |> setFlag Page.pcie (Reg.pcieWinLoEn 7) en |> setR Page.pcie (Reg.pcieWinHiLocalBase 7) 1
def i2cBusy : State := { State.reset with boot := { State.reset.boot with i2c := some (0x50, [1], 2, false) } }

/-- The hypotheses of PcieAndI2cPorts are met. -/
theorem test_pcie_and_i2c_ports_is_met :
    (Running State.reset ∧ pcieUp State.reset = false ∧ levelOn State.reset Page.pcie Ev.pciePerst = false ∧ pageFenced State.reset Page.pcie = false) ∧
    (pcieUp (pcieOpen false) = true ∧ flag (pcieOpen false) Page.pcie (Reg.pcieWinLoEn (bar2Target (pcieOpen false) (0xE0000000 : Word).toNat).1) = false) ∧
    (bar2Target (setR Page.pcie (Reg.pcieWinHiNode 7) 0xFF (pcieOpen true)) (0xE0000000 : Word).toNat).2.1 = 0xFF ∧
    (pcieUp (pcieOpen true) = true ∧ flag (pcieOpen true) Page.pcie (Reg.pcieWinLoEn (bar2Target (pcieOpen true) (0xE7FFFE00 : Word).toNat).1) = true ∧ (bar2Target (pcieOpen true) (0xE7FFFE00 : Word).toNat).2 = (0, 0x100000000 + 0x7FFFE00) ∧ ownNode (pcieOpen true) 0 = true ∧ 0x7FFFE00 + ((511 : Fin 512).val + 1) ≤ 0x8000000 ∧ decide_ (pcieOpen true) hostMaster .read (0x100000000 + 0x7FFFE00) ((511 : Fin 512).val + 1) = .ok ∧ badWords (pcieOpen true).boot.dramBad 0x7FFFE00 512 = []) ∧
    decide_ (setR Page.acc Reg.accDramDefault 0 (pcieOpen true)) hostMaster .read (0x100000000 + 0x7FFFE00) ((511 : Fin 512).val + 1) = .denied (some 1) ∧
    (Granted State.reset host .write Page.i2c 0x44 ∧ flag State.reset Page.i2c Reg.i2cStatusBusy = false) ∧
    flag (setFlag Page.i2c Reg.i2cStatusBusy true State.reset) Page.i2c Reg.i2cStatusBusy = true ∧
    (Running i2cBusy ∧ i2cBusy.boot.i2c = some (0x50, [1], 2, false)) ∧
    State.reset.boot.i2c = none := by
  and_intros <;> first | decide +kernel | exact granted (by decide +kernel) | exact running (by decide +kernel)

def producing (word0 : Nat) (opens : List OpenPacket) : State :=
  State.reset |> setBank 0 Page.cab Reg.cabAccQ 0xFFF |> setQueue 0xFFF { queueReset with word0 := word0, word1 := 0x10, en := true, opens := opens }
def openOne : OpenPacket := { port := portSoftware 0, declare := 1, data := List.replicate 29 7, cells := [5], dead := false, reserved := false }
def mgmtQueue : State := producing (queueWord0 classMgmt 0x80 0) []
def bulkQueue : State := producing (queueWord0 classBulk 0x80 0) []
def mailQueue : State := producing (queueWord0 classMailbox 0x80 0) []
def bulkOpen : State := producing (queueWord0 classBulk 0x80 0) [openOne]
def fullMgmt : State := setQueue 0x20 { queueOf mgmtQueue 0x20 with opens := [{ openOne with port := 3, declare := 100000 }] } mgmtQueue
def fullPool : State := setQueue 0x41 { queueReset with word0 := queueWord0 classMailbox 0x80 0, en := true, grant := 1000000 } bulkQueue
def deadOpen : State := producing (queueWord0 classBulk 0x80 0) [{ openOne with dead := true }]
def fullOpen : State := producing (queueWord0 classBulk 0x80 0) [{ openOne with data := List.replicate 30 7 }]
def overOpen : State := producing (queueWord0 classMgmt 0x80 0) [{ openOne with data := List.replicate 30 7 }]
def emptyOpen : State := producing (queueWord0 classBulk 0x80 0) [{ openOne with data := [] }]

/-- The hypotheses of CabinetProducing are met. -/
theorem test_cabinet_producing_is_met :
    (Granted mgmtQueue host .write Page.cab 0x84 ∧ accQueue mgmtQueue host.cls = 0xFFF ∧ (queueOf mgmtQueue 0xFFF).en = true ∧ (queueOf mgmtQueue 0xFFF).broken = false ∧ openPacket mgmtQueue (portSoftware host.cls) 0xFFF = none ∧ freeCells mgmtQueue ≠ 0 ∧ ((queueOf mgmtQueue 0xFFF).cls = classMgmt ∧ max 1 (min 512 (1023 : Fin 1024).val) ≤ mgmtFree mgmtQueue)) ∧
    (Granted bulkQueue host .write Page.cab 0x84 ∧ accQueue bulkQueue host.cls = 0xFFF ∧ (queueOf bulkQueue 0xFFF).en = true ∧ (queueOf bulkQueue 0xFFF).broken = false ∧ openPacket bulkQueue (portSoftware host.cls) 0xFFF = none ∧ freeCells bulkQueue ≠ 0 ∧ (queueOf bulkQueue 0xFFF).cls = classBulk ∧ (queueOf bulkQueue 0xFFF).cells < threshold (sharedFree bulkQueue) (queueOf bulkQueue 0xFFF).exponent) ∧
    (Granted mailQueue host .write Page.cab 0x84 ∧ accQueue mailQueue host.cls = 0xFFF ∧ openPacket mailQueue (portSoftware host.cls) 0xFFF = none ∧ (queueOf mailQueue 0xFFF).cls = classMailbox ∧ (mailboxGrant mailQueue (queueOf mailQueue 0xFFF) (max 1 (min 512 (16 : Fin 1024).val))).isSome = true) ∧
    (Granted bulkOpen host .write Page.cab 0x88 ∧ Granted bulkOpen host .write Page.cab 0x84 ∧ accQueue bulkOpen host.cls = 0xFFF ∧ openPacket bulkOpen (portSoftware host.cls) 0xFFF = some openOne ∧ openOne.dead = false ∧ (8 + 4 * (openOne.data.length + 1) + 127) / 128 ≤ openOne.cells.length ∧ (3 : Fin 4).val < 4 * openOne.data.length ∧ 4 * openOne.data.length - (3 : Fin 4).val ≤ 65528) ∧
    ((queueOf fullMgmt 0xFFF).cls = classMgmt ∧ mgmtFree fullMgmt < max 1 (min 512 (0 : Fin 1024).val)) ∧
    (landingQueue 0xFFF = false ∧ mailboxGrant mailQueue (queueOf mailQueue 0xFFF) (max 1 (min 512 (17 : Fin 1024).val)) = none) ∧
    ((queueOf fullPool 0xFFF).cls = classBulk ∧ threshold (sharedFree fullPool) (queueOf fullPool 0xFFF).exponent ≤ (queueOf fullPool 0xFFF).cells) ∧
    (queueOf State.reset 0xFFF).en = false ∧
    ((queueOf bulkOpen 0xFFF).en = true ∧ (openPacket bulkOpen (portSoftware host.cls) 0xFFF).isSome = true) ∧
    openPacket deadOpen (portSoftware host.cls) 0xFFF = some { openOne with dead := true } ∧
    (openPacket fullOpen (portSoftware host.cls) 0xFFF = some { openOne with data := List.replicate 30 7 } ∧ ({ openOne with data := List.replicate 30 7 } : OpenPacket).cells.length < (8 + 4 * (30 + 1) + 127) / 128 ∧ freeCells fullOpen ≠ 0 ∧ sharedFree fullOpen ≠ 0 ∧ (queueOf fullOpen 0xFFF).cls = classBulk) ∧
    (openPacket overOpen (portSoftware host.cls) 0xFFF = some { openOne with data := List.replicate 30 7 } ∧ (queueOf overOpen 0xFFF).cls = classMgmt ∧ openOne.declare < (8 + 4 * (30 + 1) + 127) / 128) ∧
    (openPacket emptyOpen (portSoftware host.cls) 0xFFF = some { openOne with data := [] } ∧ 4 * ([] : List Nat).length ≤ (0 : Fin 4).val) := by
  and_intros <;> first | decide +kernel | exact granted (by decide +kernel)

def firstPacket : Packet := { word := packetWord 5 false 0 0, data := [1, 2], cells := [5] }
def consuming (consumer : Nat) : State :=
  let q := { queueReset with word0 := queueWord0 classBulk consumer 0, en := true, pkts := [firstPacket], rdWord := 3, mark := some (0, 1) }
  State.reset |> setBank 0 Page.cab Reg.cabAccQ 0x40 |> setQueue 0x40 q
def twoPackets : State := setQueue 0x40 { queueOf (consuming 0x80) 0x40 with pkts := [firstPacket, firstPacket] } (consuming 0x80)
def brokenQueue : State := setQueue 0xFFF { queueReset with word0 := queueWord0 classMailbox 0x80 255, broken := true, en := true } State.reset

/-- The hypotheses of CabinetConsuming are met. -/
theorem test_cabinet_consuming_is_met :
    (Granted (consuming 0x80) host .read Page.cab 0x88 ∧ Granted (consuming 0x80) host .write Page.cab 0x84 ∧ accQueue (consuming 0x80) host.cls = 0x40 ∧ (queueOf (consuming 0x80) 0x40).consumer = portSoftware host.cls ∧ (queueOf (consuming 0x80) 0x40).pkts[(queueOf (consuming 0x80) 0x40).rdPkt]? = some firstPacket ∧ (queueOf (consuming 0x80) 0x40).broken = false) ∧
    ((queueOf twoPackets 0x40).pkts[(queueOf twoPackets 0x40).rdPkt]? = some firstPacket ∧ (followedCell (queueOf twoPackets 0x40) firstPacket).isSome = true) ∧
    ((queueOf brokenQueue 0xFFF).consumer = portSoftware host.cls ∧ (queueOf brokenQueue 0xFFF).pkts[(queueOf brokenQueue 0xFFF).rdPkt]? = none) ∧
    (Granted (consuming 0x81) host .write Page.cab 0x84 ∧ accQueue (consuming 0x81) host.cls = 0x40 ∧ (queueOf (consuming 0x81) 0x40).consumer ≠ portSoftware host.cls) := by
  and_intros <;> first | decide +kernel | exact granted (by decide +kernel)

def tooLarge : State := setQueue 0xFFF { queueReset with word0 := queueWord0 classMailbox 0x80 255 } fullPool

/-- The hypotheses of QueueCommands are met. -/
theorem test_queue_commands_is_met :
    (Granted brokenQueue host .guarded Page.cab 0x304 ∧ systemQueue (0xFFF : BitVec 12).toNat = false ∧ (queueOf brokenQueue (0xFFF : BitVec 12).toNat).en = true ∧ (queueOf brokenQueue (0xFFF : BitVec 12).toNat).broken = true) ∧
    ((queueOf tooLarge (0xFFF : BitVec 12).toNat).en = false ∧ (queueOf tooLarge (0xFFF : BitVec 12).toNat).cls = classMailbox ∧ sharedFree tooLarge < (queueOf tooLarge (0xFFF : BitVec 12).toNat).min) ∧
    (Granted brokenQueue host .guarded Page.cab 0x304 ∧ systemQueue (0x3F : BitVec 12).toNat = true ∧ (queueOf brokenQueue (0x3F : BitVec 12).toNat).broken = false) := by
  and_intros <;> first | decide +kernel | exact granted (by decide +kernel)

def audited : State := { State.reset with cab := { State.reset.cab with leaked := [9], used := [9], unmarked := [9], walking := true } }

/-- The hypotheses of CabinetAuditor are met. -/
theorem test_cabinet_auditor_is_met :
    (Running (setFlag Page.cab Reg.cabCfgAuditEn true State.reset) ∧ flag (setFlag Page.cab Reg.cabCfgAuditEn true State.reset) Page.cab Reg.cabCfgAuditEn = true) ∧
    (Granted audited host .guarded Page.cab 0x300 ∧ audited.cab.leaked ≠ [] ∧ audited.cab.walking = true) ∧
    (flag (setFlag Page.cab Reg.cabCfgAuditEn false State.reset) Page.cab Reg.cabCfgAuditEn = false ∧ State.reset.cab.leaked = [] ∧ State.reset.cab.walking = false) := by
  and_intros <;> first | decide +kernel | exact granted (by decide +kernel) | exact running (by decide +kernel)

def mirrors : State := { State.reset with cab := { State.reset.cab with mirrorWait := [(true, 117, List.replicate 30 1)] } }
def bulkRuns : State :=
  let s := { State.reset with access := { State.reset.access with dramRegions := [(0, 0x7FF0000), (1, 16), (2, 0x3FFFFFFF), (3, 1)] } }
  s |> setQueue 0x40 { queueReset with word0 := queueWord0 classBulk portDramBulk 0, en := true, pkts := [firstPacket] }
    |> setR Page.cab (Reg.cabChCtrlQueue 3) 0x40 |> setFlag Page.cab (Reg.cabChCtrlEn 3) true |> setR Page.cab (Reg.cabChBaseLog2 3) 16
    |> setR Page.cab (Reg.cabChBaseBase 3) 0x7FF0 |> setR Page.cab (Reg.cabChWr 3) 0xFFF0 |> setR Page.cab (Reg.cabChRd 3) 0xFFF0

/-- The hypotheses of MirrorAndBulk are met. -/
theorem test_mirror_and_bulk_is_met :
    (Running mirrors ∧ mirrors.cab.mirrorWait = [(true, 117, List.replicate 30 1)] ∧ 117 ≤ 4 * (List.replicate 30 1).length ∧ (List.replicate 30 1).length ≤ 30 ∧ (queueOf mirrors 0x22).en = true ∧ (queueOf mirrors 0x22).broken = false ∧ (queueOf mirrors 0x22).cls = classMirror ∧ openPacket mirrors portMirror 0x22 = none ∧ freeCells mirrors ≠ 0 ∧ (queueOf mirrors 0x22).cells < threshold (sharedFree mirrors) (queueOf mirrors 0x22).exponent) ∧
    (State.reset.cab.mirrorWait = [] ∧ (queueOf State.reset (getR State.reset Page.cab (Reg.cabChCtrlQueue 3))).pkts = []) ∧
    (queueOf (setQueue 0x22 { queueOf mirrors 0x22 with broken := true } mirrors) 0x22).broken = true ∧
    (queueOf (setQueue 0x40 { queueOf bulkRuns 0x40 with word0 := queueWord0 classBulk 0x80 0 } bulkRuns) 0x40).consumer ≠ portDramBulk ∧
    0x10000 ≤ (0xFFF0 + 0x10000 - getR (setR Page.cab (Reg.cabChRd 3) 0xFFF1 bulkRuns) Page.cab (Reg.cabChRd 3) % 0x10000) % 0x10000 + (bulkBytes firstPacket).length ∧
    decide_ (setFlag Page.dram Reg.comFenceFenced true bulkRuns) dmaMaster .write (0x100000000 + (0x7FF0000 + 0xFFF0)) (bulkBytes firstPacket).length = .fenced ∧
    (Running bulkRuns ∧ wholePacket firstPacket = true ∧ 0x40 = getR bulkRuns Page.cab (Reg.cabChCtrlQueue 3) ∧ 0x10000 = 2 ^ getR bulkRuns Page.cab (Reg.cabChBaseLog2 3) ∧ 0x7FF0000 = getR bulkRuns Page.cab (Reg.cabChBaseBase 3) * 4096 ∧ 0xFFF0 = getR bulkRuns Page.cab (Reg.cabChWr 3) % 0x10000 ∧ 0xFFF0 = getR bulkRuns Page.cab (Reg.cabChRd 3) % 0x10000 ∧ flag bulkRuns Page.cab (Reg.cabChCtrlEn 3) = true ∧ flag bulkRuns Page.cab (Reg.cabChCtrlStopped 3) = false ∧ pageFenced bulkRuns Page.cab = false ∧ (queueOf bulkRuns 0x40).broken = false ∧ (queueOf bulkRuns 0x40).pkts.head? = some firstPacket ∧ (queueOf bulkRuns 0x40).consumer = portDramBulk ∧ (0xFFF0 + 0x10000 - 0xFFF0) % 0x10000 + (bulkBytes firstPacket).length < 0x10000 ∧ 0xFFF0 + (bulkBytes firstPacket).length ≤ 0x10000 ∧ decide_ bulkRuns dmaMaster .write (0x100000000 + (0x7FF0000 + 0xFFF0)) (bulkBytes firstPacket).length = .ok) := by
  and_intros <;> first | decide +kernel | exact running (by decide +kernel)

def entryWord (next act delay : Nat) : Nat := next * 2 ^ 26 + 0x5 * 2 ^ 22 + 0xF * 2 ^ 18 + act * 2 ^ 12 + delay * 2 ^ 2
def engineWith (run running : Bool) (v : EngState) : State :=
  State.reset |> setEngFlag 127 Reg.engCtrlRun run |> setEngFlag 127 Reg.engStatusRunning running |> setEng 127 v
def engineRuns (act : Nat) : State := engineWith true true { engReset with prog := [(0, entryWord 63 act 1023)] }
def actedOn (act : Nat) : State :=
  (selectEntry 127 (engineRuns act |> setPads (tileOf 127) 0 |> dividerAtTick 127 |> timerTick 127 |> sampleFilters 127)).2
def retaining : State := engineWith true true { engReset with retained := some (entryWord 63 4 1023) }

/-- The hypotheses of EngineStartStopTick are met. -/
theorem test_engine_start_stop_tick_is_met :
    (Running (engineWith true false engReset) ∧ startDue (engineWith true false engReset) 127 = true) ∧
    (Running (engineWith false true engReset) ∧ stopDue (engineWith false true engReset) 127 = true) ∧
    (Running (engineWith true true { engReset with delay := 1023 }) ∧ engTicks (engineWith true true { engReset with delay := 1023 }) 127 = true ∧ (engOf (engineWith true true { engReset with delay := 1023 }) 127).swap = none ∧ (engOf (engineWith true true { engReset with delay := 1023 }) 127).delay ≠ 0) ∧
    (Running (engineRuns 0) ∧ engTicks (engineRuns 0) 127 = true ∧ (engOf (engineRuns 0) 127).delay = 0 ∧ (engOf (engineRuns 0) 127).retained = none ∧ (engOf (engineRuns 0) 127).swap = none ∧ (engAction 127 0 (actedOn 0)).isSome = true ∧ lutEntry (engineRuns 0) 127 (engBank (engineRuns 0) 127) (16 * engR (engineRuns 0) 127 Reg.engStatusState + conditionIndex (actedOn 0) 127 (selWord (engineRuns 0) 127 (engBank (engineRuns 0) 127) (engR (engineRuns 0) 127 Reg.engStatusState))) = entryWord 63 0 1023 ∧ entryAction (entryWord 63 0 1023) = 0 ∧ entryHold (entryWord 63 0 1023) = false ∧ engFlag (engineRuns 0) 127 Reg.engShiftCfgOutEn = false ∧ bit (entryOe (entryWord 63 0 1023)) 3 = true) ∧
    (Running (engineRuns 4) ∧ engTicks (engineRuns 4) 127 = true ∧ (engOf (engineRuns 4) 127).delay = 0 ∧ (engOf (engineRuns 4) 127).retained = none ∧ (engOf (engineRuns 4) 127).swap = none ∧ (engAction 127 4 (actedOn 4)).isNone = true ∧ lutEntry (engineRuns 4) 127 (engBank (engineRuns 4) 127) (16 * engR (engineRuns 4) 127 Reg.engStatusState + conditionIndex (actedOn 4) 127 (selWord (engineRuns 4) 127 (engBank (engineRuns 4) 127) (engR (engineRuns 4) 127 Reg.engStatusState))) = entryWord 63 4 1023 ∧ entryAction (entryWord 63 4 1023) = 4) ∧
    (startDue State.reset 127 = false ∧ stopDue State.reset 127 = false ∧ engTicks State.reset 127 = false) ∧
    ((engOf retaining 127).retained = some (entryWord 63 4 1023) ∧ engTicks retaining 127 = true ∧ (engOf retaining 127).delay = 0) ∧
    (entrySafe (entryWord 63 0 1023 + 1) = true ∧ ({ engReset with swap := some (1, true) } : EngState).swap = some (1, true) ∧ staircaseActive State.reset = false) := by
  and_intros <;> first | decide +kernel | exact running (by decide +kernel)

def forcing : State := engineWith true true { engReset with swap := some (2, true) }

/-- The hypotheses of EngineSwaps are met. -/
theorem test_engine_swaps_is_met :
    (Granted (engineRuns 0) host .write (Page.eng 127) 0xA0 ∧ engRunning (engineRuns 0) 127 = true ∧ (engOf (engineRuns 0) 127).swap = none) ∧
    (Granted State.reset host .write (Page.eng 127) 0xA0 ∧ engRunning State.reset 127 = false) ∧
    (Granted forcing host .write (Page.eng 127) 0xA0 ∧ (engOf forcing 127).swap = some (2, true) ∧ Running forcing ∧ engTicks forcing 127 = true ∧ engRunning forcing 127 = true) ∧
    ((engOf (engineWith true false { engReset with swap := some (2, true) }) 127).swap = some (2, true) ∧ engTicks (engineWith true false { engReset with swap := some (2, true) }) 127 = false) := by
  and_intros <;> first | decide +kernel | exact granted (by decide +kernel) | exact running (by decide +kernel)

def fifos (n : Nat) (bound : Bool) : State :=
  setEngFlag 127 Reg.engFifoStatusTxfBound bound (setEng 127 { engReset with txf := List.replicate n 7, rxf := List.replicate n 9 } State.reset)

/-- The hypotheses of EngineFifos are met. -/
theorem test_engine_fifos_is_met :
    (Granted (fifos 15 false) host .write (Page.eng 127) 0x74 ∧ engFlag (fifos 15 false) 127 Reg.engFifoStatusTxfBound = false ∧ (engOf (fifos 15 false) 127).txf.length < 16) ∧
    (Granted (fifos 16 false) host .write (Page.eng 127) 0x74 ∧ engFlag (fifos 16 false) 127 Reg.engFifoStatusTxfBound = false ∧ 16 ≤ (engOf (fifos 16 false) 127).txf.length) ∧
    (Granted (fifos 15 true) host .write (Page.eng 127) 0x74 ∧ engFlag (fifos 15 true) 127 Reg.engFifoStatusTxfBound = true) ∧
    (Granted (fifos 1 false) host .read (Page.eng 127) 0x78 ∧ engFlag (fifos 1 false) 127 Reg.engFifoStatusRxfBound = false ∧ (engOf (fifos 1 false) 127).rxf = [9]) ∧
    (Granted (fifos 0 false) host .read (Page.eng 127) 0x78 ∧ engFlag (fifos 0 false) 127 Reg.engFifoStatusRxfBound = false ∧ (engOf (fifos 0 false) 127).rxf = []) ∧
    Granted (fifos 16 false) host .write (Page.eng 127) 0x7C ∧
    engFlag (setEngFlag 127 Reg.engFifoStatusRxfBound true (fifos 1 false)) 127 Reg.engFifoStatusRxfBound = true := by
  and_intros <;> first | decide +kernel | exact granted (by decide +kernel)

def owned : State := setOwner 15 31 (some (0, 2)) State.reset
def bankOn : State :=
  State.reset |> setFlag (Page.tile 15) Reg.tileCfgBankEn true |> setR (Page.tile 15) Reg.tileCfgVioSel 2
    |> setFlag (Page.tile 15) (Reg.tilePincfgRbEn 31) true |> setR (Page.tile 15) Reg.tilePinOe (2 ^ 31)

/-- The hypotheses of PinTiles are met. -/
theorem test_pin_tiles_is_met :
    (Granted State.reset host .write (Page.eng 127) 0x6C ∧ (∀ j : Fin 4, j ≠ 3 → mapClaims (bits (0x3F000000 : Word).toNat (8 * j + 6) (8 * j)) = false) ∧ mapClaims (bits (0x3F000000 : Word).toNat (8 * 3 + 6) (8 * 3)) = false) ∧
    (Granted State.reset host .write (Page.eng 127) 0x6C ∧ (∀ j : Fin 4, j ≠ 3 → mapClaims (bits (0x7F000000 : Word).toNat (8 * j + 6) (8 * j)) = false) ∧ mapClaims (bits (0x7F000000 : Word).toNat (8 * 3 + 6) (8 * 3)) = true ∧ padOwner State.reset (tileOf 127) (mapPad (bits (0x7F000000 : Word).toNat (8 * 3 + 6) (8 * 3))) = none) ∧
    (Granted owned host .write (Page.eng 127) 0x6C ∧ padOwner owned (tileOf 127) (mapPad (bits (0x7F000000 : Word).toNat (8 * 3 + 6) (8 * 3))) = some (0, 2) ∧ mapClaims (bits (0x7F000000 : Word).toNat (8 * 3 + 6) (8 * 3)) = true ∧ (0 : Nat) ≠ 127 % 8) ∧
    (Running bankOn ∧ flag bankOn (Page.tile (15 : Fin 16)) Reg.tileCfgBankEn = true ∧ getR bankOn (Page.tile (15 : Fin 16)) Reg.tileCfgVioSel ≠ 3 ∧ flag bankOn (Page.tile (15 : Fin 16)) (Reg.tilePincfgRbEn 31) = true ∧ bit (getR bankOn (Page.tile (15 : Fin 16)) Reg.tilePinOe) 31 = true) ∧
    (flag State.reset (Page.tile (15 : Fin 16)) (Reg.tilePincfgRbEn 31) = false ∧ (¬ (flag State.reset (Page.tile (15 : Fin 16)) Reg.tileCfgBankEn = true ∧ getR State.reset (Page.tile (15 : Fin 16)) Reg.tileCfgVioSel ≠ 3))) := by
  and_intros <;> first | decide +kernel | exact granted (by decide +kernel) | exact running (by decide +kernel)

def canIn (mode : Nat) (s : State) : State := s |> setR (Page.can 15) Reg.canStatusModeAct mode |> setFlag (Page.can 15) Reg.canStatusSync true
def canSlow : State := State.reset |> setR (Page.can 15) Reg.canNbtBrpM1 255 |> setR (Page.can 15) Reg.canNbtTseg1M1 255
def canShort : State := State.reset |> setR (Page.can 15) Reg.canNbtBrpM1 0 |> setR (Page.can 15) Reg.canNbtTseg1M1 0 |> setR (Page.can 15) Reg.canNbtTseg2M1 0
def attempting : State := canIn canNormal (setCan 15 { canReset with attempt := some (31, []) } State.reset) |> setR (Page.can 15) Reg.canTxbPend (2 ^ 31)
def busOff : State := canIn canNormal (setR (Page.can 15) Reg.canStatusFcState fcBusOff State.reset)
def parked : State := setR (Page.can 15) Reg.canTxbParked (2 ^ 31) (canIn canNormal State.reset)

/-- The hypotheses of CanRequests are met. -/
theorem test_can_requests_is_met :
    (Granted canSlow host .write (Page.can 15) 0x40 ∧ canMode canSlow 15 = canConfig ∧ canConfigOk canSlow 15 = true ∧ (4 : Fin 8) ≠ 0 ∧ (4 : Fin 8) < 5) ∧
    (Granted canShort host .write (Page.can 15) 0x40 ∧ canMode canShort 15 = canConfig ∧ canConfigOk canShort 15 = false ∧ (4 : Fin 8) ≠ 0 ∧ (4 : Fin 8) < 5) ∧
    (Granted (canIn canNormal State.reset) host .write (Page.can 15) 0x40 ∧ canMode (canIn canNormal State.reset) 15 ≠ canConfig ∧ (canOf (canIn canNormal State.reset) 15).attempt = none) ∧
    (Granted attempting host .write (Page.can 15) 0x40 ∧ canMode attempting 15 ≠ canConfig ∧ (canOf attempting 15).attempt ≠ none) ∧
    (canMode parked 15 ≠ canConfig ∧ canMonitor ≠ canConfig ∧ canMonitor ≠ canMode parked 15 ∧ (if 5 ≤ (5 : Fin 8).val then canConfig else (5 : Fin 8).val) = canMode State.reset 15) ∧
    (Granted (canIn canMonitor State.reset) host .write (Page.can 15) 0x60 ∧ txDiscards (canIn canMonitor State.reset) 15 = true) ∧
    (Granted attempting host .write (Page.can 15) 0x60 ∧ canFc attempting 15 ≠ fcBusOff ∧ txDiscards attempting 15 = false) ∧
    (Granted busOff host .write (Page.can 15) 0x60 ∧ canFc busOff 15 = fcBusOff ∧ bit (0x80000000 : Word).toNat 31 = true ∧ bufPending busOff 15 31 = false) ∧
    (Granted attempting host .write (Page.can 15) 0x68 ∧ bit (0x80000000 : Word).toNat 31 = true ∧ bufPending attempting 15 31 = true ∧ inAttempt attempting 15 31 = true) ∧
    (Granted (setR (Page.can 15) Reg.canTxbPend 1 attempting) host .write (Page.can 15) 0x68 ∧ bit (1 : Word).toNat 0 = true ∧ bufPending (setR (Page.can 15) Reg.canTxbPend 1 attempting) 15 0 = true ∧ inAttempt (setR (Page.can 15) Reg.canTxbPend 1 attempting) 15 0 = false) ∧
    (Granted parked host .write (Page.can 15) 0x70 ∧ bit (0x80000000 : Word).toNat 31 = true ∧ bufParked parked 15 31 = true) ∧
    (Granted busOff host .write (Page.can 15) 0x9C ∧ canFc busOff 15 = fcBusOff) ∧
    (Granted parked host .write (Page.can 15) 0x9C ∧ canFc parked 15 ≠ fcBusOff) := by
  and_intros <;> first | decide +kernel | exact granted (by decide +kernel)

def canFrame : CanFrame := { id := 0x555, dlc := 8, fdf := false, brs := false, data := List.replicate 8 7 }
def waitingFrame : CanWait := { queue := 0x40, words := [0, 0x555, 8, 0x7070707, 0x7070707], bytes := 8, prio := true }
def canHears (n act : Nat) : State :=
  let s := { State.reset with
    filters := [(0, 2 * 2 ^ 30 + 0x555), (1, act * 2 ^ 30), (2, 0x40)]
    cans := [(15, { canReset with waiting := List.replicate n waitingFrame })] }
  s |> setR (Page.can 15) Reg.canFltCount 1 |> canIn canNormal
def canSends (fdf : Nat) : State :=
  setCan 15 { canReset with bufs := [(32 * 31, 0x555), (32 * 31 + 1, 8 + 16 * fdf)] } (canIn canNormal State.reset) |> setR (Page.can 15) Reg.canTxbPend (2 ^ 31)
    |> setFlag (Page.can 15) Reg.canCfgFdEn false |> setR (Page.can 15) Reg.canCfgMbxBuf 0
def lastTry : State :=
  setCan 15 { canReset with attempt := some (31, [0x555, 8]), bufs := [(32 * 31, 0x555), (32 * 31 + 1, 8), (32 * 31 + 19, 7 * 2 ^ 8)] } (canIn canNormal State.reset)
    |> setR (Page.can 15) Reg.canTxbPend (2 ^ 31) |> setR (Page.can 15) Reg.canEcntTec 247 |> setR (Page.can 15) Reg.canCfgClashLimit 8
    |> setFlag (Page.can 15) Reg.canCfgClashPark false
def timed (pend : Nat) : State := setR (Page.can 15) Reg.canTxbPend pend ring
def canStoreResult (s : State) : Nat := (cabProduce portCan 0x40 waitingFrame.words (4 * waitingFrame.words.length - (12 + waitingFrame.bytes)) false s).1
def rejecting (act : Nat) : State := setFlag (Page.can 15) Reg.canCfgRejectRtr true (canHears 0 act)
def remoteFrame : CanFrame := { canFrame with id := 0x40000555 }
def unmatched : State := setFlag (Page.can 15) Reg.canCfgNomatchStore true (canIn canNormal State.reset)
def trying (status tec : Nat) (cancels : Nat) : State :=
  setCan 15 { canReset with attempt := some (31, [0x555, 8]), cancels := cancels, bufs := [(32 * 31, 0x555), (32 * 31 + 1, 8), (32 * 31 + 18, status % 16), (32 * 31 + 19, status / 16)] }
      (canIn canNormal State.reset)
    |> setR (Page.can 15) Reg.canTxbPend (2 ^ 31) |> setR (Page.can 15) Reg.canEcntTec tec |> setR (Page.can 15) Reg.canCfgClashLimit 8
def fullQueue : State :=
  setQueue 0x40 { queueReset with word0 := queueWord0 classMailbox 0x80 0, en := true } (canHears 1 2)

/-- The hypotheses of CanTraffic are met. -/
theorem test_can_traffic_is_met :
    (Running (canIn canLoopExt State.reset) ∧ canMode (canIn canLoopExt State.reset) 15 ≠ canConfig ∧ inStandby (canIn canLoopExt State.reset) = false) ∧
    (canMode State.reset 15 = canConfig ∧ mayReceive State.reset 15 false = false ∧ mayTransmit State.reset 15 = false ∧ (canOf State.reset 15).mailbox = none ∧ (canOf State.reset 15).attempt = none ∧ (canOf State.reset 15).waiting = [] ∧ staircaseActs State.reset = false ∧ canFc State.reset 15 ≠ fcBusOff) ∧
    (mayReceive (rejecting 1) 15 false = true ∧ (imgRtr remoteFrame.id.toNat && !remoteFrame.fdf && canFlag (rejecting 1) 15 Reg.canCfgRejectRtr) = true) ∧
    (mayReceive unmatched 15 false = true ∧ firstMatch unmatched 15 canFrame.id.toNat = none ∧ canFlag unmatched 15 Reg.canCfgNomatchStore = true ∧ (imgRtr canFrame.id.toNat && !canFrame.fdf && canFlag unmatched 15 Reg.canCfgRejectRtr) = false) ∧
    (firstMatch unmatched 15 canFrame.id.toNat = none ∧ canFlag (canIn canNormal State.reset) 15 Reg.canCfgNomatchStore = false ∧ firstMatch (canIn canNormal State.reset) 15 canFrame.id.toNat = none) ∧
    (firstMatch (canHears 0 3) 15 canFrame.id.toNat = some 0 ∧ bits (filterWord (canHears 0 3) 0 1) 31 30 = 3 ∧ firstMatch (canHears 0 0) 15 canFrame.id.toNat = some 0 ∧ bits (filterWord (canHears 0 0) 0 1) 31 30 = 0) ∧
    (Running (canHears 7 1) ∧ mayReceive (canHears 7 1) 15 false = true ∧ firstMatch (canHears 7 1) 15 canFrame.id.toNat = some 0 ∧ (imgRtr canFrame.id.toNat && !canFrame.fdf && canFlag (canHears 7 1) 15 Reg.canCfgRejectRtr) = false ∧ bits (filterWord (canHears 7 1) (canR (canHears 7 1) 15 Reg.canFltBase + 0) 1) 31 30 = 1 ∧ (canOf (canHears 7 1) 15).waiting.length < 8) ∧
    (Running (canHears 8 2) ∧ mayReceive (canHears 8 2) 15 false = true ∧ firstMatch (canHears 8 2) 15 canFrame.id.toNat = some 0 ∧ (imgRtr canFrame.id.toNat && !canFrame.fdf && canFlag (canHears 8 2) 15 Reg.canCfgRejectRtr) = false ∧ bits (filterWord (canHears 8 2) (canR (canHears 8 2) 15 Reg.canFltBase + 0) 1) 31 30 = 2 ∧ 8 ≤ (canOf (canHears 8 2) 15).waiting.length) ∧
    (Running (canHears 1 2) ∧ (canOf (canHears 1 2) 15).waiting = [waitingFrame] ∧ canStoreResult (canHears 1 2) ≠ cabWaitCredit ∧ canStoreResult (canHears 1 2) ≠ cabOk) ∧
    (Running fullQueue ∧ (canOf fullQueue 15).waiting = [waitingFrame] ∧ canStoreResult fullQueue = cabWaitCredit) ∧
    (Running (canSends 0) ∧ mayTransmit (canSends 0) 15 = true ∧ (canOf (canSends 0) 15).attempt = none ∧ winningBuf (canSends 0) 15 = some 31 ∧ badFormat (canSends 0) 15 31 = false ∧ 31 ≠ mailboxBuf (canSends 0) 15 ∧ (canOf (canSends 0) 15).mailbox = none) ∧
    (Running (canSends 1) ∧ mayTransmit (canSends 1) 15 = true ∧ (canOf (canSends 1) 15).attempt = none ∧ winningBuf (canSends 1) 15 = some 31 ∧ badFormat (canSends 1) 15 31 = true) ∧
    (Running lastTry ∧ (canOf lastTry 15).attempt = some (31, [0x555, 8]) ∧ bufPending lastTry 15 31 = true ∧ bit (canOf lastTry 15).cancels 31 = false ∧ (canOf lastTry 15).gateWait = false ∧ (canOf lastTry 15).leaving = false ∧ bits (bufWord lastTry 15 31 18) 3 0 = 0 ∧ canR lastTry 15 Reg.canEcntTec < 248 ∧ clashLimit lastTry 15 ≤ bufClashes lastTry 15 31 + 1 ∧ canFlag lastTry 15 Reg.canCfgClashPark = false) ∧
    (Running (trying 0 0 0) ∧ (canOf (trying 0 0 0) 15).attempt = some (31, [0x555, 8]) ∧ bufPending (trying 0 0 0) 15 31 = true ∧ bit (canOf (trying 0 0 0) 15).cancels 31 = false ∧ (canOf (trying 0 0 0) 15).gateWait = false ∧ canMode (trying 0 0 0) 15 ≠ canMonitor ∧ canR (trying 0 0 0) 15 Reg.canEcntTec < 248 ∧ canFc (trying 0 0 0) 15 ≠ fcBusOff ∧ ¬ clashLimit (trying 0 0 0) 15 ≤ bufClashes (trying 0 0 0) 15 31 + 1) ∧
    (bit (canOf (trying 0 0 (2 ^ 31)) 15).cancels 31 = true ∧ 248 ≤ canR (trying 0 255 0) 15 Reg.canEcntTec ∧ canFc (trying 0 255 0) 15 ≠ fcBusOff) ∧
    (bits (bufWord (trying 0x23 0 0) 15 31 18) 3 0 = 3 ∧ bufErrors (trying (3 + 16 * 0x30) 0 0) 15 31 = 3 ∧ bits (bufWord (trying (3 + 16 * 0x30) 0 0) 15 31 18) 3 0 = 3) ∧
    (canFlag (setFlag (Page.can 15) Reg.canCfgClashPark true lastTry) 15 Reg.canCfgClashPark = true ∧ 31 ≠ mailboxBuf (setR (Page.can 15) Reg.canCfgMbxBuf 0 lastTry) 15 ∧ canMode lastTry 15 ≠ canMonitor ∧ canFc lastTry 15 ≠ fcBusOff) ∧
    (Running (timed (2 ^ 31)) ∧ staircaseActs (timed (2 ^ 31)) = true ∧ (flightCanTt (timed (2 ^ 31)).stair.active (nodeId (timed (2 ^ 31))) (curFlight (timed (2 ^ 31))))[0]? = some { time := 100, div := 0, channel := 15, buffer := 31, phase := 0 } ∧ cycleNow (timed (2 ^ 31)) % 2 ^ 0 = 0 ∧ bufPending (timed (2 ^ 31)) 15 31 = true) ∧
    (Running (timed 1) ∧ bufPending (timed 1) 15 31 = false ∧ canFc (timed 1) 15 ≠ fcBusOff ∧ txDiscards (timed 1) 15 = false ∧ (flightCanTt (timed 1).stair.active (nodeId (timed 1)) (curFlight (timed 1)))[0]? = some { time := 100, div := 0, channel := 15, buffer := 31, phase := 0 }) ∧
    (Running (canIn canLoopExt State.reset) ∧ mayReceive (canIn canLoopExt State.reset) 15 false = true ∧ canMode (canIn canLoopExt State.reset) 15 ≠ canMonitor ∧ canFlag (canIn canLoopExt State.reset) 15 Reg.canStatusGated = false) ∧
    (Running (setFlag (Page.can 15) Reg.canStatusRecovering true busOff) ∧ canFc (setFlag (Page.can 15) Reg.canStatusRecovering true busOff) 15 = fcBusOff ∧ canFlag (setFlag (Page.can 15) Reg.canStatusRecovering true busOff) 15 Reg.canStatusRecovering = true) ∧
    (txDiscards (timed 1 |> canIn canMonitor) 15 = true ∧ bufPending (timed 1 |> canIn canMonitor) 15 31 = false) := by
  and_intros <;> first | decide +kernel | exact running (by decide +kernel)

def timeTaught : State :=
  let t := { ring.time with
    reports := [(1, { cycle := 992, hops := 0, flags := 0x15, depE := 320000, depW := 0, arrE := 0, arrW := 0, committed := 996 })]
    exchanges := [(1, { exchangeReset with known := true })], stamps := [(stampKey 992 .east false, 324800)] }
  { ring with time := t } |> setR Page.time Reg.timeStatusTb0State tbTracking |> setFlag Page.time Reg.timeStatusPathValid true
    |> setR Page.time Reg.timeStatusPathPort 1 |> setFlag (Page.lane .east) Reg.lanePortStatusNeighbourPort false
def timeMaster : State := setR Page.time Reg.timeStatusTb0State tbMaster State.reset

/-- The hypotheses of TimeCommands are met. -/
theorem test_time_commands_is_met :
    (Granted timeTaught host .guarded Page.time 0x300 ∧ tb0State timeTaught ≠ tbMaster ∧ flag timeTaught Page.time Reg.timeStatusPathValid = true ∧ portQualifies timeTaught (cycleNow timeTaught) (getR timeTaught Page.time Reg.timeStatusPathPort) = true ∧ storeFind (getR timeTaught Page.time Reg.timeStatusPathPort) timeTaught.time.reports = some { cycle := 992, hops := 0, flags := 0x15, depE := 320000, depW := 0, arrE := 0, arrW := 0, committed := 996 } ∧ measuredOffset timeTaught (getR timeTaught Page.time Reg.timeStatusPathPort) { cycle := 992, hops := 0, flags := 0x15, depE := 320000, depW := 0, arrE := 0, arrW := 0, committed := 996 } ≠ none) ∧
    (Granted timeMaster host .guarded Page.time 0x300 ∧ tb0State timeMaster = tbMaster ∧ flag timeMaster Page.time Reg.timeStatusPathValid = false) ∧
    Granted State.reset host .write Page.time 0xB4 := by
  and_intros <;> first | decide +kernel | exact granted (by decide +kernel)

def ppsIn (st ns : Nat) : State :=
  { State.reset with time := { State.reset.time with tb1Sec := 7, tb1Ns := ns, ppsFollow := true } }
    |> setFlag Page.time Reg.timeTb1CfgSrc true |> setR Page.time Reg.timeStatusTb1State st |> setR Page.time Reg.timeTb1CfgPpsWin 1

/-- The hypotheses of PlantTimeAndBoundary are met. -/
theorem test_plant_time_and_boundary_is_met :
    (Running (ppsIn ppsArmed 0) ∧ flag (ppsIn ppsArmed 0) Page.time Reg.timeTb1CfgSrc = true ∧ true ≠ flag (ppsIn ppsArmed 0) Page.time Reg.timeTb1CfgPpsFall ∧ tb1State (ppsIn ppsArmed 0) = ppsArmed) ∧
    (Running (ppsIn ppsLocked 999999000) ∧ true ≠ flag (ppsIn ppsLocked 999999000) Page.time Reg.timeTb1CfgPpsFall ∧ tb1State (ppsIn ppsLocked 999999000) = ppsLocked ∧ (ppsIn ppsLocked 999999000).time.ppsFollow = true ∧ flag (ppsIn ppsLocked 999999000) Page.time Reg.timeTb1CfgSrc = true ∧ 500000000 ≤ (ppsIn ppsLocked 999999000).time.tb1Ns ∧ -((max 1 (getR (ppsIn ppsLocked 999999000) Page.time Reg.timeTb1CfgPpsWin) * 1000 : Nat) : Int) ≤ ((ppsIn ppsLocked 999999000).time.tb1Ns : Int) - 1000000000) ∧
    (Running (ppsIn ppsHoldover 1001) ∧ tb1State (ppsIn ppsHoldover 1001) = ppsHoldover ∧ (ppsIn ppsHoldover 1001).time.ppsFollow = true ∧ ((max 1 (getR (ppsIn ppsHoldover 1001) Page.time Reg.timeTb1CfgPpsWin) * 1000 : Nat) : Int) < (ppsIn ppsHoldover 1001).time.tb1Ns) ∧
    (Running (ppsIn ppsTracking 0) ∧ flag (ppsIn ppsTracking 0) Page.time Reg.timeTb1CfgSrc = true ∧ tb1State (ppsIn ppsTracking 0) = ppsTracking) ∧
    (Running State.reset ∧ flag State.reset Page.time Reg.timeTb1CfgSrc = false ∧ tb1State (ppsIn ppsFree 0) = ppsFree ∧ tb1State (ppsIn ppsFree 0) ≠ ppsLocked) ∧
    (0 < period State.reset ∧ 0 < tickStep (tb0Rate State.reset) ∧ State.reset.time.tb0Frac < 2 ^ 32) := by
  and_intros <;> first | decide +kernel | exact running (by decide +kernel)

def cmpSet (mode : Nat) (armed : Bool) : State :=
  State.reset |> setR Page.trig (Reg.trigCmpCfgMode 31) mode |> setFlag Page.trig (Reg.trigCmpCfgArmed 31) armed
def firing : State :=
  cmpSet 1 true |> setR Page.time Reg.timePpsOutSel 31 |> setFlag Page.time Reg.timePpsOutEn true |> setEngR 5 Reg.engCselTrigSel 31
def capturing : State := setFlag Page.trig (Reg.trigCapCfgFull 31) true (setR Page.trig (Reg.trigCapCfgKind 31) 2 State.reset)

/-- The hypotheses of TriggersAndCaptures are met. -/
theorem test_triggers_and_captures_is_met :
    (Granted (cmpSet 3 false) host .write Page.trig (0x80 + 4 * 31) ∧ cmpMode (cmpSet 3 false) 31 ≠ 0) ∧
    (Granted (cmpSet 0 false) host .write Page.trig (0x80 + 4 * 31) ∧ cmpMode (cmpSet 0 false) 31 = 0) ∧
    (Running (cmpSet 1 true) ∧ cmpDue (cmpSet 1 true) 31 = true ∧ cmpMode (cmpSet 1 true) 31 = 1) ∧
    (Running (cmpSet 2 true) ∧ cmpDue (cmpSet 2 true) 31 = true ∧ cmpMode (cmpSet 2 true) 31 = 2) ∧
    (getR firing Page.time Reg.timePpsOutSel = (31 : Fin 32).val ∧ flag firing Page.time Reg.timePpsOutEn = true ∧ engR firing (5 : Fin 128) Reg.engCselTrigSel = (31 : Fin 32).val) ∧
    (cmpDue State.reset 31 = false ∧ pageFenced (setFlag Page.trig Reg.comFenceFenced true State.reset) Page.trig = true) ∧
    (Running capturing ∧ pageFenced capturing Page.trig = false ∧ captures capturing 31 (.pps true) = true ∧ flag capturing Page.trig (Reg.trigCapCfgFull 31) = true) ∧
    (Running capturing ∧ captures capturing 31 (.pps false) = false) ∧
    Granted capturing host .write Page.trig (0x200 + 4 * 31) ∧
    Granted capturing host .read Page.trig (0x280 + 4 * 31) := by
  and_intros <;> first | decide +kernel | exact granted (by decide +kernel) | exact running (by decide +kernel)

def chAt (ch st tries : Nat) : State := setR Page.brk (Reg.brkChStatusAttempts ch) tries (setChState ch st (setReq ch true State.reset))
def pointed : State := chAt 8 chOn 0 |> setR Page.brk (Reg.brkChCfgRetries 8) 15
def curvy : State := { pointed with brk := { pointed.brk with curves := [(16 * 8 + 14, 100), (16 * 8 + 15, 50)] } }
def oldRecord : TripRecord := { cause := 1, attempts := 1, lastD := 0, lock := false, tb2 := 5, tb1Sec := 0, tb1Ns := 0, uncleared := true }
def recording : State := { State.reset with brk := { State.reset.brk with toWrite := [(8, oldRecord)] } }

/-- The hypotheses of BreakerTrips are met. -/
theorem test_breaker_trips_is_met :
    (Running (chAt 8 chOn 15) ∧ chUp (chAt 8 chOn 15) 8 = true ∧ retriesOf (chAt 8 chOn 15) 8 ≠ 15 ∧ retriesOf (chAt 8 chOn 15) 8 < min 15 (getR (chAt 8 chOn 15) Page.brk (Reg.brkChStatusAttempts 8) + 1)) ∧
    (Running pointed ∧ chUp pointed 8 = true ∧ retriesOf pointed 8 = 15) ∧
    (Running curvy ∧ chState curvy 8 = chOn ∧ pointEnabled curvy 8 7 = true) ∧
    (Running (chAt 0 chRamp 0) ∧ chState (chAt 0 chRamp 0) 0 = chRamp) ∧
    (Running (chAt 0 chWait 0) ∧ chState (chAt 0 chWait 0) 0 = chWait ∧ chReq (chAt 0 chWait 0) 0 = true) ∧
    (Running (chAt 8 chWait 0) ∧ chState (chAt 8 chWait 0) 8 = chWait ∧ chReq (chAt 8 chWait 0) 8 = true ∧ (8 : Nat) ≠ 0) ∧
    (Running recording ∧ recording.brk.toWrite = [(8, oldRecord)] ∧ pageFenced recording Page.flash = false) ∧
    pageFenced (setFlag Page.flash Reg.comFenceFenced true recording) Page.flash = true ∧
    (chUp State.reset 8 = false ∧ chState State.reset 8 ≠ chOn ∧ chState State.reset 8 ≠ chRamp ∧ chState State.reset 8 ≠ chWait ∧ State.reset.brk.toWrite = []) := by
  and_intros <;> first | decide +kernel | exact running (by decide +kernel)

def shunted : State := setR Page.brk (Reg.brkChCalShuntUohm 8) 1000 State.reset
def badCurve : State := { State.reset with brk := { State.reset.brk with staging := [(16 * 8 + 2, 5)] } }

/-- The hypotheses of BreakerCommands are met. -/
theorem test_breaker_commands_is_met :
    (Granted shunted host .guarded Page.brk 0x300 ∧ getR shunted Page.brk (Reg.brkChCalShuntUohm 8) ≠ 0 ∧ chState shunted 8 ≠ chLockout ∧ (romDefaults shunted = true → (8 : Fin 16) = 0) ∧ (8 : Fin 16) < 9 ∧ curveOk shunted 8 = true) ∧
    (Granted (setChState 8 chLockout shunted) host .guarded Page.brk 0x300 ∧ (8 : Fin 16) < 9 ∧ (¬ (getR (setChState 8 chLockout shunted) Page.brk (Reg.brkChCalShuntUohm 8) ≠ 0 ∧ chState (setChState 8 chLockout shunted) 8 ≠ chLockout))) ∧
    (Granted badCurve host .guarded Page.brk 0x300 ∧ curveOk badCurve 8 = false) ∧
    (Granted State.reset host .guarded Page.brk 0x300 ∧ 9 ≤ (9 : Fin 16)) := by
  and_intros <;> first | decide +kernel | exact granted (by decide +kernel)

def noPower : PowerMeas := { vin := 0, vhold := 0, card := 0, module := 0, chans := List.replicate 9 (0, 0) }
def admitting : State :=
  let s := { State.reset with brk := { State.reset.brk with queue := [8] } }
  s |> setChState 0 chOn |> setChState 8 chQueued |> setR Page.brk Reg.brkEntryAdmit 0xFFFF |> setR Page.brk (Reg.brkChCalShuntUohm 8) 1000
def shedding : State := State.reset |> setFlag Page.brk Reg.brkSupplyStatusBow true |> setChState 8 chOn
def asserted : State := { State.reset with boot := { State.reset.boot with holding := some 4 } }
def behindOne : State := { admitting with brk := { admitting.brk with queue := [7, 8] } }

/-- The hypotheses of SupplyAndStaging are met. -/
theorem test_supply_and_staging_is_met :
    (Running admitting ∧ admitting.boot.booting = none ∧ admitting.brk.queue = [8] ∧ 8 ∈ branches ∧ admissible (takePower noPower admitting) 8 = true ∧ admissionAllowed (takePower noPower admitting) (getR admitting Page.brk (Reg.brkChCalExpect 8)) = true) ∧
    (behindOne.brk.queue = [7] ++ [8] ∧ admissible (takePower noPower behindOne) 7 = false ∧ admissible (takePower noPower behindOne) 8 = true ∧ admissionAllowed (takePower noPower behindOne) (getR behindOne Page.brk (Reg.brkChCalExpect 8)) = true) ∧
    (({ State.reset with boot := { State.reset.boot with booting := some 5 } } : State).boot.booting ≠ none ∧ bowStands State.reset = false) ∧
    (Running (setChState 0 chOff admitting) ∧ (∀ ch ∈ (setChState 0 chOff admitting).brk.queue, admissible (takePower noPower (setChState 0 chOff admitting)) ch = false)) ∧
    (Running shedding ∧ bowStands shedding = true ∧ getR shedding Page.brk Reg.brkBowBudget < ({ noPower with card := 0xFFFF } : PowerMeas).card.toNat ∧ shedChoice shedding = some 8) ∧
    (State.reset.boot.holding ≠ some 4 ∧ chUp (chAt 8 chOn 0) 8 = true) ∧
    asserted.boot.holding = some 4 := by
  and_intros <;> first | decide +kernel | exact running (by decide +kernel)

def xtaGone : State := setR Page.clk Reg.comEvtRaw (2 ^ Ev.clkXtaLost) (setFlag Page.clk Reg.clkStatusXtaOk false State.reset)

/-- The hypotheses of ClockSources are met. -/
theorem test_clock_sources_is_met :
    (Running State.reset ∧ levelOn State.reset Page.clk Ev.clkXtaLost = false) ∧
    (levelOn xtaGone Page.clk Ev.clkXtaLost = true ∧ flag xtaGone Page.clk Reg.clkStatusXtaOk = false ∧ staircaseActive xtaGone = false) ∧
    (flag xtaGone Page.clk Reg.clkStatusXtaOk = false ∧ getR (setR Page.clk Reg.clkStatusRootSrc 1 xtaGone) Page.clk Reg.clkStatusRootSrc = 1) ∧
    (Granted (setFlag Page.clk Reg.clkStatusXtaOk true State.reset) host .guarded Page.clk 0x300 ∧ flag (setFlag Page.clk Reg.clkStatusXtaOk true State.reset) Page.clk Reg.clkStatusXtaOk = true) ∧
    (Granted (setFlag Page.clk Reg.clkStatusXtaOk false State.reset) host .guarded Page.clk 0x300 ∧ flag (setFlag Page.clk Reg.clkStatusXtaOk false State.reset) Page.clk Reg.clkStatusXtaOk = false) := by
  and_intros <;> first | decide +kernel | exact granted (by decide +kernel) | exact running (by decide +kernel)

def heldRead : HeldAccess := ⟨.master host, portOfInterface host, host, false, 0xBF * 4096 + 4, 4, []⟩
def gateWaits (on : Bool) : State := setFlag Page.clk Reg.clkGateStatusBusy true { State.reset with gov := { State.reset.gov with gate := some (0xBF, on) } }
def holding (h : HeldAccess) : State := { gateWaits false with bridge := { (gateWaits false).bridge with held := [h] } }

/-- The hypotheses of GatingTree are met. -/
theorem test_gating_tree_is_met :
    (Granted State.reset host .write Page.clk 0x48 ∧ flag State.reset Page.clk Reg.clkGateStatusBusy = false ∧ gateRefusal State.reset host.cls (0xBF : Byte).toNat false = none) ∧
    (Granted State.reset host .write Page.clk 0x48 ∧ gateRefusal State.reset host.cls (0xC0 : Byte).toNat true = some gateNone) ∧
    (Granted (gateWaits true) host .write Page.clk 0x48 ∧ flag (gateWaits true) Page.clk Reg.clkGateStatusBusy = true) ∧
    (Running (gateWaits true) ∧ (gateWaits true).bridge.held = [] ∧ (gateWaits true).gov.gate = some (0xBF, true) ∧ gateBit 0xBF ≠ none) ∧
    (Running (gateWaits false) ∧ (gateWaits false).bridge.held = [] ∧ (gateWaits false).gov.gate = some (0xBF, false)) ∧
    (State.reset.gov.gate = none ∧ State.reset.bridge.held = []) ∧
    (dapBlocked (gateWaits false) host = false ∧ ownNode (gateWaits false) ((0xBF004 : BitVec 48).toNat / 2 ^ 40) = true ∧ gateHolds (gateWaits false) host false ((0xBF004 : BitVec 48).toNat % 2 ^ 40) (4 : Fin 4097) = true ∧ gateHolds (gateWaits false) host true ((0xBF01C : BitVec 48).toNat % 2 ^ 40) (leBytes 4 7).length = true) ∧
    (pageGate 0xBF = some 0xBF ∧ decide_ (holding heldRead) host .read (0xBF * 4096 + 4) 4 = .ok ∧ (holding heldRead).bridge.held = [⟨.master host, portOfInterface host, host, false, 0xBF * 4096 + 4, 4, []⟩] ∧ (holding heldRead).gov.gate = some (0xBF, false)) := by
  and_intros <;> first | decide +kernel | exact granted (by decide +kernel) | exact running (by decide +kernel)

def fixed : State := setFlag Page.gov Reg.govCfgFixEn true State.reset
def sequencing (waits : Option Nat) : State :=
  setR Page.gov Reg.govStatusOpTarget 2 (setFlag Page.gov Reg.govStatusSeqBusy true { State.reset with gov := { State.reset.gov with raising := true, waiting := waits } })

/-- The hypotheses of Governor are met. -/
theorem test_governor_is_met :
    (Running (sequencing none) ∧ seqBusy (sequencing none) = true ∧ (sequencing none).gov.raising = true ∧ (sequencing none).gov.waiting = none) ∧
    (Running (sequencing (some 3)) ∧ seqBusy (sequencing (some 3)) = true ∧ (sequencing (some 3)).gov.waiting = some 3 ∧ (3 : Nat) ≠ getR (sequencing (some 3)) Page.gov Reg.govStatusOpTarget ∧ (2 : Nat) ≠ opNow (sequencing (some 2)) ∧ (sequencing (some 3)).gov.raising = true) ∧
    (Running fixed ∧ limitZero fixed = false ∧ seqBusy fixed = false ∧ fixed.gov.waiting = none ∧ pageFenced fixed Page.gov = false ∧ bowStands fixed = false ∧ fixed.boot.booting = none ∧ flag fixed Page.gov Reg.govCfgFixEn = true ∧ fixed.gov.noRaise ≤ fixed.time.tb2) ∧
    (pageFenced (setFlag Page.gov Reg.comFenceFenced true fixed) Page.gov = true ∧ bowStands (setFlag Page.brk Reg.brkSupplyStatusBow true fixed) = true) := by
  and_intros <;> first | decide +kernel | exact running (by decide +kernel)

def peer : Master := { cls := 8, ifc := 5, node := 9 }
def spoiled (w : Nat) : State := { openDram State.reset with boot := { State.reset.boot with dramBad := [w] } }

/-- The hypotheses of BusAccesses are met. -/
theorem test_bus_accesses_is_met :
    (Running (openDram State.reset) ∧ badWords (openDram State.reset).boot.dramBad 0x7FFF000 4096 = [] ∧ dapBlocked (openDram State.reset) peer = false ∧ mapRegion (0x107FFFFFF : BitVec 48).toNat ([7] : List Byte).length = .dram 0x7FFFFFF ∧ decide_ (openDram State.reset) peer .write (0x107FFFFFF : BitVec 48).toNat ([7] : List Byte).length = .ok ∧ mapRegion (0x107FFF000 : BitVec 48).toNat (4096 : Fin 4097) = .dram 0x7FFF000 ∧ decide_ (openDram State.reset) peer .read (0x107FFF000 : BitVec 48).toNat (4096 : Fin 4097) = .ok) ∧
    (badWords (spoiled 0x0FFFFFF).boot.dramBad 0x7FFF000 4096 = [0x0FFFFFF] ∧ decide_ (spoiled 0x0FFFFFF) peer .read ((0x107FFF000 : BitVec 48).toNat % 2 ^ 40) (4096 : Fin 4097) = .ok ∧ mapRegion ((0x107FFF000 : BitVec 48).toNat % 2 ^ 40) (4096 : Fin 4097) = .dram 0x7FFF000) ∧
    (ownNode State.reset ((0x070000000000 : BitVec 48).toNat / 2 ^ 40) = false ∧ fabricStream { peer with ifc := 0 } = none) ∧
    (Running State.reset ∧ ownNode State.reset ((0x100000000 : BitVec 48).toNat / 2 ^ 40) = true ∧ dapBlocked State.reset peer = false ∧ pagePair (0x100000000 : BitVec 48).toNat 1 = false ∧ decide_ State.reset peer (writeKind (0x100000000 : BitVec 48).toNat 1) (0x100000000 : BitVec 48).toNat 1 = .denied (some denyRow) ∧ mapRegion (0x100000 : BitVec 48).toNat (4 : Fin 4097) = .nothing) ∧
    (Granted State.reset host .write (0xBF : Byte).toNat 0x1C ∧ kindOf (0xBF : Byte).toNat ≠ .none) ∧
    Granted State.reset host .read (0xBF : Byte).toNat 0 ∧
    Granted State.reset host .write (0xBF : Byte).toNat 0x08 ∧
    Granted State.reset host .write Page.acc 0x44 := by
  and_intros <;> first | decide +kernel | exact granted (by decide +kernel) | exact running (by decide +kernel)

def pendingGuard : GuardPend := { page := 0xBF, cls := 14, node := 0, off := 0x7C, value := 7, at_ := 10 }
def guarding (tb2 : Nat) : State :=
  { State.reset with access := { State.reset.access with guards := [pendingGuard] }, time := { State.reset.time with tb2 := tb2 } }

/-- The hypotheses of AliasesAndGuards are met. -/
theorem test_aliases_and_guards_is_met :
    (Granted State.reset host .write (0xBF : Byte).toNat 0x18 ∧ kindOf (0xBF : Byte).toNat ≠ .none) ∧
    (Granted State.reset host .write (0xBF : Byte).toNat 0x14 ∧ levelOn State.reset (0xBF : Byte).toNat 15 = false) ∧
    Granted State.reset host .guarded (0xBF : Byte).toNat (0x300 + 4 * (31 : Fin 32)) ∧
    (Running (guarding 2011) ∧ guardOf (guarding 2011) (0xBF : Byte).toNat (14 : Fin 15) = some pendingGuard ∧ pendingGuard.at_ + 2000 < (guarding 2011).time.tb2) ∧
    (guardOf (guarding 2010) (0xBF : Byte).toNat (14 : Fin 15) = some pendingGuard ∧ (guarding 2010).time.tb2 ≤ pendingGuard.at_ + 2000) ∧
    guardOf State.reset (0xBF : Byte).toNat (14 : Fin 15) = none ∧
    levelOn (setR 0xBF Reg.comEvtRaw 1 State.reset) (0xBF : Byte).toNat 0 = true ∧
    (unitResetPage Page.hub = false ∧ ({ State.reset with boot := { State.reset.boot with booting := some 1 } } : State).boot.booting = some 1) ∧
    (Granted State.reset host .guarded (BitVec.ofNat 8 Page.trig).toNat 0x37C ∧ unitResetPage (BitVec.ofNat 8 Page.trig).toNat = true ∧ State.reset.boot.booting ≠ some 1 ∧ pageFenced State.reset (BitVec.ofNat 8 Page.trig).toNat = false ∧ (BitVec.ofNat 8 Page.trig).toNat = Page.trig) := by
  and_intros <;> first | decide +kernel | exact granted (by decide +kernel) | exact running (by decide +kernel)

def indAt (p a : Nat) : State := setR p Reg.comIndAddr a State.reset
def rowAt (space index en : Nat) : State :=
  { State.reset with access := { State.reset.access with dramRegions := [(63, en)] } }
    |> setR Page.acc Reg.accRowSelSpace space |> setR Page.acc Reg.accRowSelIndex index

/-- The hypotheses of IndirectAndTables are met. -/
theorem test_indirect_and_tables_is_met :
    (Granted (indAt Page.key 63) host .read (BitVec.ofNat 8 Page.key).toNat 0x34 ∧ indAddr (indAt Page.key 63) host Page.key = 63 ∧ indFault (indAt Page.key 63) (kindOf Page.key) 63 = none) ∧
    (Granted (indAt Page.key 64) host .read (BitVec.ofNat 8 Page.key).toNat 0x34 ∧ indAddr (indAt Page.key 64) host Page.key = 64 ∧ indFault (indAt Page.key 64) (kindOf Page.key) 64 = some indErrRange) ∧
    (Granted (indAt Page.key 63) host .write (BitVec.ofNat 8 Page.key).toNat 0x34 ∧ indReadOnly Page.key 63 = true) ∧
    (Granted (indAt Page.brk 143) host .write (BitVec.ofNat 8 Page.brk).toNat 0x34 ∧ indAddr (indAt Page.brk 143) host Page.brk = 143 ∧ indFault (indAt Page.brk 143) (kindOf Page.brk) 143 = none ∧ (BitVec.ofNat 8 Page.brk).toNat = Page.brk) ∧
    Granted State.reset host .guarded Page.acc 0x300 ∧
    (Granted (rowAt 2 31 0) host .guarded Page.acc 0x304 ∧ rowValRefused (rowAt 2 31 0) (getR (rowAt 2 31 0) Page.acc Reg.accRowSelSpace) (getR (rowAt 2 31 0) Page.acc Reg.accRowSelIndex) = false ∧ getR (rowAt 2 31 0) Page.acc Reg.accRowSelSpace < 3) ∧
    (getR (rowAt 3 0 0) Page.acc Reg.accRowSelSpace = 3 ∧ rowValRefused (rowAt 3 0 0) 3 0 = false ∧ rowValRefused (rowAt 3 8 0) 3 8 = false) ∧
    (Granted (rowAt 1 62 1) host .guarded Page.acc 0x304 ∧ rowValRefused (rowAt 1 62 1) (getR (rowAt 1 62 1) Page.acc Reg.accRowSelSpace) (getR (rowAt 1 62 1) Page.acc Reg.accRowSelIndex) = true) := by
  and_intros <;> first | decide +kernel | exact granted (by decide +kernel)

def loWords : List (Nat × Nat) := [(Page.stair, 0x54), (Page.bridge, 0x4C), (Page.jrnl, 0x40), (Page.jrnl, 0x48), (Page.duplex, 0x50), (Page.hub, 0x48)]
def latched (p off : Nat) : State := { State.reset with latch := [(latchKey p (off + 4), 5)] }
def clearWords : List (Nat × Nat) :=
  [(Page.img, 0x70), (Page.stn .west, 0x40), (Page.bridge, 0xA8), (Page.mirror, 0x54), (Page.cab, 0x78), (Page.eng 127, 0x94), (Page.can 15, 0x98),
   (Page.gov, 0x98), (Page.dram, 0x54), (Page.flash, 0x54)]

/-- The hypotheses of LatchedReadsAndCounterClears are met. -/
theorem test_latched_reads_and_counter_clears_is_met :
    ((∀ x ∈ loWords, allowed State.reset host .read x.1 x.2 = true) ∧ (∀ x ∈ loWords, allowed (latched x.1 x.2) host .read x.1 (x.2 + 4) = true ∧ storeFind (latchKey x.1 (x.2 + 4)) (latched x.1 x.2).latch = some 5)) ∧
    (∀ off ∈ [0x48, 0x50, 0x5C, 0x64], allowed State.reset host .read Page.time off = true ∧ storeFind (latchKey Page.time off) State.reset.latch = none) ∧
    (∀ x ∈ clearWords, allowed State.reset host .write x.1 x.2 = true) := by
  decide +kernel

def serving (code : Nat) : State :=
  { State.reset with
    key := { State.reset.key with lc := 3 }, dram := cells [(0x21C00, 1), (0x21C01, code)]
    access := { State.reset.access with dramRegions := [(0, 0x21000), (1, 1), (2, 0x20000000), (3, 1)] } }
    |> setFlag Page.key Reg.keyReqBaseSvcEn true |> setR Page.key Reg.keyReqBaseBase 0x10
def unprotected : State := { serving 0x14 with access := { (serving 0x14).access with dramRegions := [] } }
def tooLong : State := { serving 0x14 with dram := cells [(0x21C00, 1), (0x21C01, 0x14), (0x21C09, 2)] }
def runsHash : State :=
  { State.reset with key := { State.reset.key with
    running := some { code := 0x14, slot := 0, parent := 0, attr := 0, src := 0, dst := 0, len := 0, actAs := 0, ringAt := 0, record := none, who := none } } }
def debugging : State := setFlag Page.debug Reg.debugDbgCtrlDapEn true (serving 0)

/-- The hypotheses of DrawerCommands are met. -/
theorem test_drawer_commands_is_met :
    (Granted State.reset host .guarded Page.key 0x300 ∧ flag State.reset Page.key Reg.keyStatusBusy = false ∧ keyCheck State.reset (keyCmdOf State.reset host 0x14) = keyOk) ∧
    (Granted (setFlag Page.key Reg.keyStatusBusy true State.reset) host .guarded Page.key 0x300 ∧ flag (setFlag Page.key Reg.keyStatusBusy true State.reset) Page.key Reg.keyStatusBusy = true) ∧
    (Granted State.reset host .guarded Page.key 0x300 ∧ keyCheck State.reset (keyCmdOf State.reset host 0x30) ≠ keyOk) ∧
    (Running State.reset ∧ gateOn State.reset 6 = true ∧ State.reset.key.running = none) ∧
    (gateOn (setGate 6 false State.reset) 6 = false ∧ (runsHash).key.running ≠ none) ∧
    (Running (serving 0x14) ∧ flag (serving 0x14) Page.key Reg.keyReqBaseSvcEn = true ∧ (serving 0x14).event.newel = none ∧ pageFenced (serving 0x14) Page.dram = false ∧ (serving 0x14).key.running = none ∧ recordRows (serving 0x14) 14 = true ∧ memNat (serving 0x14).dram (recordAt (serving 0x14) 14) 1 = 1 ∧ (∀ d < 14, 3 ≤ d → memNat (serving 0x14).dram (recordAt (serving 0x14) d) 1 ≠ 1) ∧ recordAt (serving 0x14) 0 + 8192 ≤ journalBase ∧ keyCheck (serving 0x14) (recordCmd (serving 0x14) 14) = keyOk ∧ (recordCmd (serving 0x14) 14).code = 0x14 ∧ (recordCmd (serving 0x14) 14).slot = 0 ∧ (recordCmd (serving 0x14) 14).len ≤ 496) ∧
    (Running (serving 0) ∧ recordRows (serving 0) 14 = true ∧ memNat (serving 0).dram (recordAt (serving 0) 14) 1 = 1 ∧ keyCheck (serving 0) (recordCmd (serving 0) 14) ≠ keyOk) ∧
    (recordRows unprotected 14 = false ∧ memNat unprotected.dram (recordAt unprotected 14) 1 = 1) ∧
    (keyCheck tooLong (recordCmd tooLong 14) = keyOk ∧ 496 < (recordCmd tooLong 14).len ∧ recordRows tooLong 14 = true ∧ memNat tooLong.dram (recordAt tooLong 14) 1 = 1) ∧
    (flag State.reset Page.key Reg.keyReqBaseSvcEn = false ∧ ({ serving 0 with event := { (serving 0).event with newel := some 8 } } : State).event.newel ≠ none) ∧
    (Running debugging ∧ debugAvailable debugging = true) ∧
    (Running State.reset ∧ debugAvailable State.reset = false) := by
  and_intros <;> first | decide +kernel | exact granted (by decide +kernel) | exact running (by decide +kernel)

def filled (n attr : Nat) : Drawer := { material := zeros 64, attr := attr, tag := drawerTag n attr (zeros 64), st := slotValid }
def vault : State := { State.reset with key := { State.reset.key with lc := 3, slots := [(8, filled 8 0x7FFF0FF2), (9, filled 9 0x7FFF0F0B)] } }
def cmd (code slot len ringAt : Nat) : KeyCmd :=
  { code := code, slot := slot, parent := 8, attr := 0x7FFF0FF2, src := 0, dst := 0x1000, len := len, actAs := 0, ringAt := ringAt, record := none, who := none }
def runs (c : KeyCmd) : State := { vault with key := { vault.key with running := some c } }
theorem tag8 : tagGood 8 (drawerOf vault 8) = true := decide_eq_true rfl
theorem tag9 : tagGood 9 (drawerOf vault 9) = true := decide_eq_true rfl
theorem runs_drawers (c : KeyCmd) : (runs c).key.running = some c ∧ Running (runs c) ∧ ∀ n, drawerOf (runs c) n = drawerOf vault n := ⟨rfl, rfl, fun _ => rfl⟩
theorem usesAes : ∀ c ∈ [cmd 0x02 63 0 0, cmd 0x03 63 64 0, cmd 0x03 63 65 0, cmd 0x11 8 4096 0, cmd 0x12 8 13 0, cmd 0x12 8 14 0, cmd 0x13 8 29 0, cmd 0x13 8 30 0,
  cmd 0x30 8 0 1, cmd 0x30 8 0 2], keyCheck (runs c) c = keyOk := by
  intro c hc
  have h : keySource c = some 8 := by revert c; decide +kernel
  unfold keyCheck
  simp only [h, Option.getD_some, (runs_drawers c).2.2, tag8]
  revert c
  decide +kernel
theorem usesPublic : ∀ c ∈ [cmd 0x06 9 0 0, cmd 0x10 9 96 0, cmd 0x10 9 95 0], keyCheck (runs c) c = keyOk := by
  intro c hc
  have h : keySource c = some 9 := by revert c; decide +kernel
  unfold keyCheck
  simp only [h, Option.getD_some, (runs_drawers c).2.2, tag9]
  revert c
  decide +kernel

/-- The hypotheses of DrawerResults are met. -/
theorem test_drawer_results_is_met :
    (∀ c ∈ [cmd 0x01 63 0 0, cmd 0x04 63 0 0, cmd 0x05 63 0 0, cmd 0x14 0 4096 0, cmd 0x14 1 4096 0, cmd 0x15 0 0 0, cmd 0x15 0 4096 0, cmd 0x20 0 0 0, cmd 0x21 0 0 0], keyCheck (runs c) c = keyOk) ∧
    ((∀ c, (runs c).key.running = some c ∧ Running (runs c) ∧ ∀ n, drawerOf (runs c) n = drawerOf vault n) ∧ levelOn vault Page.key Ev.keyEntropyFail = false ∧ levelOn (setR Page.key Reg.comEvtRaw (2 ^ Ev.keyEntropyFail) vault) Page.key Ev.keyEntropyFail = true) ∧
    ((cmd 0x30 8 0 1).ringAt < cycleNow vault + loopCycles vault + 2 ∧ cycleNow vault + loopCycles vault + 2 ≤ (cmd 0x30 8 0 2).ringAt) ∧
    keyCheck (runs (cmd 0x07 0 0 0)) (cmd 0x07 0 0 0) ≠ keyOk := by
  and_intros <;> first | decide +kernel | exact runs_drawers | exact running (by decide +kernel)

/-- The hypotheses of EveryStepKeepsTheInvariant are met. -/
theorem test_every_step_keeps_the_invariant_is_met :
    ring.Wf ∧
    (State.reset.key.running = none ∧ vault.key.running = none) := by
  and_intros <;> first | decide +kernel | exact (by constructor <;> first | decide +kernel | exact fun _ h => nomatch h)

def capturing1 (levels : List (Nat × Nat)) : State :=
  { State.reset with event := { State.reset.event with sequence := some (Page.can 15, 8, 77), levelFaults := levels } }
/-- The first record as it stands. -/
def recorded (levels : List (Nat × Nat)) : State :=
  capturing1 levels |> setFlag Page.evt Reg.evtFirstFaultValid true |> setR Page.evt Reg.evtFirstFaultPage 0x12
/-- A page can be fenced and is not. -/
def canFence (s : State) (page : Byte) : Prop := fenceablePage page.toNat = true ∧ pageFenced s page.toNat = false
theorem fence_possible {s : State} {page : Byte} (h : (fenceablePage page.toNat && !pageFenced s page.toNat) = true) : canFence s page := by
  simpa [canFence] using h

/-- The hypotheses of FaultsAndFences are met. -/
theorem test_faults_and_fences_is_met :
    (Running State.reset ∧ State.reset.event.sequence = none ∧ fenceablePage (0xBF : Byte).toNat = true ∧ pageFenced State.reset (0xBF : Byte).toNat = false ∧ (1 ≤ (8 : Byte).toNat ∧ (8 : Byte).toNat ≤ 8)) ∧
    (canFence State.reset 0x02 ∧ kindOf (0x02 : Byte).toNat ∈ [.gov, .stair, .img, .duplex, .cab, .dram, .flash, .debug] ∧ (0x02 : Byte).toNat ≠ Page.duplex) ∧
    (canFence State.reset 0xAF ∧ (0xAF : Byte).toNat = Page.eng (127 : Fin 128) ∧ canFence State.reset 0x2F ∧ (0x2F : Byte).toNat = Page.tile (15 : Fin 16) ∧ (0xBF : Byte).toNat = Page.can (15 : Fin 16) ∧ canFence State.reset 0x11 ∧ (0x11 : Byte).toNat = Page.lane .west ∧ canFence State.reset 0x12 ∧ (0x12 : Byte).toNat = Page.stn .east) ∧
    (canFence State.reset 0x17 ∧ (0x17 : Byte).toNat = Page.bridge ∧ canFence State.reset 0x07 ∧ (0x07 : Byte).toNat = Page.key ∧ canFence State.reset 0x03 ∧ (0x03 : Byte).toNat = Page.brk ∧ canFence State.reset 0x0A ∧ (0x0A : Byte).toNat = Page.trig) ∧
    (canFence State.reset 0x0C ∧ (0x0C : Byte).toNat = Page.pcie ∧ canFence State.reset 0x08 ∧ (0x08 : Byte).toNat = Page.upd ∧ canFence State.reset 0x0E ∧ (0x0E : Byte).toNat = Page.i2c) ∧
    ((0 : Byte).toNat = 0 ∧ 8 < (9 : Byte).toNat ∧ faultPage (0x19 : Byte).toNat = false) ∧
    (flag State.reset Page.evt Reg.evtFirstFaultValid = false ∧ flag (recorded []) Page.evt Reg.evtFirstFaultValid = true ∧ Running (recorded [])) ∧
    (Running State.reset ∧ State.reset.event.newel = none ∧ flag State.reset Page.evt Reg.evtDumpStatusHeld = false ∧ flag State.reset Page.evt Reg.evtDumpStatusBusy = false ∧ pageFenced State.reset Page.dram = false) ∧
    (Running State.reset ∧ kindOf (0 : Byte).toNat ≠ .none ∧ fenceablePage (0 : Byte).toNat = false ∧ pageFenced State.reset (0 : Byte).toNat = false) ∧
    (Running (capturing1 []) ∧ (capturing1 []).event.sequence = some (Page.can 15, 8, 77) ∧ faultPage (0xFF : Byte).toNat = true ∧ blockFenced (capturing1 []) (0xFF : Byte).toNat = false) ∧
    (Running (recorded [(0xBE, 1)]) ∧ ((∀ f ∈ (recorded [(0xBE, 1)]).event.levelFaults, f ∈ [((0xBE : Byte), (1 : Byte))].map fun g => (g.1.toNat, g.2.toNat)))) ∧
    (Running (capturing1 [(0xBE, 1)]) ∧ (capturing1 [(0xBE, 1)]).event.levelFaults = [((0xBE : Byte).toNat, (1 : Byte).toNat)] ∧ fenceablePage (0xBE : Byte).toNat = true ∧ pageFenced (capturing1 [(0xBE, 1)]) (0xBE : Byte).toNat = false) ∧
    (Granted State.reset host .guarded Page.evt 0x300 ∧ State.reset.event.sequence = none ∧ fenceablePage (0xBF : Byte).toNat = true ∧ pageFenced State.reset (0xBF : Byte).toNat = false) ∧
    (Granted State.reset host .guarded Page.evt 0x300 ∧ fenceablePage (0x00 : Byte).toNat = false) ∧
    (Granted (setFence 0x16 1 State.reset) host .guarded Page.evt 0x300 ∧ pageFenced (setFence 0x16 1 State.reset) (0x16 : Byte).toNat = true) ∧
    (Granted (capturing1 []) host .guarded Page.evt 0x300 ∧ (capturing1 []).event.sequence = some (Page.can 15, 8, 77) ∧ canFence (capturing1 []) 0x16) := by
  and_intros <;> first | decide +kernel | exact fence_possible (by decide +kernel) | exact granted (by decide +kernel) | exact running (by decide +kernel)

def dumping : State :=
  { State.reset with boot := { State.reset.boot with dump := some (2, 0, 0, 0), summary := true }, event := { State.reset.event with pba := [(127, 1)] } }
    |> setFlag Page.evt Reg.evtDumpStatusBusy true |> setFlag Page.jrnl Reg.jrnlStatusCkptBusy true

/-- The hypotheses of DumpsAndCheckpoints are met. -/
theorem test_dumps_and_checkpoints_is_met :
    (Granted State.reset host .guarded Page.evt 0x300 ∧ pageFenced State.reset Page.dram = false ∧ flag State.reset Page.evt Reg.evtDumpStatusHeld = false ∧ flag State.reset Page.evt Reg.evtDumpStatusBusy = false) ∧
    (Granted dumping host .guarded Page.evt 0x300 ∧ flag dumping Page.evt Reg.evtDumpStatusBusy = true) ∧
    (Running dumping ∧ pageFenced dumping Page.dram = false ∧ dumping.boot.dump = some (2, 0, 0, 0) ∧ dumping.boot.summary = true ∧ pageFenced dumping Page.flash = false ∧ flag dumping Page.jrnl Reg.jrnlStatusCkptBusy = true ∧ decide_ dumping hostMaster .write (0xE0000 + 16 * (127 : Fin 128).val + 12) 4 = .ok ∧ storeGet 0 dumping.event.pba 127 = 1) ∧
    Granted State.reset host .guarded Page.jrnl 0x300 ∧
    (Granted (setFence 0xC0 1 State.reset) host .guarded Page.evt 0x300 ∧ pageFenced (setFence 0xC0 1 State.reset) Page.dram = true ∧ flag (setFence 0xC0 1 State.reset) Page.evt Reg.evtDumpStatusHeld = false ∧ flag (setFence 0xC0 1 State.reset) Page.evt Reg.evtDumpStatusBusy = false) ∧
    (Granted (setFlag Page.evt Reg.evtDumpStatusHeld true State.reset) host .guarded Page.evt 0x300 ∧ flag (setFlag Page.evt Reg.evtDumpStatusHeld true State.reset) Page.evt Reg.evtDumpStatusHeld = true) ∧
    (Running State.reset ∧ State.reset.boot.dump = none ∧ State.reset.boot.summary = false ∧ flag State.reset Page.jrnl Reg.jrnlStatusCkptBusy = false) ∧
    (Running (setFence 0xC0 1 dumping) ∧ pageFenced (setFence 0xC0 1 dumping) Page.dram = true ∧ (setFence 0xC0 1 dumping).boot.dump = some (2, 0, 0, 0) ∧ (setFence 0xC0 1 dumping).boot.summary = true ∧ flag (setFence 0xC0 1 dumping) Page.jrnl Reg.jrnlStatusCkptBusy = true) ∧
    (Running (setFence 0xC1 1 dumping) ∧ pageFenced (setFence 0xC1 1 dumping) Page.flash = true ∧ (setFence 0xC1 1 dumping).boot.summary = true ∧ flag (setFence 0xC1 1 dumping) Page.jrnl Reg.jrnlStatusCkptBusy = true) ∧
    (storeGet 0 State.reset.event.pba (127 : Fin 128) ≠ 1 ∧ decide_ State.reset hostMaster .write (0xE0000 + 16 * (127 : Fin 128).val + 12) 4 = .ok) := by
  and_intros <;> first | decide +kernel | exact granted (by decide +kernel) | exact running (by decide +kernel)

def confirming (tb2 : Nat) : State :=
  { State.reset with boot := { State.reset.boot with confirmFrom := some 0, standbyRun := true, booting := some 1 }, time := { State.reset.time with tb2 := tb2 } }
def holds (kind : Nat) : State := { State.reset with boot := { State.reset.boot with holding := some kind, hLost := true } }

/-- The hypotheses of Resets are met. -/
theorem test_resets_is_met :
    (Running (confirming (confirmWindow State.reset * 1000000000)) ∧ (confirming (confirmWindow State.reset * 1000000000)).boot.confirmFrom = some 0 ∧ 0 + confirmWindow (confirming (confirmWindow State.reset * 1000000000)) * 1000000000 ≤ (confirming (confirmWindow State.reset * 1000000000)).time.tb2) ∧
    (Running (confirming 1) ∧ (confirming 1).boot.confirmFrom = some 0 ∧ (confirming 1).time.tb2 < 0 + confirmWindow (confirming 1) * 1000000000 ∧ (confirming 1).boot.standbyRun = true ∧ (confirming 1).boot.booting = some 1) ∧
    (Running State.reset ∧ State.reset.boot.confirmFrom = none ∧ State.reset.boot.standbyRun = false ∧ State.reset.boot.booting = none) ∧
    (Running (confirming 1) ∧ (confirming 1).boot.booting = some 1 ∧ 1 < 2 ∧ flag (confirming 1) Page.upd Reg.updStatusStandby = false) ∧
    (Granted (setFlag Page.upd Reg.updStatusStandby true (confirming 1)) host .guarded Page.upd 0x304 ∧ flag (setFlag Page.upd Reg.updStatusStandby true (confirming 1)) Page.upd Reg.updStatusStandby = true) ∧
    (State.reset.boot.holding ≠ some 3 ∧ State.reset.boot.holding ≠ some 4 ∧ State.reset.boot.hLost = false) ∧
    (Granted State.reset host .guarded Page.upd 0x304 ∧ host.cls.val = classPlinth ∧ updState State.reset ≠ updCommitting) ∧
    (Granted State.reset { host with cls := 2 } .guarded Page.upd 0x304 ∧ ({ host with cls := 2 } : Master).cls.val ≠ classPlinth ∧ ({ host with cls := 2 } : Master).cls.val ≠ classNewel ∧ ({ host with cls := 2 } : Master).cls.val ≠ classMaster) ∧
    (Granted (setUpdState updCommitting State.reset) host .guarded Page.upd 0x304 ∧ updState (setUpdState updCommitting State.reset) = updCommitting) ∧
    (holds 3).boot.holding = some 3 ∧
    ((holds 4).boot.holding = some 4 ∧ (holds 4).boot.hLost = true ∧ Instr.cycleBoundary ≠ .vrst ∧ Instr.cycleBoundary ≠ .vholdFall ∧ (∀ b : Fin 4, Instr.cycleBoundary ≠ .resetRelease b ∧ Instr.cycleBoundary ≠ .bor b ∧ Instr.cycleBoundary ≠ .por b)) := by
  and_intros <;> first | decide +kernel | exact granted (by decide +kernel) | exact running (by decide +kernel)

/-- An update in a state, its staging area with an image of one header block and two body blocks. -/
def updating (st : Nat) : State :=
  { openDram State.reset with dram := cells [(0x3800008, 1), (0x380000C, 2)], key := { State.reset.key with lc := 2 } }
    |> setUpdState st |> setR Page.upd Reg.updDramSrc 0x7FF
/-- A body block of the image from the source. -/
def sourceBlock (s : State) : List Byte := memReadN s.dram (getR s Page.upd Reg.updDramSrc * 4096) 4096
/-- The same with the digest of a block of zeros as the last of its block hashes. -/
def hashed : State :=
  { updating updBody with dram := cells [(0x3800008, 1), (0x380000C, 2)] ++ (List.range 32).map fun i => (0x3800220 + i, Config.sha256Byte (sourceBlock State.reset) i) }
/-- The same with another digest. -/
def misHashed : State :=
  { updating updBody with dram := cells [(0x3800008, 1), (0x380000C, 2)] ++ (List.range 32).map fun i => (0x3800220 + i, ~~~ Config.sha256Byte (sourceBlock State.reset) i) }
/-- An image whose body is empty, with the digest of nothing. -/
def imaged : State :=
  { updating updCommitting with dram := cells [(0x3800008, 1), (0x380000C, 2)] ++ (List.range 32).map fun i => (0x3800080 + i, Config.sha256Byte [] i) }
def scrapped : State := { State.reset with key := { State.reset.key with lc := 4 } }
def indWord (w : Nat) (block : Nat) (words : List Nat) : State :=
  setR Page.upd Reg.comIndAddr w { State.reset with boot := { State.reset.boot with wordBlock := block, words := words } }
theorem source_zeros {s : State} (h : (s.dram.all fun c => decide (getR s Page.upd Reg.updDramSrc * 4096 + 4096 ≤ c.1)) = true) (x : List Byte) :
    (Config.sha256 (sourceBlock s) = x) = (Config.sha256 (sourceBlock State.reset) = x) := by
  have e : sourceBlock s = sourceBlock State.reset := memReadN_congr fun i hi => by
    rw [memRead_unlisted fun c hc => by have := of_decide_eq_true (List.all_eq_true.mp h c hc); omega]; rfl
  rw [e]
theorem hashed_match : Config.sha256 (sourceBlock hashed) = memReadN hashed.dram (updStaging + 0x200 + 32 * ((2 : BitVec 16).toNat - 1)) 32 := by
  rw [source_zeros (by decide +kernel)]; rfl
theorem misHashed_differs : Config.sha256 (sourceBlock misHashed) ≠ memReadN misHashed.dram (updStaging + 0x200 + 32 * ((2 : BitVec 16).toNat - 1)) 32 := by
  rw [ne_eq, source_zeros (by decide +kernel)]
  intro h
  have h : Config.sha256Byte (sourceBlock State.reset) 0 = ~~~ Config.sha256Byte (sourceBlock State.reset) 0 := (List.cons.inj h).1
  generalize Config.sha256Byte (sourceBlock State.reset) 0 = x at h
  revert x; decide +kernel
theorem imaged_ok : bodyOk (memSplice imaged.flash (areaBase (commitArea imaged)) (memReadN imaged.dram updStaging
    (4096 * (hdrBlocks imaged.dram updStaging + hdrBodyBlocks imaged.dram updStaging)))) (areaBase (commitArea imaged)) = true := by
  have e : 4096 * (hdrBlocks imaged.dram updStaging + hdrBodyBlocks imaged.dram updStaging) = 12288 := by decide +kernel
  rw [e]
  unfold bodyOk hdrDigest hdrBodySize memNat
  rw [memReadN_splice_copy _ _ _ _ 0x80 32 (by decide), memReadN_splice_copy _ _ _ _ 16 4 (by decide)]
  exact decide_eq_true rfl
def newelDown (s : State) : State := { s with event := { s.event with newel := some 1 } }

/-- The hypotheses of UpdatesAndSettings are met. -/
theorem test_updates_and_settings_is_met :
    (Granted (updating updIdle) host .guarded Page.upd 0x300 ∧ (updating updIdle).key.lc ≠ 4 ∧ updState (updating updIdle) ≠ updCommitting ∧ updState (updating updIdle) ≠ updComplete ∧ updState (updating updIdle) ≠ updHeader ∧ updState (updating updIdle) ≠ updBody ∧ dramAllowed (updating updIdle) (getR (updating updIdle) Page.upd Reg.updDramSrc * 4096) 4096 host.cls.val .read = true ∧ getR (updating updIdle) Page.upd Reg.updDramSrc * 4096 + 4096 ≤ journalBase) ∧
    (Granted (updating updHeader) host .guarded Page.upd 0x300 ∧ updState (updating updHeader) = updHeader ∧ (65535 : BitVec 16).toNat ≠ (updating updHeader).boot.hdrNext ∧ dramAllowed (updating updHeader) (getR (updating updHeader) Page.upd Reg.updDramSrc * 4096) 4096 host.cls.val .read = true) ∧
    (Granted scrapped host .guarded Page.upd 0x300 ∧ scrapped.key.lc = 4) ∧
    (Granted (setR Page.upd Reg.updDramSrc 0x3800 (updating updBody)) host .guarded Page.upd 0x300 ∧ dramAllowed (setR Page.upd Reg.updDramSrc 0x3800 (updating updBody)) (getR (setR Page.upd Reg.updDramSrc 0x3800 (updating updBody)) Page.upd Reg.updDramSrc * 4096) 4096 host.cls.val .read = false) ∧
    (Granted (updating updBody) host .guarded Page.upd 0x300 ∧ updState (updating updBody) = updBody ∧ dramAllowed (updating updBody) (getR (updating updBody) Page.upd Reg.updDramSrc * 4096) 4096 host.cls.val .read = true ∧ (0 : BitVec 16).toNat < hdrBlocks (updating updBody).dram updStaging ∧ hdrBlocks (updating updBody).dram updStaging + hdrBodyBlocks (updating updBody).dram updStaging ≤ (3 : BitVec 16).toNat) ∧
    (Granted hashed host .guarded Page.upd 0x300 ∧ updState hashed = updBody ∧ dramAllowed hashed (getR hashed Page.upd Reg.updDramSrc * 4096) 4096 host.cls.val .read = true ∧ getR hashed Page.upd Reg.updDramSrc * 4096 + 4096 ≤ journalBase ∧ hdrBlocks hashed.dram updStaging = 1 ∧ (2 : BitVec 16).toNat < 1 + hdrBodyBlocks hashed.dram updStaging ∧ Config.sha256 (sourceBlock hashed) = memReadN hashed.dram (updStaging + 0x200 + 32 * ((2 : BitVec 16).toNat - 1)) 32) ∧
    (Granted misHashed host .guarded Page.upd 0x300 ∧ updState misHashed = updBody ∧ dramAllowed misHashed (getR misHashed Page.upd Reg.updDramSrc * 4096) 4096 host.cls.val .read = true ∧ hdrBlocks misHashed.dram updStaging = 1 ∧ (2 : BitVec 16).toNat < 1 + hdrBodyBlocks misHashed.dram updStaging ∧ Config.sha256 (sourceBlock misHashed) ≠ memReadN misHashed.dram (updStaging + 0x200 + 32 * ((2 : BitVec 16).toNat - 1)) 32) ∧
    (Granted (updating updComplete) host .guarded Page.upd 0x300 ∧ updState (updating updComplete) = updComplete ∧ flag (updating updComplete) Page.upd Reg.updStatusTrial = false ∧ pageFenced (updating updComplete) Page.flash = false) ∧
    (Granted (setFence 0xC1 1 (updating updComplete)) host .guarded Page.upd 0x300 ∧ updState (setFence 0xC1 1 (updating updComplete)) = updComplete ∧ flag (setFence 0xC1 1 (updating updComplete)) Page.upd Reg.updStatusTrial = false ∧ pageFenced (setFence 0xC1 1 (updating updComplete)) Page.flash = true) ∧
    (Granted (setFlag Page.upd Reg.updStatusTrial true (updating updComplete)) host .guarded Page.upd 0x300 ∧ updState (setFlag Page.upd Reg.updStatusTrial true (updating updComplete)) = updComplete ∧ flag (setFlag Page.upd Reg.updStatusTrial true (updating updComplete)) Page.upd Reg.updStatusTrial = true) ∧
    (Granted (updating updCommitting) host .guarded Page.upd 0x300 ∧ (updating updCommitting).key.lc ≠ 4 ∧ updState (updating updCommitting) = updCommitting) ∧
    (Running (updating updIdle) ∧ updState (updating updIdle) ≠ updCommitting) ∧
    (Running imaged ∧ updState imaged = updCommitting ∧ pageFenced imaged Page.dram = false ∧ pageFenced imaged Page.flash = false ∧ bodyOk (memSplice imaged.flash (areaBase (commitArea imaged)) (memReadN imaged.dram updStaging (4096 * (hdrBlocks imaged.dram updStaging + hdrBodyBlocks imaged.dram updStaging)))) (areaBase (commitArea imaged)) = true) ∧
    (Granted (indWord 0xFFFC00 0 []) host .write Page.upd 0x34 ∧ indIndex .upd (indAddr (indWord 0xFFFC00 0 []) host Page.upd) % 1024 = 0) ∧
    (Granted (indWord 1026 1 [7, 7]) host .write Page.upd 0x34 ∧ indIndex .upd (indAddr (indWord 1026 1 [7, 7]) host Page.upd) = 1026 ∧ (indWord 1026 1 [7, 7]).boot.wordBlock = 1026 / 1024 ∧ (indWord 1026 1 [7, 7]).boot.words.length = 1026 % 1024) ∧
    (Granted (indWord 2047 1 (List.replicate 1023 7)) host .write Page.upd 0x34 ∧ indIndex .upd (indAddr (indWord 2047 1 (List.replicate 1023 7)) host Page.upd) = 2047 ∧ (indWord 2047 1 (List.replicate 1023 7)).boot.wordBlock = 2047 / 1024 ∧ (indWord 2047 1 (List.replicate 1023 7)).boot.words.length = 2047 % 1024 ∧ updState (indWord 2047 1 (List.replicate 1023 7)) ≠ updHeader ∧ updState (indWord 2047 1 (List.replicate 1023 7)) ≠ updBody ∧ pageFenced (indWord 2047 1 (List.replicate 1023 7)) Page.dram = false) ∧
    (Granted (indWord 1026 1 [7]) host .write Page.upd 0x34 ∧ indIndex .upd (indAddr (indWord 1026 1 [7]) host Page.upd) = 1026 ∧ (indWord 1026 1 [7]).boot.words.length ≠ 1026 % 1024) ∧
    (Granted (updating updIdle) host .guarded Page.upd 0x308 ∧ pageFenced (updating updIdle) Page.flash = false ∧ newelRuns (updating updIdle) = true) ∧
    (Granted (newelDown (updating updIdle)) host .guarded Page.upd 0x308 ∧ newelRuns (newelDown (updating updIdle)) = false ∧ pageFenced (newelDown (updating updIdle)) Page.flash = false) ∧
    (Granted (setFence 0xC1 1 (updating updIdle)) host .guarded Page.upd 0x308 ∧ pageFenced (setFence 0xC1 1 (updating updIdle)) Page.flash = true ∧ newelRuns (setFence 0xC1 1 (updating updIdle)) = true) ∧
    (Running State.reset ∧ Running (setFlag Page.dram Reg.dramCfgScrubEn false State.reset) ∧ flag (setFlag Page.dram Reg.dramCfgScrubEn false State.reset) Page.dram Reg.dramCfgScrubEn = false) ∧
    (Running (setFence 0xC0 1 State.reset) ∧ pageFenced (setFence 0xC0 1 State.reset) Page.dram = true) ∧
    (Running (setFlag Page.dram Reg.dramCfgScrubEn true (updating updIdle)) ∧ flag (setFlag Page.dram Reg.dramCfgScrubEn true (updating updIdle)) Page.dram Reg.dramCfgScrubEn = true ∧ pageFenced (setFlag Page.dram Reg.dramCfgScrubEn true (updating updIdle)) Page.dram = false) := by
  and_intros <;> first | decide +kernel | exact hashed_match | exact misHashed_differs | exact imaged_ok | exact granted (by decide +kernel) | exact running (by decide +kernel)

/-- The hypotheses of StepTakesTheFrontCommand are met. -/
theorem test_step_takes_the_front_command_is_met :
    State.reset.pending = [] := by
  decide +kernel

/-- The hypotheses of UnlistedOffsetsReadZero are met. -/
theorem test_unlisted_offsets_read_zero_is_met :
    (Granted State.reset host .read (0xBF : Byte).toNat 0x2FC ∧ kindOf (0xBF : Byte).toNat ≠ .none ∧ (∀ f ∈ pageFields (0xBF : Byte).toNat, f.off ≠ 0x2FC)) ∧
    Granted State.reset host .write (0xBF : Byte).toNat 0x2FC := by
  and_intros <;> first | decide +kernel | exact granted (by decide +kernel)

/-- The hypotheses of FaultInAFencedBlockIsOnlyCounted are met. -/
theorem test_fault_in_a_fenced_block_is_only_counted_is_met :
    (Running (setFlag (Page.can 15) Reg.comFenceFenced true State.reset) ∧ faultPage (0xBF : Byte).toNat = true ∧ blockFenced (setFlag (Page.can 15) Reg.comFenceFenced true State.reset) (0xBF : Byte).toNat = true) ∧
    (Running { State.reset with event := { State.reset.event with newel := some 8 } } ∧ faultPage (0xFF : Byte).toNat = true ∧ blockFenced { State.reset with event := { State.reset.event with newel := some 8 } } (0xFF : Byte).toNat = true) := by
  and_intros <;> first | decide +kernel | exact running (by decide +kernel)

/-! ### Well-formedness -/

/-- Two temperatures where nine sensors are. -/
def fewTemps : Sense := { pMod := 0, pCard := 0, temps := [(0, true), (0, true)], load := 0 }
/-- A measurement of no channel. -/
def noChannels : PowerMeas := { noPower with chans := [] }
/-- A frame with data for another DLC, and one with an identifier of more than 11 bits. -/
def shortFrame : CanFrame := { canFrame with dlc := 7 }
def wideId : CanFrame := { canFrame with id := 0x855 }

/-- Every check of well-formedness refuses a term that breaks it. -/
theorem test_ill_formed_refused : ∀ c ∈ [Instr.markerStripeReceived .east [] 0 0,
    .markerStripeReceived .east [{ lane := 0, payload := 0, delay := 0 }, { lane := 0, payload := 0, delay := 0 }] 0 0,
    .dmaDataReturn 0 0 0 [], .dmaDataReturn 0 0 0x400000 [7], .pairLinkFrame [7], .pcieBar2Write 0 [], .pcieBar2Write 0 (List.replicate 513 7),
    .lhWrite 0 [] 0, .lhWrite 0 (List.replicate 257 7) 0, .lhWriteNp 0 [] 0, .lhWriteNp 0 (List.replicate 257 7) 0, .i2cDone 0 2 [7],
    .canFrameReceived 0 shortFrame false 0, .canFrameReceived 0 wideId false 0, .admission noChannels, .bow noChannels, .shed noChannels,
    .restoration noChannels, .governorDecision fewTemps, .registerWrite host 0 [], .registerWrite host 0 (List.replicate 4097 7)],
    c.wellFormed = false := by decide +kernel

/-- The same commands with operands at the bounds are well formed. -/
theorem test_well_formed_accepted : ∀ c ∈ [Instr.markerStripeReceived .east [{ lane := 3, payload := 0, delay := 0 }] 0 0, .dmaDataReturn 0 0 0x3FFFFF [7],
    .pairLinkFrame viewFrame, .pcieBar2Write 0 (List.replicate 512 7), .lhWrite 0 (List.replicate 256 7) 0, .i2cDone 0 2 [7, 7],
    .canFrameReceived 0 canFrame false 0, .admission noPower, .registerWrite host 0 (List.replicate 4096 7), .cycleBoundary],
    c.wellFormed = true := by decide +kernel

/-! ### Values that the spec itself gives -/

/-- The ASCII bytes "123456789". -/
def digits : List Byte := [0x31, 0x32, 0x33, 0x34, 0x35, 0x36, 0x37, 0x38, 0x39]

/-- R76 and the pair link frame table (R152) give both CRCs over these bytes. -/
theorem test_crc_values : crc32c digits = 0xE3069283 ∧ crc16 digits = 0x29B1 := by decide +kernel

/-- The table of R67: stream blocks in 31.25 µs for both rates at four, two lanes and one. -/
theorem test_stream_blocks : [blockPs 0 2, blockPs 0 1, blockPs 0 0, blockPs 1 2, blockPs 1 1, blockPs 1 0].map (31250000 / ·) =
    [48828, 24414, 12207, 19531, 9765, 4882] := by decide +kernel

/-- The example of R305's signed difference. -/
theorem test_time_difference : timeDiff 0x1000 0xFFFFF000 = 8192 := by decide +kernel

/-- The example of chapter 1: engine 37 has page 0x55 and belongs to tile 4, whose page is 0x24. -/
theorem test_engine_page : Page.eng 37 = 0x55 ∧ Page.tile (tileOf 37) = 0x24 := by decide +kernel

/-- M38 is IO_B05_P11, the example of R490, and 759 positions of the grid are PGND (R491). -/
theorem test_pad_places : padAt 12 38 = .io 5 11 ∧
    ((List.range 1521).filter fun i => padAt (i / 39 + 1) (i % 39 + 1) = .pgnd).length = 759 := by decide +kernel

/-- A command in front of the queue is taken from it, and runs. -/
theorem test_step_takes_command :
    (match step { State.reset with pending := [.vholdLow true, .xtaLost] } with
     | .next t => decide (t.pending = [.xtaLost]) && levelOn t Page.brk Ev.brkVholdLow
     | _ => false) = true := by decide +kernel

end Sys2Proof.Tests
end

section
/-!
PROOFS. The scope of the register tables: what reset leaves (R11), and an access to an offset that no table lists (R10).
-/

namespace Sys2Proof.Machine

/-! ### The state after reset -/

/-- The Rst value of every field of a page's table fits the field's width (R7). -/
theorem pageFields_rst : ∀ p, ∀ f ∈ pageFields p, f.rst < 2 ^ f.width := by
  have hk : ∀ k : PageKind, ∀ f ∈ Reg.comFields ++ kindFields k, f.rst < 2 ^ f.width := by
    intro k
    cases k <;> decide +kernel
  intro p f hf
  unfold pageFields at hf
  split at hf
  · cases hf
  · exact hk _ f hf

/-- No register is stored after reset: a field whose Rst value fits its width reads that value. -/
theorem getR_reset (p : Nat) {f : Fld} (h : f.rst < 2 ^ f.width) : getR State.reset p f = f.rst := Nat.mod_eq_of_lt h

/-- The state after reset has the invariant: its memories and its logs are empty. -/
theorem reset_wf : State.reset.Wf where
  dram := rfl
  flash := rfl
  committed := rfl
  staging := rfl
  active := rfl
  pend := rfl
  store := fun _ h => nomatch h
  log := Nat.zero_le _
  held := Nat.zero_le _

/-- Settles O59: the state after reset stores nothing, so each field reads its Rst value and each table its default. -/
theorem resetState : Obligations.ResetState :=
  ⟨reset_wf, rfl, fun p f hf => getR_reset p (pageFields_rst p f hf), fun _ => rfl, rfl, rfl, fun _ => ⟨rfl, rfl, rfl⟩⟩

/-! ### Offsets that no table lists (R10) -/

/-- The word offsets from 0x040 up at which a read or a write of a page kind does more than show or store the fields of the word: it shows state, it
latches or shows a latched word, or the write has an effect of its own. -/
def ownOffset (k : PageKind) (off : Nat) : Bool :=
  match k with
  | .hub => decide (off = 0x44 ∨ off = 0x48 ∨ off = 0x4C ∨ off = 0x50)
  | .clk => decide (off = 0x48)
  | .gov => decide (off = 0x98)
  | .evt => decide ((0x80 ≤ off ∧ off < 0x90) ∨ (0x100 ≤ off ∧ off < 0x180))
  | .jrnl => decide (off = 0x40 ∨ off = 0x44 ∨ off = 0x48 ∨ off = 0x4C)
  | .acc => decide (off = 0x44)
  | .key => decide (off = 0x40 ∨ (0x48 ≤ off ∧ off < 0x58) ∨ off = 0x58 ∨ off = 0x7C)
  | .upd => decide (off = 0x54 ∨ off = 0x64)
  | .time => decide ((0x48 ≤ off ∧ off ≤ 0x68) ∨ off = 0x90 ∨ off = 0xB4)
  | .trig => decide ((0x80 ≤ off ∧ off < 0x100) ∨ (0x200 ≤ off ∧ off < 0x300))
  | .i2c => decide (off = 0x44)
  | .lane => decide (off = 0x40 ∨ (0x80 ≤ off ∧ off < 0x180 ∧ (off % 0x40 = 0 ∨ off % 0x40 = 0x14 ∨ 0x20 ≤ off % 0x40)))
  | .stn => decide (off = 0x40)
  | .stair => decide (off = 0x54 ∨ off = 0x58)
  | .img => decide (off = 0x40 ∨ off = 0x44 ∨ off = 0x48 ∨ (0x54 ≤ off ∧ off ≤ 0x60) ∨ off = 0x70)
  | .duplex => decide (off = 0x40 ∨ off = 0x50 ∨ off = 0x54 ∨ off = 0x64 ∨ off = 0x68 ∨ (0x78 ≤ off ∧ off ≤ 0x88) ∨ off = 0xCC ∨ off = 0xD0)
  | .bridge => decide (off = 0x4C ∨ off = 0x50 ∨ off = 0x58 ∨ off = 0x78 ∨ off = 0xA8)
  | .cab => decide ((0x4C ≤ off ∧ off ≤ 0x5C) ∨ off = 0x78 ∨ off = 0x84 ∨ off = 0x88 ∨ off = 0x8C ∨ (0xA0 ≤ off ∧ off < 0xE0 ∧ off % 0x10 = 0))
  | .mirror => decide (off = 0x54)
  | .tile => decide (off = 0x40 ∨ (0x60 ≤ off ∧ off < 0xE0))
  | .eng => decide (off = 0x48 ∨ off = 0x6C ∨ off = 0x74 ∨ off = 0x78 ∨ off = 0x7C ∨ off = 0x94 ∨ off = 0xA0)
  | .can => decide (off = 0x40 ∨ off = 0x60 ∨ off = 0x68 ∨ off = 0x70 ∨ off = 0x98 ∨ off = 0x9C)
  | .dram | .flash => decide (off = 0x54)
  | .debug => decide (off = 0x40)
  | .brk | .pcie | .lh | .none => false

/-- The table of the page kind lists every such word. -/
theorem ownOffset_listed {k : PageKind} {off : Nat} (h : ownOffset k off = true) (h0 : 0x40 ≤ off) (h1 : off < 0x300) (h4 : off % 4 = 0) :
    ∃ f ∈ kindFields k, f.off = off := by
  have hall : ∀ i < 176, ownOffset k (0x40 + 4 * i) = true → ∃ f ∈ kindFields k, f.off = 0x40 + 4 * i := by
    cases k <;> decide +kernel
  have e : 0x40 + 4 * ((off - 0x40) / 4) = off := by omega
  simpa only [e, h, true_implies] using hall ((off - 0x40) / 4) (by omega)

/-- A word that no table lists is none of them. -/
theorem ownOffset_of_unlisted {p off : Nat} (hk : kindOf p ≠ .none) (h0 : 0x40 ≤ off) (h1 : off < 0x300) (h4 : off % 4 = 0)
    (hu : ∀ f ∈ pageFields p, f.off ≠ off) : ownOffset (kindOf p) off = false := by
  refine Bool.eq_false_iff.mpr fun h => ?_
  obtain ⟨f, hf, e⟩ := ownOffset_listed h h0 h1 h4
  have hp : f ∈ pageFields p := by
    rw [pageFields, if_neg hk]
    exact List.mem_append_right _ hf
  exact hu f hp e

/-! Such a word shows and does nothing of its own. -/

section
variable {p off : Nat}

theorem commonWord_eq_none (h0 : 0x40 ≤ off) (s : State) (m : Master) : commonWord s m p off = none := by
  unfold commonWord
  split <;> simp_all

theorem timeLive_eq_none (h : ¬(0x48 ≤ off ∧ off ≤ 0x68)) (h' : off ≠ 0x90) (s : State) : timeLive s off = none := by
  unfold timeLive
  split <;> simp_all

theorem cabAccount_eq_none (h : ¬(0x4C ≤ off ∧ off ≤ 0x5C)) (s : State) : cabAccount s off = none := by
  unfold cabAccount
  repeat rw [if_neg (by omega)]

theorem ownWord_eq_none (ho : ownOffset (kindOf p) off = false) (h1 : off < 0x300) (s : State) (m : Master) :
    ownWord s m p off = none := by
  unfold ownWord
  cases hk : kindOf p <;> simp only [hk, ownOffset, decide_eq_false_iff_not] at ho <;> dsimp only
  case hub | stair | img | upd => split <;> simp_all
  case acc | key | evt | eng => repeat rw [if_neg (by omega)]
  case cab =>
    rw [if_neg (by omega), if_neg (by omega)]
    exact cabAccount_eq_none (by omega) s
  case time => exact timeLive_eq_none (by omega) (by omega) s

theorem latchedHi_eq_none (ho : ownOffset (kindOf p) off = false) : latchedHi p off = none := by
  unfold latchedHi
  cases hk : kindOf p <;> simp only [hk, ownOffset, decide_eq_false_iff_not] at ho <;> dsimp only
  case lane | stair | img | hub | duplex | bridge | jrnl => rw [if_neg (by omega)]

/-- Nor is it the high word of a latched pair. -/
theorem latchedHi_ne_some (ho : ownOffset (kindOf p) off = false) : latchedHi p (off - 4) ≠ some off := by
  intro h
  unfold latchedHi at h
  cases hk : kindOf p <;> simp only [hk, ownOffset, decide_eq_false_iff_not] at ho h
  case lane | stair | img | hub | duplex | bridge | jrnl =>
    obtain ⟨hc, e⟩ := Option.ite_none_right_eq_some.mp h
    have := Option.some.inj e
    omega
  all_goals cases h

theorem whenS_of_false {b : Bool} (h : b = false) (f : State → State) (s : State) : whenS b f s = s := by
  rw [h]
  rfl

/-- An effect of a write to one word does not come with a write to another. -/
theorem whenS_at_other {c : Prop} [Decidable c] (h : ¬c) (b : Bool) (f : State → State) (s : State) : whenS (decide c && b) f s = s :=
  whenS_of_false (by rw [decide_eq_false h, Bool.false_and]) f s

theorem ownEffect_eq_self (ho : ownOffset (kindOf p) off = false) (m : Master) (v mask act word : Nat) (before s : State) :
    ownEffect m p off v mask act word before s = s := by
  unfold ownEffect
  cases hk : kindOf p <;> simp only [hk, ownOffset, decide_eq_false_iff_not] at ho <;> dsimp only
  case lane | duplex | cab | eng | can | time | trig | key =>
    dsimp only [laneEffect, duplexEffect, cabEffect, engEffect, canEffect, timeEffect, trigEffect, keyEffect]
    repeat rw [if_neg (by omega)]
  case img | clk => repeat rw [if_neg (by omega)]
  case bridge =>
    rw [if_neg (by omega), if_neg (by omega)]
    exact whenS_at_other (by omega) _ _ s
  case tile =>
    rw [if_neg (by omega)]
    exact whenS_of_false (decide_eq_false (by omega)) _ s
  case debug => exact whenS_of_false (decide_eq_false ho) _ s
  case stn | i2c | mirror | gov | acc | dram | flash => exact whenS_at_other ho _ _ s

/-- A read of it takes the word as it stands and changes nothing. -/
theorem readWord_eq_peekWord (ho : ownOffset (kindOf p) off = false) (m : Master) (s : State) :
    readWord m p off s = (peekWord s m p off, s) := by
  unfold readWord
  rw [latchedHi_eq_none ho]
  dsimp only
  rw [if_neg (latchedHi_ne_some ho)]
  cases hk : kindOf p <;> simp only [hk, ownOffset, decide_eq_false_iff_not] at ho <;> dsimp only
  case eng | cab | trig => rw [if_neg (by omega)]
  case time =>
    rw [if_neg]
    rintro ⟨hs, hl⟩
    rw [timeLive_eq_none (by omega) (by omega)] at hs
    cases hs

end

/-! ### Accesses to a word that no table lists -/

section
variable {p off : Nat} (hu : ∀ f ∈ pageFields p, f.off ≠ off)
include hu

theorem wordFields_unlisted : wordFields p off = [] :=
  List.filter_eq_nil_iff.mpr fun f hf => by simpa only [decide_eq_true_eq] using hu f hf

theorem storedWord_unlisted (s : State) (m : Master) : storedWord s m p off = 0 := by
  rw [storedWord, wordFields_unlisted hu]
  rfl

theorem storeRw_unlisted (m : Master) (v mask : Nat) (s : State) : storeRw m p off v mask s = s := by
  rw [storeRw, wordFields_unlisted hu]
  rfl

variable (hk : kindOf p ≠ .none) (h0 : 0x40 ≤ off) (h1 : off < 0x300) (h4 : off % 4 = 0)
include hk h0 h1 h4

/-- It reads 0, with no effect (R10). -/
theorem readRegister_unlisted (m : Master) (s : State) : readRegister m p off s = (0, s) := by
  have ho := ownOffset_of_unlisted hk h0 h1 h4 hu
  have hp : peekWord s m p off = 0 := by
    simp only [peekWord, if_neg (show ¬0x380 ≤ off by omega), commonWord_eq_none h0, ownWord_eq_none ho h1, storedWord_unlisted hu]
  rw [readRegister, if_neg (by omega), readWord_eq_peekWord ho, hp]

/-- A write to it is ignored (R10). -/
theorem writeWord_unlisted (m : Master) (v mask : Nat) (s : State) : writeWord m p off v mask s = s := by
  have ho := ownOffset_of_unlisted hk h0 h1 h4 hu
  unfold writeWord
  split
  · rfl
  · rw [if_neg (by omega), storeRw_unlisted hu, ownEffect_eq_self ho]

end

/-! ### Register words at their fabric addresses -/

theorem toNat_pageAddr {p off : Nat} (hp : p < 256) (ho : off < 4096) : (BitVec.ofNat 48 (p * 4096 + off)).toNat = p * 4096 + off := by
  rw [BitVec.toNat_ofNat, Nat.mod_eq_of_lt (by omega)]

/-- A write of a word at its fabric address without a node is a register write of this hub (R181). -/
theorem fabricWrite_page {p off : Nat} (hp : p < 256) (ho : off < 4096) (m : Master) (v : Nat) (s : State) :
    fabricWrite m (p * 4096 + off) (leBytes 4 v) s = regWrite m p off v s := by
  have hd : (p * 4096 + off) / 2 ^ 40 = 0 := by omega
  have hm : (p * 4096 + off) % 2 ^ 40 = p * 4096 + off := by omega
  simp only [fabricWrite, hd, hm, ownNode, decide_true, Bool.true_or, if_true, regWrite]

/-- So is a read. -/
theorem fabricRead_page {p off : Nat} (hp : p < 256) (ho : off < 4096) (m : Master) (s : State) :
    fabricRead m (p * 4096 + off) 4 s = regRead m p off s := by
  have hd : (p * 4096 + off) / 2 ^ 40 = 0 := by omega
  have hm : (p * 4096 + off) % 2 ^ 40 = p * 4096 + off := by omega
  simp only [fabricRead, hd, hm, ownNode, decide_true, Bool.true_or, if_true, regRead]

theorem exec_registerRead_page {p off : Nat} (hp : p < 256) (ho : off < 4096) (m : Master) (s : State) :
    exec (.registerRead m (BitVec.ofNat 48 (p * 4096 + off)) 4) s = alive s (regRead m p off s) := by
  show alive s (fabricRead m (BitVec.ofNat 48 (p * 4096 + off)).toNat 4 s) = _
  rw [toNat_pageAddr hp ho, fabricRead_page hp ho]

theorem exec_registerWrite_page {p off : Nat} (hp : p < 256) (ho : off < 4096) (m : Master) (v : Nat) (s : State) :
    exec (.registerWrite m (BitVec.ofNat 48 (p * 4096 + off)) (leBytes 4 v)) s = alive s (regWrite m p off v s) := by
  show alive s (fabricWrite m (BitVec.ofNat 48 (p * 4096 + off)).toNat (leBytes 4 v) s) = _
  rw [toNat_pageAddr hp ho, fabricWrite_page hp ho]

/-- Settles O57: a page kind shows state, latches and acts only at words that its table lists, so an unlisted word reads 0 and takes no write. -/
theorem unlistedOffsetsReadZero : Obligations.UnlistedOffsetsReadZero := by
  intro s m p off hk h0 h1 h4 hu
  have hp := (kindOf_page hk).1
  refine ⟨fun h => ?_, fun value h => ?_⟩
  · have e : regRead m p.toNat off s = emit (.answer m 0 0) s := by
      rw [regRead_granted h hk (by omega) h4, readRegister_unlisted hu hk h0 h1 h4]
      rfl
    refine completes_alive h.running (exec_registerRead_page hp (by omega) m s) ?_
    rw [e]
    exact ⟨rfl, rfl, .refl _ _, .rfl' _⟩
  · obtain ⟨o, e⟩ := regWrite_granted h hk h1 h4 (by omega) value.isLt
    rw [writeWord_unlisted hu hk h0 h1 h4] at e
    refine completes_alive h.running (exec_registerWrite_page hp (by omega) m value.toNat s) ?_
    rw [e]
    exact ⟨rfl, rfl, rfl, .rfl' _⟩

end Sys2Proof.Machine
end

section
/-!
PROOFS. Commands of a ring station's page: what a journaled command leaves alone, and QCMD's QUARANTINE, ARM_OPEN and DISARM (R144, R145).
-/

namespace Sys2Proof.Machine

/-! ### Frames -/

theorem SameMemory.trans {s t u : State} (h : SameMemory s t) (k : SameMemory t u) : SameMemory s u := by
  intro a
  obtain ⟨h1, h2, h3, h4, h5, h6, h7⟩ := h a
  obtain ⟨k1, k2, k3, k4, k5, k6, k7⟩ := k a
  exact ⟨k1.trans h1, k2.trans h2, k3.trans h3, k4.trans h4, k5.trans h5, k6.trans h6, k7.trans h7⟩

theorem SameRegisters.mono {ps qs : List Nat} {s t : State} (h : SameRegisters ps s t) (hs : ∀ p ∈ ps, p ∈ qs) : SameRegisters qs s t :=
  fun p hp f hf => h p (fun hm => hp (hs p hm)) f hf

/-! ### The journal's entry (R445) -/

theorem journalBytes_length (s : State) (seq : Nat) (who : Option Master) (cls target value result : Nat) :
    (journalBytes s seq who cls target value result).length = 32 := by
  simp [journalBytes]

theorem getR_journal_page {q : Nat} (h : q ≠ Page.jrnl) {g : Fld} (hg : fldOk g) (who : Option Master) (cls target value result : Nat) (s : State) :
    getR (journal who cls target value result s) q g = getR s q g :=
  getR_journal ⟨hg, fun e => absurd e h⟩ who cls target value result s

theorem sameRegisters_journal {ps : List Nat} (hp : Page.jrnl ∈ ps) (who : Option Master) (cls target value result : Nat) {s t : State}
    (h : SameRegisters ps s t) : SameRegisters ps s (journal who cls target value result t) :=
  h.trans fun q hq f hf => getR_journal_page (fun e => hq (by rw [e]; exact hp)) (pageFields_ok q f hf) who cls target value result t

/-- An entry is written at HEAD's place in DRAM, or held while DRAM is fenced. -/
theorem journal_dram (who : Option Master) (cls target value result : Nat) (s : State) {x : Nat}
    (hx : x < journalSlot s ∨ journalSlot s + 32 ≤ x) : memRead (journal who cls target value result s).dram x = memRead s.dram x := by
  have hck : ∀ u, (startCheckpoint u).dram = u.dram := by
    intro u
    unfold startCheckpoint
    split <;> simp
  unfold journal
  dsimp only
  split
  · simp
  · unfold journalWrite healDram
    dsimp only
    rw [whenS_keep (·.dram) hck]
    simp only [setPair_rest]
    exact memRead_writeN_outside _ _ _ _ (by rw [journalBytes_length]; exact hx)

/-- A journaled command that touches the registers of listed pages besides writes its entry at HEAD as it stood (R445). -/
theorem sameMemoryBut_journal {ps : List Nat} (hj : Page.jrnl ∉ ps) (who : Option Master) (cls target value result : Nat) {s t : State}
    (hr : SameRegisters ps s t) (hm : SameMemory s t) : SameMemoryBut (journalSlot s) 32 s (journal who cls target value result t) := by
  have hh : journalSlot t = journalSlot s := by
    unfold journalSlot journalHead getPair
    rw [hr _ hj Reg.jrnlHeadLoSeq (by decide +kernel), hr _ hj Reg.jrnlHeadHi (by decide +kernel)]
  constructor
  · intro x hx
    exact (journal_dram who cls target value result t (hh ▸ hx)).trans (hm x).1
  · intro x
    simpa using (hm x).2

/-! ### A permitted guarded command -/

/-- A permitted command of a guarded register completes in what its guarded write leaves: `P` does not look at what is sent or at the queue. -/
theorem completes_guarded {c : Instr} {s : State} {m : Master} {p off v : Nat} {P : State → Prop} (h : Granted s m .guarded p off)
    (hk : kindOf p ≠ .none) (ho : 0x300 ≤ off) (ho' : off < 0x380) (h4 : off % 4 = 0) (hv : v < 2 ^ 32)
    (e : exec c s = alive s (regGuarded m p off v s)) (hi : ∀ t o q, P t → P { t with sent := o, pending := q })
    (hP : ∀ o, P (guardedWrite m p off v { s with sent := o })) : Completes c s P := by
  obtain ⟨o, o', eg⟩ := regGuarded_granted h hk ho ho' h4 hv
  refine completes_alive h.running e ?_
  rw [eg]
  exact hi (guardedWrite m p off v { s with sent := s.sent ++ o }) _ _ (hP _)

/-! ### QCMD -/

section
variable (st : Side)

theorem stn_ne_jrnl : Page.stn st ≠ Page.jrnl := by cases st <;> decide

theorem stair_not_mem_stn : Page.stair ∉ [Page.stn st, Page.evt] := by cases st <;> decide
theorem upd_not_mem_stn : Page.upd ∉ [Page.stn st, Page.evt] := by cases st <;> decide
theorem jrnl_not_mem_stn : Page.jrnl ∉ [Page.stn st, Page.evt] := by cases st <;> decide

theorem storeGuarded_qcmd (v : Nat) (s : State) : storeGuarded (Page.stn st) 0x308 v s = setR (Page.stn st) Reg.stnQcmd v s := by
  have hf : (wordFields (Page.stn st) 0x308).filter (fun f => f.acc = .g) = [Reg.stnQcmd] := by
    cases st <;> decide +kernel
  unfold storeGuarded
  rw [hf]
  show setR (Page.stn st) Reg.stnQcmd (v / 2 ^ 0) s = _
  rw [Nat.pow_zero, Nat.div_one]

theorem guardedEffect_qcmd (m : Master) (v : Nat) (s : State) : guardedEffect m (Page.stn st) 0x308 v s = stationCommand st (v % 256) s := by
  cases st <;> rfl

end

/-- A guarded write of QCMD: the command acts on the stored register, and is journaled as carried out or as refused (R393). -/
theorem guardedWrite_qcmd (m : Master) (st : Side) {v : Nat} (hv : v < 256) (s : State) {t : State} {refused : Bool}
    (e : stationCommand st v (setR (Page.stn st) Reg.stnQcmd v s) = (t, endIf refused)) :
    guardedWrite m (Page.stn st) 0x308 v s =
      if refused then journalRefused (some m) 0x01 (2 ^ 12 * Page.stn st + 0x308) v t
      else journal (some m) 0x01 (2 ^ 12 * Page.stn st + 0x308) v 0 t := by
  unfold guardedWrite
  rw [storeGuarded_qcmd, guardedEffect_qcmd, Nat.mod_eq_of_lt hv, e]
  cases refused <;> rfl

/-! ### What the cycle number is read from -/

theorem staircaseActs_congr {s t : State} (ha : getR t Page.stair Reg.stairStatusActState = getR s Page.stair Reg.stairStatusActState)
    (hm : getR t Page.upd Reg.updStatusSafeMode = getR s Page.upd Reg.updStatusSafeMode) (hk : t.key = s.key) :
    staircaseActs t = staircaseActs s := by
  unfold staircaseActs flag
  rw [ha, hm, hk]

theorem cycleNow_congr {ps : List Nat} {s t : State} (hr : SameRegisters ps s t) (hs : Page.stair ∉ ps) (hu : Page.upd ∉ ps)
    (h : t.time = s.time ∧ t.stair = s.stair ∧ t.key = s.key) : cycleNow t = cycleNow s := by
  obtain ⟨ht, hst, hk⟩ := h
  have ha := hr _ hs Reg.stairStatusActState (by decide +kernel)
  have hp := hr _ hs Reg.stairStatusPendState (by decide +kernel)
  have hm := hr _ hu Reg.updStatusSafeMode (by decide +kernel)
  unfold cycleNow period isCandidate staircaseActive pendState
  rw [staircaseActs_congr ha hm hk, ha, hp, ht, hst]

section
variable (st : Side)

/-- The effect of a command of a station's page on the rest: pages but its own and EVT stay, and so does memory. -/
def StationOnly (s t : State) : Prop := SameRegisters [Page.stn st, Page.evt] s t ∧ SameMemory s t

/-- The same once the command is journaled. -/
def StationJournaled (s t : State) : Prop :=
  SameRegisters [Page.stn st, Page.evt, Page.jrnl] s t ∧ SameMemoryBut (journalSlot s) 32 s t

variable {st}

theorem stationOnly_setR {g : Fld} (hg : fldOk g) (v : Nat) {s t : State} (h : StationOnly st s t) :
    StationOnly st s (setR (Page.stn st) g v t) :=
  ⟨sameRegisters_setR (by simp) hg v h.1, h.2.trans (sameMemory_of (by simp))⟩

theorem stationOnly_raiseEv (i : Nat) {s t : State} (h : StationOnly st s t) : StationOnly st s (raiseEv (Page.stn st) i t) :=
  ⟨sameRegisters_raiseEv (by simp) (by simp) i h.1, h.2.trans (sameMemory_of (by simp))⟩

theorem stationOnly_quarantineCmd {s t : State} (h : StationOnly st s t) : StationOnly st s (quarantineCmd st t) := by
  cases st <;> exact h

theorem stationOnly_qcmd (v : Nat) (s : State) : StationOnly st s (setR (Page.stn st) Reg.stnQcmd v s) :=
  stationOnly_setR (by decide) v ⟨.refl _ _, .rfl' _⟩

theorem StationOnly.journal {s t : State} (h : StationOnly st s t) (who : Option Master) (cls target value result : Nat) :
    StationJournaled st s (journal who cls target value result t) :=
  ⟨sameRegisters_journal (by simp) who cls target value result (h.1.mono (by simp +contextual)),
   sameMemoryBut_journal (jrnl_not_mem_stn st) who cls target value result h.1 h.2⟩

theorem StationOnly.journalRefused {s t : State} (h : StationOnly st s t) (who : Option Master) (cls target value : Nat) :
    StationJournaled st s (journalRefused who cls target value t) :=
  StationOnly.journal (t := (freeValue t).2) h who cls target value _

/-- An event of a station leaves the other fields of its page alone. -/
theorem offEvents_stn {g : Fld} (hg : fldOk g) (h : fldCode g ≠ fldCode Reg.comEvtSticky) : offEvents (Page.stn st) (Page.stn st) g :=
  ⟨hg, fun _ => h, fun e => absurd e (by cases st <;> decide)⟩

/-- A station's register reads after the journal's entry as before it. -/
theorem getR_journal_stn {g : Fld} (hg : fldOk g) (who : Option Master) (cls target value result : Nat) (s : State) :
    getR (journal who cls target value result s) (Page.stn st) g = getR s (Page.stn st) g :=
  getR_journal_page (stn_ne_jrnl st) hg who cls target value result s

theorem getR_journalRefused_stn {g : Fld} (hg : fldOk g) (who : Option Master) (cls target value : Nat) (s : State) :
    getR (journalRefused who cls target value s) (Page.stn st) g = getR s (Page.stn st) g :=
  getR_journal_stn hg who cls target value _ (freeValue s).2

theorem stationOf_journal (who : Option Master) (cls target value result : Nat) (s : State) :
    stationOf (journal who cls target value result s) st = stationOf s st := by
  cases st <;> simp [stationOf]

end

/-! ### The sticky bit of an event (R431) -/

theorem getR_lt (s : State) (p : Nat) (f : Fld) : getR s p f < 2 ^ f.width := Nat.mod_lt _ (Nat.two_pow_pos _)

theorem kindEvents_le (k : PageKind) : kindEvents k ≤ 16 := by
  cases k <;> decide

theorem getR_logEvent_sticky (src p : Nat) (s : State) : getR (logEvent src s) p Reg.comEvtSticky = getR s p Reg.comEvtSticky := by
  unfold logEvent incWrap
  dsimp only
  rw [getR_setR_other (fun _ => by decide) (by decide) (by decide), getR_event]

/-- Sticky bits are set where the page has their sources, and none is cleared. -/
theorem getR_setSticky_same (p mask : Nat) (s : State) :
    getR (setSticky p mask s) p Reg.comEvtSticky =
      getR s p Reg.comEvtSticky ||| (mask &&& (2 ^ kindEvents (kindOf p) - 1) &&& (getR s p Reg.comEvtSticky ^^^ 0xFFFF)) := by
  have ho : getR s p Reg.comEvtSticky < 2 ^ 16 := getR_lt s p Reg.comEvtSticky
  unfold setSticky raiseChanged
  dsimp only
  split
  · next h => rw [h, Nat.or_zero]
  · have hg : ∀ g u, getR (raiseGroup g u) p Reg.comEvtSticky = getR u p Reg.comEvtSticky := fun g u =>
      raiseGroup_keep (fun u => getR u p Reg.comEvtSticky) (fun _ _ => rfl) (fun _ _ => rfl) g u
    rw [forEach_keep (fun u => getR u p Reg.comEvtSticky) hg,
      forEach_keep (fun u => getR u p Reg.comEvtSticky) (fun i u => getR_logEvent_sticky _ p u), getR_setR_same]
    exact Nat.mod_eq_of_lt (Nat.or_lt_two_pow ho (Nat.lt_of_le_of_lt Nat.and_le_right (Nat.xor_lt_two_pow ho (by decide))))

/-- The sticky bit of a source that its page has stands after its event. -/
theorem raised_raiseEv {p i : Nat} (hi : i < kindEvents (kindOf p)) (s : State) : Raised p i (raiseEv p i s) := by
  have h16 : i < 16 := Nat.lt_of_lt_of_le hi (kindEvents_le _)
  have hb : (0xFFFF : Nat).testBit i = true := by
    rw [show (0xFFFF : Nat) = 2 ^ 16 - 1 from rfl, Nat.testBit_two_pow_sub_one]
    exact decide_eq_true h16
  unfold Raised raiseEv bit
  rw [getR_setSticky_same]
  simp only [Nat.testBit_or, Nat.testBit_and, Nat.testBit_xor, Nat.testBit_two_pow_self, Nat.testBit_two_pow_sub_one, hi, hb]
  cases (getR s p Reg.comEvtSticky).testBit i <;> rfl

/-- A station's page has every source of its table. -/
theorem lt_stnEvents {st : Side} {i : Nat} (h : i < Ev.stnCount) : i < kindEvents (kindOf (Page.stn st)) := by
  cases st <;> exact h

theorem flag_congr {s t : State} {p : Nat} {f : Fld} (h : getR t p f = getR s p f) : flag t p f = flag s p f := by
  unfold flag
  rw [h]

theorem flag_setFlag_same {f : Fld} (hf : f.width = 1) (p : Nat) (b : Bool) (s : State) : flag (setFlag p f b s) p f = b := by
  unfold flag setFlag
  rw [getR_setR_same, hf]
  cases b <;> rfl

/-! ### The commands (R144, R145) -/

section
variable (m : Master) (st : Side) (s : State)

theorem quarantine_guardedWrite :
    (stationOf (guardedWrite m (Page.stn st) 0x308 3 s) st).quarNext = true ∧
      StationJournaled st s (guardedWrite m (Page.stn st) 0x308 3 s) := by
  rw [guardedWrite_qcmd m st (by decide) s (refused := false) rfl, if_neg (by decide), stationOf_journal]
  exact ⟨by cases st <;> rfl, (stationOnly_quarantineCmd (stationOnly_qcmd 3 s)).journal _ _ _ _ _⟩

theorem disarm_guardedWrite :
    flag (guardedWrite m (Page.stn st) 0x308 2 s) (Page.stn st) Reg.stnStatusArmed = false ∧
      StationJournaled st s (guardedWrite m (Page.stn st) 0x308 2 s) := by
  rw [guardedWrite_qcmd m st (by decide) s (refused := false) rfl, if_neg (by decide), flag_congr (getR_journal_stn (by decide) _ _ _ _ _ _)]
  exact ⟨flag_setFlag_same rfl _ _ _, (stationOnly_setR (by decide) _ (stationOnly_qcmd 2 s)).journal _ _ _ _ _⟩

/-- The command itself moves neither the cycle number nor OPEN_CYCLE. -/
theorem cycleNow_qcmd (v : Nat) : cycleNow (setR (Page.stn st) Reg.stnQcmd v s) = cycleNow s :=
  cycleNow_congr (stationOnly_qcmd v s).1 (stair_not_mem_stn st) (upd_not_mem_stn st) (by simp)

theorem openCycle_qcmd (v : Nat) : openCycle (setR (Page.stn st) Reg.stnQcmd v s) st = openCycle s st := by
  unfold openCycle getPair
  rw [getR_setR_field (by decide), getR_setR_field (by decide)]

theorem armOpen_guardedWrite_accepted (h : cycleNow s + 2 ≤ openCycle s st) :
    flag (guardedWrite m (Page.stn st) 0x308 1 s) (Page.stn st) Reg.stnStatusArmed = true ∧
      StationJournaled st s (guardedWrite m (Page.stn st) 0x308 1 s) := by
  have e : stationCommand st 1 (setR (Page.stn st) Reg.stnQcmd 1 s) =
      (setFlag (Page.stn st) Reg.stnStatusArmed true (setR (Page.stn st) Reg.stnQcmd 1 s), endIf false) := by
    simp only [stationCommand, armOpen, armRefused, cycleNow_qcmd, openCycle_qcmd, Nat.not_lt.mpr h, if_false, decide_false]
  rw [guardedWrite_qcmd m st (by decide) s e, if_neg (by decide), flag_congr (getR_journal_stn (by decide) _ _ _ _ _ _)]
  exact ⟨flag_setFlag_same rfl _ _ _, (stationOnly_setR (by decide) _ (stationOnly_qcmd 1 s)).journal _ _ _ _ _⟩

theorem armOpen_guardedWrite_refused (h : openCycle s st < cycleNow s + 2) :
    flag (guardedWrite m (Page.stn st) 0x308 1 s) (Page.stn st) Reg.stnStatusArmed = flag s (Page.stn st) Reg.stnStatusArmed ∧
      Raised (Page.stn st) Ev.stnOpenFail (guardedWrite m (Page.stn st) 0x308 1 s) ∧
      StationJournaled st s (guardedWrite m (Page.stn st) 0x308 1 s) := by
  have e : stationCommand st 1 (setR (Page.stn st) Reg.stnQcmd 1 s) =
      (raiseEv (Page.stn st) Ev.stnOpenFail (setR (Page.stn st) Reg.stnQcmd 1 s), endIf true) := by
    simp only [stationCommand, armOpen, armRefused, cycleNow_qcmd, openCycle_qcmd, h, if_true, decide_true]
  rw [guardedWrite_qcmd m st (by decide) s e, if_pos rfl]
  refine ⟨?_, ?_, (stationOnly_raiseEv _ (stationOnly_qcmd 1 s)).journalRefused _ _ _ _⟩
  · refine flag_congr ?_
    rw [getR_journalRefused_stn (by decide), getR_raiseEv (offEvents_stn (by decide) (by decide)), getR_setR_field (by decide)]
  · unfold Raised
    rw [getR_journalRefused_stn (by decide)]
    exact raised_raiseEv (lt_stnEvents (by decide)) _

end

theorem completes_qcmd {c : Instr} {s : State} {m : Master} {st : Side} {v : Nat} {P : State → Prop}
    (h : Granted s m .guarded (Page.stn st) 0x308) (hv : v < 256) (e : exec c s = alive s (regGuarded m (Page.stn st) 0x308 v s))
    (hi : ∀ t o q, P t → P { t with sent := o, pending := q }) (hP : ∀ o, P (guardedWrite m (Page.stn st) 0x308 v { s with sent := o })) :
    Completes c s P :=
  completes_guarded h (by cases st <;> decide) (by decide) (by decide) (by decide) (by omega) e hi hP

/-- Settles O13: QCMD is stored, its command acts on the station alone, and its entry goes to the journal. -/
theorem stationRegisterCommands : Obligations.StationRegisterCommands := fun s m st h =>
  ⟨completes_qcmd h (v := 3) (by decide) rfl (fun _ _ _ ht => ht) fun o => quarantine_guardedWrite m st { s with sent := o },
   fun ha => completes_qcmd h (v := 1) (by decide) rfl (fun _ _ _ ht => ht) fun o => armOpen_guardedWrite_accepted m st { s with sent := o } ha,
   fun ha => completes_qcmd h (v := 1) (by decide) rfl (fun _ _ _ ht => ht) fun o => armOpen_guardedWrite_refused m st { s with sent := o } ha,
   completes_qcmd h (v := 2) (by decide) rfl (fun _ _ _ ht => ht) fun o => disarm_guardedWrite m st { s with sent := o }⟩

end Sys2Proof.Machine
end

section
/-!
PROOFS. The transmit path: what sending the items of a gallery changes and what it leaves alone (R55–R57, R72, R120, R130, R137).
-/

namespace Sys2Proof.Machine

/-! ### Fields that sending writes -/

/-- The fields of a page that sending writes: width, announced width, lane states and events of a LANE page, CARRY_CNT of a station, LOG_SEQ. -/
def sentFields (p : Nat) : List Fld :=
  if p = Page.lane .east ∨ p = Page.lane .west then
    [Reg.comEvtSticky, Reg.lanePortCfgWidth, Reg.lanePortCfgWidthNext] ++ (List.range 4).map Reg.laneLLstatusState
  else if p = Page.stn .east ∨ p = Page.stn .west then [Reg.stnCarryCnt]
  else if p = Page.evt then [Reg.evtLogSeq] else []

/-- A field that sending leaves alone. -/
abbrev offSending (q : Nat) (g : Fld) : Prop := fldOk g ∧ ∀ f ∈ sentFields q, fldCode g ≠ fldCode f

theorem sentFields_lane (p : Side) :
    sentFields (Page.lane p) = [Reg.comEvtSticky, Reg.lanePortCfgWidth, Reg.lanePortCfgWidthNext] ++ (List.range 4).map Reg.laneLLstatusState := by
  cases p <;> rfl

theorem laneState_mem_sentFields (p : Side) {n : Nat} (h : n < 4) : Reg.laneLLstatusState n ∈ sentFields (Page.lane p) := by
  rw [sentFields_lane]
  exact List.mem_append_right _ (List.mem_map_of_mem (List.mem_range.mpr h))

theorem sentFields_ok {p : Nat} : ∀ f ∈ sentFields p, fldOk f := by
  unfold sentFields
  split
  · decide
  · split
    · decide
    · split <;> decide

/-! ### Frames -/

/-- What sending leaves alone in the state: the other register fields, memory, the Staircases and the life-cycle. -/
structure SendFrame (s t : State) : Prop where
  regs : ∀ q g, offSending q g → getR t q g = getR s q g
  memory : SameMemory s t
  stair : t.stair = s.stair
  key : t.key = s.key

/-- The same, and the stations stand as before: what happens on the lanes of a port. -/
structure LineFrame (s t : State) : Prop extends SendFrame s t where
  station : ∀ st, stationOf t st = stationOf s st

theorem SendFrame.refl (s : State) : SendFrame s s := ⟨fun _ _ _ => rfl, .rfl' s, rfl, rfl⟩

theorem SendFrame.trans {s t u : State} (h : SendFrame s t) (k : SendFrame t u) : SendFrame s u :=
  ⟨fun q g hg => (k.regs q g hg).trans (h.regs q g hg), h.memory.trans k.memory, k.stair.trans h.stair, k.key.trans h.key⟩

theorem SendFrame.setStation {s t : State} (h : SendFrame s t) (st : Side) (v : StationState) : SendFrame s (setStation st v t) := by
  cases st <;> exact ⟨h.regs, h.memory, h.stair, h.key⟩

theorem LineFrame.refl (s : State) : LineFrame s s := ⟨.refl s, fun _ => rfl⟩

theorem LineFrame.trans {s t u : State} (h : LineFrame s t) (k : LineFrame t u) : LineFrame s u :=
  ⟨h.toSendFrame.trans k.toSendFrame, fun st => (k.station st).trans (h.station st)⟩

theorem stationOf_congr {s t : State} (h : t.stnE = s.stnE ∧ t.stnW = s.stnW) (st : Side) : stationOf t st = stationOf s st := by
  cases st
  · exact h.1
  · exact h.2

theorem SendFrame.setR {s t : State} (h : SendFrame s t) {p : Nat} {f : Fld} (hf : f ∈ sentFields p) (v : Nat) : SendFrame s (setR p f v t) :=
  h.trans ⟨fun q g hg => getR_setR_other (fun e => hg.2 f (by rw [e]; exact hf)) (sentFields_ok f hf) hg.1 v t,
    sameMemory_of (by simp), by simp, by simp⟩

namespace LineFrame

theorem forEach {α : Type} {f : α → State → State} {s : State} :
    ∀ {xs : List α} {t : State}, LineFrame s t → (∀ x ∈ xs, ∀ u, LineFrame u (f x u)) → LineFrame s (forEach xs f t)
  | [], _, h, _ => h
  | x :: xs, t, h, hf => forEach (xs := xs) (t := f x t) (h.trans (hf x List.mem_cons_self t)) fun y hy => hf y (List.mem_cons_of_mem x hy)

section
variable {s t : State} (h : LineFrame s t)
include h

theorem setR {p : Nat} {f : Fld} (hf : f ∈ sentFields p) (v : Nat) : LineFrame s (setR p f v t) :=
  ⟨h.toSendFrame.setR hf v, fun st => (stationOf_congr (by simp) st).trans (h.station st)⟩

theorem setPort (p : Side) (v : PortState) : LineFrame s (setPort p v t) := by
  cases p <;> exact ⟨⟨h.regs, h.memory, h.stair, h.key⟩, h.station⟩

theorem setLane (p : Side) (n : Nat) (v : LaneState) : LineFrame s (setLane p n v t) := h.setPort p _

theorem emit (o : Sent) : LineFrame s (emit o t) := ⟨⟨h.regs, h.memory, h.stair, h.key⟩, h.station⟩

theorem raiseIf_lane (p : Side) (b : Bool) (i : Nat) : LineFrame s (raiseIf b (Page.lane p) i t) := by
  refine h.trans ⟨⟨fun q g hg => getR_raiseIf ⟨hg.1, fun e => ?_, fun e => ?_⟩ b i t, sameMemory_of (by simp), by simp, by simp⟩,
    fun st => stationOf_congr (by simp) st⟩
  · exact hg.2 _ (by rw [e, sentFields_lane]; decide)
  · exact hg.2 _ (by rw [e]; decide)

theorem whenS {f : State → State} (b : Bool) (hf : LineFrame s (f t)) : LineFrame s (whenS b f t) := by
  cases b
  · exact h
  · exact hf

/-! ### Lanes and stripes -/

theorem sendGroup (p : Side) (n w : Nat) : LineFrame s (sendGroup p n w t) := (h.setLane p n _).emit _

theorem laneData (p : Side) (sync payload n : Nat) : LineFrame s (laneData p sync payload n t) :=
  h.whenS _ ((h.setLane p n _).sendGroup p n _)

theorem laneMarker (p : Side) (n : Nat) : LineFrame s (laneMarker p n t) :=
  h.whenS _ ((h.setLane p n _).sendGroup p n _)

theorem laneDatas (p : Side) (sync payload : Nat) (ns : List Nat) : LineFrame s (Machine.forEach ns (Machine.laneData p sync payload) t) :=
  h.forEach fun n _ u => (refl u).laneData p sync payload n

theorem fillerStripe (p : Side) : LineFrame s (fillerStripe p t) := (h.laneDatas p _ _ _).setPort p _

theorem markerOut (p : Side) : LineFrame s (markerOut p t) := (h.forEach fun n _ u => (refl u).laneMarker p n).setPort p _

theorem closeStripe (p : Side) : LineFrame s (closeStripe p t) := by
  unfold Machine.closeStripe
  split
  · exact h
  · exact (h.laneDatas p _ _ _).setPort p _

theorem sendRiser (p : Side) (fill : Nat) : LineFrame s (sendRiser p fill t) :=
  ((h.closeStripe p).markerOut p).forEach fun _ _ u => (refl u).fillerStripe p

theorem sendBlock (p : Side) (sync payload : Nat) : LineFrame s (sendBlock p sync payload t) := by
  unfold Machine.sendBlock
  dsimp only
  split
  · exact (h.laneData p _ _ _).setPort p _
  · exact ((h.laneData p _ _ _).laneDatas p _ _ _).setPort p _

/-! ### Parking and exit -/

theorem setLaneState (p : Side) {n : Nat} (hn : n < 4) (v : Nat) : LineFrame s (setLaneState p n v t) :=
  h.setR (laneState_mem_sentFields p hn) v

theorem beginPark (p : Side) (n : Nat) (deep : Bool) : LineFrame s (beginPark p n deep t) := by
  unfold Machine.beginPark
  dsimp only
  split
  · exact h.setLane p n _
  · exact h

theorem leavePark (p : Side) {n : Nat} (hn : n < 4) : LineFrame s (leavePark p n t) := by
  unfold Machine.leavePark
  split
  · exact (h.setLaneState p hn _).setLane p n _
  · split
    · exact h.setLane p n _
    · exact h

theorem requestExit (p : Side) {n : Nat} (hn : n < 4) : LineFrame s (requestExit p n t) := by
  unfold Machine.requestExit
  split
  · exact h.setLane p n _
  · exact h.leavePark p hn

theorem wakeLanes (p : Side) (width : Nat) : LineFrame s (wakeLanes p width t) := by
  have hw : widthLanes width ≤ 4 := by
    unfold widthLanes
    split
    · decide
    · split <;> decide
  exact h.forEach fun n hn u => (refl u).requestExit p (Nat.lt_of_lt_of_le (List.mem_range.mp hn) hw)

theorem parkLanes (p : Side) (lo hi : Nat) (deep : Bool) : LineFrame s (parkLanes p lo hi deep t) :=
  h.forEach fun n _ u => (refl u).beginPark p n deep

theorem setTxWidth (p : Side) (width : Nat) (deep : Bool) : LineFrame s (setTxWidth p width deep t) :=
  ((h.raiseIf_lane p _ _).setR (by rw [sentFields_lane]; decide) _).parkLanes p _ _ _

theorem leadWidth (st : Side) (m : Memory) (f : Nat) : LineFrame s (leadWidth st m f t) := h.setTxWidth _ _ _

theorem announceLanes (f : Nat) : LineFrame s (announceLanes f t) :=
  h.forEach fun p _ u => (((refl u).setR (by rw [sentFields_lane]; decide) _).wakeLanes p _).parkLanes p _ _ _

end

end LineFrame

/-! ### Sending the items of a gallery -/

/-- What sending the items of a station's gallery leaves alone in the station: the gallery, and the blocks among its items. -/
structure SameGallery (v w : StationState) : Prop where
  pendingCycle : w.pendingCycle = v.pendingCycle
  sendCycle : w.sendCycle = v.sendCycle
  blocks : ∀ k b, OutItem.block k b ∈ v.out → OutItem.block k b ∈ w.out

theorem SameGallery.refl (v : StationState) : SameGallery v v := ⟨rfl, rfl, fun _ _ h => h⟩

theorem SameGallery.trans {v w x : StationState} (h : SameGallery v w) (k : SameGallery w x) : SameGallery v x :=
  ⟨k.pendingCycle.trans h.pendingCycle, k.sendCycle.trans h.sendCycle, fun n b hb => k.blocks n b (h.blocks n b hb)⟩

@[simp] theorem stationOf_setStation (st : Side) (v : StationState) (s : State) : stationOf (setStation st v s) st = v := by
  cases st <;> rfl

/-- A frame of sending with the gallery of one station. -/
structure PumpFrame (st : Side) (s t : State) : Prop extends SendFrame s t where
  gallery : SameGallery (stationOf s st) (stationOf t st)

namespace PumpFrame
variable {st : Side} {s t u : State}

theorem refl (st : Side) (s : State) : PumpFrame st s s := ⟨.refl s, .refl _⟩

theorem trans (h : PumpFrame st s t) (k : PumpFrame st t u) : PumpFrame st s u :=
  ⟨h.toSendFrame.trans k.toSendFrame, h.gallery.trans k.gallery⟩

theorem setStation (h : PumpFrame st s t) {v : StationState} (hv : SameGallery (stationOf t st) v) : PumpFrame st s (setStation st v t) :=
  ⟨h.toSendFrame.setStation st v, by rw [stationOf_setStation]; exact h.gallery.trans hv⟩

theorem line (h : PumpFrame st s t) (k : LineFrame t u) : PumpFrame st s u :=
  ⟨h.toSendFrame.trans k.toSendFrame, by rw [k.station]; exact h.gallery⟩

end PumpFrame

theorem stationOf_incCnt (p : Nat) (f : Fld) (s : State) (st : Side) : stationOf (incCnt p f s) st = stationOf s st :=
  stationOf_congr (by simp) st

theorem PumpFrame.incCarry {st : Side} {s t : State} (h : PumpFrame st s t) :
    PumpFrame st s (incCnt (Page.stn st) Reg.stnCarryCnt t) :=
  ⟨h.toSendFrame.setR (by cases st <;> decide) _, by rw [stationOf_incCnt]; exact h.gallery⟩

/-- The decision of a THROUGH tread keeps its tag and counts it; the items stand as before. -/
theorem decideThrough_frame (st : Side) (m : Memory) (f c tr : Nat) (s : State) :
    PumpFrame st s (decideThrough st m f c tr s).2 ∧ (stationOf (decideThrough st m f c tr s).2 st).out = (stationOf s st).out := by
  unfold decideThrough
  split
  · dsimp only
    rw [stationOf_incCnt, stationOf_setStation]
    refine ⟨(PumpFrame.setStation (.refl st s) ?_).incCarry, rfl⟩
    exact ⟨rfl, rfl, fun _ _ h => h⟩
  · exact ⟨.refl st s, rfl⟩

/-- Replacing an item that is no block leaves the blocks. -/
theorem block_mem_set {out : List OutItem} {i k b tr : Nat} (hi : out[i]? = some (.through tr)) (item : OutItem) (hb : OutItem.block k b ∈ out) :
    OutItem.block k b ∈ out.set i item := by
  obtain ⟨j, hj⟩ := List.mem_iff_getElem?.mp hb
  have hne : i ≠ j := by
    rintro rfl
    rw [hi] at hj
    cases hj
  exact List.mem_iff_getElem?.mpr ⟨j, by rw [List.getElem?_set_ne hne, hj]⟩

theorem nextItem_frame {st : Side} {m : Memory} {s u : State} {item : OutItem} (h : nextItem st m s = some (item, u)) : PumpFrame st s u := by
  unfold nextItem at h
  dsimp only at h
  split at h
  · next tr htr =>
    obtain ⟨hf, ho⟩ := decideThrough_frame st m (stationOf s st).sendFlight (stationOf s st).sendCycle tr s
    cases h
    refine hf.setStation ⟨rfl, rfl, fun k b hb => ?_⟩
    exact block_mem_set (by rw [ho]; exact htr) _ hb
  · cases h
    exact .refl st s
  · cases h

theorem putItem_frame (st : Side) (item : OutItem) (blocks : List (Nat × Nat)) (s : State) : PumpFrame st s (putItem st item blocks s) := by
  unfold putItem
  dsimp only
  split
  · refine (PumpFrame.setStation (.refl st s) ?_).line ((LineFrame.refl _).sendRiser _ _)
    exact ⟨rfl, rfl, fun _ _ h => h⟩
  · refine (PumpFrame.setStation (.refl st s) ?_).line ((LineFrame.refl _).forEach fun b _ u => (LineFrame.refl u).sendBlock _ _ _)
    exact ⟨rfl, rfl, fun _ _ h => h⟩

theorem pumpItems_frame (st : Side) (m : Memory) : ∀ (n : Nat) (s : State), PumpFrame st s (pumpItems st m n s)
  | 0, s => .refl st s
  | n + 1, s => by
    unfold pumpItems
    split
    · exact .refl st s
    · split
      · exact .refl st s
      · next item u hu =>
        split
        · exact .refl st s
        · next bs _ => exact ((nextItem_frame hu).trans (putItem_frame st item bs u)).trans (pumpItems_frame st m n _)

theorem pump_frame (st : Side) (s : State) : PumpFrame st s (pump st s) := pumpItems_frame st _ _ s

end Sys2Proof.Machine
end

section
/-!
PROOFS. Producing a gallery from position 0, and the completions of a station (R116, R136–R138).
-/

namespace Sys2Proof.Machine

/-! ### Producing a gallery -/

theorem noteCarried_frame (c f : Nat) (s : State) : LineFrame s (noteCarried c f s) := by
  unfold noteCarried
  split
  · exact .refl s
  · exact ⟨⟨fun _ _ _ => rfl, fun _ => ⟨rfl, rfl, rfl, rfl, rfl, rfl, rfl⟩, rfl, rfl⟩, fun st => by cases st <;> rfl⟩

theorem recordStamp_frame (c : Nat) (p : Side) (dep : Bool) (v : Int) (s : State) : LineFrame s (recordStamp c p dep v s) :=
  ⟨⟨fun _ _ _ => rfl, .rfl' s, rfl, rfl⟩, fun st => by cases st <;> rfl⟩

/-- What sending leaves alone holds what the link and the port are open by (R51, R140, R144). -/
theorem canSend_frame {s t : State} (h : SendFrame s t) (st : Side) : canSend t st = canSend s st := by
  have ho : portOpen t (txPort st) = portOpen s (txPort st) := flag_congr (h.regs _ _ (by cases st <;> decide))
  have hl : linkUp t (txPort st) = linkUp s (txPort st) := flag_congr (h.regs _ _ (by cases st <;> decide))
  have hf : pageFenced t (Page.stn st) = pageFenced s (Page.stn st) := flag_congr (h.regs _ _ (by cases st <;> decide))
  unfold canSend portOpenUp
  rw [ho, hl, hf]

theorem staircaseActs_frame {s t : State} (h : SendFrame s t) : staircaseActs t = staircaseActs s :=
  staircaseActs_congr (h.regs _ _ (by decide)) (h.regs _ _ (by decide)) h.key

theorem pump_setStation_frame (st : Side) (v : StationState) (s : State) :
    SendFrame s (pump st (setStation st v s)) ∧ SameGallery v (stationOf (pump st (setStation st v s)) st) := by
  have h := pump_frame st (setStation st v s)
  exact ⟨((SendFrame.refl s).setStation st v).trans h.toSendFrame, by simpa only [stationOf_setStation] using h.gallery⟩

/-- A station that begins to send a gallery sends that cycle's, with the blocks among its items. -/
theorem beginSend_frame (st : Side) (c f start until_ : Nat) (timed : Bool) (items : List OutItem) (n : Nat) (s : State) :
    SendFrame s (beginSend st c f start until_ timed items n s) ∧
      (stationOf (beginSend st c f start until_ timed items n s) st).pendingCycle = (stationOf s st).pendingCycle ∧
      (stationOf (beginSend st c f start until_ timed items n s) st).sendCycle = c ∧
      ∀ k b, OutItem.block k b ∈ items → OutItem.block k b ∈ (stationOf (beginSend st c f start until_ timed items n s) st).out := by
  unfold beginSend
  dsimp only
  obtain ⟨hf, hg⟩ := pump_setStation_frame st { stationOf s st with
    sending := true, sendCycle := c, sendFlight := f, sendPos := 0, sendEnd := until_, cursor := n, start := start, timed := timed, out := items } s
  exact ⟨hf, hg.pendingCycle, hg.sendCycle, hg.blocks⟩

/-- A gallery from position 0 starts with its GALLERY START (R116). -/
theorem galleryStart_mem (s : State) (st : Side) (m : Memory) (f c origin : Nat) (completer : Option Nat) :
    .block 2 (galleryStartBlock s st m f c origin) ∈ galleryItems s st m f c 0 origin completer := by
  unfold galleryItems
  simp

/-- The state in which a station begins to send a gallery produced from position 0: its cycle is no longer pending, it counts as carried (R98), and
the port has the gallery's width and wakes the lanes of an announced flight (R41, R57). -/
def leadGallery (st : Side) (c f : Nat) (s : State) : State :=
  s |> setStation st { stationOf s st with pendingCycle := max (stationOf s st).pendingCycle (c + 1) } |> noteCarried c f
    |> leadWidth st (bankFor s c) f |> whenS (c % 2 = 0) (announceLanes (announcedFlight s f c))

theorem produce_zero (st : Side) (c f start origin : Nat) (completer : Option Nat) (s : State) :
    produce st c f 0 start origin completer s =
      (let t := leadGallery st c f s
       if sendsCycle t st c then
        beginSend st c f start (galleryEndNs (bankFor s c) f (dirWest st) start) true (galleryItems s st (bankFor s c) f c 0 origin completer) 0
          (recordStamp c (txPort st) true (16 * ((start : Int) - (c * period t : Nat))) t)
       else t) := by
  have hpos : ∀ u, whenS (decide ((0 : Nat) = 0)) (leadWidth st (bankFor s c) f) u = leadWidth st (bankFor s c) f u := fun _ => rfl
  have hann : ∀ b u, whenS (decide ((0 : Nat) = 0) && b) (announceLanes (announcedFlight s f c)) u =
    whenS b (announceLanes (announcedFlight s f c)) u := fun _ _ => rfl
  unfold produce leadGallery
  dsimp only
  rw [if_neg (not_not_intro rfl), hpos, hann]
  generalize whenS (decide (c % 2 = 0)) _ _ = t
  cases sendsCycle t st c <;> rfl

theorem leadGallery_frame (st : Side) (c f : Nat) (s : State) : SendFrame s (leadGallery st c f s) ∧
    stationOf (leadGallery st c f s) st = { stationOf s st with pendingCycle := max (stationOf s st).pendingCycle (c + 1) } := by
  have hl : ∀ u, LineFrame u
      (whenS (c % 2 = 0) (announceLanes (announcedFlight s f c)) (leadWidth st (bankFor s c) f (noteCarried c f u))) := fun u =>
    have h := (noteCarried_frame c f u).leadWidth st (bankFor s c) f
    h.whenS _ (h.announceLanes _)
  have h := hl (setStation st { stationOf s st with pendingCycle := max (stationOf s st).pendingCycle (c + 1) } s)
  exact ⟨((SendFrame.refl s).setStation st _).trans h.toSendFrame, (h.station st).trans (stationOf_setStation st _ s)⟩

/-- A gallery produced from position 0: the next cycle is pending, and the gallery is sent where the station sends galleries of its cycle. -/
theorem produce_frame (st : Side) (c f start origin : Nat) (completer : Option Nat) (s : State) :
    SendFrame s (produce st c f 0 start origin completer s) ∧
      (stationOf (produce st c f 0 start origin completer s) st).pendingCycle = max (stationOf s st).pendingCycle (c + 1) ∧
      (sendsCycle s st c = true → (stationOf (produce st c f 0 start origin completer s) st).sendCycle = c ∧
        .block 2 (galleryStartBlock s st (bankFor s c) f c origin) ∈ (stationOf (produce st c f 0 start origin completer s) st).out) := by
  obtain ⟨hf, hst⟩ := leadGallery_frame st c f s
  have hsends : sendsCycle (leadGallery st c f s) st c = sendsCycle s st c := by
    unfold sendsCycle
    rw [canSend_frame hf, hst]
  rw [produce_zero]
  dsimp only
  rw [hsends]
  split
  · generalize hu : recordStamp c (txPort st) true _ (leadGallery st c f s) = u
    have hr : LineFrame (leadGallery st c f s) u := hu ▸ recordStamp_frame c (txPort st) true _ _
    obtain ⟨hb, hpend, hcyc, hblocks⟩ := beginSend_frame st c f start (galleryEndNs (bankFor s c) f (dirWest st) start) true
      (galleryItems s st (bankFor s c) f c 0 origin completer) 0 u
    refine ⟨(hf.trans hr.toSendFrame).trans hb, ?_, fun _ => ⟨hcyc, hblocks _ _ (galleryStart_mem s st _ f c origin completer)⟩⟩
    rw [hpend, hr.station, hst]
  · next hc => exact ⟨hf, by rw [hst], fun h => absurd h hc⟩

/-! ### Completions (R136, R138) -/

section
variable (st : Side) (s : State)

theorem shownRole_setRole {r : Nat} (hr : r < 8) : shownRole (setRole st r s) st = r := by
  unfold setRole shownRole
  dsimp only
  rw [getR_raiseIf (offEvents_stn (by decide) (by decide)), getR_setR_same]
  exact Nat.mod_eq_of_lt hr

theorem getR_setRole {g : Fld} (hg : fldOk g) (hr : fldCode g ≠ fldCode Reg.stnStatusRole) (he : fldCode g ≠ fldCode Reg.comEvtSticky) (r : Nat) :
    getR (setRole st r s) (Page.stn st) g = getR s (Page.stn st) g := by
  unfold setRole
  dsimp only
  rw [getR_raiseIf (offEvents_stn hg he), getR_setR_field hr]

theorem stationOnly_setRole (r : Nat) : StationOnly st s (setRole st r s) := by
  have h : StationOnly st s (setR (Page.stn st) Reg.stnStatusRole r s) := stationOnly_setR (by decide) r ⟨.refl _ _, .rfl' _⟩
  unfold setRole raiseIf
  dsimp only
  split
  · exact stationOnly_raiseEv _ h
  · exact h

/-- A counter counts one more (R64). -/
theorem counted_incCnt (p : Nat) (f : Fld) : Counted p f s (incCnt p f s) := by
  unfold Counted incCnt addCnt
  rw [getR_setR_same]
  exact Nat.mod_eq_of_lt (Nat.lt_of_le_of_lt (Nat.min_le_right _ _) (Nat.sub_lt (Nat.two_pow_pos _) (by decide)))

/-- COMPLETER is taken, counted and told (R138). -/
def noteCompletion : State :=
  s |> setRole st roleCompleter |> incCnt (Page.stn st) Reg.stnCompleteCnt |> raiseEv (Page.stn st) Ev.stnCompleted

theorem completePending_eq (start : Nat) : completePending st start s =
    noteCompletion st (produce st (stationOf s st).pendingCycle (flightFor s (stationOf s st).pendingCycle) 0 start
      (completionOrigin s st (bankFor s (stationOf s st).pendingCycle)) (some (nodeId s)) s) := rfl

theorem noteCompletion_only : StationOnly st s (noteCompletion st s) :=
  stationOnly_raiseEv _ (stationOnly_setR (by decide) _ (stationOnly_setRole st s roleCompleter))

theorem noteCompletion_rest : (noteCompletion st s).key = s.key ∧ stationOf (noteCompletion st s) st = stationOf s st :=
  ⟨by simp [noteCompletion, setRole], stationOf_congr (by simp [noteCompletion, setRole]) st⟩

theorem noteCompletion_role : shownRole (noteCompletion st s) st = roleCompleter := by
  unfold noteCompletion shownRole
  rw [getR_raiseEv (offEvents_stn (by decide) (by decide)), incCnt, addCnt, getR_setR_field (by decide)]
  exact shownRole_setRole st s (by decide)

theorem noteCompletion_counted : Counted (Page.stn st) Reg.stnCompleteCnt s (noteCompletion st s) := by
  have h := counted_incCnt (setRole st roleCompleter s) (Page.stn st) Reg.stnCompleteCnt
  unfold Counted at h ⊢
  rw [noteCompletion, getR_raiseEv (offEvents_stn (by decide) (by decide)), h, getR_setRole st s (by decide) (by decide) (by decide)]

theorem noteCompletion_raised : Raised (Page.stn st) Ev.stnCompleted (noteCompletion st s) :=
  raised_raiseEv (lt_stnEvents (by decide)) _

end

/-- What a completed gallery of station `st` shows in a later state, its pending cycle being that of the state before. -/
def GalleryCompleted (s : State) (st : Side) (t : State) : Prop :=
  let c := (stationOf s st).pendingCycle
  roleOf t st = roleCompleter ∧ Counted (Page.stn st) Reg.stnCompleteCnt s t ∧ Raised (Page.stn st) Ev.stnCompleted t ∧
    (stationOf t st).pendingCycle = c + 1 ∧
    (sendsCycle s st c = true → (stationOf t st).sendCycle = c ∧
      .block 2 (galleryStartBlock s st (bankFor s c) (flightFor s c) c (completionOrigin s st (bankFor s c))) ∈ (stationOf t st).out) ∧
    SameMemory s t

theorem completePending_completed (st : Side) (start : Nat) {s : State} (ha : staircaseActs s = true) :
    GalleryCompleted s st (completePending st start s) := by
  let c := (stationOf s st).pendingCycle
  let u := produce st c (flightFor s c) 0 start (completionOrigin s st (bankFor s c)) (some (nodeId s)) s
  rw [completePending_eq]
  change GalleryCompleted s st (noteCompletion st u)
  obtain ⟨hf, hpend, hsend⟩ : SendFrame s u ∧ (stationOf u st).pendingCycle = max c (c + 1) ∧ _ := produce_frame st c _ start _ _ s
  obtain ⟨hregs, hmem⟩ := noteCompletion_only st u
  obtain ⟨hkey, hst⟩ := noteCompletion_rest st u
  have hcnt : getR u (Page.stn st) Reg.stnCompleteCnt = getR s (Page.stn st) Reg.stnCompleteCnt := hf.regs _ _ (by cases st <;> decide)
  have hacts : staircaseActs (noteCompletion st u) = true := by
    rw [staircaseActs_congr (hregs _ (stair_not_mem_stn st) _ (by decide +kernel)) (hregs _ (upd_not_mem_stn st) _ (by decide +kernel)) hkey,
      staircaseActs_frame hf, ha]
  refine ⟨?_, ?_, noteCompletion_raised st u, ?_, ?_, hf.memory.trans hmem⟩
  · rw [roleOf, if_pos hacts, noteCompletion_role]
  · rw [Counted, ← hcnt]
    exact noteCompletion_counted st u
  · rw [hst, hpend, Nat.max_eq_right (Nat.le_succ c)]
  · rw [hst]
    exact hsend

/-! ### When the window and the slot time complete (R136, R138) -/

section
variable {st : Side} {s : State}

theorem windowClose_completes (ha : staircaseActs s = true) (hr : forwardsRole (roleOf s st) = true) (hp : portOpenUp s (rxPort st) = true) :
    ∃ start, windowClose st s = completePending st start s := by
  unfold windowClose
  rw [ha, hr, hp]
  exact ⟨_, rfl⟩

theorem windowClose_eq_self (h : staircaseActs s = false ∨ forwardsRole (roleOf s st) = false ∨ portOpenUp s (rxPort st) = false) :
    windowClose st s = s := by
  have hb : (staircaseActs s && forwardsRole (roleOf s st) && portOpenUp s (rxPort st)) = false := by
    simpa only [Bool.and_eq_false_iff, or_assoc] using h
  unfold windowClose
  rw [hb]
  rfl

theorem slotTime_completes (ha : staircaseActs s = true)
    (h : (forwardsRole (roleOf s st) = true ∧ portOpenUp s (rxPort st) = false) ∨ roleOf s st = roleCompleter) :
    ∃ start, slotTime st s = completePending st start s := by
  have hb : ((forwardsRole (roleOf s st) && !portOpenUp s (rxPort st)) || decide (roleOf s st = roleCompleter)) = true := by
    simpa only [Bool.or_eq_true, Bool.and_eq_true, Bool.not_eq_true', decide_eq_true_eq] using h
  unfold slotTime
  dsimp only
  rw [ha, hb]
  exact ⟨_, rfl⟩

theorem slotTime_eq_self
    (h : staircaseActs s = false ∨ (roleOf s st ≠ roleCompleter ∧ (forwardsRole (roleOf s st) = false ∨ portOpenUp s (rxPort st) = true))) :
    slotTime st s = s := by
  unfold slotTime
  dsimp only
  rcases h with ha | h
  · rw [ha]
    rfl
  · have hb : ((forwardsRole (roleOf s st) && !portOpenUp s (rxPort st)) || decide (roleOf s st = roleCompleter)) = false := by
      simpa only [Bool.or_eq_false_iff, Bool.and_eq_false_iff, Bool.not_eq_false', decide_eq_false_iff_not, and_comm] using h
    rw [hb]
    exact ite_self s

end

/-- A command whose effect is the state itself changes nothing. -/
theorem exec_unchanged {c : Instr} {s t : State} (h : Running s) (e : exec c s = alive s t) (ht : t = s) : exec c s = .next s := by
  rw [e, ht]
  unfold alive answer
  rw [h]
  rfl

theorem completes_completePending {c : Instr} {s t : State} {st : Side} (h : Running s) (ha : staircaseActs s = true)
    (e : exec c s = alive s t) (ht : ∃ start, t = completePending st start s) : Completes c s (GalleryCompleted s st) := by
  obtain ⟨start, rfl⟩ := ht
  have hd : ∀ u q, GalleryCompleted s st u → GalleryCompleted s st { u with pending := q } := fun u q hu => by
    cases st <;> exact hu
  exact completes_alive h e (hd _ _ (completePending_completed st start ha))

/-- Settles O12: a window or a slot time that applies completes the pending gallery, and one that does not changes nothing. -/
theorem stationCompletions : Obligations.StationCompletions := fun _ _ hrun =>
  ⟨fun ha hr hp => completes_completePending hrun ha rfl (windowClose_completes ha hr hp),
   fun ha hc => completes_completePending hrun ha rfl (slotTime_completes ha hc),
   fun h => exec_unchanged hrun rfl (windowClose_eq_self h),
   fun h => exec_unchanged hrun rfl (slotTime_eq_self h)⟩

end Sys2Proof.Machine
end
